-- ==== Sys2Proof/Word.lean ====
section
/-!
DEFINITION. The plain words of the C2 model: bytes, register words, grid words, and the sparse table in which
every large array of the part is held.
-/

namespace Sys2Proof

/-- One byte; every multi-byte field is little-endian (R8). -/
abbrev Byte := BitVec 8

/-- A 64-bit register of the BAR0 map (R472). -/
abbrev Reg := BitVec 64

/-- The 256 data bits of a grid word or memory line (R36, R112). -/
abbrev Line := BitVec 256

/-- A sparse array: the entries that differ from the array's default, keys strictly rising. -/
abbrev Tbl (β : Type) := List (Nat × β)

end Sys2Proof
end

