-- ==== Sys2Proof/Syntax/Numbers.lean ====
section
/-!
DEFINITION. Formats, rounding modes, requantisation points and scale-state entries (02, 03).
-/

namespace Sys2Proof

/-- The formats of R35; a reserved code has none. -/
inductive Fmt where
  | int4 | uint4 | fp4 | fp4b | int3 | int2 | tern | bin1 | int8 | int16 | int32
  deriving DecidableEq, Repr, Inhabited

/-- Rounding modes (R55). -/
inductive Rnd where
  | rne | rtz | srSeeded | srEntropy
  deriving DecidableEq, Repr, Inhabited

/-- The kinds of quantisation point (R64). -/
inductive PointKind where
  | running | static | passThrough
  deriving DecidableEq, Repr, Inhabited

/-- One scale-state entry (R92). S16 words and counts are numbers of the width the rule gives. -/
structure ScaleEntry where
  hist : List Nat := List.replicate 16 0
  sCur : Nat := 0
  sFloor : Nat := 0
  sSeed : Nat := 0
  flatEvent : Bool := false
  head : Nat := 0
  win : Nat := 0
  hptr : Nat := 0
  fill : Nat := 0
  driftK : Nat := 0
  satThresh : Nat := 0
  flatTicks : Nat := 0
  flatRun : Nat := 0
  sat : Nat := 0
  satWin : Nat := 0
  scaleSat : Nat := 0
  flat : Nat := 0
  multHigh : Nat := 0
  multLow : Nat := 0
  countedAt : Nat := 0        -- the tick that SAT_WIN last counted, which names its drift window (R89); no field of R92
  deriving DecidableEq, Repr, Inhabited

/-- How a point clamps, rounds and encodes (R54). -/
structure OutSpec where
  fmt : Fmt := .int4
  rnd : Rnd := .rne
  lo : Int := -8
  hi : Int := 7
  zp : Nat := 0
  deriving DecidableEq, Repr, Inhabited

/-- A time of day: SEC, NS and FRAC (R352). -/
structure Tod where
  sec : Nat := 0
  ns : Nat := 0
  frac : Nat := 0
  deriving DecidableEq, Repr, Inhabited

end Sys2Proof
end

