-- ==== Sys2Proof/Syntax/Tiles.lean ====
section
/-!
DEFINITION. What tiles hold and what moves between them: link words, chain words, accumulators, descriptors,
address generators (04, 05, 06), and the fault record (15 R403).
-/

namespace Sys2Proof

/-- A link word: data and side-band (R152). Its five parity bits are functions of the others (R153), which the driver generates; a word
whose bits change on the way is given by the row that receives it (Hw.parity). -/
structure LWord where
  data : Line := 0#256
  v : Bool := false
  p : Bool := false
  k : Bool := false
  tick : Nat := 0
  btag : Nat := 0
  deriving DecidableEq, Repr, Inhabited

/-- A word present on a port, register or buffer in the cycles from a to b. Cycles of a fixed-path section are
counted as T x II + phase, those of a tier-two section from the start of the pass, freeze cycles left out. -/
structure Run where
  port : Nat
  a : Nat
  b : Nat
  w : LWord
  deriving DecidableEq, Repr, Inhabited

/-- A sum-chain word or the contents of an accumulator: 64 column sums (32 in INT8 x INT8 mode, the rest zero), the
row sum, V, P and the tick tag (R96, R101). -/
structure Chain where
  sums : List Int := []
  row : Int := 0
  v : Bool := false
  p : Bool := false
  tick : Nat := 0
  btag : Nat := 0      -- block tag of the data summed, which R84 compares (DEDUCED, log 12)
  deriving DecidableEq, Repr, Inhabited

/-- A write of a chain word or accumulator n that takes effect at cycle cyc. -/
structure ChainAt where
  n : Nat
  cyc : Nat
  c : Chain
  deriving DecidableEq, Repr, Inhabited

/-- A requantisation descriptor (R107, R127); kind is [7:6] of MODE. -/
structure ReqDesc where
  pnum : Nat := 0
  sStatic : Nat := 0
  out : OutSpec := {}
  k : Nat := 0
  fmtIn : Fmt := .int4
  running : Bool := false
  cci : Nat := 0
  group : Nat := 0
  blk : Nat := 0
  nblk : Nat := 0
  deriving DecidableEq, Repr, Inhabited

/-- Address modes (R114). -/
inductive AgMode where
  | plain | fifo | history | lut | gather | queue
  deriving DecidableEq, Repr, Inhabited

/-- An address generator: the descriptor of R113 with its state. For history, ptr is HP, aux is FILL and wc is WC. -/
structure AddrGen where
  base0 : Nat := 0
  base1 : Nat := 0
  len : Nat := 0
  stride : Int := 0
  depth : Nat := 0
  mode : AgMode := .plain
  sel : Bool := false
  short : Bool := false
  lag : Nat := 0
  ptr : Nat := 0
  aux : Nat := 0
  wc : Nat := 0
  latch : LWord := {}
  poisoned : Bool := false      -- a full FIFO dropped a write; reads are poisoned until AUX is 0 (R121)
  deriving DecidableEq, Repr, Inhabited

/-- A stored line with its P bit and tick tag (R112). -/
structure MLine where
  data : Line := 0#256
  p : Bool := false
  tick : Nat := 0
  deriving DecidableEq, Repr, Inhabited

/-- One scale point of a tile: entry, configuration, group register, and the outgoing entry it inherits (R92, R93). -/
structure ScalePt where
  entry : Nat
  e : ScaleEntry
  group : Nat := 0
  inherit : Option Nat := none
  deriving DecidableEq, Repr, Inhabited

/-- A write of a line that reads issued at cycle vis or later see (R120). -/
structure MWrite where
  vis : Nat
  line : Nat
  l : MLine
  deriving DecidableEq, Repr, Inhabited

/-- The token register (R145). -/
structure Token where
  v : Bool := false
  p : Bool := false
  tag : Nat := 0
  choice : Bool := false
  drop : Bool := false
  vis : Nat := 0
  deriving DecidableEq, Repr, Inhabited

/-- A word that put its directives in force for the cycles from a to b (R182); a single-cycle word has a = b. -/
structure Route where
  a : Nat
  b : Nat
  dirs : Nat
  deriving DecidableEq, Repr, Inhabited

/-- One tile at a virtual site. -/
structure Tile where
  owner : Nat := 0xFF
  bank : Nat := 0
  tsw : Tbl (BitVec 128) := []        -- 1,024 x bank + index (R179)
  stage : Tbl Nat := []               -- the stage array, 1,024 x bank + index (R185)
  inbox : List Run := []              -- ports 0 to 3 north, east, south, west; 4 the express access point
  hr : List Run := []                 -- HR0 and HR1, from the cycle each word can be read
  sbuf : List Run := []               -- SB0 to SB3, in order of arrival
  outs : List Run := []               -- port 0: the tile's own emerging words (LOOP of R156); 10 to 13: words on the output ports
  chain : List ChainAt := []          -- words on the chain input
  chainOut : List ChainAt := []       -- words the tile put on its chain output
  routes : List Route := []
  ws : Tbl (BitVec 64) := []          -- weight store, 64-bit words (R97)
  cc : Tbl (BitVec 64) := []          -- column constants, 64 x CCI + column (R100)
  accs : List ChainAt := []
  rdesc : Tbl ReqDesc := []
  member : Tbl Nat := []              -- group register + 1 of each scale-state entry in use
  greg : Tbl (Nat × Nat) := []        -- group-scale registers: tick + 1 and value (R107)
  member2 : Tbl Nat := []             -- members and group registers of the incoming section of a swap
  greg2 : Tbl (Nat × Nat) := []
  starts : List (ScalePt × OutSpec) := []   -- points of the running side that have not yet taken over their entries (R93)
  starts2 : List (ScalePt × OutSpec) := []  -- those of the incoming section
  scal : Tbl ScaleEntry := []
  mem : Tbl MLine := []
  memNew : List MWrite := []
  ags : List AddrGen := []            -- of the active bank
  ags2 : List AddrGen := []           -- of an image staged in the shadow bank
  tbl : Tbl (BitVec 64) := []
  bins : List Nat := []
  binsP : Bool := false
  token : Token := {}
  descSat : Tbl Nat := []             -- SAT of the descriptors of static points (R48, R144)
  multHigh : Nat := 0                 -- MULT_HIGH and MULT_LOW of points without a scale-state entry (R77, R144)
  multLow : Nat := 0
  kept : List Run := []               -- operands that SELECT left in their queues, by source kind (R148)
  cnt : Tbl Nat := []                 -- the 28 counters in the order of R475
  poisonTo : Nat := 0                 -- drives poison in every cycle below this one (R184)
  held : Bool := false                -- held by a remap or a lost quadrant (R411, R419)
  lostPts : List Nat := []            -- points restarted by a remap, whose results are poisoned until FILL reaches N (R411)
  deriving DecidableEq, Repr, Inhabited

/-- What the ECC of a line finds when the line is read: no error, a corrected one, one that cannot be corrected (R112, R400). -/
inductive Ecc where
  | ok
  | corrected
  | bad
  deriving DecidableEq, Repr, Inhabited

/-- What the checks of the hardware find while a row runs; all absent in normal service.
flip is XORed onto the schedule word as it is read (R184), and a parity mask onto the 278 bits of a link word: data [255:0], side-band
[272:256], parity [277:273] (R152). -/
structure Hw where
  flip : BitVec 128 := 0#128
  parity : List (Nat × BitVec 278) := []   -- input ports and the bits of their word that changed on the way (R153)
  wsCe : Bool := false
  wsUe : Option Nat := none           -- unit of the set read, counted from its first one, that cannot be corrected (R99)
  ccCe : Bool := false
  ccUe : Bool := false
  ssCe : Bool := false
  ssUe : Bool := false
  tblCe : Bool := false
  tblUe : Option Nat := none          -- table unit, counted from the first one read (R126)
  memCe : List Nat := []              -- 0 read A, 1 read B
  memUe : List Nat := []
  sumErr : List (Nat × Int) := []     -- errors in column results: column, or 64 for the row sum, and amount (R110)
  rotation : Bool := false            -- the spare's word differs (R415)
  spareRes : Bool := false            -- the spare's residue check fails (R416)
  d2dCe : Bool := false               -- a crossing between dies is corrected, or cannot be (R400)
  d2dUe : Bool := false
  deriving DecidableEq, Repr, Inhabited

/-- The row of one schedule word: the tile, the bank and index of the word, and its first cycle. -/
structure TileAt where
  q : Nat
  col : Nat
  row : Nat
  bank : Nat
  i : Nat
  c : Nat
  hw : Hw := {}
  deriving DecidableEq, Repr, Inhabited

/-- A fault record (R403). -/
structure FaultRec where
  tick : Nat := 0
  code : Nat
  sev : Nat
  elastic : Bool := false
  confirmed : Bool := false
  rotation : Bool := false
  pendScan : Bool := false
  rep : Nat := 0
  quad : Nat := 0x0F
  site : Nat := 0xFF
  phase : Nat := 0
  unit : Nat := 0
  index : Nat := 0
  phys : Nat := 0xFF
  section_ : Nat := 0xFF
  detail : Nat := 0
  fid : Nat := 0
  deriving DecidableEq, Repr, Inhabited

end Sys2Proof
end

