-- ==== Sys2Proof/Syntax/Section.lean ====
section
/-!
DEFINITION. The section image as SECTION_LOAD reads it (07 R190, R191, R200). The spec gives the bytes of the header and of the chunk
directory and, of the chunks, only what they contain, so an image holds its bytes from offset 256 on beside what its chunks contain (log
10).
-/

namespace Sys2Proof

/-- A weight set: first unit, formats, its 64-bit words, and for FP4 with E8M0 the exponent of each block of 32 weights, column by column
(R42, R97, R98). -/
structure WeightSet where
  unit : Nat
  fa : Fmt
  fw : Fmt
  words : List (BitVec 64)
  exps : List Nat := []
  deriving DecidableEq, Repr, Inhabited

/-- What the image holds for one virtual site (SCHED to MEMTILE of R191). -/
structure ImTile where
  vq : Nat
  col : Nat
  row : Nat
  words : List (BitVec 128) := []
  stage : List Nat := []
  weights : List WeightSet := []
  ccon : List (Nat × List (BitVec 64)) := []
  rdesc : List (Nat × ReqDesc) := []
  points : List ScalePt := []
  table : List (Nat × BitVec 64) := []
  ags : List AddrGen := []
  mem : List (Nat × MLine) := []
  deriving DecidableEq, Repr, Inhabited

/-- An express slot entry of the image (R163). -/
structure ImSlot where
  vq : Nat
  lane : Nat
  idx : Nat
  elastic : Bool
  writer : Nat
  readers : Nat
  deriving DecidableEq, Repr, Inhabited

/-- A lane switch entry of the image (R164). -/
structure ImSwitch where
  vq : Nat
  lane : Nat
  idx : Nat
  dvq : Nat
  dlane : Nat
  deriving DecidableEq, Repr, Inhabited

/-- Kinds of credit loop (R167). -/
inductive LoopKind where
  | expressSame | expressOther | hbmRead | hbmReadOther | hbmWrite | fabric | verdict
  deriving DecidableEq, Repr, Inhabited

/-- A credit loop: rate num / den words per gc, buffer depth, producer site and the consumer's generator (R167, R168). -/
structure ImLoop where
  kind : LoopKind
  num : Nat
  den : Nat
  d : Nat
  maxLines : Nat := 0
  pvq : Nat := 0
  pcol : Nat := 0
  prow : Nat := 0
  cvq : Nat := 0
  ccol : Nat := 0
  crow : Nat := 0
  ag : Nat := 0
  deriving DecidableEq, Repr, Inhabited

/-- An elastic join: skew bound, rate, queue depth (R176). -/
structure ImJoin where
  skew : Nat
  num : Nat
  den : Nat
  d : Nat
  deriving DecidableEq, Repr, Inhabited

/-- The groups an ingest tile is fed (FEEDS): group and block number, with n_b (R83, R150). -/
structure ImFeed where
  vq : Nat
  col : Nat
  row : Nat
  nb : Nat
  groups : List (Nat × Nat)
  deriving DecidableEq, Repr, Inhabited

/-- The code range that an image declares of the rows of one MVM or MVM_ACC word (R51); the spec gives it no chunk (log 10). -/
structure ImRange where
  vq : Nat
  col : Nat
  row : Nat
  i : Nat
  lo : Int
  hi : Int
  deriving DecidableEq, Repr, Inhabited

/-- A quantisation point of the POINTS chunk: PNUM, kind (0 static, 1 running, 2 a special-function word), location, format, N and H
(R191, R200). -/
structure ImPoint where
  pnum : Nat
  kind : Nat
  vq : Nat
  col : Nat
  row : Nat
  fmt : Nat
  n : Nat := 0
  h : Nat := 0
  deriving DecidableEq, Repr, Inhabited

/-- The REPORT chunk, but for what the header and the other chunks hold already (R200). -/
structure Report where
  links : List (Nat × Nat × Nat × Nat × Nat) := []      -- vq, column, row, output-port and hold-register cycles per tick
  slots : List (Nat × Nat × Nat × Nat) := []            -- vq, lane, fixed and elastic slots
  bankIdle : List (Nat × Nat × Nat × Nat × Nat) := []   -- vq, column, row, bank, idle cycles per tick
  issues : List (Nat × Nat × Nat × Nat) := []           -- vq, column, row, MVM issues per tick
  macs : Nat := 0
  hbmRead : Nat := 0
  hbmWritten : Nat := 0
  power : Nat := 0
  deriving DecidableEq, Repr, Inhabited

/-- A section image: the fields of the header (R190), the bytes after it, and what its chunks hold. -/
structure Image where
  magic : Nat := 0x444E4C50
  format : Nat := 2
  kind : Nat := 0
  nondet : Bool := false
  needsRing : Bool := false
  fabric : Bool := false
  ii : Nat := 0
  lSec : Nat := 0
  lPad : Nat := 0
  passTime : Nat := 0
  stallExp : Nat := 20
  vq : Nat := 1
  runtimeMin : Nat := 0
  seed : Nat := 0
  tileCounts : List Nat := []       -- TILES: matrix, memory, special function, I/O
  imageLen : Nat := 256
  nChunk : Nat := 0
  name : List Byte := []            -- NAME without its zero padding
  reserved : Nat × Nat × Nat := (0, 0, 0)   -- reserved bits of FLAGS, bytes 46 to 47, bytes 128 to 255
  digest : BitVec 512 := 0#512      -- IMAGE_DIGEST
  rest : List Byte := []            -- the bytes from offset 256 on: chunk directory and chunks (R191)
  tiles : List ImTile := []
  csums : List (Nat × Nat × Nat × Nat × List Int) := []  -- vq, column, row, unit, column sums of the set (R80)
  slots : List ImSlot := []
  switches : List ImSwitch := []
  loops : List ImLoop := []
  joins : List ImJoin := []
  feeds : List ImFeed := []
  scores : List Nat := []
  windows : List (Nat × Bool × Bool) := []   -- size exponent, read, write
  fslots : List Nat := []
  routes : List Nat := []
  latency : List (Nat × Nat) := []  -- opcode and declared latency (R175, R299)
  ranges : List ImRange := []
  points : List ImPoint := []
  report : Report := {}
  deriving DecidableEq, Repr, Inhabited

end Sys2Proof
end

