-- ==== Sys2Proof/Machine/Parts/Grid.lean ====
section
/-!
DEFINITION. The state of the grid: tiles, express lanes, sections, swaps (06, 07), and probes and digests (11).
-/

namespace Sys2Proof

/-- An express slot-table entry (R163). -/
structure Slot where
  valid : Bool := false
  elastic : Bool := false
  writer : Nat := 0
  readers : Nat := 0
  deriving DecidableEq, Repr, Inhabited

/-- A put on a lane, kept to find collisions (R166). -/
structure Put where
  lane : Nat          -- 16 x quadrant + lane
  cyc : Nat
  site : Nat
  tick : Nat := 0     -- side-band of the word put
  btag : Nat := 0
  bad : Bool := false -- counted and recorded already
  deriving DecidableEq, Repr, Inhabited

/-- A resident or staged section (R190 to R195). -/
structure Sec where
  resident : Bool := false
  staged : Bool := false
  img : Image := {}
  placed : List ImTile := []      -- the tiles as written: relocated and patched, vq the physical quadrant (R195)
  place : List Nat := []          -- physical quadrant of each virtual quadrant
  seed : Nat := 0
  stallLimit : Nat := 0
  scores : List Nat := []         -- physical score blocks, in the order of the image's
  windows : List Nat := []
  stopped : Bool := false         -- stopped by a fault (R413)
  begun : Bool := false           -- an incoming section of the clean swap under way
  scaleDigest : BitVec 512 := 0#512
  qblock : List (Nat × Nat × List Byte) := []   -- QBLOCK words under way: tick or pass, place in its order, bytes (R305)
  digests : Tbl (BitVec 512) := []        -- kept result digests by tick or pass (R307)
  credits : Tbl Nat := []         -- credits spent per loop, in the order of LOOPS (R167)
  returning : Tbl Nat := []       -- of those, the ones given back and not yet returned to the producer
  qreq : Nat := 0                 -- words the pass has put in QBLOCK by requests (R305)
  deriving DecidableEq, Repr, Inhabited

/-- A section swap under way (R186 to R189): a clean one of fixed-path sections, and tier-two sections still to change. -/
structure Swap where
  ts : Nat
  outs : List Nat     -- outgoing fixed-path sections
  ins : List Nat      -- incoming fixed-path sections
  endTick : Nat       -- T_s + sigma_out, the end of a clean swap
  pairs : List (Option Nat × Option Nat) := []   -- tier-two sections that wait for their pass boundary (R189)
  deriving DecidableEq, Repr, Inhabited

/-- A probe (R308). -/
structure Probe where
  set : Bool := false
  handle : Nat := 0
  vq : Nat := 0
  col : Nat := 0
  row : Nat := 0
  source : Nat := 0       -- 0 to 3 output ports, 4 and 5 hold registers, 6 sum-chain output
  cycle : Nat := 0        -- phase or pass cycle
  first : Nat := 0        -- tick or pass sequence number
  count : Nat := 0
  buf : List (LWord × Nat × Nat) := []
  deriving DecidableEq, Repr, Inhabited

/-- A request of an HBM-port tile: the lines still to come to a queue, and the place of the first in QBLOCK (R150, R305). -/
structure Ask where
  h : Nat
  q : Nat
  col : Nat
  row : Nat
  ag : Nat
  loop : Nat
  lines : List MLine
  ord : Nat := 0
  deriving DecidableEq, Repr, Inhabited

/-- The grid. -/
structure Grid where
  tiles : Tbl Tile := []          -- by siteNo
  slots : Tbl Slot := []          -- ((16 q + lane) x 2 + bank) x 1,024 + index
  switches : Tbl (Nat × Nat) := []  -- (16 q + lane) x 1,024 + index: destination quadrant and lane + 1, (0, 0) invalid
  slotBank : Nat := 0
  puts : List Put := []
  xcoll : Tbl Nat := []
  laneTestErr : Tbl Nat := []
  secs : Tbl Sec := []            -- by handle
  swap : Option Swap := none
  probes : Tbl Probe := []
  skip : Tbl Nat := []            -- 16 q + k, 8 unlisted (R194)
  spareCnt : Tbl (Tbl Nat) := []  -- counters of the bypassed tile of each line, by 16 q + k (R475)
  d2dUe : Bool := false           -- the crossing of the row under way cannot be corrected (R400)
  asks : List Ask := []           -- lines requested and not yet returned, oldest first (R167)
  runtime : Nat := 0              -- installed runtime-table version
  deriving DecidableEq, Repr, Inhabited

end Sys2Proof
end

