-- ==== Sys2Proof/Syntax/Front.lean ====
section
/-!
DEFINITION. Descriptors of the channel front end (08) and the shape of an event (14 R395). Fields that mark some values
reserved are numbers, so that a reserved value can be written and refused (R9).
-/

namespace Sys2Proof

/-- An event before ESEQ and its time are given: code, severity, origin, body (R395). -/
structure Ev where
  code : Nat
  sev : Nat
  origin : Nat := 0
  body : List Byte := []
  deriving DecidableEq, Repr, Inhabited

/-- A channel-group descriptor (R215). -/
structure GroupDesc where
  first : Nat := 0
  count : Nat := 1
  feature : Nat := 0
  miss : Nat := 0
  rtz : Bool := false
  fmt : Nat := 0
  zp : Nat := 0
  lo : Int := 0
  hi : Int := 0
  flatEvent : Bool := false
  head : Nat := 0
  win : Nat := 0
  driftK : Nat := 0
  sFloor : Nat := 0
  sSeed : Nat := 0
  satThresh : Nat := 0
  flatTicks : Nat := 0
  dec : Nat := 0
  deriving DecidableEq, Repr, Inhabited

/-- A primitive-unit descriptor (R224); orsel lists the OR groups of its enabled entries. -/
structure PrimDesc where
  en : Bool := false
  kind : Nat := 0
  pol : Bool := false
  mode : Nat := 0
  k : Nat := 1
  hyst : Nat := 0
  ta : Int := 0
  tb : Int := 0
  wmin : Nat := 0
  wmax : Nat := 0
  orsel : List Nat := []
  deriving DecidableEq, Repr, Inhabited

/-- A measurement-engine descriptor (R228). -/
structure MeasDesc where
  en : Bool := false
  chan : Nat := 0
  pol : Bool := false
  nbExp : Nat := 0
  i0 : Int := 0
  i1 : Int := 0
  tTot : Int := 0
  lPer : Int := 0
  hyst : Nat := 0
  deriving DecidableEq, Repr, Inhabited

/-- A calibration entry of R221. -/
structure CalEntry where
  item : Nat
  index : Nat
  value : Int
  deriving DecidableEq, Repr, Inhabited

end Sys2Proof
end

