-- ==== Sys2Proof/Syntax/Decision.lean ====
section
/-!
DEFINITION. Combiner lines (09 R237) and record templates (10 R266).
-/

namespace Sys2Proof

/-- A combiner-line descriptor (R237). accept is DOUBT = ACCEPT_ON_DOUBT; p is PRESCALE's p - 1; n is HOLDOFF. -/
structure LineDesc where
  en : Bool := false
  kind : Nat := 0
  accept : Bool := false
  stage2 : Bool := false
  sheddable : Bool := false
  ghoTrig : Bool := false
  ghoExempt : Bool := false
  prio : Nat := 0
  hoMode : Nat := 0
  p : Nat := 0
  n : Nat := 0
  template : Nat := 0
  t2 : Nat := 0
  cls : Nat := 0
  in1 : List Nat := []
  in2 : List Nat := []
  lut1 : Nat := 0
  lut2 : Nat := 0
  mark : Nat := 0
  deriving DecidableEq, Repr, Inhabited

/-- A record template (R266): cr and er are the channel and engine ranges, first and count. -/
structure TemplateDesc where
  en : Bool := false
  dest : Nat := 0
  digest : Bool := false
  digSec : Nat := 0
  forceRing : Bool := false
  destId : Nat := 0
  pre : Nat := 16
  post : Nat := 16
  cr : List (Nat × Nat) := []
  er : List (Nat × Nat) := []
  deriving DecidableEq, Repr, Inhabited

end Sys2Proof
end

