-- ==== Sys2Proof/Syntax/Commands.lean ====
section
/-!
DEFINITION. Command packets (14 R372): the header, and the parameters whose layout the spec gives by name.
-/

namespace Sys2Proof

/-- A command packet's header as checked, with its transport and instance (R372, R377). transport is 0 host ring, 1 UDP,
2 fabric, 3 I3C or SMBus, 4 internal; raw holds the parameter bytes, over which PDIGEST is formed; stamp is the raw
stamp at which the packet is served. ok is false where a field of the header or the parameter length is wrong. -/
structure Hdr where
  transport : Nat := 0
  inst : Nat := 0
  tag : Nat := 0
  seq : Nat := 0
  at_ : Option Nat := none
  queue : Bool := false
  notify : Bool := false
  indirect : Bool := false
  raddr : Nat := 0
  rsize : Nat := 0
  ok : Bool := true
  raw : List Byte := []
  stamp : Nat := 0
  deriving DecidableEq, Repr, Inhabited

/-- A masked register write of CFG_WRITE (R389). -/
structure CfgEntry where
  off : Nat
  mask : Nat
  value : Nat
  deriving DecidableEq, Repr, Inhabited

/-- A timed event as TIMED_SET writes it (R369): the fields of TIMED_CTRL, the start (a time, or the tick in sec), TIMED_PERIOD
and TIMED_PHASE. -/
structure TimedDesc where
  en : Bool := false
  tickBase : Bool := false
  periodic : Bool := false
  pinEn : Bool := false
  invert : Bool := false
  tickStart : Bool := false
  width : Nat := 16
  start : Tod := {}
  period : Nat := 0
  phase : Nat := 0
  deriving DecidableEq, Repr, Inhabited

/-- One entry of the window table (R289); target is 0 host memory, 1 HBM. -/
structure Window where
  valid : Bool := false
  target : Nat := 0
  rd : Bool := false
  wr : Bool := false
  base : Nat := 0
  size : Nat := 12
  owner : Nat := 0xFFFF
  deriving DecidableEq, Repr, Inhabited

/-- One entry of TABLE_SWITCH: handle, virtual quadrant, site and generator mask (R123). -/
structure TabSel where
  hd : Nat
  vq : Nat
  col : Nat
  row : Nat
  mask : Nat
  deriving DecidableEq, Repr, Inhabited

/-- The parameters of SECTION_LOAD with the image found at the device address (R192, R196). -/
structure LoadReq where
  addr : Nat := 0
  len : Nat := 0
  place : Nat := 0
  seed : Nat := 0
  stallExp : Nat := 0
  img : Image := {}
  readBad : List (Nat × Nat) := []   -- tiles, by quadrant and physical index, whose read-back fails (R192)
  deriving DecidableEq, Repr, Inhabited

/-- The effect of a command that waits for its tick edge (R26, R383), or that a replay applies again at its tick (R311). -/
inductive Eff where
  | none
  | cfg (es : List CfgEntry)
  | prims (first : Nat) (ds : List PrimDesc)
  | line (n : Nat) (d : LineDesc)
  | template (k : Nat) (d : TemplateDesc)
  | tables (es : List TabSel)
  | cal (es : List CalEntry)
  | timed (e : Nat) (d : TimedDesc)
  | swap (outs ins : List Nat)
  | quad (q : Nat) (idle : Bool)
  | load (r : LoadReq)
  | tile (hd vq col row line : Nat) (data : List Byte) (ecc : Ecc)
  | probe (n : Nat) (p : Probe)
  | meas (e : Nat) (d : MeasDesc)
  | commit (version : Nat)
  | window (n : Nat) (w : Window)
  | extract (t k : Nat)
  | resumeDma (e mode : Nat)
  deriving DecidableEq, Repr, Inhabited

/-- Instance settings of PTP_CONFIG (R362). -/
structure PtpCfg where
  slaveOnly : Bool := true
  prio1 : Nat := 128
  prio2 : Nat := 128
  domain : Nat := 0
  p2p : Bool := false
  transport : Nat := 0
  syncLog : Int := 0
  delayLog : Int := 0
  annLog : Int := 1
  deriving DecidableEq, Repr, Inhabited

/-- A descriptor (R290). -/
structure DmaDesc where
  addr : Nat := 0
  len : Nat := 0
  irq : Bool := false
  resv : Bool := false              -- a reserved field is nonzero
  user : Nat := 0
  addr2 : Nat := 0
  deriving DecidableEq, Repr, Inhabited

/-- One entry of the replay log (R310): type, flags, tick, body, further units; eff is what the parameter bytes of a CMD entry ask. -/
structure LogEntry where
  type : Nat
  flags : Nat := 0
  tick : Nat
  body : List Byte := []
  more : List Byte := []
  eff : Eff := .none
  deriving DecidableEq, Repr, Inhabited

end Sys2Proof
end

