-- ==== Sys2Proof/Machine/Parts/Comb.lean ====
section
/-!
DEFINITION. The state of the combiner and of the tier-two queue (09), and the device counters (17 R474).
-/

namespace Sys2Proof

/-- A line: descriptor, hold-off, prescale, shedding and counters L_RAW, L_DOUBT, L_HELD, L_PRESCALED, L_SHED,
L_NO_SLOT, L_FIRED (R240 to R244, R251). -/
structure LineSt where
  d : LineDesc := {}
  armedFrom : Nat := 0
  evHeld : Bool := false
  evCnt : Nat := 0
  ps : Nat := 0
  sh : Nat := 0
  cnt : Tbl Nat := []
  deriving DecidableEq, Repr, Inhabited

/-- The classes of a pending tick and what its ended parisons gave (R11, R247). -/
structure Pend where
  v : Bool := false
  h : Bool := false
  s : Bool := false
  left : Nat := 0
  acc : Bool := false
  void : Bool := false
  accepted : Bool := false     -- the tick already has its outcome; its parisons only count under R33
  deriving DecidableEq, Repr, Inhabited

/-- A fire word at the combiner (R254, R255). -/
structure FireWord where
  v : Bool := false
  p : Bool := false
  tick : Nat := 0
  fire : Nat := 0
  doubt : Nat := 0
  deriving DecidableEq, Repr, Inhabited

/-- A TRG_OUT pin: active, and the end of its pulse in femtoseconds from tick 0 (R252). -/
structure TrgPin where
  active : Bool := false
  endFs : Nat := 0
  deriving DecidableEq, Repr, Inhabited

/-- A record request (R245, R261, R282) with the template contents in force at its tick (R266). -/
structure RecReq where
  tick : Nat
  lines : Nat := 0           -- LINE_MASK
  doubt : Bool := false
  template : Nat
  tpl : TemplateDesc := {}
  outcome : Nat := 0         -- OUTCOME of R271
  handle : Nat := 0xFF
  pass : Nat := 0            -- pass sequence number of a tier-two record
  stamp : Nat := 0           -- time-base reading at E(TICK), units of 2^-16 ns
  tStart : Nat := 0          -- T_start of R268 when the request was made
  mark : Option (Nat × Nat) := none   -- a ladder mark: old and new level (R272)
  dest : Option (Nat × Nat) := none   -- destination of a ladder mark
  deriving DecidableEq, Repr, Inhabited

/-- Pin levels: undriven, low or high. -/
inductive Level where
  | z | low | high
  deriving DecidableEq, Repr, Inhabited

/-- The combiner. cnt holds the device counters in the order of R474, first block 0 to 23, second block from 24. -/
structure Comb where
  lines : Tbl LineSt := []
  scores : Tbl LWord := []          -- 64 x tick + block, until the tick is combined
  scoreAt : Tbl Nat := []           -- the cycle at which each reaches the combiner input (R150)
  scorePoison : Tbl Nat := []
  noScore : Tbl Nat := []
  ghoFrom : Nat := 0                -- global hold-off acts for ticks ghoFrom to ghoTo (R242)
  ghoTo : Nat := 0
  fireIn : Tbl FireWord := []       -- merged fire words by tick
  fireOut : Option FireWord := none -- the fire word this device built last (R254)
  cnt : Tbl Nat := []
  pend : Tbl Pend := []             -- pending and open ticks
  decided : Option Nat := none      -- newest decided tick
  trg : Tbl TrgPin := []
  busy : Nat := 0                   -- BUSY_OUT active bits (R253)
  cCycle : Nat := 0                 -- C of R23 in force
  dDec : Nat := 0
  atDecision : List Nat := [0, 0, 0, 0]  -- requests, contexts, ladder level, global hold-off at the newest decision (R253)
  due : List (Nat × Eff) := []      -- changes whose tick edge has come, for the ticks from it on (R26, R250)
  oldRegs : List (Nat × Nat × Nat) := []  -- edge, offset, value before, of changed registers that ticks in flight still use
  deriving DecidableEq, Repr, Inhabited

/-- Context states (R257); alloc is a context taken at C + 8 and not yet queued. -/
inductive CtxSt where
  | free | alloc | queued | running | deliver
  deriving DecidableEq, Repr, Inhabited

/-- A tier-two context (R257). -/
structure Ctx where
  st : CtxSt := .free
  tick : Nat := 0
  line : Nat := 0
  cls : Nat := 0
  handle : Nat := 0
  doubt : Bool := false
  accept : Bool := false      -- the line's policy on doubt
  template : Nat := 0
  tpl : TemplateDesc := {}    -- the template's contents in force at the tick (R266)
  prio : Nat := 0
  entry : Nat := 0            -- cycle of entry, gc
  stamp : Nat := 0            -- time-base reading at E of the tick
  pass : Nat := 0             -- sequence number of its pass
  suspect : Bool := false     -- its pass ended suspect
  deriving DecidableEq, Repr, Inhabited

/-- The pass of a section (R258 to R261, R514). -/
structure Pass where
  ctx : Option Nat := none
  start : Nat := 0            -- gc of its first cycle
  freeze : Nat := 0           -- freeze cycles of this pass (R174)
  seq : Nat := 0              -- passes since ARM (R148)
  verdict : Option Nat := none
  abandoned : Bool := false
  lateAt : Nat := 0           -- the cycle of the pass at which it was frozen last (R169)
  late : List (Nat × Nat) := []   -- sites held there, and the cycles in which each could not proceed
  lateMax : Nat := 0          -- freeze cycles of that cycle
  heldBy : Nat := 0xFF        -- the loop that held it last (R174)
  boundary : Nat := 0         -- gc of the last boundary
  passes : Nat := 0
  stallCyc : Nat := 0
  pcapCyc : Nat := 0
  deriving DecidableEq, Repr, Inhabited

/-- The tier-two queue. cls holds, at 8 x class, C_HANDED, X_DEADLINE, X_RING, X_NO_SECTION, P_NO_CONTEXT, WAIT_MAX (R265). -/
structure T2 where
  ctxs : Tbl Ctx := []
  passes : Tbl Pass := []     -- by section handle
  cls : Tbl Nat := []
  loopLate : Tbl Nat := []    -- 64 x handle + loop
  ctxMax : Nat := 0
  passGap : Nat := 0
  ringRate : Nat := 1024
  lastStart : Option Nat := none
  ringWin : Nat := 0          -- the 1,024 gc window RING_RD lines are counted in
  ringIssued : Nat := 0
  deriving DecidableEq, Repr, Inhabited

end Sys2Proof
end

