-- ==== Sys2Proof/Machine/Parts/Front.lean ====
section
/-!
DEFINITION. The state of the channel front end (08).
-/

namespace Sys2Proof

/-- A frame held for its tick (R209). -/
structure HeldFrame where
  tick : Nat
  srcErr : Bool
  payload : List Byte
  deriving DecidableEq, Repr, Inhabited

/-- An ingest lane (R209 to R212, R234). cnt holds CRC_ERR, HDR_ERR, LATE, DUP, EARLY, SRC_ERR, MISSING, DOWN_COUNT. -/
structure LaneSt where
  up : Bool := false
  held : List HeldFrame := []
  noGood : Nat := 0
  ofsMin : Option Int := none
  ofsMax : Option Int := none
  cnt : Tbl Nat := []
  deriving DecidableEq, Repr, Inhabited

/-- A channel group with the sample count it keeps (R215). -/
structure GroupSt where
  set : Bool := false
  d : GroupDesc := {}
  s : Nat := 0
  missTicks : Nat := 0
  deriving DecidableEq, Repr, Inhabited

/-- A primitive unit: descriptor and state (R223 to R226). -/
structure PrimUnit where
  d : PrimDesc := {}
  q1 : Bool := false
  q2 : Bool := false
  inRun : Bool := false
  w : Nat := 0
  clean : Bool := false
  n : Nat := 0             -- samples seen since ARM or the last reset
  since : Nat := 0         -- samples since the last crossing (timeout)
  hist : List Int := []    -- up to 16 samples, newest first
  fireCount : Nat := 0
  deriving DecidableEq, Repr, Inhabited

/-- The words one group gave for one tick (R216, R219). -/
structure FeatOut where
  tick : Nat := 0
  words : List (Line × Bool) := []
  scale : Nat := 0
  zp : Nat := 0
  fmt : Nat := 0
  deriving DecidableEq, Repr, Inhabited

/-- The payload one lane gave the gather buffer for one tick (R217). -/
structure GLane where
  lane : Nat
  missing : Bool
  payload : List Byte
  deriving DecidableEq, Repr, Inhabited

/-- OR-group outputs of one tick: outputs 1 and poisoned outputs, bit g of each (R227). -/
structure OrOut where
  fire : Nat := 0
  poison : Nat := 0
  deriving DecidableEq, Repr, Inhabited

/-- User calibration: staged, in force, and the flash block (R220 to R222). -/
structure Cal where
  user : List CalEntry := []        -- user values in force for items 0x0001 to 0x0008
  staged : List CalEntry := []
  flash : List Byte := []           -- the block in the configuration area of the flash, header and entries (R221)
  isDefault : Bool := false         -- CAL_STATE = DEFAULT
  deriving DecidableEq, Repr, Inhabited

/-- The front end. -/
structure Fe where
  lanes : Tbl LaneSt := []
  groups : Tbl GroupSt := []
  scale : Tbl ScaleEntry := []
  ped : Tbl Int := []
  gain : Tbl Nat := []
  scal : Tbl Nat := []
  cal : Cal := {}
  hold : Tbl (List Int) := []       -- HOLD samples of channels present since ARM (R213)
  units : Tbl PrimUnit := []
  meas : Tbl MeasDesc := []
  gather : Tbl (List GLane) := []   -- by tick (R29, R217)
  feat : Tbl FeatOut := []          -- 1,024 x tick + group, the newest ticks
  orOut : Tbl OrOut := []           -- by tick, until the tick is combined
  orCount : Tbl Nat := []
  orPoison : Tbl Nat := []
  trgIn : Tbl Nat := []             -- TRG_IN bits by tick (R22)
  deriving DecidableEq, Repr, Inhabited

end Sys2Proof
end

