-- ==== Sys2Proof/Machine/Parts/Acq.lean ====
section
/-!
DEFINITION. The state of the acquisition engine, the shedding ladder, the monitor streams, recordings and replays, and the
DMA engines (10, 11).
-/

namespace Sys2Proof

/-- An assembled record in staging and the bytes of it already sent (R287). -/
structure Staged where
  req : RecReq
  bytes : List Byte
  sent : Nat := 0
  foreign : Bool := false         -- taken in as a collector (R343)
  deriving DecidableEq, Repr, Inhabited

/-- A monitor stream (R276 to R279). -/
structure Stream where
  first : Nat := 0                -- first tick of the open DATA entry
  count : Nat := 0                -- ticks in it, 0 when none is open
  level : Nat := 0
  missing : Bool := false
  body : List Byte := []
  gapFirst : Nat := 0
  gapCount : Nat := 0             -- ticks of the open gap
  gapLevel : Nat := 0             -- level of its first tick
  gapHeads : List (List Byte) := []  -- LADDER and MARK entries of its later ticks, which follow it
  entries : List (List Byte) := []
  sent : Nat := 0                 -- bytes of the first entry already sent
  gaps : Nat := 0                 -- STREAM_GAP
  deriving DecidableEq, Repr, Inhabited

/-- A trigger mark waiting for its stream release (R246). -/
structure Mark where
  tick : Nat
  line : Nat
  streams : Nat
  doubt : Bool
  deriving DecidableEq, Repr, Inhabited

/-- A ladder change (R285, R286). -/
structure LadChange where
  tick : Nat
  old : Nat
  new : Nat
  deriving DecidableEq, Repr, Inhabited

/-- A recording (R309, R310). -/
structure Rec where
  area : Nat := 0
  size : Nat := 0
  endTick : Nat := 0
  freeze : Bool := false
  wide : Bool := false
  armed : Bool := false            -- set, starts at the next ARM or RESUME
  running : Bool := false
  first : Nat := 0
  log : List LogEntry := []
  ringLate0 : Nat := 0             -- RING_WR_LATE at the start
  done : Bool := false
  deriving DecidableEq, Repr, Inhabited

/-- A replay (R311, R312). -/
structure Replay where
  set : Bool := false
  running : Bool := false
  recorded : Bool := false          -- FEEDBACK RECORDED
  quiet : Bool := false
  wide : Bool := false
  log : List LogEntry := []
  deriving DecidableEq, Repr, Inhabited

/-- The acquisition engine, with recording, replay and the collection engine of COLLECT_CFG (R343). -/
structure Acq where
  templates : Tbl TemplateDesc := []
  reqs : List RecReq := []          -- record request queue
  staged : List Staged := []        -- assembled, oldest first
  level : Nat := 0
  levels : List (Nat × Nat) := []   -- (first tick, level), newest first
  lastChange : Option Nat := none
  lowRun : Nat := 0
  pressure : Nat := 0               -- as it stood at the last decision
  shownPressure : Nat := 0          -- of the last tick edge (LADDER_STAT)
  ladderTicks : Tbl Nat := []
  ladPend : List LadChange := []    -- changes not yet in every stream
  streams : Tbl Stream := []
  marks : List Mark := []
  snap : List (List Byte) := []     -- cullet snapshot parts 0 to 2
  tStart : Option Nat := none       -- T_start of R268, R281
  newest : Option Nat := none       -- newest tick written to the ring
  released : Option Nat := none     -- newest tick released to the streams
  rstoreWp : Nat := 0
  recg : Rec := {}
  replay : Replay := {}
  recorded : List Rec := []         -- recordings held in replay areas
  collect : Option Nat := none      -- COLLECT_ENGINE
  deriving DecidableEq, Repr, Inhabited

/-- A completion owed or written (R290). -/
structure DmaCpl where
  user : Nat := 0
  bytes : Nat := 0
  status : Nat := 0
  split : Bool := false
  irq : Bool := false
  deriving DecidableEq, Repr, Inhabited

/-- A park record (R291); at names where: 0 data, 1 descriptor fetch, 2 completion write. -/
structure Park where
  cause : Nat
  index : Nat
  done : Nat
  addr : Nat
  user : Nat
  at_ : Nat := 0
  deriving DecidableEq, Repr, Inhabited

/-- A DMA engine; EN, SRC, STREAM, RSIZE, RING_BASE, CQ_BASE stand in the register file (R288 to R292). -/
structure Eng where
  ci : Nat := 0
  pi : Nat := 0
  cur : Option DmaDesc := none
  done : Nat := 0
  moved : List Byte := []           -- bytes a records or stream engine has put in the buffer; sent again after a lost link
  owed : Option DmaCpl := none
  park : Option Park := none
  stopping : Bool := false
  stopReply : Option Nat := none    -- JSEQ of the CFG_WRITE that becomes final when the engine has stopped
  parks : Nat := 0
  deriving DecidableEq, Repr, Inhabited

end Sys2Proof
end

