-- ==== Sys2Proof/Machine/Parts/Saved.lean ====
section
/-!
DEFINITION. State images (11 R316) and recordings (R309, R314) as their contents; the spec gives the parts of a state
image by content, without a byte layout (log 17).
-/

namespace Sys2Proof

/-- One section of a state image: SECTIONS, SCALE and MEMORY parts. A running point is (site number, entry number, entry);
a generator is (site number, index, generator); a line is (site number, line number, line). -/
structure SecImage where
  hd : Nat
  digest : BitVec 512
  seed : Nat
  wdigest : BitVec 512
  scale : List (Nat × Nat × ScaleEntry) := []
  gens : List (Nat × Nat × AddrGen) := []
  lines : List (Nat × Nat × MLine) := []
  seq : Nat := 0
  deriving DecidableEq, Repr, Inhabited

/-- A state image (R316). digestOk says that STATE_DIGEST matches. -/
structure StateImage where
  addr : Nat := 0
  tNext : Nat := 0
  config : BitVec 512 := 0#512
  digest : BitVec 512 := 0#512
  digestOk : Bool := true
  secs : List SecImage := []
  chans : Tbl ScaleEntry := []
  units : Tbl PrimUnit := []
  hold : Tbl (List Int) := []
  lines : Tbl LineSt := []
  ghoLeft : Nat := 0
  level : Nat := 0
  sinceChange : Option Nat := none
  lowRun : Nat := 0
  ctxs : Tbl Ctx := []
  pend : Tbl Pend := []
  cls : Tbl Nat := []
  cnt : Tbl Nat := []
  lanes : Tbl (Tbl Nat) := []
  streamGaps : Tbl Nat := []
  ladderTicks : Tbl Nat := []
  tiles : Tbl (Tbl Nat) := []
  deriving DecidableEq, Repr, Inhabited

/-- A recording with the ring slots of its span (R309, R314). -/
structure Recording where
  area : Nat := 0
  wide : Bool := false
  inexact : Bool := false
  log : List LogEntry := []
  slots : List (Nat × List Byte) := []
  deriving DecidableEq, Repr, Inhabited

end Sys2Proof
end

