-- ==== Sys2Proof/Syntax/Fabric.lean ====
section
/-!
DEFINITION. What moves on fabric links and what the fabric tables hold (12), and fabric time beacons (13 R364).
-/

namespace Sys2Proof

/-- A fixed-slot entry (R326). -/
structure FSlot where
  inp : Nat := 0
  inLink : Nat := 0
  out : Nat := 0
  outLink : Nat := 0
  mreg : Nat := 0
  clr : Bool := false
  next : Nat := 0
  take : Nat := 0
  give : Nat := 0
  deriving DecidableEq, Repr, Inhabited

/-- An elastic packet: header and payload words (R330). -/
structure Packet where
  vc : Nat
  dest : Nat := 0
  src : Nat := 0
  dport : Nat := 0
  pseq : Nat := 0
  recseq : Nat := 0
  unit : Nat := 0
  type : Nat := 0       -- VC3 message TYPE (R337)
  len : Nat := 0        -- LEN: payload flits less one
  pay : List LWord := []
  loop : Option (Nat × Nat) := none   -- of a packet at its source: section and loop that spent a credit on it (R167)
  deriving DecidableEq, Repr, Inhabited

/-- A flit (R324). -/
inductive Flit where
  | idle
  | fixed (slot : Nat) (w : LWord)
  | head (p : Packet)                      -- header flit; pay is empty
  | pay (vc : Nat) (last : Bool) (w : LWord)
  deriving DecidableEq, Repr, Inhabited

/-- A fabric-time beacon (R364). -/
inductive Beacon where
  | none
  | time (hops root : Nat) (l : Nat)
  | echo (cnt : Nat) (l : Nat)
  deriving DecidableEq, Repr, Inhabited

/-- The message bits of a codeword after decoding and descrambling, as its fields (R322, R323). -/
structure Codeword where
  cnt : Nat := 0
  eseq : Nat := 0
  ack : Nat := 0
  nak : Bool := false
  egrp : Bool := false
  credits : List Nat := []      -- VC0 to VC3
  beacon : Beacon := .none
  lcType : Nat := 0
  lcBody : Nat := 0
  flits : List Flit := []
  deriving DecidableEq, Repr, Inhabited

/-- The link part of a TOPO report. -/
structure TopoLink where
  link : Nat
  peer : Nat
  peerLink : Nat
  lambda : Nat
  deriving DecidableEq, Repr, Inhabited

/-- Link-local management messages (R337). -/
inductive Msg where
  | hello (uid prio link state : Nat) (plan : List Byte)
  | elect (best prio hops epoch : Nat)
  | topo (uid : Nat) (links : List TopoLink)
  | assign (uid id master epoch : Nat) (path : List Nat)
  | assignAck (uid id epoch : Nat)
  | heartbeat (id epoch count : Nat)
  deriving DecidableEq, Repr, Inhabited

/-- What a barrier applies (R345). -/
structure BarrierDesc where
  tick : Nat := 0
  start : Bool := false         -- ARM of the fabric (R256, R319)
  fslot : Bool := false         -- the tables whose banks exchange
  fmask : Bool := false
  epoint : Bool := false
  retime : Bool := false
  takeover : Option (Nat × Nat) := none -- a lost device and the standby that takes its role (R348)
  loss : Option Nat := none     -- a link of the plan that is down (R347)
  back : Option Nat := none     -- a link of the plan that is UP again, with REVERT (R347)
  handover : Option Nat := none -- the new master (R349)
  moved : List (Nat × Nat × FSlot) := []  -- entries a re-timing moves: device, index, entry (R336)
  lams : List (Nat × Nat) := [] -- new compiled latencies, by place in the plan
  cancel : Bool := false        -- the start barrier of this tick is off: a device has failed it (R344)
  deriving DecidableEq, Repr, Inhabited

/-- A device of a fabric plan (R341). -/
structure PlanDev where
  id : Nat
  uid : Nat := 0
  standby : Bool := false
  group : List Nat := []           -- the active devices a standby protects
  images : List (BitVec 512) := []
  fslot : List (Nat × FSlot) := []
  fmask : List (Nat × Nat) := []
  epoint : List (Nat × Nat × Nat) := []   -- index, DEST, DPORT
  deriving DecidableEq, Repr, Inhabited

/-- A link of a fabric plan: both ends, latency at planning, margin and compiled latency (R335, R341). -/
structure PlanLink where
  a : Nat
  aLink : Nat
  b : Nat
  bLink : Nat
  lambda : Nat
  margin : Nat
  lam : Nat
  deriving DecidableEq, Repr, Inhabited

/-- The table contents of a device for a loss: kind 0 link (in plan order), 1 device, 2 master (R341). -/
structure PlanVar where
  dev : Nat
  kind : Nat
  which : Nat
  fslot : List (Nat × FSlot) := []
  fmask : List (Nat × Nat) := []
  epoint : List (Nat × Nat × Nat) := []
  deriving DecidableEq, Repr, Inhabited

/-- A fabric plan (R341). -/
structure Plan where
  digest : BitVec 512 := 0#512
  fKHz : Nat := 0
  ii : Nat := 0
  c : Nat := 0
  f : Nat := 0
  period : Nat := 0                -- TICK_PERIOD, T0 and L_T0 of the fabric's ticks (R366)
  t0 : Nat := 0
  lT0 : Tod := {}
  master : Nat := 0
  deputy : Nat := 0
  waive : Bool := false
  revert : Bool := false
  devs : List PlanDev := []
  links : List PlanLink := []
  vars : List PlanVar := []
  deriving DecidableEq, Repr, Inhabited

/-- Messages on VC2 between the master and the other devices (R330, R344, R348, R349, R455). -/
inductive Msg2 where
  | command (bytes : List Byte)
  | reply (bytes : List Byte)
  | event (bytes : List Byte)
  | plan (p : Plan)
  | eroute (table : List (Nat × Nat))
  | barrier (b : BarrierDesc)
  | barrierAck (ok : Bool) (tick : Nat)
  | tokenAsk
  | tokenGrant
  | tokenReturn
  | lambda (link ps : Nat)
  | idmap (uid id : Nat)
  deriving DecidableEq, Repr, Inhabited

end Sys2Proof
end

