-- ==== Sys2Proof/Syntax/Services.lean ====
section
/-!
DEFINITION. Operands of the rows of 15 to 18: faults and maintenance, updates, attestation, power.
-/

namespace Sys2Proof

/-- A part entry of a manifest (R440); compat lists MIN and MAX for types 1 to 5. -/
structure PartEntry where
  type : Nat
  svn : Nat := 0
  rolling : Bool := false
  lehr : Nat := 0
  version : Nat := 0
  offset : Nat := 0
  length : Nat := 0
  compat : List (Nat × Nat) := []
  fabric : Nat × Nat := (0, 0)
  iv : List Byte := []
  tag : List Byte := []
  digest : BitVec 512 := 0#512
  deriving DecidableEq, Repr, Inhabited

/-- A manifest (R439): its header fields, parts, recipients and signature. -/
structure Manifest where
  bundleLen : Nat := 0
  bundleId : Nat := 0
  rootSlot : Nat := 0
  rootPub : BitVec 512 := 0#512      -- SHA3-512 of ROOT_PUB
  body : BitVec 512 := 0#512         -- SHA3-512 of the bytes before SIGNATURE
  digest : BitVec 512 := 0#512       -- MAN_DIGEST
  sig : List Byte := []
  parts : List PartEntry := []
  rcpts : List (Nat × Nat) := []     -- KIND, RID
  deriving DecidableEq, Repr, Inhabited

/-- An SPDM request beyond its code (R458). -/
structure Spdm where
  version : Nat := 0x12
  slot : Nat := 0
  index : Nat := 0
  offset : Nat := 0
  length : Nat := 0
  signed : Bool := false
  hashes : Nat := 0x20               -- BaseHashAlgo of the requester: bit 5 is TPM_ALG_SHA3_512
  asym : List (Nat × Nat) := [(3, 1)]  -- its extended asymmetric algorithms: RegistryID and algorithm ID
  nonce : List Byte := []
  handle : Nat := 0
  max : Nat := 0                     -- the transport's data transfer size
  deriving DecidableEq, Repr, Inhabited

/-- The measurements of one power sample (R499 to R501): temperatures in 1/16 degree C, voltages in mV (VAUX_IN in 10 mV),
currents in 0.1 A, package power in 0.1 W. -/
structure Sample where
  grid : List Int := []
  iod : List Int := []
  hbm : List Int := []
  volts : List Nat := []
  amps : List Nat := []
  power : Nat := 0
  clockBad : Bool := false    -- an uncorrectable error in the I/O-die core clock or the tick generator logic (R402)
  deriving DecidableEq, Repr, Inhabited

/-- Stores of the control island as R402 tells them apart. -/
inductive CtlStore where
  | journal | roleState | mram | other
  deriving DecidableEq, Repr, Inhabited

/-- What the checks of the I/O die's stores find at an alignment point or a decision (R400); all absent in normal service. -/
structure IoErr where
  ce : Bool := false          -- a word is corrected
  gather : List Nat := []     -- channels whose words of the gather buffer cannot be corrected
  front : List Nat := []      -- channels whose front-end state cannot be
  cond : List Nat := []       -- conditions whose combiner tables cannot be
  deriving DecidableEq, Repr, Inhabited

/-- An alignment point or a decision: its tick, and what those checks find. -/
structure TickIn where
  t : Nat
  io : IoErr := {}
  deriving DecidableEq, Repr, Inhabited

/-- Instructions of the TAP (R510). -/
inductive Jtag where
  | bypass | idcode | sample | preload | extest | clamp | highz | intest | extestPulse | extestTrain | scan
  | halt (core : Nat)
  deriving DecidableEq, Repr, Inhabited

/-- Outcomes of start-up steps (R511): what each step finds on the board. -/
structure BootIn where
  otpOk : Bool := true
  loaderOk : Bool := true
  opOk : List Bool := [true, true, true, true, true]      -- operational copies verify (R442)
  fbOk : List Bool := [true, true, true, true, true]      -- fallback copies verify
  coresOk : List Bool := [true, true, true, true, true, true, true, true]
  stacksOk : List Bool := [true, true, true, true]
  quadsOk : List Bool := [true, true, true, true]
  badTiles : List (Nat × Nat) := []                        -- quadrant and physical index of tiles that fail their self-test
  stamp : Nat := 0
  deriving DecidableEq, Repr, Inhabited

/-- What a maintenance activity names (R428). -/
structure MaintReq where
  act : Nat
  quad : Nat := 0
  lines : List Nat := []      -- columns and rows in SKIP order (R473)
  core : Nat := 0
  share : Nat := 5            -- HBM_SHARE in 0.1 %
  ticks : Nat := 65536        -- ROT_TICKS
  deriving DecidableEq, Repr, Inhabited

/-- Outcome of one step of a handler, as the hardware finds it (R406, R411). -/
structure StepIn where
  readOk : Bool := true       -- the failed tile's stores read without an uncorrectable error
  checkOk : Bool := true      -- the segment check of R411 step 3 passes
  ctlCe : Bool := false       -- a word of control SRAM, core scratch or MRAM is corrected in the step (R400)
  ctlUe : Option CtlStore := none   -- a word of that store cannot be corrected
  deriving DecidableEq, Repr, Inhabited

end Sys2Proof
end

