-- ==== Sys2Proof/Syntax.lean ====
section
/-!
DEFINITION. The commands: one constructor per row of spec/opcode_table.json, in the table's order, the rows without operands
after the others. Operands are what a row is given from outside: the parameters of a packet (after its header h), the words
or stamps that arrive, or the place and cycle of a schedule word (log 8).
-/

namespace Sys2Proof

/-- The rows of the table. -/
inductive Instr where
  /-- DEVICE_ID (R471). -/
  | deviceId (h : Hdr)
  /-- DEVICE_STATE (R393). -/
  | deviceState (h : Hdr)
  /-- CONTROL_CLAIM (R385). -/
  | controlClaim (h : Hdr) (leaseMs : Nat) (force : Bool)
  /-- CONTROL_RELEASE (R385). -/
  | controlRelease (h : Hdr)
  /-- CFG_WRITE (R389). -/
  | cfgWrite (h : Hdr) (es : List CfgEntry)
  /-- CFG_READ (R389). -/
  | cfgRead (h : Hdr) (offs : List Nat)
  /-- ARM (R256). -/
  | arm (h : Hdr) (ta : Nat) (allowDefault : Bool)
  /-- PAUSE (R315). -/
  | pause (h : Hdr)
  /-- RESUME (R318). -/
  | resume (h : Hdr) (tr : Nat)
  /-- STOP (R392). -/
  | stop (h : Hdr)
  /-- DEVICE_RESET (R392). -/
  | deviceReset (h : Hdr)
  /-- SAFE_STOP (R503). -/
  | safeStop (h : Hdr) (cause : Nat)
  /-- TELEMETRY_READ (R500). -/
  | telemetryRead (h : Hdr)
  /-- MEM_WRITE (R289). -/
  | memWrite (h : Hdr) (addr : Nat) (data : List Byte)
  /-- MEM_READ (R289). -/
  | memRead (h : Hdr) (addr : Nat) (len : Nat) (found : List Byte)
  /-- SECTION_LOAD (R196). -/
  | sectionLoad (h : Hdr) (r : LoadReq)
  /-- SECTION_UNLOAD (R392). -/
  | sectionUnload (h : Hdr) (hd : Nat)
  /-- SECTION_SWAP (R186). -/
  | sectionSwap (h : Hdr) (outs : List Nat) (ins : List Nat)
  /-- SECTION_INFO (R200). -/
  | sectionInfo (h : Hdr) (hd : Nat)
  /-- STATE_SAVE (R316). -/
  | stateSave (h : Hdr) (addr : Nat) (len : Nat)
  /-- STATE_RESTORE (R317). -/
  | stateRestore (h : Hdr) (img : StateImage) (noHist : Bool)
  /-- TABLE_SWITCH (R123). -/
  | tableSwitch (h : Hdr) (es : List TabSel)
  /-- TILE_WRITE (R122). -/
  | tileWrite (h : Hdr) (hd : Nat) (vq : Nat) (col : Nat) (row : Nat) (line : Nat) (data : List Byte) (ecc : Ecc)
  /-- TILE_READ (R122). -/
  | tileRead (h : Hdr) (hd : Nat) (vq : Nat) (col : Nat) (row : Nat) (line : Nat) (ecc : Ecc)
  /-- PROBE_SET (R308). -/
  | probeSet (h : Hdr) (n : Nat) (p : Probe)
  /-- PROBE_READ (R308). -/
  | probeRead (h : Hdr) (n : Nat)
  /-- DIGEST_READ (R307). -/
  | digestRead (h : Hdr) (hd : Nat) (first : Nat) (count : Nat)
  /-- DIGEST_VERIFY (R306). -/
  | digestVerify (h : Hdr) (hd : Nat)
  /-- CHAN_SET (R214). -/
  | chanSet (h : Hdr) (first : Nat) (vals : List Nat)
  /-- GROUP_SET (R215). -/
  | groupSet (h : Hdr) (g : Nat) (d : GroupDesc)
  /-- PRIM_SET (R224). -/
  | primSet (h : Hdr) (first : Nat) (ds : List PrimDesc)
  /-- MEAS_SET (R228). -/
  | measSet (h : Hdr) (e : Nat) (d : MeasDesc)
  /-- CAL_WRITE (R221). -/
  | calWrite (h : Hdr) (es : List CalEntry)
  /-- CAL_COMMIT (R221). -/
  | calCommit (h : Hdr) (version : Nat)
  /-- CAL_READ (R221). -/
  | calRead (h : Hdr) (item : Nat) (first : Nat) (count : Nat)
  /-- COMB_LINE_SET (R237). -/
  | combLineSet (h : Hdr) (n : Nat) (d : LineDesc)
  /-- TEMPLATE_SET (R266). -/
  | templateSet (h : Hdr) (k : Nat) (d : TemplateDesc)
  /-- WINDOW_SET (R289). -/
  | windowSet (h : Hdr) (n : Nat) (w : Window)
  /-- RING_EXTRACT (R282). -/
  | ringExtract (h : Hdr) (t : Nat) (k : Nat)
  /-- DMA_RESUME (R292). -/
  | dmaResume (h : Hdr) (e : Nat) (mode : Nat)
  /-- CULLET_READ (R293). -/
  | culletRead (h : Hdr) (part : Nat)
  /-- RECORD_INPUTS_SET (R309). -/
  | recordInputsSet (h : Hdr) (area : Nat) (size : Nat) (endTick : Nat) (freeze : Bool) (wide : Bool)
  /-- REPLAY_SET (R311). -/
  | replaySet (h : Hdr) (area : Nat) (recorded : Bool) (quiet : Bool) (imgs : List (BitVec 512))
  /-- REPLAY_EXPORT (R314). -/
  | replayExport (h : Hdr) (e : Nat) (area : Nat) (addr : Nat)
  /-- REPLAY_IMPORT (R314). -/
  | replayImport (h : Hdr) (e : Nat) (r : Recording) (size : Nat)
  /-- TIME_SET (R357). -/
  | timeSet (h : Hdr) (t : Tod)
  /-- TIME_RATE (R357). -/
  | timeRate (h : Hdr) (rate : Int)
  /-- TIME_ADJ (R358). -/
  | timeAdj (h : Hdr) (d : Int)
  /-- TIME_GET (R357). -/
  | timeGet (h : Hdr)
  /-- TIMED_SET (R369). -/
  | timedSet (h : Hdr) (e : Nat) (d : TimedDesc)
  /-- TICK_ALIGN (R366). -/
  | tickAlign (h : Hdr) (tick : Nat) (t : Tod)
  /-- PTP_CONFIG (R362). -/
  | ptpConfig (h : Hdr) (cfg : PtpCfg)
  /-- MGMT_TX (R363). -/
  | mgmtTx (h : Hdr) (tsReq : Bool) (tsId : Nat) (bytes : List Byte)
  /-- FABRIC_DISCOVER (R338). -/
  | fabricDiscover (h : Hdr)
  /-- FABRIC_IDMAP (R339). -/
  | fabricIdmap (h : Hdr) (ids : List (Nat × Nat))
  /-- FABRIC_PLAN (R341). -/
  | fabricPlan (h : Hdr) (p : Plan)
  /-- FABRIC_BARRIER_START (R319). -/
  | fabricBarrierStart (h : Hdr) (tb : Nat)
  /-- FABRIC_STATE (R339). -/
  | fabricState (h : Hdr)
  /-- FABRIC_TIME_ROOT (R364). -/
  | fabricTimeRoot (h : Hdr) (dev : Nat)
  /-- COLLECT_CFG (R343). -/
  | collectCfg (h : Hdr) (e : Nat)
  /-- FABRIC_FORWARD (R381). -/
  | fabricForward (h : Hdr) (dest : Nat) (bytes : List Byte)
  /-- MAINT_START (R428). -/
  | maintStart (h : Hdr) (r : MaintReq)
  /-- MAINT_STOP (R428). -/
  | maintStop (h : Hdr) (act : Nat)
  /-- MAINT_STATUS (R428). -/
  | maintStatus (h : Hdr)
  /-- QUAD_POWER (R430). -/
  | quadPower (h : Hdr) (q : Nat) (req : Nat)
  /-- STANDBY_SET (R418). -/
  | standbySet (h : Hdr) (q : Option Nat)
  /-- HEALTH_READ (R409). -/
  | healthRead (h : Hdr)
  /-- UPDATE_BEGIN (R443). -/
  | updateBegin (h : Hdr) (addr : Nat) (len : Nat) (whole : Bool) (man : List Byte) (rest : List Byte)
  /-- UPDATE_DATA (R444). -/
  | updateData (h : Hdr) (off : Nat) (bytes : List Byte)
  /-- UPDATE_APPLY (R447). -/
  | updateApply (h : Hdr) (mask : Nat) (peers : List Nat)
  /-- UPDATE_STATUS (R456). -/
  | updateStatus (h : Hdr)
  /-- UPDATE_ABORT (R446). -/
  | updateAbort (h : Hdr)
  /-- DEBUG_CHALLENGE (R460). -/
  | debugChallenge (h : Hdr)
  /-- DEBUG_UNLOCK (R461). -/
  | debugUnlock (h : Hdr) (addr : Nat) (len : Nat) (magic : Nat) (level : Nat) (slot : Nat) (uid : Nat) (nonce : BitVec 256) (rest : List Byte)
  /-- JOURNAL_READ (R399). -/
  | journalRead (h : Hdr) (from_ : Nat) (max : Nat)
  /-- JOURNAL_NOTE (R396). -/
  | journalNote (h : Hdr)
  /-- ERRQ_READ (R408). -/
  | errqRead (h : Hdr)
  /-- BAD_PACKET (R378). -/
  | badPacket (h : Hdr) (opcode : Nat)
  /-- REGISTER_WRITE (R389). -/
  | registerWrite (via : Option Hdr) (e : CfgEntry)
  /-- MMIO_DENIED (R470). -/
  | mmioDenied (off : Nat) (size : Nat)
  /-- RC_READ (R469). -/
  | rcRead (off : Nat) (size : Nat)
  /-- TXTS_HEAD_READ (R363). -/
  | txtsHeadRead (off : Nat) (size : Nat)
  /-- ERRQ_OVF_CLEAR (R408). -/
  | errqOvfClear (h : Hdr)
  /-- TXTS_OVF_CLEAR (R363). -/
  | txtsOvfClear (h : Hdr)
  /-- QUEUE_ENABLE (R380). -/
  | queueEnable (q : Nat) (size : Nat) (vector : Nat)
  /-- QUEUE_DISABLE (R380). -/
  | queueDisable (q : Nat)
  /-- EVENT_RING_ENABLE (R394). -/
  | eventRingEnable (h : Hdr) (en : Bool) (size : Nat) (minSev : Nat) (vector : Nat)
  /-- DMA_ENGINE_ENABLE (R288). -/
  | dmaEngineEnable (h : Hdr) (e : Nat) (src : Nat) (stream : Nat) (rsize : Nat)
  /-- DMA_ENGINE_DISABLE (R288). -/
  | dmaEngineDisable (h : Hdr) (e : Nat)
  /-- DMA_ENGINE_STOPPED (R288). -/
  | dmaEngineStopped (e : Nat)
  /-- DMA_RING_BASE_WRITE (R288). -/
  | dmaRingBaseWrite (h : Hdr) (e : Nat) (cq : Bool) (addr : Nat)
  /-- LINK_ENABLE (R321). -/
  | linkEnable (h : Hdr) (l : Nat)
  /-- LADDER_DISABLE (R285). -/
  | ladderDisable (h : Hdr)
  /-- LADDER_MAX_LOWER (R285). -/
  | ladderMaxLower (h : Hdr) (max : Nat)
  /-- TICK_SOURCE_WRITE (R366). -/
  | tickSourceWrite (h : Hdr) (es : List CfgEntry)
  /-- TIMING_MODE_WRITE (R302). -/
  | timingModeWrite (h : Hdr) (c1 : Bool)
  /-- ALIGN_DEPTH_WRITE (R471). -/
  | alignDepthWrite (h : Hdr) (depth : Nat)
  /-- BAR2_CFG_WRITE (R484). -/
  | bar2CfgWrite (h : Hdr) (wrEn : Bool) (ofs : Nat)
  /-- BAR2_RESIZE (R484). -/
  | bar2Resize (size : Nat)
  /-- MSIX_TABLE_WRITE (R479). -/
  | msixTableWrite (vec : Nat) (addr : Nat) (data : Nat) (masked : Bool)
  /-- SQ_DOORBELL (R480). -/
  | sqDoorbell (q : Nat) (v : Nat) (size : Nat)
  /-- CQ_DOORBELL (R480). -/
  | cqDoorbell (q : Nat) (v : Nat) (size : Nat)
  /-- DMA_DOORBELL (R480). -/
  | dmaDoorbell (e : Nat) (v : Nat) (size : Nat)
  /-- EVQ_DOORBELL (R480). -/
  | evqDoorbell (v : Nat) (size : Nat)
  /-- SUBMISSION_TAKE (R380). -/
  | submissionTake (q : Nat) (bytes : List Byte)
  /-- COMPLETION_WRITE (R481). -/
  | completionWrite (q : Nat)
  /-- IRQ_HOLDOFF_END (R479). -/
  | irqHoldoffEnd (vec : Nat)
  /-- BAR2_READ (R485). -/
  | bar2Read (off : Nat) (len : Nat)
  /-- BAR2_WRITE (R485). -/
  | bar2Write (off : Nat) (bytes : List Byte)
  /-- PERST (R467). -/
  | perst (level : Bool)
  /-- PCIE_LINK_TRAIN (R512). -/
  | pcieLinkTrain (speed : Nat) (width : Nat) (flit : Bool)
  /-- TICK_EDGE (R14). -/
  | tickEdge (raw : Nat)
  /-- FRAME (R209). -/
  | frame (lane : Nat) (words : List (BitVec 32)) (x : Nat)
  /-- LANE_DOWN (R212). -/
  | laneDown (lane : Nat)
  /-- ALIGNMENT_POINT (R210). -/
  | alignmentPoint (t : TickIn)
  /-- TRG_IN_EDGE (R22). -/
  | trgInEdge (k : Nat) (x : Nat)
  /-- COMBINE_DECISION (R249). -/
  | combineDecision (t : TickIn)
  /-- TRG_OUT_PULSE_END (R252). -/
  | trgOutPulseEnd (k : Nat)
  /-- CANDIDATE_QUEUED (R257). -/
  | candidateQueued (c : Nat)
  /-- PASS_DISPATCH (R259). -/
  | passDispatch (hd : Nat) (x : Nat)
  /-- PASS_END (R261). -/
  | passEnd (hd : Nat) (x : Nat)
  /-- VERDICT_MISSING (R261). -/
  | verdictMissing (hd : Nat) (x : Nat)
  /-- PASS_BOUNDARY (R514). -/
  | passBoundary (hd : Nat) (x : Nat)
  /-- CANDIDATE_EXPIRE (R260). -/
  | candidateExpire (c : Nat) (x : Nat)
  /-- DELIVER_REQUEST (R257). -/
  | deliverRequest (c : Nat)
  /-- STALL_LIMIT (R174). -/
  | stallLimit (hd : Nat) (x : Nat)
  /-- CREDIT_RETURN (R167). -/
  | creditReturn (hd : Nat) (loop : Nat)
  /-- HBM_LINE_RETURN (R167). -/
  | hbmLineReturn (hd : Nat) (ue : Bool) (ce : Bool)
  /-- RING_WRITE (R281). -/
  | ringWrite (t : Nat)
  /-- RECORD_ASSEMBLE (R270). -/
  | recordAssemble (kind : Nat) (dest : Nat)
  /-- RECORD_DELIVER (R287). -/
  | recordDeliver (kind : Nat) (dest : Nat)
  /-- DMA_TRANSFER (R290). -/
  | dmaTransfer (e : Nat) (d : DmaDesc) (fetchErr : Bool) (data : List Byte) (err : Option Nat)
  /-- DMA_COMPLETION (R290). -/
  | dmaCompletion (e : Nat) (err : Bool)
  /-- MVM (R105). -/
  | mvm (at_ : TileAt)
  /-- MVM_ACC (R101). -/
  | mvmAcc (at_ : TileAt)
  /-- CHAIN_PASS (R102). -/
  | chainPass (at_ : TileAt)
  /-- REQ (R108). -/
  | req (at_ : TileAt)
  /-- IDLE (R182). -/
  | idle (at_ : TileAt)
  /-- RD (R120). -/
  | rd (at_ : TileAt)
  /-- WR (R120). -/
  | wr (at_ : TileAt)
  /-- RD_WR (R120). -/
  | rdWr (at_ : TileAt)
  /-- RD2 (R120). -/
  | rd2 (at_ : TileAt)
  /-- RD2_WR (R120). -/
  | rd2Wr (at_ : TileAt)
  /-- LUT4 (R131). -/
  | lut4 (at_ : TileAt)
  /-- LUT8 (R132). -/
  | lut8 (at_ : TileAt)
  /-- CMP (R133). -/
  | cmp (at_ : TileAt)
  /-- THR (R133). -/
  | thr (at_ : TileAt)
  /-- ADD (R134). -/
  | add (at_ : TileAt)
  /-- SUB (R134). -/
  | sub (at_ : TileAt)
  /-- SHL (R134). -/
  | shl (at_ : TileAt)
  /-- SRA (R134). -/
  | sra (at_ : TileAt)
  /-- NARROW (R135). -/
  | narrow (at_ : TileAt)
  /-- RESADD (R136). -/
  | resadd (at_ : TileAt)
  /-- MAXE (R137). -/
  | maxe (at_ : TileAt)
  /-- MAXR (R137). -/
  | maxr (at_ : TileAt)
  /-- TOPK (R138). -/
  | topk (at_ : TileAt)
  /-- SORT64 (R138). -/
  | sort64 (at_ : TileAt)
  /-- MERGE (R138). -/
  | merge (at_ : TileAt)
  /-- MEANVAR (R139). -/
  | meanvar (at_ : TileAt)
  /-- NORM (R140). -/
  | norm (at_ : TileAt)
  /-- SOFTMAX (R141). -/
  | softmax (at_ : TileAt)
  /-- CLUSTER (R142). -/
  | cluster (at_ : TileAt)
  /-- HIST (R143). -/
  | hist (at_ : TileAt)
  /-- TOKEN (R145). -/
  | token (at_ : TileAt)
  /-- SELECT (R146). -/
  | select (at_ : TileAt)
  /-- ROUTE (R146). -/
  | route (at_ : TileAt)
  /-- IN_RD (R150). -/
  | inRd (at_ : TileAt)
  /-- IN_CTX (R150). -/
  | inCtx (at_ : TileAt)
  /-- OUT_SCORE (R150). -/
  | outScore (at_ : TileAt)
  /-- OUT_VERDICT (R150). -/
  | outVerdict (at_ : TileAt)
  /-- HBM_RD (R150). -/
  | hbmRd (at_ : TileAt)
  /-- HBM_WR (R150). -/
  | hbmWr (at_ : TileAt)
  /-- RING_RD (R151). -/
  | ringRd (at_ : TileAt)
  /-- FAB_TX (R327). -/
  | fabTx (at_ : TileAt)
  /-- FAB_RX (R150). -/
  | fabRx (at_ : TileAt)
  /-- FAB_ETX (R333). -/
  | fabEtx (at_ : TileAt)
  /-- FAB_ERX (R150). -/
  | fabErx (at_ : TileAt)
  /-- FIRE_WORD_BUILD (R254). -/
  | fireWordBuild (t : Nat)
  /-- FSLOT_TAKE (R327). -/
  | fslotTake (t : Nat) (n : Nat)
  /-- FSLOT_GIVE (R327). -/
  | fslotGive (t : Nat) (n : Nat)
  /-- CODEWORD (R322). -/
  | codeword (l : Nat) (errs : Nat) (m : BitVec 5140) (raw : Nat)
  /-- NAK_TIMEOUT (R331). -/
  | nakTimeout (l : Nat)
  /-- ELASTIC_PACKET (R333). -/
  | elasticPacket (l : Nat) (vc : Nat)
  /-- COLLECTOR_RECORD (R343). -/
  | collectorRecord (src : Nat) (recseq : Nat)
  /-- LINK_TRAIN_DONE (R321). -/
  | linkTrainDone (l : Nat) (peer : Nat) (peerUid : Nat)
  /-- PROBE (R334). -/
  | probe (l : Nat) (id : Nat) (t2 : Nat) (t3 : Nat)
  /-- ECHO (R334). -/
  | echo (l : Nat) (id : Nat) (turn : Nat) (t4 : Nat)
  /-- LINK_CAL_DONE (R336). -/
  | linkCalDone (l : Nat)
  /-- LINK_TRAIN_TIMEOUT (R321). -/
  | linkTrainTimeout (l : Nat)
  /-- LINK_DOWN (R321). -/
  | linkDown (l : Nat)
  /-- HELLO (R338). -/
  | hello (l : Nat) (m : Msg)
  /-- ELECT (R338). -/
  | elect (l : Nat) (m : Msg)
  /-- TOPO (R338). -/
  | topo (l : Nat) (m : Msg)
  /-- ASSIGN (R339). -/
  | assign (l : Nat) (m : Msg)
  /-- ASSIGN_ACK (R339). -/
  | assignAck (l : Nat) (m : Msg)
  /-- HEARTBEAT (R348). -/
  | heartbeat (l : Nat) (m : Msg)
  /-- HB_TIMEOUT (R348). -/
  | hbTimeout (dev : Nat)
  /-- EROUTE_UPDATE (R340). -/
  | erouteUpdate (table : List (Nat × Nat))
  /-- BARRIER (R344). -/
  | barrier (b : BarrierDesc)
  /-- UPDATE_TOKEN (R455). -/
  | updateToken (dev : Nat) (kind : Nat)
  /-- FABRIC_TIME_STEER (R364). -/
  | fabricTimeSteer (l : Nat)
  /-- TICK_IN_EDGE (R366). -/
  | tickInEdge (raw : Nat) (tick : Nat) (dev : Int)
  /-- TICK_HOLDOVER (R367). -/
  | tickHoldover (missing : Bool)
  /-- PPS_IN_EDGE (R361). -/
  | ppsInEdge (raw : Nat)
  /-- PPS_OUT_PULSE (R361). -/
  | ppsOutPulse (raw : Nat)
  /-- PTP_FRAME_RX (R362). -/
  | ptpFrameRx (raw : Nat) (kind : Nat) (t : Nat) (bytes : List Byte)
  /-- SLEW_END (R358). -/
  | slewEnd (raw : Nat)
  /-- TX_TIMESTAMP (R363). -/
  | txTimestamp (id : Nat) (raw : Nat)
  /-- TIMED_EVENT_FIRE (R370). -/
  | timedEventFire (e : Nat) (x : Nat)
  /-- TIMED_OUT_PULSE_END (R370). -/
  | timedOutPulseEnd (e : Nat)
  /-- HANDLER_STEP (R406). -/
  | handlerStep (core : Nat) (r : StepIn)
  /-- ERRQ_SCAN (R407). -/
  | errqScan (core : Nat)
  /-- CONFIRM_EXPIRE (R410). -/
  | confirmExpire (unit : Nat)
  /-- ROTATION_WARMUP_END (R415). -/
  | rotationWarmupEnd (act : Nat) (k : Nat)
  /-- RECOMPUTE_DECISION (R417). -/
  | recomputeDecision (act : Nat) (k : Nat) (active : Bool) (spare : Bool)
  /-- ROTATION_SWAP (R415). -/
  | rotationSwap (act : Nat) (k : Nat)
  /-- CORE_WATCHDOG (R420). -/
  | coreWatchdog (core : Nat) (ue : Bool)
  /-- HBM_STACK_LOSS (R423). -/
  | hbmStackLoss (stack : Nat)
  /-- PATROL_SCRUB (R425). -/
  | patrolScrub (q : Nat) (col : Nat) (row : Nat) (line : Nat) (ce : Bool) (ue : Bool) (again : Bool)
  /-- SCRATCH_WINDOW_TEST (R427). -/
  | scratchWindowTest (core : Nat) (w : Nat) (ok : Bool) (access : Bool)
  /-- CLEARING_DONE (R431). -/
  | clearingDone (q : Nat)
  /-- QUAD_SELF_TEST_DONE (R430). -/
  | quadSelfTestDone (q : Nat) (ok : Bool)
  /-- UPDATE_STEP_DONE (R448). -/
  | updateStepDone (ok : Bool) (rate : Nat)
  /-- CORE_RESTART_DONE (R450). -/
  | coreRestartDone (core : Nat) (ok : Bool)
  /-- HEALTH_CONFIRMATION (R451). -/
  | healthConfirmation (type : Nat) (ok : Bool)
  /-- LEHR_END (R451). -/
  | lehrEnd (type : Nat)
  /-- GET_VERSION (R458). -/
  | getVersion (r : Spdm)
  /-- GET_CAPABILITIES (R458). -/
  | getCapabilities (r : Spdm)
  /-- NEGOTIATE_ALGORITHMS (R458). -/
  | negotiateAlgorithms (r : Spdm)
  /-- GET_DIGESTS (R458). -/
  | getDigests (r : Spdm)
  /-- GET_CERTIFICATE (R458). -/
  | getCertificate (r : Spdm)
  /-- CHALLENGE (R458). -/
  | challenge (r : Spdm)
  /-- GET_MEASUREMENTS (R459). -/
  | getMeasurements (r : Spdm)
  /-- RESPOND_IF_READY (R458). -/
  | respondIfReady (r : Spdm)
  /-- CHUNK_GET (R458). -/
  | chunkGet (r : Spdm)
  /-- JTAG_INSTRUCTION (R510). -/
  | jtagInstruction (ins : Jtag)
  /-- POWER_SAMPLE (R499). -/
  | powerSample (m : Sample)
  /-- AVS_TRANSACTION (R497). -/
  | avsTransaction (rail : Nat) (mv : Nat) (ok : Bool)
  /-- RAIL_FAULT (R498). -/
  | railFault (rail : Nat)
  /-- POWER_RESTART (R505). -/
  | powerRestart (b : BootIn)
  /-- RESET_RISE (R511). -/
  | resetRise (b : BootIn)
  /-- CODEWORD_SEND (R322). -/
  | codewordSend (l : Nat) (raw : Nat)
  /-- LINK_TEST (R426). -/
  | linkTest (q : Nat) (lane : Nat) (idx : Nat) (err : Bool)
  /-- PTP_MESSAGE_SEND (R362). -/
  | ptpMessageSend (kind : Nat)
  /-- COMPLETION_TIMEOUT (R291). -/
  | completionTimeout (e : Nat) (where_ : Nat)
  /-- CMD_DENIED (R381). -/
  | cmdDenied
  /-- NAMED_TICK_APPLY (R382). -/
  | namedTickApply
  /-- LEASE_EXPIRED (R385). -/
  | leaseExpired
  /-- EVENT_WRITE (R394). -/
  | eventWrite
  /-- HOT_RESET (R467). -/
  | hotReset
  /-- FLR (R467). -/
  | flr
  /-- PCIE_LINK_DOWN (R467). -/
  | pcieLinkDown
  /-- D3HOT_ENTRY (R467). -/
  | d3hotEntry
  /-- LADDER_CHANGE (R285). -/
  | ladderChange
  /-- PAUSE_EFFECT (R264). -/
  | pauseEffect
  /-- DRAIN_DONE (R392). -/
  | drainDone
  /-- SWAP_END (R186). -/
  | swapEnd
  /-- STREAM_RELEASE (R279). -/
  | streamRelease
  /-- REPLAY_LOG_STOP (R310). -/
  | replayLogStop
  /-- DISC_QUIET (R338). -/
  | discQuiet
  /-- MASTER_LOSS (R349). -/
  | masterLoss
  /-- FABRIC_TIME_LOSS (R364). -/
  | fabricTimeLoss
  /-- TIME_HOLDOVER (R359). -/
  | timeHoldover
  /-- CE_WINDOW_END (R408). -/
  | ceWindowEnd
  /-- REMAP_SWITCH (R411). -/
  | remapSwitch
  /-- QUAD_TAKEOVER (R419). -/
  | quadTakeover
  /-- CORE_TAKEOVER (R421). -/
  | coreTakeover
  /-- UPDATE_IDLE (R446). -/
  | updateIdle
  /-- DEBUG_NONCE_EXPIRE (R460). -/
  | debugNonceExpire
  /-- CAP_STEP (R499). -/
  | capStep
  /-- PWRFAIL (R505). -/
  | pwrfail
  /-- SAVE_END (R506). -/
  | saveEnd
  /-- RESET_FALL (R493). -/
  | resetFall
  /-- HEARTBEAT_SEND (R348). -/
  | heartbeatSend
  /-- FABRIC_FORWARD_TIMEOUT (R381). -/
  | fabricForwardTimeout
  /-- PPS_OUT_PULSE_END (R361). -/
  | ppsOutPulseEnd
  deriving DecidableEq, Repr, Inhabited

end Sys2Proof
end

