-- ==== Sys2Proof/Decode.lean ====
section
/-!
DEFINITION. Words of the opcode table. No row of spec/opcode_table.json gives bits ("fields" is empty in every row), so no
word spells a command.
-/

namespace Sys2Proof

/-- The command a word of nbits bits spells by the table's bits: none, for every word. -/
def decodeTableWord (_nbits _w : Nat) : Option Instr := none

end Sys2Proof
end

