-- ==== Sys2Proof/Config.lean ====
section
/-!
DEFINITION. What the spec leaves open: free values and the cryptographic functions whose standards the spec only
names. None has a body, so no proof can rest on a value of one.
-/

namespace Sys2Proof

/-- The n-th free value drawn in a run: nonces, entropy words and every result the spec leaves open.
DESIGN CHOICE (log 1): the counter State.free says which draw comes next. -/
opaque Config.freeBits (w : Nat) : Nat → BitVec w

/-- ML-DSA-87 signature check over (public-key digest, message digest, signature) (16 R434, R440, R461). -/
opaque Config.sigValid : BitVec 512 → BitVec 512 → List (BitVec 8) → Bool

/-- The device's ML-DSA-87 signature over a message digest with the given key slot (16 R458). -/
opaque Config.sigMake : Nat → BitVec 512 → List (BitVec 8)

/-- AES-256-GCM decryption of a part succeeds, under the content key its manifest gives this device: manifest digest, part type,
ciphertext (16 R441, R442). -/
opaque Config.gcmOk : BitVec 512 → Nat → List (BitVec 8) → Bool

/-- The measurement digest of index i of the running firmware (16 R459). -/
opaque Config.firmwareDigest : Nat → BitVec 512

/-- The SHA3-512 digest of the public key and certificate chain the part was provisioned with (16 R457, R458). -/
opaque Config.certChain : List (BitVec 8)

/-- Bytes of a monitor stream's buffer, which the spec does not size (01 R25, 10 R285; log 33). -/
opaque Config.streamBuf : Nat

end Sys2Proof
end

