-- ==== Sys2Proof/Machine/Bits.lean ====
section
/-!
DEFINITION. Bit fields, little-endian byte strings, saturating counters, and the operations on sparse tables.
-/

namespace Sys2Proof

/-- Bits [hi:lo] of a word held as a number. -/
def bits (w hi lo : Nat) : Nat := (w >>> lo) % 2 ^ (hi + 1 - lo)

/-- Bit k of a word held as a number. -/
def bit (w k : Nat) : Bool := w.testBit k

/-- Bits [hi:lo] of a register. -/
def fld (r : Reg) (hi lo : Nat) : Nat := bits r.toNat hi lo

/-- The register with bits [hi:lo] set to v. -/
def setFld (r : Reg) (hi lo v : Nat) : Reg :=
  BitVec.ofNat 64 (r.toNat - (fld r hi lo) * 2 ^ lo + (v % 2 ^ (hi + 1 - lo)) * 2 ^ lo)

/-- The bit of a Boolean. -/
def bnat (b : Bool) : Nat := if b then 1 else 0

/-- The set bits of w below n, rising. -/
def setBits (n w : Nat) : List Nat := (List.range n).filter (fun k => w.testBit k)

/-- The word whose set bits are those listed. -/
def bitSet (l : List Nat) : Nat := l.foldl (fun a k => a ||| 2 ^ k) 0

/-- The n low bytes of v, least significant first (R8). -/
def le (n v : Nat) : List Byte :=
  match n with
  | 0 => []
  | k + 1 => BitVec.ofNat 8 v :: le k (v / 256)

/-- The number a little-endian byte string stands for (R8). -/
def unle (l : List Byte) : Nat :=
  match l with
  | [] => 0
  | b :: t => b.toNat + 256 * unle t

/-- n bytes of l from position k, zeros where l ends. -/
def slice (k n : Nat) (l : List Byte) : List Byte :=
  ((l.drop k).take n) ++ List.replicate (n - (l.length - k)) 0

/-- The 256 bits of 32 bytes. -/
def lineOf (l : List Byte) : Line := BitVec.ofNat 256 (unle l)

/-- The 32 bytes of a line. -/
def lineBytes (d : Line) : List Byte := le 32 d.toNat

/-- Addition that saturates at the largest value of w bits. -/
def satAdd (w a b : Nat) : Nat := min (a + b) (2 ^ w - 1)

/-- A signed number as w bits of two's complement. -/
def toTwos (w : Nat) (x : Int) : Nat := (x % (2 ^ w : Nat)).toNat

/-- The signed number that w bits of two's complement stand for. -/
def ofTwos (w c : Nat) : Int :=
  if c % 2 ^ w < 2 ^ (w - 1) then ((c % 2 ^ w : Nat) : Int) else ((c % 2 ^ w : Nat) : Int) - (2 ^ w : Nat)

/-- A signed number clamped to [lo, hi]. -/
def clampI (lo hi x : Int) : Int := if x < lo then lo else if hi < x then hi else x

/-- Quotient rounded up. -/
def ceilDiv (a b : Nat) : Nat := (a + b - 1) / b

/-- Number of one bits among the low n bits of w. -/
def popc (n w : Nat) : Nat := (setBits n w).length

/-- The distance from b forward to a, mod 65,536 (R480). -/
def dist16 (a b : Nat) : Nat := (a + 65536 - b % 65536) % 65536

/-- Lookup in a sparse table whose default at k is d k. -/
def tget {β : Type} (d : Nat → β) (t : Tbl β) (k : Nat) : β :=
  match t with
  | [] => d k
  | (j, v) :: r => if j = k then v else tget d r k

/-- The entry at k removed. -/
def tdel {β : Type} (t : Tbl β) (k : Nat) : Tbl β := t.filter (fun e => e.1 ≠ k)

/-- The entry (k, v) put at its place in a table that holds none at k. -/
def tins {β : Type} (t : Tbl β) (k : Nat) (v : β) : Tbl β :=
  match t with
  | [] => [(k, v)]
  | (j, w) :: r => if k < j then (k, v) :: (j, w) :: r else (j, w) :: tins r k v

/-- Write of v at k; an entry equal to the default is not listed, so equal tables are equal data. -/
def tset {β : Type} [DecidableEq β] (d : Nat → β) (t : Tbl β) (k : Nat) (v : β) : Tbl β :=
  if v = d k then tdel t k else tins (tdel t k) k v

/-- The canonical form: keys strictly rising, no entry equal to the default. -/
abbrev twf {β : Type} [DecidableEq β] (d : Nat → β) (t : Tbl β) : Prop :=
  (t.map Prod.fst).Pairwise (· < ·) ∧ ∀ e ∈ t, e.2 ≠ d e.1

/-- Write of consecutive values from k on. -/
def tsetAll {β : Type} [DecidableEq β] (d : Nat → β) (t : Tbl β) (k : Nat) (vs : List β) : Tbl β :=
  match vs with
  | [] => t
  | v :: r => tsetAll d (tset d t k v) (k + 1) r

/-- Write of the same function at each key listed. -/
def tmapAt {β : Type} [DecidableEq β] (d : Nat → β) (f : Nat → β → β) (ks : List Nat) (t : Tbl β) : Tbl β :=
  ks.foldl (fun t k => tset d t k (f k (tget d t k))) t

/-- Every listed entry changed. -/
def tmapV {β : Type} [DecidableEq β] (d : Nat → β) (f : β → β) (t : Tbl β) : Tbl β :=
  (t.map fun e => (e.1, f e.2)).filter fun e => decide (e.2 ≠ d e.1)

/-- The number at k of a counter table. -/
def cget (t : Tbl Nat) (k : Nat) : Nat := tget (fun _ => 0) t k

/-- The counter at k raised by n, saturating at w bits. -/
def cadd (w : Nat) (t : Tbl Nat) (k n : Nat) : Tbl Nat := tset (fun _ => 0) t k (satAdd w (cget t k) n)

/-- The counter at k set to v. -/
def cset (t : Tbl Nat) (k v : Nat) : Tbl Nat := tset (fun _ => 0) t k v

/-- The first n of the naturals from a on. -/
def rangeFrom (a n : Nat) : List Nat := (List.range n).map (a + ·)

/-- The values of a list at their places, the last n kept. -/
def lastN {β : Type} (n : Nat) (l : List β) : List β := l.drop (l.length - n)

/-- The list with the entry at k replaced by f of it. -/
def modAt {β : Type} (k : Nat) (f : β → β) (l : List β) : List β :=
  match l, k with
  | [], _ => []
  | a :: t, 0 => f a :: t
  | a :: t, k + 1 => a :: modAt k f t

/-- The largest number of a list, 0 of none. -/
def maxL (l : List Nat) : Nat := l.foldl max 0

/-- The sum of a list. -/
def sumL (l : List Nat) : Nat := l.foldl (· + ·) 0

end Sys2Proof
end

