-- ==== Sys2Proof/Machine/Digest.lean ====
section
/-!
DEFINITION. The published functions the spec names: CRC-32C (R208), SHA3-512 (R396) and Philox-4x32-10 (R56).
PRESUMED (log 6): their constants are those of the published standards.
-/

namespace Sys2Proof

/-- One bit step of the reflected CRC-32C. -/
def crcBit (n : Nat) (c : BitVec 32) : BitVec 32 :=
  match n with
  | 0 => c
  | k + 1 => crcBit k (if c.getLsbD 0 then (c >>> 1) ^^^ 0x82F63B78#32 else c >>> 1)

/-- CRC-32C of a byte string: Castagnoli polynomial, reflected, all-ones start and final complement (R208). -/
def crc32c (l : List Byte) : BitVec 32 :=
  ~~~ (l.foldl (fun c b => crcBit 8 (c ^^^ b.setWidth 32)) 0xFFFFFFFF#32)

/- SHA3-512. The permutation's state is 25 lanes of 64 bits as numbers, the lane of column x and row y at place x + 5 y. -/

/-- A 64-bit number turned left by n places. -/
def turn64 (v n : Nat) : Nat := v * 2 ^ (n % 64) % 2 ^ 64 + v / 2 ^ (64 - n % 64)

/-- The lane of column x and row y, both taken modulo 5. -/
def laneOf (st : List Nat) (x y : Nat) : Nat := st.getD (x % 5 + 5 * (y % 5)) 0

/-- Theta: each lane takes in the parities of the column before it and, turned by one, of the column after it. -/
def sha3Mix (st : List Nat) : List Nat :=
  let parity := (List.range 5).map fun x => (List.range 5).foldl (fun p y => p ^^^ laneOf st x y) 0
  st.zipIdx.map fun (v, i) => v ^^^ parity.getD ((i + 4) % 5) 0 ^^^ turn64 (parity.getD ((i + 1) % 5) 0) 1

/-- Rho and pi in one walk: from (x, y) the lane goes to (y, 2 x + 3 y), and the lane that arrives at step t is turned by the
t-th triangular number. What is listed is each place reached, with its lane. -/
def sha3Walk (n t x y : Nat) (st : List Nat) : List (Nat × Nat) :=
  match n with
  | 0 => []
  | k + 1 =>
    let x2 := y; let y2 := (2 * x + 3 * y) % 5
    (x2 + 5 * y2, turn64 (laneOf st x y) (t * (t + 1) / 2)) :: sha3Walk k (t + 1) x2 y2 st

/-- The state after the walk; lane 0 stays. -/
def sha3Move (st : List Nat) : List Nat :=
  (sha3Walk 24 1 1 0 st).foldl (fun out (i, v) => out.set i v) st

/-- Chi: each lane takes in the lane two columns on where the lane one column on has a 0. -/
def sha3Bend (st : List Nat) : List Nat :=
  st.zipIdx.map fun (v, i) => v ^^^ ((laneOf st (i + 1) (i / 5) ^^^ (2 ^ 64 - 1)) &&& laneOf st (i + 2) (i / 5))

/-- The 8-bit shift register that gives the bits of iota. -/
def iotaStep (r : Nat) : Nat := if r < 128 then 2 * r else (2 * r) ^^^ 0x171

/-- The next seven bits of the register go to places 1, 2, 4, ..., 64 of the round's constant (bit 2^j - 1); with them, the register. -/
def iotaWord (n j r : Nat) : Nat × Nat :=
  match n with
  | 0 => (0, r)
  | k + 1 => let (w, r2) := iotaWord k (j + 1) (iotaStep r); (w + r % 2 * 2 ^ (2 ^ j - 1), r2)

/-- n rounds, with the register of iota as the round before left it. -/
def sha3Rounds (n r : Nat) (st : List Nat) : List Nat :=
  match n with
  | 0 => st
  | k + 1 =>
    let (w, r2) := iotaWord 7 0 r
    match sha3Bend (sha3Move (sha3Mix st)) with
    | l0 :: rest => sha3Rounds k r2 ((l0 ^^^ w) :: rest)
    | [] => []

/-- The message with the two domain bits, the first pad bit and, at the end of its last 72-byte block, the last pad bit. -/
def sha3Padded (m : List Byte) : List Byte :=
  let tail := 0x06#8 :: List.replicate (71 - m.length % 72) 0#8
  m ++ tail.dropLast ++ [tail.getLastD 0#8 ||| 0x80#8]

/-- SHA3-512 (FIPS 202) as 64 bytes: each block's nine lanes are added to the state, which is then permuted. -/
def sha3 (m : List Byte) : List Byte :=
  let p := sha3Padded m
  let out := (List.range (p.length / 72)).foldl (fun st b =>
    sha3Rounds 24 1 (st.zipIdx.map fun (v, i) => if i < 9 then v ^^^ unle (slice (72 * b + 8 * i) 8 p) else v)) (List.replicate 25 0)
  (out.take 8).flatMap (le 8)

/-- SHA3-512 as one number, byte 0 least significant. -/
def sha3Num (m : List Byte) : BitVec 512 := BitVec.ofNat 512 (unle (sha3 m))

/-- One round of Philox-4x32: counter words and key words. -/
def philoxRound (c : Nat × Nat × Nat × Nat) (k : Nat × Nat) : Nat × Nat × Nat × Nat :=
  let p0 := 0xD2511F53 * c.1
  let p1 := 0xCD9E8D57 * c.2.2.1
  let m := 2 ^ 32
  ((p1 / m) ^^^ c.2.1 ^^^ k.1, p1 % m, (p0 / m) ^^^ c.2.2.2 ^^^ k.2, p0 % m)

/-- n rounds of Philox-4x32 with the key raised after each. -/
def philox (n : Nat) (c : Nat × Nat × Nat × Nat) (k : Nat × Nat) : Nat × Nat × Nat × Nat :=
  match n with
  | 0 => c
  | j + 1 => philox j (philoxRound c k) ((k.1 + 0x9E3779B9) % 2 ^ 32, (k.2 + 0xBB67AE85) % 2 ^ 32)

/-- The generator word u of SR-SEEDED: seed, tick, requantisation point, element (R56). -/
def srWord (seed tick point elem : Nat) : Nat :=
  (philox 10 (tick % 2 ^ 32, tick / 2 ^ 32 % 2 ^ 32, point, elem) (seed % 2 ^ 32, seed / 2 ^ 32 % 2 ^ 32)).1

end Sys2Proof
end

