-- ==== Sys2Proof/Machine/Number.lean ====
section
/-!
DEFINITION. Narrow numbers: widening, packing, rounding, clamping and encoding (02).
-/

namespace Sys2Proof

/-- The format of a code (R35). -/
def fmtOf (c : Nat) : Option Fmt :=
  [Fmt.int4, .uint4, .fp4, .fp4b, .int3, .int2, .tern, .bin1, .int8, .int16, .int32][c]?

/-- The 4-bit code of a format (R35). -/
def fmtCode (f : Fmt) : Nat :=
  match f with
  | .int4 => 0 | .uint4 => 1 | .fp4 => 2 | .fp4b => 3 | .int3 => 4 | .int2 => 5 | .tern => 6 | .bin1 => 7
  | .int8 => 8 | .int16 => 9 | .int32 => 10

/-- Bits of one element (R35, R36). -/
def fmtWidth (f : Fmt) : Nat :=
  match f with
  | .int2 | .tern => 2 | .bin1 => 1 | .int8 => 8 | .int16 => 16 | .int32 => 32
  | _ => 4

/-- Elements of one 256-bit word (R36). -/
def fmtCount (f : Fmt) : Nat := 256 / fmtWidth f

/-- Formats an output may have (R35). -/
def fmtOutput (f : Fmt) : Bool := match f with | .fp4b | .int32 => false | _ => true

/-- The magnitudes of an FP4 result in doubled units (R40, R58). -/
def fp4Grid : List Nat := [0, 1, 2, 3, 4, 6, 8, 12, 16]

/-- A code widened to the integer form of the array, none when it is invalid (R60). -/
def codeVal (f : Fmt) (c : Nat) : Option Int :=
  match f with
  | .uint4 => some (c : Int)
  | .fp4 | .fp4b => some ((if c.testBit 3 then -1 else 1) * ((fp4Grid.getD (c % 8) 0 : Nat) : Int))
  | .int3 => if c.testBit 3 = c.testBit 2 then some (ofTwos 4 c) else none
  | .tern => if c = 2 then none else some (ofTwos 2 c)
  | .bin1 => some (if c.testBit 0 then -1 else 1)
  | _ => some (ofTwos (fmtWidth f) c)

/-- Element i of a word (R36). -/
def elem (f : Fmt) (d : Line) (i : Nat) : Nat := bits d.toNat (fmtWidth f * (i + 1) - 1) (fmtWidth f * i)

/-- The values of all elements of a word; an invalid code gives none at its place. -/
def unpack (f : Fmt) (d : Line) : List (Option Int) := (List.range (fmtCount f)).map fun i => codeVal f (elem f d i)

/-- Codes packed densely, element 0 lowest (R36). -/
def packCodes (w : Nat) (l : List Nat) : Line :=
  BitVec.ofNat 256 (l.foldr (fun c a => c % 2 ^ w + a * 2 ^ w) 0)

/-- Integers packed as two's complement elements of w bits. -/
def packInts (w : Nat) (l : List Int) : Line := packCodes w (l.map (toTwos w))

/-- The code of an exact value of an output format; an FP4 value is in doubled units (R37 to R40, R63). -/
def encodeVal (f : Fmt) (x : Int) : Nat :=
  match f with
  | .fp4 | .fp4b =>
    if x = 0 then 0 else (if x < 0 then 8 else 0) + ((fp4Grid.findIdx? (· = x.natAbs)).getD 0)
  | .uint4 => x.toNat % 16
  | .bin1 => if x < 0 then 1 else 0
  | _ => toTwos (fmtWidth f) x

/-- The rational p / 2^s rounded to an integer with generator word u (R55). -/
def roundInt (r : Rnd) (p : Int) (s u : Nat) : Int :=
  let q : Int := (2 ^ s : Nat)
  let f := p / q
  let g := p % q
  match r with
  | .rne => if 2 * g < q then f else if q < 2 * g then f + 1 else if f % 2 = 0 then f else f + 1
  | .rtz => if 0 ≤ p ∨ g = 0 then f else f + 1
  | .srSeeded | .srEntropy => if (u : Int) < g * 2 ^ 32 / q then f + 1 else f

/-- |p| / 2^s rounded to the FP4 grid, the sign put back (R58). -/
def roundFp4 (r : Rnd) (p : Int) (s u : Nat) : Int :=
  let q := 2 ^ s
  let n := p.natAbs
  let i := (fp4Grid.filter (fun g => g * q ≤ n)).length - 1   -- grid index of g_lo
  let m :=
    if 8 ≤ i then 16 else
      let lo := fp4Grid.getD i 0
      let hi := fp4Grid.getD (i + 1) 16
      let d := n - lo * q          -- r = d / ((hi - lo) q)
      let w := (hi - lo) * q
      match r with
      | .rne => if 2 * d < w then lo else if w < 2 * d then hi else if i % 2 = 0 then lo else hi
      | .rtz => lo
      | .srSeeded | .srEntropy => if u < d * 2 ^ 32 / w then hi else lo
  if p < 0 then -(m : Int) else (m : Int)

/-- One element through a requantisation point: the sum a, multiplier m, shift s, generator word u (R54, R62, R63).
Answers the code and whether the element was clamped. -/
def requant (o : OutSpec) (m s u : Nat) (a : Int) : Nat × Bool :=
  let p := a * (m : Int)
  match o.fmt with
  | .bin1 => (if p < 0 then 1 else 0, false)
  | .fp4 | .fp4b =>
    let x := roundFp4 o.rnd p s u
    let y := clampI o.lo o.hi x
    (encodeVal .fp4 y, decide (y ≠ x))
  | f =>
    let x := roundInt o.rnd p s u + (if f = .uint4 then (o.zp : Int) else 0)
    let y := clampI o.lo o.hi x
    (encodeVal f y, decide (y ≠ x))

/-- The range a clamp range must lie in (R54, R63). -/
def fmtRange (f : Fmt) : Int × Int :=
  match f with
  | .int4 => (-8, 7) | .uint4 => (0, 15) | .fp4 | .fp4b => (-12, 12) | .int3 => (-4, 3) | .int2 => (-2, 1)
  | .tern => (-1, 1) | .bin1 => (-1, 1) | .int8 => (-128, 127) | .int16 => (-32768, 32767)
  | .int32 => (-2147483648, 2147483647)

/-- A clamp range that the loader and GROUP_SET accept (R54, R63). -/
def outSpecOk (o : OutSpec) : Bool :=
  let r := fmtRange o.fmt
  fmtOutput o.fmt && decide (r.1 ≤ o.lo ∧ o.lo ≤ o.hi ∧ o.hi ≤ r.2) && decide (o.zp < 16) &&
  (if o.fmt = .fp4 then decide (o.lo = -o.hi) && fp4Grid.contains o.hi.toNat else true)

/-- The constant qmax as numerator over denominator 1 (R70). -/
def qmax (f : Fmt) (zp : Nat) : Nat :=
  match f with
  | .int4 => 7 | .int3 => 3 | .int2 | .tern | .bin1 => 1 | .uint4 => 15 - zp | .fp4 | .fp4b => 6
  | .int8 => 127 | .int16 => 32767 | .int32 => 2147483647

/-- The matrix modes of R46, narrowest first (R47). -/
def fmtMode (f : Fmt) : Nat :=
  match f with
  | .bin1 => 0 | .int2 | .tern => 1 | .int8 | .int16 | .int32 => 3 | _ => 2

/-- Reduction elements per cycle for an activation and a weight format (R46, R47). -/
def reductionOf (a w : Fmt) : Nat :=
  let k := max (fmtMode a) (fmtMode w)
  if k = 0 then 256 else if k = 1 then 128 else if k = 2 then 64 else 32

end Sys2Proof
end

