-- ==== Sys2Proof/Machine/Scale.lean ====
section
/-!
DEFINITION. Scaling on the fly: the S16 word, the derivation of scales, the combined multiplier and the
scale-state entry (02 R44, R45; 03).
-/

namespace Sys2Proof

/-- The value of an S16 word times 2^41; E = 63 is the value of 0xFBFF (R44, R45, R513). -/
def s16Val (w : Nat) : Nat :=
  let w := if 63 * 1024 ≤ w then 0xFBFF else w
  (1024 + w % 1024) * 2 ^ (w / 1024)

/-- A normal S16 word (R45). -/
def s16Normal (w : Nat) : Bool := decide (1024 ≤ w ∧ w < 63 * 1024)

/-- The scale word resolved to a normal encoding with the point's floor (R45, R65). -/
def s16Resolve (floor w : Nat) : Nat :=
  if w < 1024 then floor else if 63 * 1024 ≤ w then 0xFBFF else w

/-- S16_UP of the rational n / d, both already scaled so that the value is n / (d 2^41) (R68). -/
def s16Up (n d : Nat) : Nat :=
  if n = 0 then 0
  else
    match (rangeFrom 1 62).find? (fun e => ceilDiv n (d * 2 ^ e) ≤ 2047) with
    | none => 0xFC00
    | some e => e * 1024 + (max 1024 (ceilDiv n (d * 2 ^ e)) - 1024)

/-- RECIP[F] (R75). -/
def recip (f : Nat) : Nat := (2 ^ 22 + (1024 + f)) / (2 * (1024 + f))

/-- Bits needed to write n. -/
def bitLength (n : Nat) : Nat := if n = 0 then 0 else Nat.log2 n + 1

/-- What a multiplier build gives: m, s, and whether MULT_HIGH or MULT_LOW counts (R76, R77). -/
structure Mult where
  m : Nat
  s : Nat
  high : Bool := false
  low : Bool := false
  deriving DecidableEq, Repr

/-- The combined multiplier of the input, weight and output scale words (R76, R77); so is already resolved. -/
def buildMult (f : Fmt) (sa sw so : Nat) : Mult :=
  let p := (1024 + sa % 1024) * (1024 + sw % 1024) * recip (so % 1024)
  let k0 := bitLength p - 24
  let m0 := (2 * p + 2 ^ k0) / 2 ^ (k0 + 1)
  let (m, k) := if m0 = 2 ^ 24 then (2 ^ 23, k0 + 1) else (m0, k0)
  let d := if f = .fp4 then 1 else 0
  let s : Int := 62 + (so / 1024 : Nat) - (sa / 1024 : Nat) - (sw / 1024 : Nat) - (k : Nat) - (d : Nat)
  if s < 0 then ⟨16777215, 0, true, false⟩
  else if 62 < s then
    let t := (s - 62).toNat
    let m' := (2 * m + 2 ^ t) / 2 ^ (t + 1)
    ⟨if m' = 0 then 1 else m', 62, false, true⟩
  else ⟨m, s.toNat, false, false⟩

/-- The window N of an entry (R70). -/
def winN (e : ScaleEntry) : Nat := 2 ^ e.win

/-- The N most recent history entries, newest first (R71). -/
def histNewest (e : ScaleEntry) (n : Nat) : List Nat :=
  (List.range n).map fun i => e.hist.getD ((e.hptr + 15 - i) % 16) 0

/-- H as a fraction of 4 (R70). -/
def headQuarters (h : Nat) : Nat := if h = 0 then 4 else if h = 1 then 5 else if h = 2 then 6 else 8

/-- The scale word of the next tick from the history, with SCALE_SAT counted (R71, R513). -/
def deriveScale (f : Fmt) (zp : Nat) (e : ScaleEntry) : ScaleEntry :=
  if e.fill < winN e then { e with sCur := e.sSeed }
  else
    let m := maxL (histNewest e (winN e))
    if m = 0 then { e with sCur := 0 }
    else
      let w := s16Up (s16Val m * headQuarters e.head) (4 * qmax f zp)
      if w = 0xFC00 then { e with sCur := 0xFC00, scaleSat := satAdd 16 e.scaleSat 1 }
      else if s16Val w < s16Val e.sFloor then { e with sCur := 0 }
      else { e with sCur := w }

/-- The member scale as a normal encoding (R65, R82). -/
def memberScale (e : ScaleEntry) : Nat := s16Resolve e.sFloor e.sCur

/-- The group scale: the largest member scale (R65). -/
def groupScale (es : List ScaleEntry) : Nat := maxL (es.map memberScale)

/-- What one point saw in one tick. -/
structure PointTick where
  peak : Nat            -- S16 word of R69
  allPoison : Bool
  allZero : Bool        -- every unpoisoned element exactly zero, at least one unpoisoned (R88)
  sats : Nat            -- clamped elements
  deriving DecidableEq, Repr

/-- The history write of R73 and R74. -/
def pushPeak (p : PointTick) (e : ScaleEntry) : ScaleEntry :=
  let w := if p.allPoison then e.hist.getD ((e.hptr + 15) % 16) 0 else p.peak
  if p.allPoison && e.fill == 0 then e
  else { e with hist := modAt e.hptr (fun _ => w) e.hist, hptr := (e.hptr + 1) % 16, fill := min 16 (e.fill + 1) }

/-- The drift window of a tick (R89): SAT_WIN starts from zero in each, whether or not the point takes part in its first tick. -/
def openDrift (tick : Nat) (e : ScaleEntry) : ScaleEntry :=
  { e with satWin := if tick / 2 ^ e.driftK = e.countedAt / 2 ^ e.driftK then e.satWin else 0, countedAt := tick }

/-- Saturation and flat counts of one tick; answers whether SCALE_DRIFT and FLAT_EVENT are raised (R88 to R90). -/
def countTick (tick : Nat) (p : PointTick) (e0 : ScaleEntry) : ScaleEntry × Bool × Bool :=
  let e := openDrift tick e0
  let sw := min 65535 (e.satWin + p.sats)
  let drift := decide (e.satThresh ≠ 0 ∧ e.satWin < e.satThresh ∧ e.satThresh ≤ sw)
  let run := if p.allPoison then e.flatRun else if p.allZero then min 65535 (e.flatRun + 1) else 0
  let flatEv := e.flatEvent && p.allZero && !p.allPoison && decide (run = e.flatTicks ∧ e.flatRun < e.flatTicks)
  ({ e with sat := satAdd 32 e.sat p.sats, satWin := sw, flatRun := run,
            flat := if p.allZero && !p.allPoison then satAdd 32 e.flat 1 else e.flat }, drift, flatEv)

/-- A multiplier build counted (R77). -/
def countMult (x : Mult) (e : ScaleEntry) : ScaleEntry :=
  { e with multHigh := satAdd 8 e.multHigh (bnat x.high), multLow := satAdd 8 e.multLow (bnat x.low) }

/-- The peak and the zero test of a point's elements: magnitudes with their scales, each product times 2^d (R69, R88). -/
def pointTick (els : List (Option (Nat × Nat))) (d sats : Nat) : PointTick :=
  let vs := els.filterMap id
  { peak := s16Up (maxL (vs.map fun v => v.1 * v.2)) d
    allPoison := vs.isEmpty
    allZero := vs.all (fun v => v.1 = 0) && !vs.isEmpty
    sats := sats }

/-- The counters and history cleared at ARM (R73, R91). -/
def clearScale (e : ScaleEntry) : ScaleEntry :=
  { e with hptr := 0, fill := 0, sat := 0, satWin := 0, flat := 0, flatRun := 0, scaleSat := 0,
           multHigh := 0, multLow := 0, countedAt := 0, hist := List.replicate 16 0 }

/-- A row-slot point at ARM or load: S_CUR of its first tick is written ahead of it (R71, R86). -/
def armPoint (e : ScaleEntry) : ScaleEntry := { clearScale e with sCur := e.sSeed }

/-- The loader's check of an entry (R92, R45). -/
def scaleEntryOk (e : ScaleEntry) : Bool :=
  decide (e.win ≤ 4 ∧ e.driftK ≤ 24 ∧ e.head < 4 ∧ e.satThresh < 65536 ∧ e.flatTicks < 65536) &&
  !(e.flatEvent && e.flatTicks == 0) && s16Normal e.sFloor && s16Normal e.sSeed && decide (e.sFloor ≤ e.sSeed)

/-- The 64 bytes of an entry (R92). -/
def scaleBytes (e : ScaleEntry) : List Byte :=
  (e.hist.flatMap (le 2)) ++ le 2 e.sCur ++ le 2 e.sFloor ++ le 2 e.sSeed ++
  le 1 (128 * bnat e.flatEvent + 8 * e.head + e.win) ++ le 1 e.hptr ++ le 1 e.fill ++ le 1 e.driftK ++
  le 2 e.satThresh ++ le 2 e.flatTicks ++ le 2 e.flatRun ++ le 4 e.sat ++ le 2 e.satWin ++ le 2 e.scaleSat ++
  le 4 e.flat ++ le 1 e.multHigh ++ le 1 e.multLow ++ le 2 0

/-- The same configuration fields, S_FLOOR to FLAT_TICKS (R94). -/
def sameScaleCfg (a b : ScaleEntry) : Bool :=
  a.sFloor == b.sFloor && a.sSeed == b.sSeed && a.flatEvent == b.flatEvent && a.head == b.head && a.win == b.win &&
  a.driftK == b.driftK && a.satThresh == b.satThresh && a.flatTicks == b.flatTicks

/-- The state fields of a saved entry put back under the loaded configuration (R94). -/
def restoreScale (noHist : Bool) (saved cur : ScaleEntry) : ScaleEntry :=
  let e := { saved with sFloor := cur.sFloor, sSeed := cur.sSeed, flatEvent := cur.flatEvent, head := cur.head,
                        win := cur.win, driftK := cur.driftK, satThresh := cur.satThresh, flatTicks := cur.flatTicks }
  if noHist then { e with sCur := e.sSeed, fill := 0, hptr := 0, hist := List.replicate 16 0 } else e

/-- A 32-bit scale word (R82). -/
def scaleWord (tag fmt zp scale : Nat) : Nat :=
  (tag % 64) * 2 ^ 26 + (fmt % 16) * 2 ^ 20 + (zp % 16) * 2 ^ 16 + scale % 65536

/-- The block tag (R83). -/
def blockTag (tick nb b : Nat) : Nat := (tick * nb + b) % 64

end Sys2Proof
end

