-- ==== Sys2Proof/Machine/FrontEnd.lean ====
section
/-!
DEFINITION. The channel front end: frames, alignment, calibration, groups, primitive units, OR groups and
measurement engines (08). Register contents are read through a function of the BAR0 offset.
-/

namespace Sys2Proof

/-- LANE_CFG of a lane as a number (R204, R472). -/
def laneCfgOff (l : Nat) : Nat := 0x81000 + 16 * l
/-- CTX of a channel (R214, R472). -/
def ctxOff (c : Nat) : Nat := 0x90000 + 4 * c

/-- The fields of LANE_CFG (R204). -/
structure LaneCfg where
  en : Bool
  ringEn : Bool
  signed : Bool
  w : Nat
  s : Nat
  ch : Nat
  id : Nat
  deriving DecidableEq, Repr

def laneCfg (rd : Nat → Nat) (l : Nat) : LaneCfg :=
  let v := rd (laneCfgOff l)
  let c := bits v 20 13
  { en := bit v 31, ringEn := bit v 30, signed := bit v 29, w := bits v 28 25 + 8, s := bits v 24 21 + 1,
    ch := if c = 0 then 256 else c, id := bits v 12 5 }

/-- PLEN in words (R205). -/
def lanePlen (k : LaneCfg) : Nat := ceilDiv (k.ch * k.s * k.w) 32

/-- CTX fields (R214). -/
def ctxEn (rd : Nat → Nat) (c : Nat) : Bool := bit (rd (ctxOff c)) 31
def ctxLane (rd : Nat → Nat) (c : Nat) : Nat := bits (rd (ctxOff c)) 30 24
def ctxPos (rd : Nat → Nat) (c : Nat) : Nat := bits (rd (ctxOff c)) 23 16

/-- Lane state and its update. -/
def laneAt (f : Fe) (l : Nat) : LaneSt := tget (fun _ => {}) f.lanes l
def setLane (f : Fe) (l : Nat) (x : LaneSt) : Fe := { f with lanes := tset (fun _ => {}) f.lanes l x }
def laneCount (k : Nat) (x : LaneSt) : LaneSt := { x with cnt := cadd 32 x.cnt k 1 }

def groupAt (f : Fe) (g : Nat) : GroupSt := tget (fun _ => {}) f.groups g
def unitAt (f : Fe) (u : Nat) : PrimUnit := tget (fun _ => {}) f.units u
def pedAt (f : Fe) (c : Nat) : Int := tget (fun _ => (0 : Int)) f.ped c
def gainAt (f : Fe) (c : Nat) : Nat := tget (fun _ => 0x4000) f.gain c
def scalAt (f : Fe) (c : Nat) : Nat := tget (fun _ => 0x7C00) f.scal c
def chanScale (f : Fe) (c : Nat) : ScaleEntry := tget (fun _ => { hist := List.replicate 16 0 }) f.scale c

/-- The scale-state entry of a channel outside every group (R215). -/
def zeroScale : ScaleEntry := { hist := List.replicate 16 0 }

def setChanScale (f : Fe) (c : Nat) (e : ScaleEntry) : Fe :=
  { f with scale := tset (fun _ => { hist := List.replicate 16 0 }) f.scale c e }

/-! ### Frames -/

/-- The oldest tick P with A(P) > x (R209). -/
def oldestOpen (ii depth x : Nat) : Nat := if x < depth then 0 else (x - depth) / ii + 1

/-- Bytes of 32-bit words. -/
def wordBytes (ws : List (BitVec 32)) : List Byte := ws.flatMap fun w => le 4 w.toNat

/-- The header of a frame agrees with LANE_CFG (R206, R209). -/
def headerOk (k : LaneCfg) (w1 w2 : Nat) : Bool :=
  decide (bits w1 31 24 = k.ch % 256 ∧ bits w1 23 16 = k.id ∧ bits w2 31 16 = lanePlen k ∧ bits w2 15 11 = 0 ∧
    bits w2 8 8 = 0 ∧ bits w2 7 4 = k.w - 8 ∧ bits w2 3 0 = k.s - 1) && (bit w2 9 == k.signed)

/-- The start of a frame, which the receiver searches for (R206, R208). -/
def sofWord : BitVec 32 := 0xC2A53E1D#32

/-- A complete frame arriving at grid cycle x; words from SOF to CRC (R209, R211, R212). Answers the lane and the
events raised. -/
def frameArrive (k : LaneCfg) (ii depth : Nat) (lane : Nat) (ws : List (BitVec 32)) (x : Nat) (st : LaneSt) :
    LaneSt × List Ev :=
  let n := lanePlen k
  let w (i : Nat) : Nat := (ws.getD i 0#32).toNat
  let crcOk := crc32c (wordBytes ((ws.drop 1).take (n + 2))) == ws.getD (n + 3) 0#32
  let hdrOk := headerOk k (w 1) (w 2)
  let good := crcOk && hdrOk
  let ev : List Ev := if !st.up && good then [{ code := 0x0021, sev := 0, origin := lane }] else []
  let st := if good then { st with up := true, noGood := 0 } else st
  if !st.up then (st, [])
  else if !crcOk then (laneCount 0 st, ev)
  else if !hdrOk then (laneCount 1 st, ev)
  else
    let p := oldestOpen ii depth x
    let d := (bits (w 1) 15 0 + 65536 - p % 65536) % 65536
    let t := p + d
    if 32768 ≤ d then (laneCount 2 st, ev)
    else if st.held.any (fun h => h.tick % 65536 == bits (w 1) 15 0) then (laneCount 3 st, ev)
    else if d ≤ 1 then
      let o : Int := (x : Int) - (t * ii : Nat)
      ({ st with held := st.held ++ [{ tick := t, srcErr := bit (w 2) 10, payload := wordBytes ((ws.drop 3).take n) }]
                 ofsMin := some (match st.ofsMin with | none => o | some m => min m o)
                 ofsMax := some (match st.ofsMax with | none => o | some m => max m o) }, ev)
    else ({ (laneCount 4 st) with held := [] }, ev)

/-- A lane falling DOWN (R212). -/
def laneFall (lane : Nat) (st : LaneSt) : LaneSt × List Ev :=
  if st.up then (laneCount 7 { st with up := false, held := [], noGood := 0 }, [{ code := 0x0020, sev := 3, origin := lane }])
  else (st, [])

/-- The release of one lane at A(T): the lane after it, the payload when present, and events (R210, R212). -/
def laneRelease (t lane : Nat) (st : LaneSt) : LaneSt × Option (List Byte) × List Ev :=
  let fr := st.held.find? (fun h => h.tick == t)
  let st1 := { st with held := st.held.filter (fun h => decide (t < h.tick)) }
  let (st2, pay) := match fr with
    | none => (laneCount 6 st1, none)
    | some h => if h.srcErr then (laneCount 5 st1, none) else (st1, some h.payload)
  let st3 := { st2 with noGood := st2.noGood + 1 }
  if st3.up && decide (16 < st3.noGood) then
    let (st4, ev) := laneFall lane st3
    (st4, pay, ev)
  else (st3, pay, [])

/-! ### Samples and calibration -/

/-- Sample s of lane position j in a payload (R207). -/
def rawSample (k : LaneCfg) (payload : Nat) (j s : Nat) : Int :=
  let i := j * k.s + s
  let c := bits payload (k.w * i + k.w - 1) (k.w * i)
  if k.signed then ofTwos k.w c else (c : Int)

/-- The calibrated sample (R218). -/
def calibrate (ped : Int) (gain : Nat) (x : Int) : Int := roundInt .rne ((16 * x - ped) * (gain : Int)) 18 0

/-- What one channel gives in a tick: calibrated samples, and whether it is missing. -/
structure ChanTick where
  chan : Nat
  samples : List Int
  missing : Bool
  deriving DecidableEq, Repr

/-- The group a channel lies in the range of, if any (R215). -/
def groupOf (f : Fe) (c : Nat) : Option (Nat × GroupSt) :=
  f.groups.find? (fun e => e.2.set && decide (e.2.d.first ≤ c ∧ c < e.2.d.first + e.2.d.count))

/-- The samples of a channel under its group's missing-data policy; none under POISON (R213). -/
def policySamples (f : Fe) (miss s : Nat) (ct : ChanTick) : Option (List Int) :=
  if !ct.missing then some ct.samples
  else if miss = 2 then none
  else if miss = 1 then some (match f.hold.find? (fun e => e.1 == ct.chan) with | some e => e.2 | none => List.replicate s 0)
  else some (List.replicate s 0)

/-- The elements a channel gives under a FEATURE (R216). -/
def featureEls (feature : Nat) (c : List Int) : List Int :=
  if feature = 1 then [c.foldl (· + ·) 0]
  else if feature = 2 then
    [c.foldl (fun (b : Int) x => if b.natAbs < x.natAbs then x else b) (c.headD 0)]
  else c

/-- Elements per channel (R216). -/
def featureK (feature s : Nat) : Nat := if feature = 0 then s else 1

/-- The output specification of a group (R215). -/
def groupOut (d : GroupDesc) : OutSpec :=
  { fmt := (fmtOf d.fmt).getD .int4, rnd := if d.rtz then .rtz else .rne, lo := d.lo, hi := d.hi, zp := d.zp }

/-- One group in one tick: the feature words, the members' entries after it, and events (R216, R65, R69 to R74, R87 to R90).
advance is false while the device is PAUSED. A channel that is missing under POISON has no values to scale, and its tick counts neither
MULT_HIGH nor MULT_LOW (R77 is silent on it; DESIGN CHOICE, log 129). -/
def groupTick (f : Fe) (advance : Bool) (t : Nat) (gs : GroupSt) (members : List (Nat × Option (List Int))) :
    FeatOut × List (Nat × ScaleEntry) × List Ev :=
  let o := groupOut gs.d
  let kc := featureK gs.d.feature gs.s
  let entry (c : Nat) := deriveScale o.fmt o.zp (chanScale f c)
  let gsc := groupScale (members.map fun m => entry m.1)
  let res : List (Nat × List Nat × Bool × ScaleEntry × PointTick) := members.map fun (c, so) =>
    let e := entry c
    match so with
    | none =>
      let pt : PointTick := { peak := 0, allPoison := true, allZero := false, sats := 0 }
      (c, ([] : List Nat), true, e, pt)
    | some cs =>
      let els := featureEls gs.d.feature cs
      let m := buildMult o.fmt (scalAt f c) 0x7C00 (s16Resolve e.sFloor gsc)
      let rs := els.map fun a => requant o m.m m.s 0 a
      let pt := pointTick (els.map fun (a : Int) => some (a.natAbs, s16Val (scalAt f c))) 1 (rs.filter (·.2)).length
      (c, rs.map (·.1), false, countMult m e, pt)
  let outs : List (Nat × List Nat × Bool × ScaleEntry × List Ev) := res.map fun (c, cs, p, e, pt) =>
    let x := countTick t pt e
    let e' := pushPeak pt x.1
    let evs : List Ev :=
      (if x.2.1 then [{ code := 0x0010, sev := 0, origin := 0xFFFF, body := le 2 c ++ le 8 t ++ le 2 x.1.satWin }] else []) ++
      (if x.2.2 then [{ code := 0x0011, sev := 0, origin := 0xFFFF, body := le 2 c ++ le 2 x.1.flatRun }] else [])
    (c, cs, p, e', evs)
  let z0 := if o.fmt = .uint4 then o.zp % 16 else 0
  let codeOf (i : Nat) : Nat × Bool :=
    match outs.find? (fun r => r.1 == gs.d.first + i / kc) with
    | some (_, cs, p, _, _) => if p then (0, true) else (cs.getD (i % kc) z0, false)
    | none => (z0, false)
  let n := gs.d.count * kc
  let words := (List.range (ceilDiv n 64)).map fun w =>
    let cs := (List.range 64).map fun i => if 64 * w + i < n then codeOf (64 * w + i) else (z0, false)
    if cs.any (·.2) then (0#256, true) else (packCodes 4 (cs.map (·.1)), false)
  ({ tick := t, words := words, scale := gsc, zp := if o.fmt = .uint4 then o.zp else 0, fmt := gs.d.fmt },
   if advance then outs.map (fun r => (r.1, r.2.2.2.1)) else [],
   if advance then outs.flatMap (fun r => r.2.2.2.2) else [])

/-! ### Primitive units -/

/-- The comparator of R223. -/
def comparator (t : Int) (h : Nat) (q : Bool) (y : Int) : Bool :=
  if t ≤ y then true else if y < t - h then false else q

/-- One sample through a unit; answers whether it fires (R225). -/
def unitSample (u : PrimUnit) (c : Int) : PrimUnit × Bool :=
  let d := u.d
  let y := if d.pol then -c else c
  let t1 := if d.pol then -d.ta else d.ta
  let t2 := if d.pol then -d.tb else d.tb
  let n := u.n + 1
  match d.kind with
  | 0 =>
    let q := comparator t1 d.hyst u.q1 y
    let w := if q then (if u.q1 then min 4096 (u.w + 1) else 1) else 0
    let fall := u.q1 && !q
    let fire := if d.mode = 0 then fall && decide (d.wmin ≤ u.w ∧ u.w ≤ d.wmax)
                else q && decide (w = d.wmin) && !(u.q1 && decide (u.w = w))
    ({ u with q1 := q, w := w, n := n }, fire)
  | 1 =>
    let q := comparator t1 d.hyst u.q1 y
    let q2 := comparator t2 d.hyst u.q2 y
    let clean := if q && !u.q1 then !q2 else if q then u.clean && !q2 else u.clean
    let fire := u.q1 && !q && u.clean && !q2
    ({ u with q1 := q, q2 := q2, clean := clean, n := n }, fire)
  | 2 =>
    let q := comparator t1 d.hyst u.q1 y
    let rise := q && !u.q1
    let fall := u.q1 && !q
    let cross := (rise && d.mode.testBit 0) || (fall && d.mode.testBit 1)
    let since := if cross then 0 else u.since + 1
    let tout := d.tb.toNat
    let fire := !cross && decide (tout ≠ 0) &&
      (if d.mode.testBit 2 then decide (since % tout = 0) else decide (since = tout))
    ({ u with q1 := q, since := since, n := n }, fire)
  | _ =>
    let old := u.hist.getD (d.k - 1) 0
    let ready := decide (d.k ≤ u.n)
    let dlt := c - old
    let yy := if d.mode % 4 = 1 then dlt else if d.mode % 4 = 2 then -dlt else (dlt.natAbs : Int)
    let q := if ready then comparator d.ta d.hyst u.q1 yy else u.q1
    ({ u with q1 := q, hist := (c :: u.hist).take 16, n := n }, ready && q && !u.q1)

/-- One tick of samples through a unit (R225, R226). -/
def unitTick (u : PrimUnit) (cs : List Int) : PrimUnit × Bool :=
  cs.foldl (fun (u, f) c => let (u', g) := unitSample u c; (u', f || g)) (u, false)

/-- The unit state as at ARM (R226). -/
def unitReset (u : PrimUnit) : PrimUnit := { d := u.d, fireCount := u.fireCount }

/-- A descriptor that PRIM_SET accepts (R224). -/
def primOk (d : PrimDesc) : Bool :=
  if !d.en then true
  else
    decide (d.kind ≤ 3 ∧ d.hyst ≤ 65535 ∧ -1048576 ≤ d.ta ∧ d.ta ≤ 1048575 ∧ 1 ≤ d.k ∧ d.k ≤ 16) &&
    d.orsel.all (fun g => decide (g < 512)) && decide (d.orsel.length ≤ 4) &&
    (match d.kind with
     | 0 => decide (d.mode ≤ 1 ∧ d.tb = 0 ∧ 1 ≤ d.wmin ∧ d.wmin ≤ 4095 ∧ d.wmin ≤ d.wmax ∧ d.wmax ≤ 4095)
     | 1 => decide (d.mode = 0) && (if d.pol then decide (d.tb < d.ta) else decide (d.ta < d.tb))
     | 2 => decide (d.mode % 4 ≠ 0 ∧ d.mode ≤ 7 ∧ 1 ≤ d.tb ∧ d.tb ≤ 16777215)
     | _ => decide (d.mode % 4 ≠ 0 ∧ d.mode ≤ 3 ∧ d.tb = 0 ∧ 1 ≤ d.ta))

/-- OR groups of one tick from the unit outputs: (unit, fired, poisoned) (R227). -/
def orGroups (rd : Nat → Nat) (f : Fe) (outs : List (Nat × Bool × Bool)) : OrOut :=
  let gs := (List.range 512).filter fun g => bit (rd (0x82000 + g)) 7
  let memberOut (g : Nat) := outs.filter fun o => (unitAt f o.1).d.orsel.contains g
  gs.foldl (fun a g =>
    let ms := memberOut g
    let len := bit (rd (0x82000 + g)) 0
    let anyP := ms.any (·.2.2)
    let allP := !ms.isEmpty && ms.all (·.2.2)
    let fire := ms.any fun m => m.2.1 && !m.2.2
    if (len && allP) || (!len && anyP) then { a with poison := a.poison ||| 2 ^ g }
    else if fire then { a with fire := a.fire ||| 2 ^ g } else a) {}

/-! ### The alignment point -/

/-- What an alignment point is told: tick, whether the history and unit state advance, whether the tick is counted, the
depth G in ticks (0 for no limit), and the payloads a replay supplies in place of the lanes (R311). -/
structure AlignIn where
  t : Nat
  advance : Bool
  counted : Bool
  g : Nat
  replay : Option (List GLane) := none
  lost : List Nat := []          -- channels whose stores fail their check (R400)

/-- A(T): release, calibration, groups, primitive units, OR groups, gather write (R210, R213 to R219, R223 to R227). -/
def alignPoint (rd : Nat → Nat) (i : AlignIn) (f0 : Fe) : Fe × List Ev × List GLane :=
  let lanes := (List.range 96).filter fun l => (laneCfg rd l).en
  let rel := lanes.map fun l => (l, laneRelease i.t l (laneAt f0 l))
  let f1 := rel.foldl (fun f r => setLane f r.1 r.2.1) f0
  let evs1 := rel.flatMap (fun r => r.2.2.2)
  let live : List GLane := rel.map fun (l, _, pay, _) =>
    let n := 4 * lanePlen (laneCfg rd l)
    match pay with
    | some p => { lane := l, missing := false, payload := p }
    | none => { lane := l, missing := true, payload := List.replicate n 0#8 }
  let gl : List GLane := match i.replay with | some r => r | none => live
  -- channels
  let chans := (List.range 4096).filter (ctxEn rd)
  let payNum := gl.map fun x => (x.lane, x.missing, unle x.payload)
  let cts : List ChanTick := chans.map fun c =>
    let k := laneCfg rd (ctxLane rd c)
    match payNum.find? (fun p => p.1 == ctxLane rd c && !i.lost.contains c) with
    | some (_, false, p) =>
      { chan := c, missing := false
        samples := (List.range k.s).map fun s => calibrate (pedAt f1 c) (gainAt f1 c) (rawSample k p (ctxPos rd c) s) }
    | _ => { chan := c, missing := true, samples := [] }
  let sampleOf (ct : ChanTick) : Option (List Int) :=
    let k := laneCfg rd (ctxLane rd ct.chan)
    match groupOf f1 ct.chan with
    | some (_, gs) => policySamples f1 gs.d.miss k.s ct
    | none => policySamples f1 0 k.s ct
  let seen : List (Nat × Bool × Option (List Int)) := cts.map fun ct => (ct.chan, ct.missing, sampleOf ct)
  -- groups
  let gres : List (Nat × GroupSt × Bool × FeatOut × List (Nat × ScaleEntry) × List Ev) := (f1.groups.filter (·.2.set)).map fun (g, gs) =>
    let ms := (seen.filter fun x => decide (gs.d.first ≤ x.1 ∧ x.1 < gs.d.first + gs.d.count))
    (g, gs, ms.any (·.2.1), groupTick f1 i.advance i.t gs (ms.map fun x => (x.1, x.2.2)))
  let f2 := gres.foldl (fun f (g, gs, miss, fo, es, _) =>
    let f := es.foldl (fun f e => setChanScale f e.1 e.2) f
    let gs' := if miss && i.counted then { gs with missTicks := satAdd 32 gs.missTicks 1 } else gs
    { f with groups := tset (fun _ => {}) f.groups g gs'
             feat := tset (fun _ => {}) (f.feat.filter fun e => decide (i.t ≤ e.1 / 1024 + 15)) (i.t * 1024 + g) fo }) f1
  let evs2 := gres.flatMap fun r => r.2.2.2.2.2
  -- primitive units
  let us := f2.units.filter (fun e => e.2.d.en)
  let ures := us.map fun (n, u) =>
    match seen.find? (fun (x : Nat × Bool × Option (List Int)) => x.1 == n / 2) with
    | none => (n, u, false, false)
    | some (_, _, none) => (n, u, false, true)
    | some (_, _, some cs) => let (u', fire) := unitTick u cs; (n, u', fire, false)
  let f3 := if i.advance then
      ures.foldl (fun f (n, u, fire, _) =>
        { f with units := tset (fun _ => {}) f.units n { u with fireCount := satAdd 32 u.fireCount (bnat fire) } }) f2
    else f2
  let oo := orGroups rd f3 (ures.map fun (n, _, fire, p) => (n, fire, p))
  let f4 := { f3 with orOut := tset (fun _ => {}) f3.orOut i.t oo
                      orCount := if i.advance then (setBits 512 oo.fire).foldl (fun t g => cadd 32 t g 1) f3.orCount else f3.orCount
                      orPoison := if i.advance then (setBits 512 oo.poison).foldl (fun t g => cadd 32 t g 1) f3.orPoison else f3.orPoison }
  -- HOLD samples, of the ticks counted since ARM (R213), and the gather buffer
  let f5 := (cts.filter (fun ct => i.counted && !ct.missing)).foldl (fun f ct =>
    { f with hold := tins (tdel f.hold ct.chan) ct.chan ct.samples }) f4
  let f6 := { f5 with gather := tset (fun _ => []) (f5.gather.filter fun e => decide (i.g = 0 ∨ i.t < e.1 + i.g)) i.t gl }
  (f6, evs1 ++ evs2, gl)

/-- The gather depth G, 0 where no lane is enabled (R29). -/
def gatherDepth (rd : Nat → Nat) : Nat :=
  let b := sumL (((List.range 96).map (laneCfg rd)).filter (·.en) |>.map fun k => 32 * ceilDiv (32 * lanePlen k) 256)
  if b = 0 then 0 else 33554432 / b

/-! ### Measurement engines -/

/-- RNE of an exact rational (R55). -/
def rneRat (q : Rat) : Int :=
  let f := q.floor
  let r := q - f
  if r < 1 / 2 then f else if 1 / 2 < r then f + 1 else if f % 2 = 0 then f else f + 1

/-- The rising and falling edges of a comparator over a window, starting in the state of its first sample (R231). -/
def windowEdges (level : Int) (h : Nat) (ys : List Int) : List Nat × List Nat :=
  let q0 := decide (level ≤ ys.headD 0)
  let r := (ys.zipIdx).foldl (fun (st : Bool × List Nat × List Nat) (y, n) =>
    let q := comparator level h st.1 y
    (q, if q && !st.1 then st.2.1 ++ [n] else st.2.1, if !q && st.1 then st.2.2 ++ [n] else st.2.2)) (q0, [], [])
  (r.2.1, r.2.2)

/-- A measurement result (R232). -/
structure MeasRes where
  amp : Int
  peakT : Int
  period : Int
  rise : Int
  integral : Int
  tot : Int
  flags : Nat
  deriving DecidableEq, Repr

/-- The results of an engine on a window: calibrated samples (missing ones 0), whether any is missing, and the index r
of the first sample (R228 to R232). -/
def measure (d : MeasDesc) (cs : List Int) (missing : Bool) (r0 : Int) : MeasRes :=
  let ys := if d.pol then cs.map (- ·) else cs
  let n := ys.length
  let y (i : Nat) : Int := ys.getD i 0
  let nb := min (2 ^ d.nbExp) n
  let b : Rat := if nb = 0 then 0 else ((ys.take nb).foldl (· + ·) 0 : Int) / (nb : Rat)
  let m := ys.foldl max (ys.headD 0)
  let np := (ys.findIdx? (· == m)).getD 0
  let amp : Rat := (y np : Rat) - b
  let edge := decide (np = 0 ∨ np + 1 = n)
  let q : Int := y (np - 1) - 2 * y np + y (np + 1)
  let dl : Rat := if edge || q == 0 then 0 else ((y (np - 1) - y (np + 1) : Int) : Rat) / (2 * q : Int)
  let x (i : Nat) (v : Rat) : Rat := (i : Rat) + (v - (y i : Rat)) / ((y (i + 1) - y i : Int) : Rat)
  let v10 := b + amp / 10
  let v90 := b + 9 * amp / 10
  let n90 := ((List.range np).filter fun i => (y i : Rat) < v90).getLast?
  let n10 := match n90 with | none => none | some k => ((List.range (k + 1)).filter fun i => (y i : Rat) < v10).getLast?
  let rise : Option Int :=
    if amp ≤ 0 then none
    else match n90, n10 with | some a, some c => some (rneRat (256 * (x a v90 - x c v10))) | _, _ => none
  let inR (i : Nat) : Bool := decide (d.i0 ≤ r0 + i ∧ r0 + i ≤ d.i1)
  let idx := (List.range n).filter inR
  let integral : Rat := idx.foldl (fun s i => s + ((y i : Rat) - b)) 0
  let short := decide ((idx.length : Int) < d.i1 - d.i0 + 1)
  let (ru, fd) := windowEdges d.tTot d.hyst ys
  let tot : Option Int :=
    match ru.find? (fun (k : Nat) => decide (0 ≤ r0 + (k : Int))) with
    | none => none
    | some k =>
      match fd.find? (fun (j : Nat) => decide (k < j)) with
      | none => none
      | some j => some (rneRat (256 * (x (j - 1) ((d.tTot - (d.hyst : Int) : Int) : Rat) - x (k - 1) (d.tTot : Rat))))
  let (pu, _) := windowEdges d.lPer d.hyst ys
  let per : Option Int :=
    match pu.head?, pu.getLast? with
    | some a, some c => if a = c then none
        else some (rneRat (256 * (x (c - 1) (d.lPer : Rat) - x (a - 1) (d.lPer : Rat)) / ((pu.length - 1 : Nat) : Rat)))
    | _, _ => none
  { amp := rneRat amp, peakT := rneRat (256 * ((r0 + np : Int) + dl)), period := per.getD 0, rise := rise.getD 0
    integral := rneRat integral, tot := tot.getD 0
    flags := bitSet ((if nb < 2 ^ d.nbExp then [0] else []) ++ (if rise.isNone then [1] else []) ++
      (if per.isNone then [2] else []) ++ (if tot.isNone then [3] else []) ++ (if missing then [4] else []) ++
      (if edge then [5] else []) ++ (if short then [6] else [])) }

/-- The 32 bytes of a result (R232). -/
def measBytes (engine : Nat) (r : MeasRes) : List Byte :=
  le 4 (toTwos 32 r.amp) ++ le 4 (toTwos 32 r.peakT) ++ le 4 (toTwos 32 r.period) ++ le 4 (toTwos 32 r.rise) ++
  le 8 (toTwos 64 r.integral) ++ le 4 (toTwos 32 r.tot) ++ le 2 r.flags ++ le 2 engine

/-- A descriptor that MEAS_SET accepts (R228). -/
def measOk (d : MeasDesc) : Bool :=
  decide (d.chan < 4096 ∧ d.nbExp ≤ 12 ∧ d.i0 ≤ d.i1 ∧ d.hyst ≤ 65535)

end Sys2Proof
end

