-- ==== Sys2Proof/Machine/Combiner.lean ====
section
/-!
DEFINITION. The combiner line: truth tables, doubt, the stages of R240, and the tick outcome (09 R235 to R251).
-/

namespace Sys2Proof

/-- A condition: its bit, none when poisoned (R235). -/
abbrev Cond := Option Bool

/-- A truth table over conditions: determined, or none when doubtful (R238). -/
def lutOut (lut : Nat) (ins : List Cond) : Cond :=
  let idx := (List.range 64).filter fun i =>
    (List.range 6).all fun k => match ins.getD k (some false) with | none => true | some b => i.testBit k == b
  if idx.all (fun i => lut.testBit i) then some true
  else if idx.all (fun i => !lut.testBit i) then some false
  else none

def lineAt (ls : Tbl LineSt) (n : Nat) : LineSt := tget (fun _ => {}) ls n

/-- The stage-1 output of line n (R238). -/
def stage1 (ls : Tbl LineSt) (cond : Nat → Cond) (n : Nat) : Cond :=
  let d := (lineAt ls n).d
  lutOut d.lut1 (d.in1.map cond)

/-- The raw result of a line before doubt resolution (R238). -/
def rawResult (ls : Tbl LineSt) (cond : Nat → Cond) (d : LineDesc) (n : Nat) : Cond :=
  if d.stage2 then
    lutOut d.lut2 (d.in2.map fun i => if 0x700 ≤ i ∧ i ≤ 0x7FF then stage1 ls cond (i - 0x700) else cond i)
  else stage1 ls cond n

/-- Where a line stopped, or that it reached stage 6 (R240). -/
inductive LineStop where
  | noFire | hold | prescale | shed | at6
  deriving DecidableEq, Repr, Inhabited

/-- One line through stages 1 to 5. -/
structure LineRes where
  n : Nat
  st : LineSt
  stop : LineStop
  doubtful : Bool
  raw : Bool
  free : Bool        -- armed, and global hold-off does not act on it
  deriving DecidableEq, Repr, Inhabited

def lcount (k : Nat) (s : LineSt) : LineSt := { s with cnt := cadd 32 s.cnt k 1 }

/-- Stages 1 to 5 of R240 for tick t at ladder level lvl. -/
def lineStages (ls : Tbl LineSt) (cond : Nat → Cond) (t lvl : Nat) (gho : Bool) (n : Nat) : LineRes :=
  let s0 := lineAt ls n
  let d := s0.d
  let r := rawResult ls cond d n
  let doubtful := r.isNone
  let raw := r.getD d.accept
  let armed := if d.hoMode = 2 then !s0.evHeld && decide (s0.armedFrom ≤ t) else decide (d.hoMode = 0 ∨ s0.armedFrom ≤ t)
  let acts := gho && !d.ghoExempt
  let s1 := if doubtful then lcount 1 s0 else s0
  let mk (s : LineSt) (x : LineStop) : LineRes := { n := n, st := s, stop := x, doubtful := doubtful, raw := raw, free := armed && !acts }
  if !raw then mk s1 .noFire
  else
    let s2 := lcount 0 s1
    if !armed then
      let s3 := lcount 2 s2
      let s4 := if d.hoMode = 2 && s3.evHeld then
          (if d.n ≤ s3.evCnt + 1 then { s3 with evHeld := false, evCnt := 0, armedFrom := t + 1 } else { s3 with evCnt := s3.evCnt + 1 })
        else s3
      mk s4 .hold
    else if acts then mk (lcount 2 s2) .hold
    else
      let pass := decide (s2.ps = 0)
      let s3 := { s2 with ps := (s2.ps + 1) % (d.p + 1) }
      if !pass then mk (lcount 3 s3) .prescale
      else if d.sheddable then
        let ok := decide (s3.sh = 0)
        let s4 := { s3 with sh := (s3.sh + 1) % 2 ^ lvl }
        if ok then mk s4 .at6 else mk (lcount 4 s4) .shed
      else mk s3 .at6

/-- The hold-off set by a fire at tick t (R241). -/
def lineFired (t : Nat) (s : LineSt) : LineSt :=
  let s := lcount 6 s
  if s.d.hoMode = 1 then { s with armedFrom := t + s.d.n + 1 }
  else if s.d.hoMode = 2 then { s with evHeld := true, evCnt := 0 }
  else s

/-- Insertion by PRIORITY, larger first, ties to the lower line number (R245, R248). -/
def insByPrio (x : LineRes) (l : List LineRes) : List LineRes :=
  match l with
  | [] => [x]
  | y :: r =>
    if y.st.d.prio < x.st.d.prio ∨ (y.st.d.prio = x.st.d.prio ∧ x.n < y.n) then x :: y :: r else y :: insByPrio x r

def byPrio (l : List LineRes) : List LineRes := l.foldr insByPrio []

/-- What the combiner is told at cycle C of tick t. -/
structure CombIn where
  t : Nat
  lvl : Nat
  cond : Nat → Cond
  ghoTicks : Nat
  reqFree : Bool
  limit : Nat → Nat          -- LIMIT of each class
  dDecGc : Nat               -- gc of the decision, for the cycle of entry
  noCtx : List Nat := []     -- lines a replay gives no context (R312)

/-- What the combiner decides. -/
structure CombOut where
  lines : Tbl LineSt
  fired : List Nat
  accFired : List Nat
  parFired : List Nat
  monFired : List Nat
  request : Option RecReq
  ctxs : Tbl Ctx
  handed : List Nat          -- classes of the parisons handed over
  noCtx : List Nat           -- classes of the parisons that ended expired at once
  missed : List Nat          -- lines whose parison got no context
  taken : List Nat           -- contexts taken
  shedFull : Bool
  clsA : Bool
  clsV : Bool
  clsH : Bool
  clsS : Bool
  clsP : Bool
  ghoFired : Bool

/-- Contexts not FREE that class c holds. -/
def ctxHeld (ctxs : Tbl Ctx) (c : Nat) : Nat := (ctxs.filter fun e => e.2.st != .free && e.2.cls == c).length

/-- The lowest free context (R248). -/
def freeCtx (ctxs : Tbl Ctx) : Option Nat :=
  (List.range 4096).find? fun k => (tget (fun _ => ({} : Ctx)) ctxs k).st == .free

/-- The parisons of one tick taking contexts in order (R248). Answers contexts, lines that fired, lines that did not. -/
def takeCtxs (i : CombIn) (ctxs : Tbl Ctx) (ps : List LineRes) : Tbl Ctx × List (LineRes × Nat) × List LineRes :=
  ps.foldl (fun (cs, ok, no) p =>
    let d := p.st.d
    match freeCtx cs with
    | some k =>
      if ctxHeld cs d.cls < i.limit d.cls && !i.noCtx.contains p.n then
        (tset (fun _ => {}) cs k
          { st := .alloc, tick := i.t, line := p.n, cls := d.cls, handle := d.t2, doubt := p.doubtful, accept := d.accept,
            template := d.template, prio := d.prio, entry := i.dDecGc + 4 }, ok ++ [(p, k)], no)
      else (cs, ok, no ++ [p])
    | none => (cs, ok, no ++ [p])) (ctxs, [], [])

/-- The tier-one decision of a tick over the enabled lines (R240 to R249). -/
def combine (i : CombIn) (gho : Bool) (ls : Tbl LineSt) (ctxs : Tbl Ctx) : CombOut :=
  let rs := ((ls.filter (·.2.d.en)).map (·.1)).map fun n => lineStages ls i.cond i.t i.lvl gho n
  let acc := rs.filter fun r => r.st.d.kind == 0
  let par := rs.filter fun r => r.st.d.kind == 1
  let mon := rs.filter fun r => r.st.d.kind == 2
  let acc6 := acc.filter (·.stop == .at6)
  let par6 := byPrio (par.filter (·.stop == .at6))
  let mon6 := mon.filter (·.stop == .at6)
  let (ctxs', took, missed) := takeCtxs i ctxs par6
  let put (ls : Tbl LineSt) (n : Nat) (s : LineSt) := tset (fun _ => ({} : LineSt)) ls n s
  let ls1 := rs.foldl (fun ls r => put ls r.n r.st) ls
  let bump (f : LineSt → LineSt) (ls : Tbl LineSt) (ns : List Nat) := ns.foldl (fun ls n => put ls n (f (lineAt ls n))) ls
  let accN := if i.reqFree then acc6.map (·.n) else []
  let firedN := accN ++ (took.map (·.1.n)) ++ (mon6.map (·.n))
  let ls2 := bump (lineFired i.t) ls1 firedN
  let ls3 := bump (lcount 5) ls2 ((if i.reqFree then [] else acc6.map (·.n)) ++ missed.map (·.n))
  let top := (byPrio acc6).head?
  { lines := ls3
    fired := firedN
    accFired := accN
    parFired := took.map (·.1.n)
    monFired := mon6.map (·.n)
    request :=
      if i.reqFree then
        top.map fun r => { tick := i.t, lines := bitSet accN, doubt := acc6.any (·.doubtful), template := r.st.d.template }
      else none
    ctxs := ctxs'
    handed := par6.map (·.st.d.cls)
    noCtx := missed.map (·.st.d.cls)
    missed := missed.map (·.n)
    taken := took.map (·.2)
    shedFull := !i.reqFree && !acc6.isEmpty
    clsA := !accN.isEmpty
    clsV := (acc ++ par).any fun r => r.doubtful && !r.raw && r.free
    clsH := (acc ++ par).any fun r => r.stop == .hold
    clsS := (acc ++ par).any (fun r => r.stop == .shed) || (!i.reqFree && !acc6.isEmpty)
    clsP := !par6.isEmpty
    ghoFired := firedN.any fun n => (lineAt ls n).d.ghoTrig }

/-- The outcome a tick takes (R10). -/
inductive TickOutcome where
  | accepted | void | heldOff | shed | rejected
  deriving DecidableEq, Repr, Inhabited

/-- The outcome from the classes when no parison decides it (R10, R247). -/
def classOutcome (v h s : Bool) : TickOutcome :=
  if v then .void else if h then .heldOff else if s then .shed else .rejected

/-- The outcome of a pending tick when its last parison has ended (R11, R247). -/
def pendOutcome (p : Pend) : TickOutcome :=
  if p.acc then .accepted else if p.void then .void else classOutcome p.v p.h p.s

/-- The counter of an outcome (R32, R474). -/
def outcomeCtr (o : TickOutcome) : Nat :=
  match o with | .accepted => 1 | .rejected => 2 | .heldOff => 3 | .shed => 4 | .void => 5

/-- The condition indices a descriptor may name (R235). -/
def condOk (stage2 : Bool) (i : Nat) : Bool :=
  decide (i ≤ 0x5FF ∨ (0x600 ≤ i ∧ i ≤ 0x607) ∨ (0x610 ≤ i ∧ i ≤ 0x63F) ∨ i = 0xFFE ∨ i = 0xFFF) ||
  (stage2 && decide (0x700 ≤ i ∧ i ≤ 0x7FF))

/-- The condition indices a fire source may name: a score comparator, an OR group, TRG_IN or a timed-event bit (R254). -/
def fireCondOk (i : Nat) : Bool := decide (i ≤ 0x607 ∨ (0x630 ≤ i ∧ i ≤ 0x63F))

/-- The checks of R237 that the descriptor alone decides. -/
def lineFieldsOk (n : Nat) (d : LineDesc) : Bool :=
  decide (d.kind ≤ 2 ∧ d.hoMode ≤ 2 ∧ d.prio < 16 ∧ d.p < 2 ^ 24 ∧ d.n < 2 ^ 24 ∧ d.template < 64 ∧ d.cls < 4 ∧
    d.in1.length = 6 ∧ d.in2.length = 6) &&
  d.in1.all (condOk false) && d.in2.all (condOk true) &&
  (d.stage2 || !d.in2.contains (0x700 + n)) &&
  !(d.hoMode != 0 && d.n == 0)

/-- A line written: its state as at ARM, counters kept (R250). -/
def lineWritten (d : LineDesc) (s : LineSt) : LineSt := { d := d, cnt := s.cnt }

end Sys2Proof
end

