-- ==== Sys2Proof/Machine/Parts/Care.lean ====
section
/-!
DEFINITION. The state of faults and maintenance (15), updates and trust (16) and power (18).
-/

namespace Sys2Proof

/-- A record of the error queue: state 0 waiting, 1 in hand, 2 pre-empted, 3 done (R408), and how far its handling is:
0 not begun, 2 under confirmation, 3 to hold, 4 to write, 5 to check, 6 waits for its switch, 7 to move its quadrant. -/
structure QRec where
  f : FaultRec
  st : Nat := 0
  stage : Nat := 0
  rep0 : Nat := 0        -- REPEAT when its confirmation began
  deriving DecidableEq, Repr, Inhabited

/-- A unit under confirmation (R410): unit number, code and the tick at which CONFIRM_TICKS end. -/
structure Confirm where
  unit : Nat
  code : Nat
  until_ : Nat
  deriving DecidableEq, Repr, Inhabited

/-- A remap under way (R411): quadrant, line in SKIP order, failed and bypassed positions, its activity, switch edge. -/
structure Remap where
  q : Nat
  k : Nat
  f : Nat
  b : Nat
  act : Nat := 0
  switch_ : Option Nat := none
  deriving DecidableEq, Repr, Inhabited

/-- Shadow rotation of one column or row (R415): position shadowed, phase 0 warm-up or 1 compare, edge at which the
phase ends, repeats after undecided mismatches, completed steps. -/
structure Rot where
  act : Nat
  q : Nat
  k : Nat
  a : Nat
  up : Bool := false
  comparing : Bool := false
  until_ : Nat := 0
  ticks : Nat := 65536
  repeats : Nat := 0
  steps : Nat := 0
  mism : Bool := false        -- a mismatch captured for recomputation waits for its decision (R417)
  move : Bool := false        -- the shadowed tile has failed: SKIP moves to it at the next tick edge (R416)
  deriving DecidableEq, Repr, Inhabited

/-- A maintenance activity (R428). -/
structure Activity where
  h : Nat
  act : Nat
  req : MaintReq := { act := 0 }
  queued : Bool := false
  stopping : Bool := false
  jseq : Nat := 0
  deriving DecidableEq, Repr, Inhabited

/-- A control core (R420). roles lists the roles it holds. -/
structure Core where
  alive : Bool := true
  roles : List Nat := []
  restarting : Bool := false
  newFw : Bool := false
  windows : Nat := 0       -- scratch windows retired
  deriving DecidableEq, Repr, Inhabited

/-- Faults and maintenance. -/
structure Flt where
  errq : List QRec := []
  handled : List FaultRec := []    -- newest first, at most 64
  fid : Nat := 0
  ovf : Bool := false
  lost : Nat := 0
  ce : Tbl Nat := []               -- corrected errors of the window by unit number
  health : Tbl Nat := []           -- health-map bytes by unit number
  healthFlash : Tbl Nat := []      -- the map's copy in the configuration area
  hw : Tbl Nat := []               -- hardware counters of R432, in the order of R474
  confirms : List Confirm := []
  confirmTicks : Nat := 4096
  remaps : List Remap := []
  rots : List Rot := []
  acts : List Activity := []
  nextAct : Nat := 1
  cores : List Core := []
  coresLost : Nat := 0
  roleWait : List Nat := []        -- roles waiting to be taken over
  takeover : Option Nat := none    -- quadrant whose sections move to the standby
  takeClean : Bool := true         -- its stores read cleanly
  quadLost : List Nat := []        -- quadrants whose loss acts at the next tick edge (R419)
  fromFailed : List Nat := []      -- quadrants that wake from FAILED and have their self-test to come (R430)
  stacksLost : List Nat := []
  stackEdge : List Nat := []       -- stacks whose loss acts at the next tick edge
  hbmShare : Nat := 5
  deriving DecidableEq, Repr, Inhabited

/-- States of a part (R438). -/
inductive PartSt where
  | idle | staged | demoting | writing | activating | trial | confirmed | fallingBack | fallenBack | pendingBoot
  deriving DecidableEq, Repr, Inhabited

/-- A part type's slots, record and progress. -/
structure UpPart where
  st : PartSt := .idle
  cause : Nat := 0
  svn : Nat := 0
  lehr : Nat := 0
  version : Nat := 0              -- installed
  compat : List (Nat × Nat) := []
  fbVersion : Nat := 0
  fbSvn : Nat := 0
  fbCompat : List (Nat × Nat) := []
  fbValid : Bool := true
  confirmedOk : Bool := false     -- the health confirmation has come
  selected : Bool := false
  digest : Option (BitVec 512) := none     -- DIGEST of the installed ciphertext, none as delivered
  fbDigest : Option (BitVec 512) := none
  lehrFrom : Nat := 0             -- raw stamp at which the lehr window began
  outcome : Nat := 0xFF
  entry : Option PartEntry := none
  deriving DecidableEq, Repr, Inhabited

/-- Images, update and trust. -/
structure Upd where
  holder : Option Nat := none
  man : Manifest := {}
  staged : Tbl Byte := []
  stagedLen : Nat := 0
  overlay : Bool := false         -- the UPDATE overlay of R392
  keepLock : Bool := false
  parts : List UpPart := [{}, {}, {}, {}, {}]
  order : List Nat := []          -- selected part types still to apply, in order, the current one first
  applyJ : Option Nat := none     -- journal number of the UPDATE_APPLY not yet final
  roll : Option Nat := none       -- core whose restart is under way
  rate : Nat := 0
  rseq : Nat := 0
  mirror : List UpPart := []      -- the record's mirror in MRAM
  nonce : Option (BitVec 256) := none
  level : Nat := 0
  refusals : Nat := 0
  spdmVer : Nat := 0
  spdmCaps : Bool := false
  spdmAlgo : Bool := false
  spdmBusy : Bool := false        -- the security-core firmware restarts (R449)
  deferred : Option (Nat × Spdm) := none
  chunk : List Byte := []
  deriving DecidableEq, Repr, Inhabited

/-- A power-fail save record (R507), with VALID and the items by name. -/
structure Save where
  sseq : Nat := 0
  cause : Nat := 0
  valid : Nat := 0x7F
  detTick : Nat := 0
  lastJ : Nat := 0
  cullet : List Byte := []
  r0 : Nat := 0
  l0 : Nat := 0
  rate : Int := 0
  slew : Int := 0
  rem : Int := 0
  timeCfg : Nat := 0
  sections : List (BitVec 512) := []
  combiner : BitVec 512 := 0#512
  config : BitVec 512 := 0#512
  update : List Byte := []
  errq : List FaultRec := []
  ok : Bool := true               -- DIGEST is correct
  deriving DecidableEq, Repr, Inhabited

/-- The thermal levels reached by the sensors of one kind (R501). -/
structure Therm where
  warn : Bool := false
  cap : Bool := false
  trip : Bool := false
  deriving DecidableEq, Repr, Inhabited

/-- The power manager, saves and pins of 18. -/
structure Pwr where
  temps : Sample := {}
  avg : Nat := 0
  maxAvg : Nat := 0
  sum : List Nat := []            -- samples of the 1 ms under way
  dieT : Therm := {}              -- grid and I/O die
  hbmT : Therm := {}
  cap : Bool := false
  step : Nat := 0
  lowMs : Nat := 0
  overMs : Nat := 0
  above : Bool := false
  avsMv : List Nat := [750, 750, 750, 750]
  avsFail : List Nat := [0, 0, 0, 0]
  saving : Option Nat := none     -- CAUSE of the save under way
  saveTick : Nat := 0             -- T_f, the tick from which ticks are not counted
  save : Save := {}               -- the record being formed
  slotA : Option Save := none
  slotB : Option Save := none
  saveOk : Bool := false          -- step 4 of start-up has ended
  deriving DecidableEq, Repr, Inhabited

end Sys2Proof
end

