-- ==== Sys2Proof/Machine/Parts/Ctl.lean ====
section
/-!
DEFINITION. The control cluster's state: ownership, sequence windows, journal, waiting commands, replies (14), and what the
device state machine holds (14 R392, R393).
-/

namespace Sys2Proof

/-- Device states of R392. -/
inductive DevSt where
  | off | boot | ready | loaded | armed | running | paused | safe
  deriving DecidableEq, Repr, Inhabited

/-- Quadrant states of R393. -/
inductive QuadSt where
  | fused | off | waking | idle | active | standby | failed
  deriving DecidableEq, Repr, Inhabited

/-- Grades of R2. -/
inductive Grade where
  | c4q20 | c3q20 | c4q16
  deriving DecidableEq, Repr, Inhabited

/-- What test and manufacture fixed: grade, stepping, OTP items and factory values (00 R2, R3; 16 R434; 08 R220). -/
structure PartInfo where
  grade : Grade := .c4q20
  b0 : Bool := false
  fused : Nat := 0
  uid : Nat := 1
  rootHash : List (BitVec 512) := []
  rootRevoke : Nat := 0
  svn : List Nat := [0, 0, 0, 0, 0]
  fleet : List Nat := [0, 0]
  debugHash : List (BitVec 512) := [0#512, 0#512]
  factory : List CalEntry := []
  deriving DecidableEq, Repr, Inhabited

/-- The device state machine and its pins. quads holds the states of Q0 to Q3. -/
structure Dev where
  st : DevSt := .off
  draining : Bool := false
  pauseReq : Bool := false
  stopReq : Bool := false
  pauseAt : Option Nat := none    -- T_p once the pause has taken effect, until the device is PAUSED (R315)
  resetReq : Bool := false        -- DEVICE_RESET accepted while a save runs
  pauseJ : Option Nat := none     -- journal number of the PAUSE not yet final
  stopJ : Option Nat := none      -- journal number of the STOP not yet final
  tA : Nat := 0
  tR : Nat := 0
  tP : Nat := 0
  armAt : Option Nat := none      -- the edge at which an accepted ARM starts
  resumeAt : Option Nat := none
  noHist : Bool := false
  safeCause : Nat := 0
  quads : List QuadSt := [.off, .off, .off, .off]
  standby : Option Nat := none
  resetN : Bool := false
  perstN : Bool := false
  pwrfailN : Bool := true
  jtag : Nat := 0
  deriving DecidableEq, Repr, Inhabited

/-- A journal entry (R396). -/
structure JEntry where
  jseq : Nat
  accTick : Nat := 0
  accSec : Nat := 0
  accNs : Nat := 0
  source : Nat := 0
  cseq : Nat := 0
  opcode : Nat := 0
  status : Nat := 0
  final : Bool := false
  atFlag : Bool := false
  internal : Bool := false
  dupSeen : Bool := false
  pdigest : List Byte := []
  result : List Byte := []
  deriving DecidableEq, Repr, Inhabited

/-- A sequence window (R379): bit i of seen stands for number h - i. -/
structure SeqWin where
  h : Nat := 0
  seen : Nat := 0
  deriving DecidableEq, Repr, Inhabited

/-- A reply (R373). -/
structure Reply where
  source : Nat
  seq : Nat
  opcode : Nat
  final : Bool := true
  dup : Bool := false
  partialR : Bool := false
  status : Nat := 0
  jseq : Option Nat := none
  detail : Nat := 0
  result : List Byte := []
  indirect : Bool := false
  raddr : Nat := 0
  rsize : Nat := 0
  deriving DecidableEq, Repr, Inhabited

/-- An accepted command that is not final (R383, R384), with its effect and the tick it waits for. -/
structure Waiting where
  jseq : Nat
  h : Hdr
  opcode : Nat
  tick : Option Nat := none
  eff : Eff := .none
  deriving DecidableEq, Repr, Inhabited

/-- Ring indices of a command queue, counted without wrap (R380, R481). -/
structure QueueSt where
  head : Nat := 0
  tail : Nat := 0
  wr : Nat := 0
  ci : Nat := 0
  deriving DecidableEq, Repr, Inhabited

/-- A submission entry taken and not yet served (R380, R384): queue and the entry's bytes as read. -/
structure Taken where
  queue : Nat
  bytes : List Byte
  deriving DecidableEq, Repr, Inhabited

/-- The control cluster. -/
structure Ctl where
  holder : Option Nat := none
  leaseMs : Nat := 0
  leaseAt : Nat := 0                 -- raw stamp of the last renewal
  epoch : Nat := 0
  journal : List JEntry := []        -- newest first, at most 65,536
  jnext : Nat := 1
  mirror : List JEntry := []         -- the newest 1,024 in MRAM (R397)
  wins : Tbl SeqWin := []            -- by source identity
  cache : List Reply := []           -- final replies of control commands, newest first
  waiting : List Waiting := []
  replies : List Reply := []         -- formed, not yet sent, oldest first
  queues : Tbl QueueSt := []
  taken : List Taken := []
  served : List Nat := []            -- queues served in the round under way (R384)
  crcErr : Tbl Nat := []             -- CMD_CRC_ERR by transport
  denied : Nat := 0                  -- CMD_DENIED
  forwards : List Waiting := []      -- FABRIC_FORWARD commands waiting for their replies
  snapWait : List (Hdr × Nat) := []  -- DEVICE_STATE and CULLET_READ part 0 waiting for the next edge
  loadQueue : List (Nat × Hdr × LoadReq) := []   -- loads that wait for a maintenance activity (R196), oldest first
  deriving DecidableEq, Repr, Inhabited

end Sys2Proof
end

