-- ==== Sys2Proof/Machine/Parts/Fab.lean ====
section
/-!
DEFINITION. The state of the fabric (12): links, switch, routing, identity, plan, barriers, membership.
-/

namespace Sys2Proof

/-- Link states (R321). -/
inductive LinkSt where
  | down | train | cal | up
  deriving DecidableEq, Repr, Inhabited

/-- One fabric link. Counters cnt: CW_CORR, CW_UNCORR, E_RETRY, FIXED_LOST, FIXED_DUP, FIXED_STRAY, RETRAIN, DRIFT_COUNT. -/
structure Link where
  st : LinkSt := .down
  peerId : Nat := 0
  peerUid : Nat := 0
  peerLink : Nat := 0
  drift : Bool := false
  lambda : Nat := 0                -- LAMBDA_PS
  lam : Nat := 0                   -- compiled latency of the plan, 0 when the plan does not use the link
  probeT : Tbl Nat := []           -- t1 of probes sent, by ID
  probes : List Int := []          -- probe values in units of 2^-5 ns
  nextProbe : Nat := 0
  lc : List (Nat × Nat) := []      -- LC messages to send: type and body
  good : Nat := 0                  -- consecutive codewords without error
  lock : Bool := false
  bad : Nat := 0                   -- consecutive uncorrectable codewords
  replays : Nat := 0               -- consecutive replays without progress
  txCnt : Nat := 0
  rxCnt : Option Nat := none
  txSeq : Nat := 0                 -- next new ESEQ
  rxSeq : Nat := 0                 -- next ESEQ expected
  unacked : List (Nat × List Flit) := []   -- replay buffer, oldest first
  resend : List (Nat × List Flit) := []    -- groups to send again
  nak : Bool := false              -- send NAK
  room : List Nat := [512, 512, 512, 512]  -- credits held per VC
  owe : List Nat := [0, 0, 0, 0]   -- credits to return per VC
  queue : List Packet := []        -- elastic packets to send, oldest first
  cut : List (List LWord) := [[], [], [], []]  -- per VC, the rest of a packet whose header has been sent
  fixed : List (Nat × LWord) := [] -- fixed words launched, oldest first
  slots : List (Nat × LWord) := [] -- fixed words in the slot buffer
  buf : List (List Flit) := [[], [], [], []]  -- receive buffers per VC, oldest first
  fresh : List Nat := []           -- FSLOT indices whose word has been taken, by entry and tick: 4,096 x tick + entry
  beaconT : Tbl Nat := []          -- L of TIME beacons sent, by CW_CNT
  beaconRx : Option (Nat × Nat × Nat) := none  -- CW_CNT, L and arrival L of the newest TIME beacon received
  thetaSum : Int := 0              -- sum and number of the offsets gathered in the averaging span, units of 2^-17 ns
  thetaN : Nat := 0
  hops : Nat := 0                  -- HOPS of the newest TIME beacon
  rootId : Nat := 0
  cnt : Tbl Nat := []
  deriving DecidableEq, Repr, Inhabited

/-- Receiver state of a source on a VC (R333): next PSEQ to deliver and early packets held. -/
structure PRx where
  next : Nat := 0
  held : List Packet := []
  deriving DecidableEq, Repr, Inhabited

/-- A record arriving at a collector (R343): units received so far, in order. -/
structure Coll where
  src : Nat
  recseq : Nat
  bytes : List Byte
  deriving DecidableEq, Repr, Inhabited

/-- The banks of FSLOT, FMASK and EPOINT (R326, R333, R345). -/
structure FBank where
  fslot : List (Nat × FSlot) := []   -- the VALID entries
  fmask : Tbl Nat := []
  epoint : List (Nat × Nat × Nat) := []   -- the VALID entries: index, DEST, DPORT
  deriving DecidableEq, Repr, Inhabited

/-- The fabric as this device knows it. -/
structure Fab where
  links : Tbl Link := []
  act : FBank := {}
  shadow : FBank := {}
  prev : FBank := {}               -- the active bank before the last exchange, which ticks before it still use
  flipAt : Nat := 0                -- tick of the last exchange
  mreg : List (Nat × Nat × FireWord) := []  -- words ORed into merge registers: register, cycle from which takes see it, word
  mregClr : List (Nat × Nat) := [] -- register and cycle of the takes after which it is cleared
  sw : Tbl LWord := []             -- words waiting in the switch, 4,096 x tick + entry
  tx : Tbl LWord := []             -- words of FAB_TX waiting to be taken, 4,096 x tick + entry
  given : Tbl LWord := []          -- words given to FAB_RX, 4,096 x tick + entry
  eroute : Tbl Nat := []           -- the 16-bit entries of R333
  pseq : Tbl Nat := []             -- next PSEQ, 4 x destination + VC
  rx : Tbl PRx := []               -- 4 x source + VC
  edup : Tbl Nat := []
  erx : Tbl (List LWord) := []     -- words delivered to each receive endpoint, oldest first
  ercnt : Nat := 0                 -- words FAB_ERX has delivered (R305)
  wait : List Packet := []         -- packets whose destination has no route
  recseq : Nat := 0
  coll : List Coll := []
  id : Nat := 0
  member : Bool := false
  isMaster : Bool := false
  best : Option (Nat × Nat × Nat) := none     -- UID, MASTER_PRIO, hops of the best candidate
  uplink : Option Nat := none
  epoch : Nat := 0
  masterUid : Nat := 0
  discovering : Bool := false
  topo : List (Nat × List TopoLink) := []     -- TOPO reports held by the master
  idMap : Option (List (Nat × Nat)) := none
  given_ids : List (Nat × Nat) := []          -- UID and ID assigned
  acks : List Nat := []                        -- UIDs whose ASSIGN_ACK is still out
  overflow : Bool := false                     -- a device beyond 1,024 was found
  plan : Option Plan := none
  deputy : Nat := 0
  redLow : Bool := false
  barriers : List BarrierDesc := []            -- barriers named and not yet reached
  out : List (Nat × Msg) := []                 -- VC3 messages to send, oldest first
  out2 : List (Nat × Msg2) := []               -- VC2 messages to send to devices, newest first
  vc2 : Tbl (List Byte) := []                  -- bytes of a VC2 packet that is not yet whole, by source
  heard : Tbl Nat := []                        -- newest HEARTBEAT count by device
  hbCount : Nat := 0
  lost : List Nat := []
  usedStandby : List Nat := []
  token : Option Nat := none                   -- device holding the update token (master)
  tokenHeld : Bool := false
  linksLost : List Nat := []                   -- links of the plan whose loss variant is in force or named
  downLinks : List (Nat × Nat) := []           -- links known to be DOWN: device and link, both ends (master)
  kept : List (Nat × List Byte) := []          -- configuration of the other devices: forwarded packets they have accepted, oldest first (master, R348)
  tokenQ : List Nat := []
  timeRoot : Option Nat := none
  timeHops : Nat := 0
  timeDeep : Bool := false                     -- deeper than 15 hops (R364)
  deriving DecidableEq, Repr, Inhabited

end Sys2Proof
end

