-- ==== Sys2Proof/Machine/Parts/Host.lean ====
section
/-!
DEFINITION. The state behind the PCI Express function (17), the event ring (14 R394), and what has left the part.
-/

namespace Sys2Proof

/-- What the part has sent on its interfaces, newest first: writes to host memory, MSI-X messages, datagrams, replies to the
board controller, SPDM responses, management-port frames, AVSBus setpoints, message bits of codewords. -/
inductive Sent where
  | mem (addr : Nat) (bytes : List Byte)
  | msi (vec addr data : Nat)
  | udp (dest : Nat) (bytes : List Byte)
  | smbus (bytes : List Byte)
  | spdm (bytes : List Byte)
  | frame (bytes : List Byte)
  | ptp (kind : Nat)
  | avs (rail mv : Nat)
  | completion (ok : Bool) (bytes : List Byte)
  | codeword (l : Nat) (m : BitVec 5140)
  deriving DecidableEq, Repr, Inhabited

/-- A raised event with its sequence number and time (R395). -/
structure EvRec where
  eseq : Nat
  tick : Nat
  sec : Nat
  ns : Nat
  e : Ev
  deriving DecidableEq, Repr, Inhabited

/-- An MSI-X table entry (R479). -/
structure Msix where
  addr : Nat := 0
  data : Nat := 0
  masked : Bool := true
  deriving DecidableEq, Repr, Inhabited

/-- The host interface. Event-ring indices count units without wrap. -/
structure HostIf where
  evHead : Nat := 0
  evTail : Nat := 0
  evLost : Nat := 0             -- LOST
  evLostMark : Nat := 0         -- lost since the last EVENTS_LOST entry
  eseq : Nat := 1
  raised : List EvRec := []     -- oldest first
  unread : List Nat := []       -- producer index after each event of S3 or S4 written and not yet consumed (R381)
  msix : Tbl Msix := []
  pba : List Nat := []
  holding : List Nat := []      -- vectors in their hold-off
  merged : List Nat := []       -- vectors with triggers merged in the hold-off
  mmioDenied : Nat := 0
  bar2Denied : Nat := 0
  dbBad : Nat := 0
  lastBad : Nat := 0
  latch : Option (Nat × Nat) := none   -- offset of a latched high half and its value (R469)
  linkUp : Bool := false
  speed : Nat := 0
  width : Nat := 0
  flit : Bool := false
  linkDowns : Nat := 0
  d3 : Bool := false
  bar2Size : Nat := 268435456
  subsysShown : Nat := 0
  pcieCfg : Nat := 135          -- PCIE_CFG in effect at the link
  boot : Option (Tbl Reg) := none      -- boot settings in flash (R476)
  out : List Sent := []
  deriving DecidableEq, Repr, Inhabited

end Sys2Proof
end

