-- ==== Sys2Proof/Machine/Parts/Time.lean ====
section
/-!
DEFINITION. The time base, tick generator, PTP instance and timed events (13).
-/

namespace Sys2Proof

/-- Tick-generator states (R367). -/
inductive TickSt where
  | unlocked | acquire | locked | holdover
  deriving DecidableEq, Repr, Inhabited

/-- A timed event: its descriptor, whether it is armed, its next firing (time in tu, or tick) and its pin's pulse end (R369, R370). -/
structure TimedEv where
  d : TimedDesc := {}
  next : Option Nat := none
  active : Bool := false
  endGc : Nat := 0
  deriving DecidableEq, Repr, Inhabited

/-- The time base and the tick generator. Times are in tu, raw stamps in raw tu. -/
structure TimeBase where
  tick : Option Nat := none       -- newest tick whose edge has come
  raw : Nat := 0                  -- newest raw stamp seen
  r0 : Nat := 0
  l0 : Nat := 0
  rate : Int := 0
  slew : Int := 0
  rem : Int := 0                  -- remainder of the slew under way
  slewing : Bool := false
  timeSet : Bool := false
  locked : Bool := false
  holdover : Bool := false
  offsetPs : Int := 0
  offsetLarge : Bool := false
  utc : Nat := 0
  tickSt : TickSt := .unlocked
  phaseErr : Nat := 0
  slip : Nat := 0
  devRun : Nat := 0
  missRun : Nat := 0
  tickWin : Nat := 2000           -- TICK_WIN in ps (R367)
  align_ : Option (Nat × Nat) := none   -- TICK_ALIGN: tick and time
  next : Option Nat := none       -- next tick of the running generator
  startL : Nat := 0               -- time at which the generator last started
  lastIn : Option Nat := none     -- raw stamp of the last TICK_IN edge
  stamps : List (Nat × Nat) := [] -- tick and time-base reading of recent edges, newest first
  ppsTs : Nat := 0
  ppsMiss : Nat := 0
  ppsOut : Bool := false
  txq : List (Nat × Tod) := []
  txOvf : Bool := false
  txLost : Nat := 0
  tsWait : List Nat := []         -- TS_IDs of frames sent with TS_REQ whose stamp is not in yet
  ptp : PtpCfg := {}
  ptpMaster : Bool := false
  ptpT : Tbl Nat := []            -- stamps of the client: 0 to 3 t1 to t4 of R362's delay request-response, 4 to 7 those of peer delay, kept one higher
  timed : Tbl TimedEv := []
  timedBits : Tbl Nat := []       -- timed-event bits by tick (R370)
  tickOut : Bool := false         -- a TICK_OUT mark belongs to the newest tick (R368)
  deriving DecidableEq, Repr, Inhabited

end Sys2Proof
end

