-- ==== Sys2Proof/Machine/State.lean ====
section
/-!
DEFINITION. The state of the C2: every register, buffer, counter, mode and pin the spec gives it, the free-value counter,
and the queue of commands. The parts are grouped by the chapter that names them.
-/

namespace Sys2Proof.Machine

/-- The state. regs is keyed by BAR0 offset; an unlisted offset holds its reset value (Regs.lean). hbm is keyed by local
address; an unlisted byte is zero, as HBM is zeroed at cold start (15 R431). images are the state images in windows (11 R316). -/
structure State where
  part : PartInfo := {}
  dev : Dev := {}
  regs : Tbl Reg := []
  ctl : Ctl := {}
  host : HostIf := {}
  time : TimeBase := {}
  fe : Fe := {}
  comb : Comb := {}
  t2 : T2 := {}
  acq : Acq := {}
  eng : Tbl Eng := []
  hbm : Tbl Byte := []
  grid : Grid := {}
  fab : Fab := {}
  flt : Flt := {}
  upd : Upd := {}
  pwr : Pwr := {}
  images : List StateImage := []
  restoring : Option StateImage := none   -- what the next ARM or RESUME edge restores (11 R317)
  free : Nat := 0
  pending : List Instr := []
  deriving DecidableEq, Repr

/-- A fault of the machine. The spec gives every failure of the C2 an effect on its state (a poisoned word, a fault record, a
park, SAFE_STOP), so no meaning answers with one. -/
inductive Fault where
  /-- Raised by no meaning; safe. -/
  | none_
  deriving DecidableEq, Repr

/-- A refusal. -/
inductive Refusal where
  /-- A row whose meaning is not written yet; safe. -/
  | notModelled (mnemonic : String)
  deriving DecidableEq, Repr

/-- Control cores at their roles, core 7 the spare (15 R420). -/
def State.cores0 : List Core := (List.range 8).map fun r => { roles := if r < 7 then [r] else [] }

/-- The part held in reset: OFF with RESET_N low (18 R493, R511; log 2). RESET_RISE runs start-up from here. Every field holds
the value its chapter gives after reset, or the one its log entry names. -/
def State.reset : State := { flt := { cores := State.cores0 } }

end Sys2Proof.Machine
end

