-- ==== Sys2Proof/Machine/Regs.lean ====
section
/-!
DEFINITION. The BAR0 register map (17 R472): which register an offset names, its RW bits, its reset value, and the values
marked reserved.
-/

namespace Sys2Proof.Machine

/-- The registers, by kind. -/
inductive Rk where
  | devId0 | devId1 | devId2 | hostStat | pcieStat | pcieCfg | subsys | gridCfg | decision | irqMod | bar2Cfg | dbStat
  | hbmSize | loaderBase | ringCtl | stageBase | stageSize | rstoreBase | rstoreSize | rstoreWp | rstoreRp
  | sqBase | qcqBase | sqCfg | cqStat | evqBase | evqCfg
  | mac | ipv4 | ipv6 | cmdPort | evtDest | allow
  | engCfg | ringBase | cqBase | engIrq | dmaPark | winBase | winCtl | errqStat
  | timeCfg | timeStat | tickCfg | tickPeriod | tickEpoch | epochTime | tickStat | ppsTs | txtsHead | txtsStat | txtsLost
  | tickOutPhase | timedCtrl | timedPhase | timedPeriod | timedStart
  | ladderCfg | ladderStat | gho | t2Class | trgOut | busy | fireSrc | scmp | lgrp | lane | ofsMin | ofsMax | orCfg | ctx
  | mon | link | linkStat | masterPrio | tileStat | skip
  deriving DecidableEq, Repr

/-- A register array: kind, first offset, instances, stride (R472). -/
structure RegRow where
  k : Rk
  base : Nat
  n : Nat
  stride : Nat

def regMapIdent : List RegRow :=
  [⟨.devId0, 0x00, 1, 8⟩,
   ⟨.devId1, 0x08, 1, 8⟩,
   ⟨.devId2, 0x10, 1, 8⟩,
   ⟨.hostStat, 0x18, 1, 8⟩,
   ⟨.pcieStat, 0x20, 1, 8⟩,
   ⟨.pcieCfg, 0x28, 1, 8⟩,
   ⟨.subsys, 0x30, 1, 8⟩,
   ⟨.gridCfg, 0x40, 1, 8⟩,
   ⟨.decision, 0x48, 1, 8⟩,
   ⟨.irqMod, 0x50, 1, 8⟩,
   ⟨.bar2Cfg, 0x58, 1, 8⟩,
   ⟨.dbStat, 0x60, 1, 8⟩,
   ⟨.hbmSize, 0x1000, 1, 8⟩,
   ⟨.loaderBase, 0x1008, 1, 8⟩,
   ⟨.ringCtl, 0x1010, 1, 8⟩,
   ⟨.stageBase, 0x1018, 1, 8⟩,
   ⟨.stageSize, 0x1020, 1, 8⟩,
   ⟨.rstoreBase, 0x1028, 1, 8⟩,
   ⟨.rstoreSize, 0x1030, 1, 8⟩,
   ⟨.rstoreWp, 0x1038, 1, 8⟩,
   ⟨.rstoreRp, 0x1040, 1, 8⟩]

def regMapQueue : List RegRow :=
  [⟨.sqBase, 0x10000, 64, 0x40⟩,
   ⟨.qcqBase, 0x10008, 64, 0x40⟩,
   ⟨.sqCfg, 0x10010, 64, 0x40⟩,
   ⟨.cqStat, 0x10018, 64, 0x40⟩,
   ⟨.evqBase, 0x20000, 1, 8⟩,
   ⟨.evqCfg, 0x20008, 1, 8⟩,
   ⟨.mac, 0x21000, 1, 8⟩,
   ⟨.ipv4, 0x21008, 1, 8⟩,
   ⟨.ipv6, 0x21010, 2, 8⟩,
   ⟨.cmdPort, 0x21020, 1, 8⟩,
   ⟨.evtDest, 0x21028, 3, 8⟩,
   ⟨.allow, 0x21100, 16, 0x20⟩,
   ⟨.allow, 0x21108, 16, 0x20⟩,
   ⟨.allow, 0x21110, 16, 0x20⟩]

def regMapEngine : List RegRow :=
  [⟨.engCfg, 0x30000, 40, 0x40⟩,
   ⟨.ringBase, 0x30008, 40, 0x40⟩,
   ⟨.cqBase, 0x30010, 40, 0x40⟩,
   ⟨.engIrq, 0x30018, 40, 0x40⟩,
   ⟨.dmaPark, 0x30020, 40, 0x40⟩,
   ⟨.dmaPark, 0x30028, 40, 0x40⟩,
   ⟨.dmaPark, 0x30030, 40, 0x40⟩,
   ⟨.dmaPark, 0x30038, 40, 0x40⟩,
   ⟨.winBase, 0x40000, 1024, 0x10⟩,
   ⟨.winCtl, 0x40008, 1024, 0x10⟩,
   ⟨.errqStat, 0x50000, 1, 8⟩,
   ⟨.timeCfg, 0x60000, 1, 8⟩,
   ⟨.timeStat, 0x60008, 1, 8⟩,
   ⟨.tickCfg, 0x60010, 1, 8⟩,
   ⟨.tickPeriod, 0x60018, 1, 8⟩,
   ⟨.tickEpoch, 0x60020, 1, 8⟩,
   ⟨.epochTime, 0x60028, 2, 8⟩,
   ⟨.tickStat, 0x60038, 1, 8⟩,
   ⟨.ppsTs, 0x60040, 2, 8⟩,
   ⟨.txtsHead, 0x60050, 2, 8⟩,
   ⟨.txtsStat, 0x60060, 1, 8⟩,
   ⟨.txtsLost, 0x60068, 1, 8⟩,
   ⟨.tickOutPhase, 0x60070, 1, 8⟩,
   ⟨.timedCtrl, 0x61000, 16, 0x20⟩,
   ⟨.timedPhase, 0x61004, 16, 0x20⟩,
   ⟨.timedPeriod, 0x61008, 16, 0x20⟩,
   ⟨.timedStart, 0x61010, 16, 0x20⟩,
   ⟨.timedStart, 0x61018, 16, 0x20⟩,
   ⟨.ladderCfg, 0x70000, 1, 8⟩,
   ⟨.ladderStat, 0x70008, 1, 8⟩,
   ⟨.gho, 0x70010, 1, 8⟩]

def regMapZone : List RegRow :=
  [⟨.t2Class, 0x70100, 4, 8⟩,
   ⟨.trgOut, 0x70200, 8, 4⟩,
   ⟨.busy, 0x70240, 4, 4⟩,
   ⟨.fireSrc, 0x70300, 32, 2⟩,
   ⟨.scmp, 0x72000, 1024, 8⟩,
   ⟨.lgrp, 0x80000, 12, 4⟩,
   ⟨.lane, 0x81000, 96, 0x10⟩,
   ⟨.ofsMin, 0x81004, 96, 0x10⟩,
   ⟨.ofsMax, 0x81008, 96, 0x10⟩,
   ⟨.orCfg, 0x82000, 512, 1⟩,
   ⟨.ctx, 0x90000, 4096, 4⟩,
   ⟨.mon, 0xA0000, 32, 8⟩,
   ⟨.link, 0xB0000, 36, 0x10⟩,
   ⟨.linkStat, 0xB0008, 36, 0x10⟩,
   ⟨.masterPrio, 0xB1000, 1, 8⟩,
   ⟨.tileStat, 0x1000000, 160, 8⟩,
   ⟨.skip, 0x1000800, 16, 1⟩,
   ⟨.tileStat, 0x1100000, 160, 8⟩,
   ⟨.skip, 0x1100800, 16, 1⟩,
   ⟨.tileStat, 0x1200000, 160, 8⟩,
   ⟨.skip, 0x1200800, 16, 1⟩,
   ⟨.tileStat, 0x1300000, 160, 8⟩,
   ⟨.skip, 0x1300800, 16, 1⟩]

/-- Every register array of BAR0 but the counters and the scale-state views. -/
def regMap : List RegRow := regMapIdent ++ regMapQueue ++ regMapEngine ++ regMapZone

/-- The register at an offset, with its instance. -/
def regKind (off : Nat) : Option (Rk × Nat) :=
  (regMap.find? fun r => decide (r.base ≤ off ∧ (off - r.base) % r.stride = 0 ∧ (off - r.base) / r.stride < r.n)).map
    fun r => (r.k, (off - r.base) / r.stride)

/-- Bits hi down to lo set. -/
def ones (hi lo : Nat) : Nat := 2 ^ (hi + 1) - 2 ^ lo

/-- The bits of a register that a register write can change. -/
def rwMask : Rk → Nat
  | .pcieCfg => ones 7 0
  | .subsys => ones 31 0
  | .gridCfg => ones 48 48 + ones 16 0
  | .decision => ones 47 32
  | .irqMod => ones 15 0
  | .bar2Cfg => ones 63 63 + ones 38 28
  | .ringCtl => ones 63 63 + ones 8 0
  | .stageBase | .stageSize | .rstoreBase | .rstoreSize | .rstoreRp | .sqBase | .qcqBase | .evqBase | .ipv6 | .evtDest
  | .allow | .ringBase | .cqBase | .winBase | .tickPeriod | .tickEpoch => ones 63 0
  | .sqCfg => ones 63 59 + ones 55 48
  | .evqCfg => ones 63 48
  | .mac => ones 47 0
  | .ipv4 => ones 31 0
  | .cmdPort => ones 15 0
  | .engCfg => ones 63 52
  | .engIrq => ones 7 0
  | .winCtl => ones 7 0 + ones 15 11 + ones 31 16
  | .errqStat => ones 31 16
  | .timeCfg => ones 31 16 + ones 7 7 + ones 5 4 + ones 2 0
  | .tickCfg => ones 63 16 + ones 1 0
  | .epochTime => ones 63 0
  | .tickOutPhase => ones 15 0
  | .ladderCfg => ones 63 59 + ones 55 0
  | .gho => ones 23 0
  | .t2Class => ones 44 0
  | .trgOut => ones 31 30 + ones 24 0
  | .busy => ones 31 31 + ones 28 16 + ones 7 0
  | .fireSrc => ones 15 15 + ones 11 0
  | .scmp => ones 63 63 + ones 57 48 + ones 34 32 + ones 15 0
  | .lgrp => ones 2 0
  | .lane => ones 31 5
  | .orCfg => ones 7 7 + ones 0 0
  | .ctx => ones 31 16
  | .mon => ones 63 54 + ones 47 24 + ones 15 0
  | .link => ones 31 29 + ones 15 0
  | .masterPrio => ones 7 0
  | _ => 0

/-- The reset value of a register: the reset column of its table, and zero where no table gives one, but for TICK_PERIOD, which
holds 128 ns so that II = 256 gives 2.0 GHz (DESIGN CHOICE, log 4). STAGE_BASE lies 1 GiB below LOADER_BASE (R483). -/
def resetVal : Rk → Nat
  | .pcieCfg => 16 * 8 + 7
  | .gridCfg => 256
  | .decision => 256 * 2 ^ 32
  | .stageBase => (512 - 4 - 1) * 2 ^ 30
  | .stageSize => 2 ^ 30
  | .cmdPort => 49858
  | .errqStat => 20 * 2 ^ 24 + 16 * 2 ^ 16
  | .timeCfg => 100 * 2 ^ 16
  | .tickCfg => 2 ^ 48 + 2 ^ 32
  | .tickPeriod => 128 * 2 ^ 32
  | .ladderCfg => 2 ^ 63 + 8 * 2 ^ 59 + 192 * 2 ^ 48 + 64 * 2 ^ 40 + 16 * 2 ^ 20 + 65536
  | .t2Class => 4096 * 2 ^ 32 + 4096
  | .trgOut => 0x100 * 2 ^ 16 + 16
  | .busy => 16
  | .mon => 64
  | .link => 2 ^ 29 + 16 * 256 + 16
  | _ => 0

/-- The reset value at an offset. -/
def regReset (off : Nat) : Reg := match regKind off with | some (k, _) => BitVec.ofNat 64 (resetVal k) | none => 0#64

/-- A register's stored value. -/
def regAt (s : State) (off : Nat) : Nat := (tget regReset s.regs off).toNat

/-- Stores a register's value. -/
def regPut (r : Tbl Reg) (off v : Nat) : Tbl Reg := tset regReset r off (BitVec.ofNat 64 v)
def setReg (off v : Nat) (s : State) : State := { s with regs := regPut s.regs off v }

/-- The writable bits of instance i of a kind: bytes 0 and 1 of TICK_EPOCH_TIME are reserved (R365). -/
def rwMaskAt (k : Rk) (i : Nat) : Nat := if k = .epochTime && i == 0 then ones 63 16 else rwMask k

/-- A masked write of the RW bits (R389). -/
def writeRw (k : Rk) (i old mask value : Nat) : Nat :=
  let m := mask &&& rwMaskAt k i
  (old ^^^ (old &&& m)) ||| (value &&& m)

/-- The static value rules: no field holds a value its table marks reserved or out of range (R9). -/
def valueOk (k : Rk) (v : Nat) : Bool :=
  match k with
  | .pcieCfg => [1, 2, 4, 8, 16].contains (bits v 7 3) && decide (1 ≤ bits v 2 0)
  | .gridCfg => decide (8 ≤ bits v 16 0 ∧ bits v 16 0 ≤ 65536)
  | .decision => decide (32 ≤ bits v 47 32 ∧ bits v 47 32 ≤ 2048)
  | .ringCtl => decide (bits v 8 0 ≤ 448) && (!bit v 63 || decide (1 ≤ bits v 8 0))
  | .stageBase | .rstoreBase => decide (v % 2 ^ 21 = 0)
  | .stageSize => decide (2 ^ 29 ≤ v ∧ v ≤ 2 ^ 34)
  | .sqCfg => decide (bits v 62 59 ≤ 8)
  | .evqCfg => decide (bits v 62 59 ≤ 10)
  | .engCfg => decide (bits v 62 61 ≤ 2 ∧ bits v 55 52 ≤ 12)
  | .errqStat => decide (10 ≤ bits v 31 24 ∧ bits v 31 24 ≤ 40 ∧ 1 ≤ bits v 23 16)
  | .timeCfg => decide (bits v 2 0 ≤ 4 ∧ 1 ≤ bits v 31 16)
  | .tickCfg => decide (1 ≤ bits v 63 48 ∧ 1 ≤ bits v 47 32 ∧ bits v 31 16 < bits v 47 32 ∧ bits v 1 0 ≤ 2)
  | .tickPeriod => decide (1 ≤ v)
  | .ladderCfg => decide (bits v 62 59 ≤ 8 ∧ bits v 47 40 < bits v 55 48)
  | .t2Class => decide (1 ≤ bits v 44 32 ∧ bits v 44 32 ≤ 4096 ∧ 1 ≤ bits v 31 0)
  | .trgOut => decide (bits v 24 16 ≤ 0x104 ∧ 4 ≤ bits v 15 0)
  | .busy => decide (bits v 28 16 ≤ 4096)
  | .fireSrc => fireCondOk (bits v 11 0)
  | .scmp => decide (bits v 34 32 ≤ 5)
  | .lgrp => decide (bits v 1 0 ≠ 3)
  | .lane => decide (bits v 28 25 ≤ 8)
  | .mon => decide (bits v 57 54 ≤ 8 ∧ 1 ≤ bits v 15 0)
  | _ => true

/-- Registers whose writes R26, R250 or R252 tie to a tick edge. -/
def tickBound : Rk → Bool
  | .scmp | .gho | .orCfg | .trgOut | .fireSrc => true
  | _ => false

/-- Registers written only in READY and LOADED (R15, R205, R214, R287, R302, R320, R355, R365, R471). RING_CTL, and INVERT of
TRG_OUT_CFG and BUSY_CFG, may keep their value in any state (R252, R253, R280). -/
def readyOnly (k : Rk) (old new : Nat) : Bool :=
  match k with
  | .gridCfg | .decision | .lgrp | .lane | .ctx | .link | .timeCfg | .tickCfg | .tickPeriod | .tickEpoch | .epochTime
  | .tickOutPhase | .stageSize => true
  | .ringCtl => old != new
  | .trgOut => bit old 30 != bit new 30
  | .busy => bit old 31 != bit new 31
  | _ => false

/-- Registers written only in READY, LOADED and PAUSED (R257, R276). -/
def pausedToo : Rk → Bool
  | .t2Class | .mon => true
  | _ => false

/-- Registers kept in the boot settings (R476). -/
def persistent : Rk → Bool
  | .pcieCfg | .subsys | .mac | .ipv4 | .ipv6 | .cmdPort | .evtDest | .allow | .masterPrio | .timeCfg => true
  | _ => false

end Sys2Proof.Machine
end

