-- ==== Sys2Proof/Machine/Schedule.lean ====
section
/-!
DEFINITION. The tile schedule word: fields, CHECK, spans, stages (07), and the layout of the virtual quadrant (01).
-/

namespace Sys2Proof

/-- Bits [hi:lo] of a schedule word. -/
def wbits (w : BitVec 128) (hi lo : Nat) : Nat := bits w.toNat hi lo

def wOpcode (w : BitVec 128) : Nat := wbits w 127 120
def wMod (w : BitVec 128) : Nat := wbits w 119 112
def wSrcA (w : BitVec 128) : Nat := wbits w 111 96
def wSrcB (w : BitVec 128) : Nat := wbits w 95 80
def wDest (w : BitVec 128) : Nat := wbits w 79 64
def wRoute (w : BitVec 128) : Nat := wbits w 63 48
def wImm (w : BitVec 128) : Nat := wbits w 47 32
def wSel (w : BitVec 128) : Nat := wbits w 31 16
def wTagchk (w : BitVec 128) : Nat := wbits w 15 8

/-- The position p_i of each data bit d_i in the code (R183). -/
def hamPos : List Nat := (rangeFrom 3 125).filter (fun n => n ≠ 4 ∧ n ≠ 8 ∧ n ≠ 16 ∧ n ≠ 32 ∧ n ≠ 64)

/-- The seven check bits of the data bits [127:8] (R183). -/
def hamBits (w : BitVec 128) : Nat :=
  (hamPos.zipIdx).foldl (fun a e => if w.getLsbD (e.2 + 8) then a ^^^ e.1 else a) 0

/-- The parity of a word's bits [127:8] and [6:0]. -/
def hamParity (w : BitVec 128) : Bool :=
  ((List.range 128).filter (fun i => i ≠ 7 && w.getLsbD i)).length % 2 = 1

/-- The word with CHECK written (R183). -/
def writeCheck (w : BitVec 128) : BitVec 128 :=
  let d := (w >>> 8) <<< 8
  let d := d ||| BitVec.ofNat 128 (hamBits d)
  if hamParity d then d ||| 128#128 else d

/-- What a schedule read gives (R184). -/
inductive SchedRead where
  | good (w : BitVec 128)
  | corrected (w : BitVec 128)
  | bad
  deriving DecidableEq, Repr

/-- The read of a word with its CHECK (R183, R184). -/
def schedRead (w : BitVec 128) : SchedRead :=
  let syn := hamBits w ^^^ (wbits w 6 0)
  let par := hamParity w != w.getLsbD 7
  if syn = 0 && !par then .good w
  else if !par then .bad
  else if syn = 0 then .corrected (w ^^^ 128#128)
  else
    match hamPos.findIdx? (· = syn) with
    | some i => .corrected (w ^^^ (1#128 <<< (i + 8)))
    | none => .corrected (w ^^^ BitVec.ofNat 128 syn)

/-- Tile classes (R17). -/
inductive TileClass where
  | matrix | memory | function | ingest | egress | hbmPort | fabricPort
  deriving DecidableEq, Repr, Inhabited

/-- The class of a virtual site (R17, R18). -/
def siteClass (col row : Nat) : Option TileClass :=
  let cIn := 2 ≤ col ∧ col ≤ 9
  let rIn := 2 ≤ row ∧ row ≤ 9
  if 11 < col ∨ 11 < row then none
  else if cIn ∧ rIn then some .matrix
  else if rIn then some .memory
  else if cIn then some .function
  else
    let ci := decide (col = 1 ∨ col = 10)   -- the column nearest the array
    let ri := decide (row = 1 ∨ row = 10)
    some (match ci, ri with
      | true, true => .ingest | true, false => .egress | false, true => .hbmPort | false, false => .fabricPort)

/-- Dense number of a virtual site of a quadrant. -/
def siteNo (q col row : Nat) : Nat := q * 256 + col * 16 + row

/-- Number of the bank entry of a word. -/
def wordNo (bank i : Nat) : Nat := bank * 1024 + i

/-- The IDLE opcodes (R181). -/
def isIdle (op : Nat) : Bool := op == 0x3F || op == 0x7F || op == 0xDF || op == 0xFF

/-- Cycles a word spans (R182). -/
def wSpan (w : BitVec 128) : Nat := if isIdle (wOpcode w) then wImm w + 1 else 1

/-- The word at an index of a bank. -/
def tswAt (t : Tile) (bank i : Nat) : BitVec 128 := tget (fun _ => 0#128) t.tsw (wordNo bank i)

/-- First cycle of word i within the tick or pass: the spans before it (R182). -/
def wStart (t : Tile) (bank i : Nat) : Nat := sumL ((List.range i).map fun j => wSpan (tswAt t bank j))

/-- The stage entry of a word: MIXED and sigma (R185). -/
def wStage (t : Tile) (bank i : Nat) : Nat := bits (cget t.stage (wordNo bank i)) 10 0
def wMixed (t : Tile) (bank i : Nat) : Bool := bit (cget t.stage (wordNo bank i)) 15

/-- Raise a tile counter by n (R475). -/
def tcount (k n : Nat) (t : Tile) : Tile := { t with cnt := cadd 32 t.cnt k n }

/-- MULT_HIGH and MULT_LOW of a point that has no scale-state entry, counted by its tile at the width of R92's (R77, R144; log 129). -/
def tmult (m : Mult) (t : Tile) : Tile :=
  { t with multHigh := satAdd 8 t.multHigh (bnat m.high), multLow := satAdd 8 t.multLow (bnat m.low) }

/-! The 28 counters of R475 by position. -/
def cInvalidRead := 0
def cTagErr := 1
def cInvalidCode := 2
def cScaleSkew := 3
def cResidue := 4
def cWsCe := 5
def cWsUe := 6
def cMemCe := 7
def cMemUe := 8
def cTblCe := 9
def cTblUe := 10
def cSchedCe := 11
def cSchedUe := 12
def cLinkPar := 13
def cPortColl := 14
def cHistShort := 15
def cRangeErr := 16
def cFifoUnder := 17
def cFifoOvf := 18
def cBankErr := 19
def cQueueOvf := 20
def cLaneSat := 21
def cZeroVar := 22
def cHistSat := 23
def cCcCe := 24
def cCcUe := 25
def cSsCe := 26
def cSsUe := 27

/-- A fault found by a tile operation, before its place is filled in: code, severity, unit, index, detail (R403, R404). -/
structure TFault where
  code : Nat
  sev : Nat
  unit : Nat := 0
  index : Nat := 0
  detail : Nat := 0
  deriving DecidableEq, Repr, Inhabited

/-- A word leaving a tile: cycles after issue, destination set (R157), the word. -/
structure Emit where
  off : Nat
  dest : Nat
  w : LWord
  deriving DecidableEq, Repr, Inhabited

/-- What one schedule word of a tile gives: the tile after it, words leaving, a chain word leaving, faults,
corrected-error units (R408), whether the pass ends suspect, and whether the tile stalls instead (R169). -/
structure TileOut where
  t : Tile
  emits : List Emit := []
  chain : Option Chain := none
  faults : List TFault := []
  ces : List Nat := []
  events : List (Nat × Nat × Nat) := []   -- code, point, value: SCALE_DRIFT and FLAT_EVENT (R88, R90)
  credits : List Nat := []                -- generators whose queue gave up a line (R117)
  suspect : Bool := false
  stall : Bool := false
  waitAg : Option Nat := none             -- a stall on the empty queue of a generator (R171)
  waits : Option Nat := none              -- a stall for credits of a loop (R171)
  deriving DecidableEq, Repr, Inhabited

/-- What an operation knows of its row: the section's zone, the tick tag of the words of the cycle, the tick or
pass number it acts for, the seed, and the word. -/
structure Env where
  elastic : Bool := false
  tag : Nat := 0
  tick : Nat := 0
  seed : Nat := 0
  c : Nat := 0
  w : BitVec 128 := 0#128
  hw : Hw := {}
  free : Nat → Nat := fun _ => 0          -- free values of the row, by element

/-- A poisoned word with V = 1 (R59, R160). -/
def poisonWord (tick btag : Nat) : LWord := { v := true, p := true, tick := tick, btag := btag }

/-- The word present on a port at a cycle: the newest run that covers it, the idle word otherwise (R152). -/
def runAt (l : List Run) (port c : Nat) : LWord :=
  match l.reverse.find? (fun r => r.port == port && decide (r.a ≤ c ∧ c ≤ r.b)) with
  | some r => r.w
  | none => {}

/-- The word in a hold register at a cycle: the newest one readable by then (R154). -/
def holdAt (l : List Run) (reg c : Nat) : LWord :=
  match (l.filter (fun r => r.port == reg && decide (r.a ≤ c))).foldl
      (fun (b : Option Run) r => match b with | none => some r | some x => if x.a ≤ r.a then some r else some x) none with
  | some r => r.w
  | none => {}

/-- The chain word presented at a cycle, idle otherwise. -/
def chainAt (l : List ChainAt) (c : Nat) : Chain :=
  match l.reverse.find? (fun r => r.cyc == c) with
  | some r => r.c
  | none => {}

/-- The contents of accumulator n as written by cycle c (R101). -/
def accAt (l : List ChainAt) (n c : Nat) : Chain :=
  match (l.filter (fun r => r.n == n && decide (r.cyc ≤ c))).getLast? with
  | some r => r.c
  | none => {}

/-- The word an operand field names at cycle c (R156). -/
def operand (t : Tile) (c f : Nat) : LWord :=
  let k := bits f 15 12
  if 1 ≤ k ∧ k ≤ 4 then runAt t.inbox (k - 1) c
  else if k = 5 ∨ k = 6 then holdAt t.hr (k - 5) c
  else if k = 7 then runAt t.inbox 4 c
  else if k = 8 then runAt t.outs 0 c
  else {}

/-- The bits of a link word in the order of R152: data, side-band, and the five parity bits its driver generates (R153). -/
def linkBits (w : LWord) : BitVec 278 :=
  let side := bnat w.v * 2 ^ 16 + bnat w.p * 2 ^ 15 + bnat w.k * 2 ^ 14 + w.tick % 256 * 64 + w.btag % 64
  let d := w.data.toNat
  let odd (n : Nat) : Nat := popc 64 n % 2
  let par := odd (bits d 63 0) + 2 * odd (bits d 127 64) + 4 * odd (bits d 191 128) + 8 * odd (bits d 255 192) + 16 * odd side
  BitVec.ofNat 278 (d + side * 2 ^ 256 + par * 2 ^ 273)

/-- Each of the five groups of R153 has even parity. -/
def parityHolds (b : BitVec 278) : Bool :=
  let n := b.toNat
  let ok (hi lo k : Nat) : Bool := (popc 64 (bits n hi lo) + bits n k k) % 2 == 0
  ok 63 0 273 && ok 127 64 274 && ok 191 128 275 && ok 255 192 276 && ok 272 256 277

/-- A link word read from its bits. -/
def linkWord (b : BitVec 278) : LWord :=
  let n := b.toNat
  { data := BitVec.ofNat 256 n, v := n.testBit 272, p := n.testBit 271, k := n.testBit 270, tick := bits n 269 262, btag := bits n 261 256 }

/-- A word received with some of its bits changed, and whether the receiver finds a parity error: then P = 1, the data are zero, and V,
TICK and BTAG stay as received (R153). -/
def receive (w : LWord) (mask : BitVec 278) : LWord × Bool :=
  let b := linkBits w ^^^ mask
  let x := linkWord b
  if parityHolds b then (x, false) else ({ x with p := true, data := 0#256 }, true)

/-- The words a scale buffer holds when a build begins at cycle c: those captured before, at most two (R85, R160). -/
def sbufHeld (t : Tile) (b c : Nat) : List Run := (t.sbuf.filter (fun r => r.port == b && decide (r.a ≤ c))).take 2

/-- The captures a full buffer discarded by cycle c, dropped and counted (R160). -/
def sbufTrim (t : Tile) (b c : Nat) : Tile :=
  let cap := t.sbuf.filter (fun r => r.port == b && decide (r.a ≤ c))
  let lost := cap.drop 2
  tcount cScaleSkew lost.length { t with sbuf := t.sbuf.filter (fun r => !lost.contains r) }

/-- The head of a buffer removed. -/
def sbufPop (t : Tile) (b : Nat) : Tile :=
  match t.sbuf.find? (fun r => r.port == b) with
  | some r => { t with sbuf := t.sbuf.erase r }
  | none => t

/-- What the tag comparison of R84 gives. -/
inductive TagCase where
  | match_ (w : LWord)        -- the scale word
  | poison (consume : Bool)   -- results poisoned
  | wait                      -- the consumer stalls or discards and waits
  | discard                   -- an old word is discarded, then wait
  deriving DecidableEq, Repr

/-- The case of R84 for a block of tag dtag, whose declared format is one of fmts, against the head of a buffer. In the elastic zone a word of the right tag and another
format has no row in the table: the block is poisoned and the word, which is its own, consumed (DESIGN CHOICE, log 125). -/
def tagCase (elastic : Bool) (head : Option LWord) (dtag : Nat) (fmts : List Nat) : TagCase :=
  match head with
  | none => if elastic then .wait else .poison false
  | some w =>
    let sw := w.data.toNat % 2 ^ 32
    let d := (bits sw 31 26 + 64 - dtag % 64) % 64
    let mism := !fmts.contains (bits sw 23 20)
    if w.p then .match_ w
    else if d = 0 && !mism then .match_ w
    else if !elastic then .poison true
    else if 33 ≤ d then .discard
    else .poison (d = 0)

end Sys2Proof
end

