-- ==== Sys2Proof/Machine/Ops.lean ====
section
/-!
DEFINITION. Operations every family shares: configuration in force, time, events, free values, device memory and the window
table, and where a virtual site stands in silicon.
-/

namespace Sys2Proof.Machine

/-- A meaning goes on with the state given. -/
def goes (s : State) : Host.Outcome State Fault Refusal := .next s

/- Configuration in force. -/

/-- II (R471). -/
def iiOf (s : State) : Nat := bits (regAt s 0x40) 16 0
/-- C1 timing mode (R302). -/
def c1Mode (s : State) : Bool := bit (regAt s 0x40) 48
/-- ALIGN_DEPTH (R20). -/
def alignOf (s : State) : Nat := bits (regAt s 0x48) 47 32
/-- The plan that gives the ticks under FABRIC (R366). -/
def tickPlan (s : State) : Option Plan := if bits (regAt s 0x60010) 1 0 = 2 && s.fab.member then s.fab.plan else none
/-- The tick period in force, in units of 2^-32 ns: TICK_PERIOD, or the plan's (R365, R366). -/
def periodOf (s : State) : Nat := match tickPlan s with | some p => if p.period = 0 then regAt s 0x60018 else p.period | none => regAt s 0x60018
/-- The tick period in tu. -/
def tickTu (s : State) : Nat := periodOf s / 65536
/-- Nominal f_grid in kHz (R471). -/
def fGridKHz (ii period : Nat) : Nat := if period = 0 then 0 else ii * 2 ^ 32 * 1000000 / period
/-- The highest f_grid of the grade in MHz (R2). -/
def fMaxMHz (s : State) : Nat := match s.part.grade with | .c4q16 => 1600 | _ => 2000
/-- The limits of R5 on II and the nominal tick period. -/
def rateOk (s : State) (ii period : Nat) : Bool :=
  decide (8 ≤ ii ∧ ii ≤ 65536) && decide (12 * period ≤ 10 * 2 ^ 32 * ii ∧ 1000 * 2 ^ 32 * ii ≤ fMaxMHz s * period) &&
  decide (4 * 2 ^ 32 ≤ period ∧ period ≤ 32768 * 2 ^ 32)
/-- Ticks in ns x 2^32 give gc: how many gc a time in tu lasts, rounded up. -/
def gcOfTu (s : State) (tu : Nat) : Nat := ceilDiv (tu * 65536 * iiOf s) (max (periodOf s) 1)
/-- gc of E(T): the cycles counted from E(0) (log 21). -/
def gcOf (s : State) (t : Nat) : Nat := iiOf s * t
/-- Number of the device within the fabric (R339). -/
def devId (s : State) : Nat := if s.fab.member then s.fab.id else 0

/- Time (13 R352 to R354). -/

/-- K in force; frozen in holdover at RATE, the slew stopped (R354, R359). -/
def kOf (t : TimeBase) : Int := t.rate + t.slew
/-- L(r) (R354). -/
def linear (t : TimeBase) (r : Nat) : Nat :=
  let d : Int := (r : Int) - (t.r0 : Int)
  ((t.l0 : Int) + d + (d * kOf t) / (2 ^ 40 : Int)).toNat
/-- The time base rebased at raw stamp r, as every change of K begins (R354). -/
def rebase (t : TimeBase) (r : Nat) : TimeBase := { t with r0 := r, l0 := linear t r }
/-- SEC, NS and FRAC of a linear time (R352, R354). -/
def todOf (l : Nat) : Tod := { sec := l / (10 ^ 9 * 65536), ns := l / 65536 % 10 ^ 9, frac := l % 65536 }
/-- The linear form of a time of day (R352). -/
def linOf (t : Tod) : Nat := (t.sec * 10 ^ 9 + t.ns) * 65536 + t.frac
/-- The 16-byte time of R369: two reserved bytes, FRAC, NS, SEC. -/
def todBytes (t : Tod) : List Byte := le 2 0 ++ le 2 t.frac ++ le 4 t.ns ++ le 8 t.sec
/-- The newest raw stamp moves to r; stamps never run back (R353). -/
def seeRaw (r : Nat) (s : State) : State := { s with time := { s.time with raw := max s.time.raw r } }
/-- The time now. -/
def nowL (s : State) : Nat := linear s.time s.time.raw
/-- The newest tick edge, 0 before the first. -/
def nowTick (s : State) : Nat := s.time.tick.getD 0
/-- T0 and L_T0: TICK_EPOCH and TICK_EPOCH_TIME, or the plan's (R365, R366). -/
def tickT0 (s : State) : Nat := match tickPlan s with | some p => p.t0 | none => regAt s 0x60020
def tickL0 (s : State) : Nat :=
  match tickPlan s with
  | some p => linOf p.lT0
  | none => linOf { sec := regAt s 0x60030, ns := bits (regAt s 0x60028) 63 32, frac := bits (regAt s 0x60028) 31 16 }
/-- The time of E(T) under INTERNAL and FABRIC: L_T0 + floor((T - T0) x TICK_PERIOD / 2^16) (R366). -/
def genL (s : State) (t : Nat) : Nat := tickL0 s + (t - tickT0 s) * periodOf s / 65536
/-- The first tick from T0 on whose edge lies at time l or later. -/
def genFrom (s : State) (l : Nat) : Nat := tickT0 s + ceilDiv ((l - tickL0 s) * 65536) (max (periodOf s) 1)
/-- The edges are placed by the time base, not by TICK_IN (R366). -/
def ownEdges (s : State) : Bool := bits (regAt s 0x60010) 1 0 != 1
/-- The time-base reading at E(T): as stamped at the edge, or reckoned from the nearest edge kept (R271). -/
def stampOf (s : State) (t : Nat) : Nat :=
  match s.time.stamps.find? (fun e => e.1 == t) with
  | some e => e.2
  | none =>
    match s.time.stamps with
    | [] => genL s t
    | e :: _ => if e.1 ≤ t then e.2 + (t - e.1) * tickTu s else e.2 - (e.1 - t) * tickTu s

/- Events (14 R394, R395). -/

/-- Raises an event: it takes the next ESEQ, the newest tick and the time, and waits to be written (R395). -/
def raiseEv (e : Ev) (s : State) : State :=
  let t := todOf (nowL s)
  { s with host := { s.host with
      eseq := s.host.eseq + 1
      raised := s.host.raised ++ [{ eseq := s.host.eseq, tick := nowTick s, sec := t.sec % 2 ^ 32, ns := t.ns, e := e }] } }

/-- ALERT_N is asserted: an event of S3 or S4 is not yet written, or written and unread (R381). -/
def alertOn (s : State) : Bool := !s.host.unread.isEmpty || s.host.raised.any fun r => decide (3 ≤ r.e.sev)

/-- Raises several events in order. -/
def raiseEvs (es : List Ev) (s : State) : State := es.foldl (fun s e => raiseEv e s) s

/-- Something leaves the part on an interface. -/
def send (x : Sent) (s : State) : State := { s with host := { s.host with out := x :: s.host.out } }

/- Free values (log 1). -/

/-- Draws the next free value of w bits. -/
def drawFree (w : Nat) (s : State) : BitVec w × State := (Config.freeBits w s.free, { s with free := s.free + 1 })

/- Device states (14 R392). -/

/-- Codes of R392. -/
def stCode : DevSt → Nat
  | .off => 0 | .boot => 1 | .ready => 2 | .loaded => 3 | .armed => 4 | .running => 5 | .paused => 6 | .safe => 7

/-- Quadrant state codes of R393. -/
def quadCode : QuadSt → Nat
  | .fused => 0 | .off => 1 | .waking => 2 | .idle => 3 | .active => 4 | .standby => 5 | .failed => 6

/-- Moves the device state and raises STATE_CHANGE (R392, R395). -/
def setDev (st : DevSt) (s : State) : State :=
  if s.dev.st = st then s
  else raiseEv { code := 0x70, sev := 0, origin := 0xFF, body := [BitVec.ofNat 8 (stCode s.dev.st), BitVec.ofNat 8 (stCode st)] }
    { s with dev := { s.dev with st := st } }

/-- The state of a quadrant. -/
def quadAt (s : State) (q : Nat) : QuadSt := s.dev.quads.getD q .fused
/-- Moves a quadrant's state and raises STATE_CHANGE with the quadrant as origin. -/
def setQuad (q : Nat) (st : QuadSt) (s : State) : State :=
  if quadAt s q = st then s
  else raiseEv { code := 0x70, sev := 0, origin := q, body := [BitVec.ofNat 8 (quadCode (quadAt s q)), BitVec.ofNat 8 (quadCode st)] }
    { s with dev := { s.dev with quads := s.dev.quads.set q st } }

/-- The device counts ticks, or has been armed to. -/
def inRun (s : State) : Bool := s.dev.st == .armed || s.dev.st == .running || s.dev.st == .paused
/-- READY or LOADED. -/
def inReady (s : State) : Bool := s.dev.st == .ready || s.dev.st == .loaded

/- Counters of the device (17 R474, log numbers in Parts/Comb). -/

def devCnt (s : State) (k : Nat) : Nat := cget s.comb.cnt k
def addCnt (k n : Nat) (s : State) : State := { s with comb := { s.comb with cnt := cadd 64 s.comb.cnt k n } }
/-- A current count (T_PENDING, P_PENDING) falls by one. -/
def decCnt (k : Nat) (s : State) : State := { s with comb := { s.comb with cnt := cset s.comb.cnt k (cget s.comb.cnt k - 1) } }

/- HBM and the memory map (17 R483). -/

def gib : Nat := 2 ^ 30
/-- HBM_SIZE: 512 GiB less 128 GiB for each lost stack (R423, R483). -/
def hbmSize (s : State) : Nat := 512 * gib - 128 * gib * s.flt.stacksLost.length
def loaderBase (s : State) : Nat := hbmSize s - 4 * gib
def ringOn (s : State) : Bool := bit (regAt s 0x1010) 63
def ringSize (s : State) : Nat := bits (regAt s 0x1010) 8 0 * gib
def stageBase (s : State) : Nat := regAt s 0x1018
def stageSize (s : State) : Nat := regAt s 0x1020

/-- Reads n bytes of HBM from a local address. -/
def hbmRead (s : State) (a n : Nat) : List Byte := (List.range n).map fun k => tget (fun _ => 0#8) s.hbm (a + k)
/-- The canonical form of local memory: addresses strictly rising, no entry of the value an unlisted byte reads as. -/
abbrev Memory.wf (m : Tbl Byte) : Prop := twf (fun _ => 0#8) m

/-- Writes bytes to HBM from a local address. -/
def hbmWrite (a : Nat) (bs : List Byte) (s : State) : State := { s with hbm := tsetAll (fun _ => 0#8) s.hbm a bs }

/-- Entry n of the window table (R289). -/
def windowAt (s : State) (n : Nat) : Window :=
  let c := regAt s (0x40008 + 16 * n)
  { valid := bit c 15, target := bits c 14 13, rd := bit c 12, wr := bit c 11, base := regAt s (0x40000 + 16 * n),
    size := bits c 7 0, owner := bits c 31 16 }

/-- The second word of a window-table entry. -/
def windowCtl (w : Window) : Nat :=
  w.size % 256 + (bnat w.valid * 128 + w.target % 4 * 32 + bnat w.rd * 16 + bnat w.wr * 8) * 256 + w.owner % 65536 * 65536

/-- Where a device address leads: a fault cause of R291, or the target and its address. -/
inductive Place where
  | bad (cause : Nat)
  | host (addr : Nat)
  | hbm (addr : Nat)
  deriving DecidableEq, Repr

/-- Translates one device address for a read or write (R289). dma limits it to windows owned by 0xFFFF. -/
def translate (s : State) (write dma : Bool) (a : Nat) : Place :=
  let w := windowAt s (bits a 63 54)
  let o := bits a 53 0
  if !w.valid then .bad 1
  else if 2 ^ w.size ≤ o then .bad 2
  else if (if write then !w.wr else !w.rd) || (dma && w.owner != 0xFFFF) then .bad 3
  else if w.target = 0 then .host (w.base + o) else .hbm (w.base + o)

/-- Bytes from a device address to the end of its 4 KiB chunk and of its window (R289). -/
def chunkLeft (s : State) (a : Nat) : Nat :=
  let w := windowAt s (bits a 63 54)
  min (4096 - bits a 53 0 % 4096) (2 ^ w.size - bits a 53 0)

/- Where a virtual site stands (07 R194, 17 R473). -/

/-- SKIP of line k of a quadrant, in the order of R473. -/
def skipAt (s : State) (q k : Nat) : Nat := tget (fun _ => 8) s.grid.skip (16 * q + k)

/-- The line of a virtual site in SKIP order, and its virtual index on it (R194, R473). -/
def lineOfSite (col row : Nat) : Option (Nat × Nat) :=
  match siteClass col row with
  | some .matrix => some (col - 2, row - 2)
  | some .memory => some (8 + (if col < 2 then col else col - 8), row - 2)
  | some .function => some (12 + (if row < 2 then row else row - 8), col - 2)
  | _ => none

/-- The physical position of a virtual index under a SKIP value (R194). -/
def physPos (skip v : Nat) : Nat := if v < skip then v else v + 1

/-- Index of an I/O tile (R473). -/
def ioIndex (col row : Nat) : Nat :=
  let corner := (if row < 6 then 0 else 2) + (if col < 6 then 0 else 1)
  let kind := match siteClass col row with | some .ingest => 0 | some .egress => 1 | some .hbmPort => 2 | _ => 3
  144 + 4 * corner + kind

/-- First index of line k (R473). -/
def lineBase (k : Nat) : Nat := if k < 8 then 9 * k else if k < 12 then 72 + 9 * (k - 8) else 108 + 9 * (k - 12)

/-- PHYS of a fault record: the physical position 0 to 8 of the tile that serves a site, 0xFF where it stands on no line (R194, R403). -/
def physOf (s : State) (q col row : Nat) : Nat :=
  match lineOfSite col row with
  | some (k, v) => physPos (skipAt s q k) v
  | none => 0xFF

/-- Physical index of the tile that serves a virtual site (R473). -/
def physIndex (s : State) (q col row : Nat) : Nat :=
  match lineOfSite col row with
  | some (k, v) => lineBase k + physPos (skipAt s q k) v
  | none => ioIndex col row

/-- Health byte of a unit; untested at reset (R409, R473). Unit numbers: 160 q + index for tiles, 1,000 + q for die-to-die interfaces,
1,010 + stack, 1,020 + core, 1,100 + 256 core + window for scratch windows. -/
def healthAt (s : State) (u : Nat) : Nat := tget (fun _ => 0xC0) s.flt.health u
/-- Sets a health byte; the flash copy follows each change (R409). -/
def setHealth (u v : Nat) (s : State) : State :=
  let h := tset (fun _ => 0xC0) s.flt.health u v
  { s with flt := { s.flt with health := h, healthFlash := h } }
/-- Changes STATUS of a unit. -/
def setStatus (u st : Nat) (s : State) : State := setHealth u (st * 64 + healthAt s u % 64) s

/-- The tile of a virtual site. -/
def tileAt (s : State) (q col row : Nat) : Tile := tget (fun _ => {}) s.grid.tiles (siteNo q col row)
def setTile (q col row : Nat) (t : Tile) (s : State) : State :=
  { s with grid := { s.grid with tiles := tset (fun _ => {}) s.grid.tiles (siteNo q col row) t } }
/-- The virtual site v of a line (R194, R473). -/
def siteOnLine (k v : Nat) : Nat × Nat :=
  if k < 8 then (k + 2, v + 2)
  else if k < 12 then (if k < 10 then k - 8 else k, v + 2)
  else (v + 2, if k < 14 then k - 12 else k - 4)

/-- SKIP of a line becomes p (R194). The counters of R475 stay with the physical tiles. -/
def setSkip (q k p : Nat) (s : State) : State :=
  let b := skipAt s q k
  let spare : Tbl Nat := tget (fun _ => []) s.grid.spareCnt (16 * q + k)
  let cntAt (x : Nat) : Tbl Nat :=
    if x = b then spare
    else
      let c := siteOnLine k (if x < b then x else x - 1)
      (tileAt s q c.1 c.2).cnt
  let s1 := (List.range 8).foldl (fun (t : State) (v : Nat) =>
    let c := siteOnLine k v
    setTile q c.1 c.2 { tileAt t q c.1 c.2 with cnt := cntAt (physPos p v) } t) s
  { s1 with grid := { s1.grid with
      skip := tset (fun _ => 8) s1.grid.skip (16 * q + k) p
      spareCnt := tset (fun _ => []) s1.grid.spareCnt (16 * q + k) (cntAt p) } }

/-- The section of a handle. -/
def secAt (s : State) (h : Nat) : Sec := tget (fun _ => {}) s.grid.secs h
def setSec (h : Nat) (x : Sec) (s : State) : State := { s with grid := { s.grid with secs := tset (fun _ => {}) s.grid.secs h x } }
/-- Handles of resident sections, ascending. -/
def residents (s : State) : List Nat := (List.range 16).filter fun h => (secAt s h).resident
/-- Handles of staged sections. -/
def stagedSecs (s : State) : List Nat := (List.range 16).filter fun h => (secAt s h).staged
/-- A fixed-path section (KIND 0) or a tier-two one (KIND 1) (R190). -/
def isFixed (x : Sec) : Bool := x.img.kind == 0
def linkAt (s : State) (l : Nat) : Link := tget (fun _ => {}) s.fab.links l
def setLink (l : Nat) (x : Link) (s : State) : State := { s with fab := { s.fab with links := tset (fun _ => {}) s.fab.links l x } }
def engAt (s : State) (e : Nat) : Eng := tget (fun _ => {}) s.eng e
def setEng (e : Nat) (x : Eng) (s : State) : State := { s with eng := tset (fun _ => {}) s.eng e x }
def ctxAt (s : State) (c : Nat) : Ctx := tget (fun _ => {}) s.t2.ctxs c
def setCtx (c : Nat) (x : Ctx) (s : State) : State := { s with t2 := { s.t2 with ctxs := tset (fun _ => {}) s.t2.ctxs c x } }
def passAt (s : State) (h : Nat) : Pass := tget (fun _ => {}) s.t2.passes h
def setPass (h : Nat) (x : Pass) (s : State) : State := { s with t2 := { s.t2 with passes := tset (fun _ => {}) s.t2.passes h x } }
def lineSt (s : State) (n : Nat) : LineSt := tget (fun _ => {}) s.comb.lines n
def setLine (n : Nat) (x : LineSt) (s : State) : State := { s with comb := { s.comb with lines := tset (fun _ => {}) s.comb.lines n x } }
def templateAt (s : State) (k : Nat) : TemplateDesc := tget (fun _ => {}) s.acq.templates k
def queueAt (s : State) (q : Nat) : QueueSt := tget (fun _ => {}) s.ctl.queues q
def setQueue (q : Nat) (x : QueueSt) (s : State) : State := { s with ctl := { s.ctl with queues := tset (fun _ => {}) s.ctl.queues q x } }

/-- Combine cycle and decision latency from what is resident (R23). -/
def combineC (s : State) : Nat :=
  let ls := (residents s).filterMap fun h =>
    let x := secAt s h
    if isFixed x && !x.scores.isEmpty then some (alignOf s + 36 + x.img.lSec) else none
  let f := match s.fab.plan with | some p => if s.fab.member then p.f else 0 | none => 0
  max (max (maxL ls) (alignOf s + 32)) f
/-- The loader recomputes C and D_dec (R23, R471); in a fabric C is the plan's (R256, R342). -/
def recomputeC (s : State) : State :=
  let c := match s.fab.plan with | some p => if s.fab.member then p.c else combineC s | none => combineC s
  { s with comb := { s.comb with cCycle := c, dDec := c + 12 } }

/-- Stored bytes per tick in the ring, B_t (R280). -/
def ringLaneBytes (s : State) (l : Nat) : Nat :=
  let k := laneCfg (regAt s) l
  32 * ceilDiv (k.ch * k.s * k.w) 256
def ringLanes (s : State) : List Nat :=
  (List.range 96).filter fun l => bit (regAt s (laneCfgOff l)) 31 && bit (regAt s (laneCfgOff l)) 30
def slotBytes (s : State) : Nat := 32 + sumL ((ringLanes s).map (ringLaneBytes s))
/-- R_d (R280). -/
def ringDepth (s : State) : Nat := ringSize s / slotBytes s
/-- G, with none standing for unbounded (R29). -/
def gatherG (s : State) : Option Nat :=
  let n := sumL (((List.range 96).filter fun l => bit (regAt s (laneCfgOff l)) 31).map (ringLaneBytes s))
  if n = 0 then none else some (33554432 / n)

/-- A tick for journal and ring purposes as eight bytes. -/
def le8 (n : Nat) : List Byte := le 8 n

end Sys2Proof.Machine
end

