-- ==== Sys2Proof/Machine/Records.lean ====
section
/-!
DEFINITION. Records: what a tick's samples are, where they come from, and the bytes of a record (10 R267 to R274, R280 to R283).
-/

namespace Sys2Proof.Machine

/-- Local address of the ring slot of tick t (R280). -/
def slotAddr (s : State) (t : Nat) : Nat := t % max (ringDepth s) 1 * slotBytes s

/-- Offset of a lane's lines in a slot (R280). -/
def laneOfs (s : State) (lane : Nat) : Nat := 32 + sumL (((ringLanes s).filter (· < lane)).map (ringLaneBytes s))

/-- The ring holds tick t (R281). -/
def ringHolds (s : State) (t : Nat) : Bool :=
  ringOn s && (match s.acq.tStart, s.acq.newest with
    | some a, some w => decide (a ≤ t ∧ t ≤ w ∧ w < t + ringDepth s)
    | _, _ => false) && unle (hbmRead s (slotAddr s t) 8) == t

/-- Lane payload of tick t in the ring: none when the lane was missing or is not kept (R280, R283). -/
def ringLane (s : State) (t lane : Nat) : Option (List Byte) :=
  if !(ringLanes s).contains lane then none
  else if (unle (hbmRead s (slotAddr s t + 8) 12)).testBit lane then none
  else some (hbmRead s (slotAddr s t + laneOfs s lane) (ringLaneBytes s lane))

/-- Lane payload of tick t in the gather buffer: none when the tick is gone; some none when the lane was missing. -/
def gatherLane (s : State) (t lane : Nat) : Option (Option (List Byte)) :=
  match s.fe.gather.find? (fun e => e.1 == t) with
  | none => none
  | some (_, gl) => some (match gl.find? (fun g => g.lane == lane) with
    | some g => if g.missing then none else some g.payload
    | none => none)

/-- How a channel's samples of a tick were found. -/
inductive Found where
  | samples (xs : List Int)
  | missing
  | lost
  deriving DecidableEq, Repr

/-- Samples per tick of a channel, from its lane (R214). -/
def chanS (s : State) (c : Nat) : Nat := (laneCfg (regAt s) (ctxLane (regAt s) c)).s

/-- The raw samples of channel c in tick t, from the gather buffer or the ring (R25, R207, R267, R283). -/
def chanTickOf (s : State) (ring : Bool) (c t : Nat) : Found :=
  let lane := ctxLane (regAt s) c
  let k := laneCfg (regAt s) lane
  let read (p : List Byte) : Found := .samples ((List.range k.s).map fun i => rawSample k (unle p) (ctxPos (regAt s) c) i)
  let fromRing : Found :=
    if !(ringLanes s).contains lane then (if ring then .missing else .lost)
    else if !ringHolds s t then .lost
    else match ringLane s t lane with | some p => read p | none => .missing
  if ring then fromRing
  else match gatherLane s t lane with
    | some (some p) => read p
    | some none => .missing
    | none => fromRing

/-- Decimation factor of a channel's group (R233). -/
def chanDec (s : State) (c : Nat) : Nat := match groupOf s.fe c with | some (_, g) => g.d.dec + 1 | none => 1

/-- Channels of a template, in range order. -/
def tplChans (d : TemplateDesc) : List Nat := d.cr.flatMap fun (a, n) => rangeFrom a n
def tplEngines (d : TemplateDesc) : List Nat := d.er.flatMap fun (a, n) => rangeFrom a n

/-- Pre and post ticks (R267). -/
def preTicks (s : State) (d : TemplateDesc) : Nat := maxL ((tplChans d).map fun c => ceilDiv d.pre (max (chanS s c) 1))
def postTicks (s : State) (d : TemplateDesc) : Nat := maxL ((tplChans d).map fun c => ceilDiv d.post (max (chanS s c) 1))

/-- The template needs the deep ring (R29, R267). -/
def needsRing (s : State) (d : TemplateDesc) : Bool :=
  d.forceRing || (match gatherG s with
    | none => false
    | some g => decide (g < preTicks s d + ceilDiv s.comb.dDec (iiOf s) + postTicks s d))

/-- Bytes of the largest record of a template (R266). -/
def largestRecord (s : State) (d : TemplateDesc) : Nat :=
  64 + 32 * (tplEngines d).length + 32 +
  sumL ((tplChans d).map fun c =>
    let k := max (chanS s c) 1
    let kept := ceilDiv (d.pre + d.post) (chanDec s c)
    32 * (ceilDiv (16 + 2 * kept) 32 + ceilDiv (ceilDiv d.pre k + ceilDiv d.post k) 256))

/-- The record is served from the ring (R267, R282): tier-two accepts and host requests, and tier-one records that need it. -/
def ringServed (s : State) (r : RecReq) : Bool :=
  ringOn s && (r.outcome == 1 || r.outcome == 2 || r.outcome == 3 || needsRing s r.tpl)

/-- PRE_ACT (R268). -/
def preAct (s : State) (r : RecReq) : Nat :=
  min r.tpl.pre ((r.tick - r.tStart) * ((tplChans r.tpl).foldl (fun m c => min m (chanS s c)) 65536))

/-- The pause edge that cuts the window of a request: the device paused at a tick after T and has not run over it since
(R268, R315). SAFE_STOP cuts it after the last decided tick (R503, log 122). -/
def pauseCut (s : State) (r : RecReq) : Option Nat :=
  if s.dev.tP ≠ 0 && decide (r.tick < s.dev.tP) && (s.dev.st == .paused || !inRun s || decide (s.dev.tP ≤ s.acq.tStart.getD 0))
  then some s.dev.tP
  else match s.dev.st, s.comb.decided with
    | .safe, some d => if r.tick ≤ d then some (d + 1) else none
    | _, _ => none

/-- POST_ACT (R268). -/
def postAct (s : State) (r : RecReq) : Nat :=
  match pauseCut s r with
  | none => r.tpl.post
  | some p => min r.tpl.post ((p - r.tick) * ((tplChans r.tpl).foldl (fun m c => min m (chanS s c)) 65536))

/-- Last tick of a record's window. -/
def lastTick (s : State) (r : RecReq) : Nat :=
  maxL ((tplChans r.tpl).map fun c => r.tick + (postAct s r - 1) / max (chanS s c) 1)

/-- First tick of a record's window. -/
def firstTick (s : State) (r : RecReq) : Nat :=
  r.tick - maxL ((tplChans r.tpl).map fun c => ceilDiv (preAct s r) (max (chanS s c) 1))

/-- One channel of a window. -/
structure ChanWin where
  c : Nat
  kept : List (Int × Int)        -- r and raw value, missing ones 0
  all : List Int                 -- every raw sample of the window, missing ones 0
  missAll : List Bool            -- which of them are missing
  missTicks : List Bool          -- per tick of the window
  lost : Bool

/-- Gathers one channel's window (R268, R273). -/
def chanWin (s : State) (ring : Bool) (tick pre post c : Nat) : ChanWin :=
  let k := max (chanS s c) 1
  let t0 := tick - ceilDiv pre k
  let n := ceilDiv pre k + ceilDiv post k
  let d := chanDec s c
  let per := (rangeFrom t0 n).map fun t => (t, chanTickOf s ring c t)
  let smp := per.flatMap fun (t, f) =>
    let xs : List Int := match f with | .samples xs => xs | _ => List.replicate k 0
    let bad := match f with | .samples _ => false | _ => true
    (List.range k).map fun (i : Nat) => (((t : Int) - (tick : Int)) * (k : Int) + Int.ofNat i, t * k + i, xs.getD i 0, bad)
  let inWin := smp.filter fun e => decide (-(pre : Int) ≤ e.1 ∧ e.1 < (post : Int))
  { c := c
    kept := (inWin.filter fun e => e.2.1 % d = 0).map fun e => (e.1, e.2.2.1)
    all := inWin.map (·.2.2.1)
    missAll := inWin.map (·.2.2.2)
    missTicks := per.map fun (_, f) => match f with | .samples _ => false | _ => true
    lost := per.any fun (_, f) => f == .lost }

/-- A raw sample as two bytes, extended by SIGNED (R273). -/
def sampleBytes (x : Int) : List Byte := le 2 (toTwos 16 x)

/-- A bit map of booleans, from bit 0 of the first byte, in 32-byte units. -/
def mapBytes (bs : List Bool) : List Byte :=
  let n := bitSet ((List.range bs.length).filter fun i => bs.getD i false)
  le (32 * ceilDiv bs.length 256) n

/-- A channel block (R273). -/
def chanBlock (s : State) (pre : Nat) (w : ChanWin) : List Byte :=
  let k := laneCfg (regAt s) (ctxLane (regAt s) w.c)
  let miss := w.missTicks.any id
  let map := if miss then mapBytes w.missTicks else []
  let first : Int := match w.kept with | [] => -(pre : Int) | e :: _ => e.1
  let body := le 2 w.c ++ le 2 (bnat miss + 2 * bnat k.signed) ++ le 4 (toTwos 32 first) ++ le 4 w.kept.length ++
    le 2 (chanDec s w.c) ++ le 2 (map.length / 32) ++ w.kept.flatMap (fun e => sampleBytes e.2)
  body ++ List.replicate (32 * ceilDiv body.length 32 - body.length) 0#8 ++ map

/-- The record header (R271). -/
def headerBytes (tick stamp len : Nat) (mask : List Byte) (device flags outcome tpl post pre : Nat) : List Byte :=
  let t := todOf stamp
  le 8 tick ++ le 4 (t.ns % 2 ^ 30) ++ le 2 t.frac ++ le 6 t.sec ++ le 4 len ++ mask ++
  le 8 (device * 2 ^ 54 + flags % 1024 * 2 ^ 44 + outcome * 2 ^ 40 + tpl * 2 ^ 34 + post * 2 ^ 17 + pre)

/-- A ladder mark (R272). -/
def markBytes (s : State) (tick stamp old new : Nat) : List Byte :=
  headerBytes tick stamp 2 (List.replicate 24 0#8 ++ [BitVec.ofNat 8 new, BitVec.ofNat 8 old] ++ List.replicate 6 0#8)
    (devId s) 0 0xF 0 0 0

/-- The kept result digest of a section at a tick or pass (R307). -/
def keptDigest (s : State) (h t : Nat) : Option (BitVec 512) := ((secAt s h).digests.find? (fun e => e.1 == t)).map (·.2)

/-- The bytes of a record, whether it lost gather samples, and whether it lost ring ticks (R268 to R274, R283). -/
def recordBytes (s : State) (r : RecReq) : List Byte × Bool × Bool :=
  match r.mark with
  | some (old, new) => (markBytes s r.tick r.stamp old new, false, false)
  | none =>
    let ring := ringServed s r
    let pre := preAct s r
    let post := postAct s r
    let ws := (tplChans r.tpl).map (chanWin s ring r.tick pre post)
    let lost := ws.any (·.lost)
    let missing := ws.any fun w => w.missTicks.any id
    let meas := (tplEngines r.tpl).map fun e =>
      let d : MeasDesc := tget (fun _ => {}) s.fe.meas e
      let w := chanWin s ring r.tick pre post d.chan
      let cs := (w.all.zip w.missAll).map fun (x, m) =>
        if m then (0 : Int) else calibrate (pedAt s.fe d.chan) (gainAt s.fe d.chan) x
      measBytes e (measure d cs (w.missAll.any id) (-(pre : Int)))
    let dig := if r.tpl.digest && r.outcome != 3 then
        (if r.outcome == 0 then keptDigest s r.tpl.digSec r.tick else keptDigest s r.handle r.pass) else none
    let flags := bnat r.doubt + 2 * bnat (decide (pre < r.tpl.pre)) + 4 * bnat (decide (post < r.tpl.post)) +
      8 * bnat missing + 16 * bnat (lost && !ring) + 32 * bnat (lost && ring) + 64 * bnat ring + 128 * bnat dig.isSome
    let body := meas.flatten ++ (ws.map (chanBlock s pre)).flatten ++ (match dig with | some d => le 32 (d.toNat % 2 ^ 256) | none => le 32 0)
    let len := 2 + body.length / 32
    (headerBytes r.tick r.stamp len (le 32 r.lines) (devId s) flags r.outcome r.template post pre ++ body, lost && !ring, lost && ring)

/-- Destination of a request: kind and identity; a ladder mark carries its own (R266, R286). -/
def reqDest (r : RecReq) : Nat × Nat := match r.dest with | some d => d | none => (r.tpl.dest, r.tpl.destId)

/-- Bytes waiting in staging, against STAGE_SIZE (R285, R287). -/
def stagedBytes (s : State) : Nat := sumL (s.acq.staged.map fun x => x.bytes.length)

/-- The largest record of any enabled template (R287). -/
def largestOfAll (s : State) : Nat :=
  maxL ((List.range 64).filterMap fun k => if (templateAt s k).en then some (largestRecord s (templateAt s k)) else none)

end Sys2Proof.Machine
end

