-- ==== Sys2Proof/Machine/Calib.lean ====
section
/-!
DEFINITION. Calibration values: items, ranges, effective values (08 R220 to R222).
-/

namespace Sys2Proof.Machine

/-- An item of R220 and R221: instances, user range, and when it may change (0 in READY and LOADED, 1 at a named tick, 2 at once). -/
structure CalItem where
  item : Nat
  n : Nat
  lo : Int
  hi : Int
  when_ : Nat

/-- Temperature sensors: 16 in the grid, 4 in the I/O die, 4 in HBM; 15 voltages (R500). PTP has one port. -/
def calItems : List CalItem :=
  [⟨1, 1, -20000, 20000, 0⟩, ⟨2, 8, -20000, 20000, 1⟩, ⟨3, 8, -40000, 40000, 1⟩, ⟨4, 1, -100000, 100000, 2⟩, ⟨5, 1, -100000, 100000, 2⟩,
   ⟨6, 24, -32, 32, 2⟩, ⟨7, 15, -20, 20, 2⟩, ⟨8, 132, 0, 255, 0⟩, ⟨0x100, 4096, -524288, 524287, 1⟩, ⟨0x101, 4096, 0, 65535, 1⟩,
   ⟨0x102, 4096, 1024, 64511, 1⟩]

def calItem (i : Nat) : Option CalItem := calItems.find? fun c => c.item == i

/-- A calibration entry that names an item in range (R220, R221). -/
def calEntryOk (e : CalEntry) : Bool :=
  match calItem e.item with
  | some c => decide (e.index < c.n ∧ c.lo ≤ e.value ∧ e.value ≤ c.hi) && (e.item != 8 || decide (e.value ≤ 15 ∨ e.value = 255))
  | none => false

/-- The value an entry list holds for an item, if any. -/
def calIn (l : List CalEntry) (item index : Nat) : Option Int := (l.find? fun e => e.item == item && e.index == index).map (·.value)

/-- A list with one value put in place. -/
def calPut (e : CalEntry) (l : List CalEntry) : List CalEntry := l.filter (fun x => !(x.item == e.item && x.index == e.index)) ++ [e]

def calFactory (s : State) (item index : Nat) : Int := (calIn s.part.factory item index).getD 0
/-- The user value; 0 where the block in force names none (R222). -/
def calUser (s : State) (item index : Nat) : Int :=
  match item with
  | 0x100 => pedAt s.fe index
  | 0x101 => gainAt s.fe index
  | 0x102 => scalAt s.fe index
  | _ => (calIn s.fe.cal.user item index).getD 0

/-- The effective value and whether it meets a clamp; the held delay is then applied to the nearest 10 ps, ties upward (R220). -/
def calEffective (s : State) (item index : Nat) : Int × Bool :=
  let f := calFactory s item index
  let u := calUser s item index
  let stepped (x : Int × Bool) : Int × Bool := ((x.1 + 5) / 10 * 10, x.2)
  let held (lo hi x : Int) : Int × Bool := (clampI lo hi x, decide (x < lo ∨ hi < x))
  match item with
  | 1 | 2 => stepped (held 0 20000 (f + u))
  | 3 => stepped (held f (f + 40000) (f + u))
  | 4 | 5 => held (-100000) 100000 (f + u)
  | 6 => held (f - 32) (f + 32) (f + u)
  | 7 => held (f - 20) (f + 20) (f + u)
  | 8 => (if u = 255 then f else u, false)
  | _ => (u, false)

/-- A user value comes into force (R220, R221). -/
def calApply1 (s : State) (e : CalEntry) : State :=
  match e.item with
  | 0x100 => { s with fe := { s.fe with ped := tset (fun _ => (0 : Int)) s.fe.ped e.index e.value } }
  | 0x101 => { s with fe := { s.fe with gain := tset (fun _ => 0x4000) s.fe.gain e.index e.value.toNat } }
  | 0x102 => { s with fe := { s.fe with scal := tset (fun _ => 0x7C00) s.fe.scal e.index e.value.toNat } }
  | _ => { s with fe := { s.fe with cal := { s.fe.cal with user := calPut e s.fe.cal.user } } }

def calApply (es : List CalEntry) (s : State) : State := es.foldl calApply1 s

/- The block of the flash (R221): a header of 64 bytes, then 8 bytes an entry. -/

def calEntryBytes (e : CalEntry) : List Byte := le 2 e.item ++ le 2 e.index ++ le 4 (e.value % 2 ^ 32).toNat

/-- The block that holds the entries under a version. -/
def calBlock (version : Nat) (es : List CalEntry) : List Byte :=
  let body := es.flatMap calEntryBytes
  le 4 0x4C414343 ++ le 2 1 ++ le 2 0 ++ le 4 version ++ le 4 es.length ++ List.replicate 16 0#8 ++ (sha3 body).take 32 ++ body

def calVersion (b : List Byte) : Nat := unle (slice 8 4 b)
def calCount (b : List Byte) : Nat := unle (slice 12 4 b)

/-- MAGIC, FORMAT and DIGEST are right (R222). -/
def calBlockOk (b : List Byte) : Bool :=
  unle (slice 0 4 b) == 0x4C414343 && unle (slice 4 2 b) == 1 &&
  slice 32 32 b == (sha3 (slice 64 (8 * calCount b) b)).take 32

/-- The entries that the block lists. -/
def calEntries (b : List Byte) : List CalEntry := (List.range (calCount b)).map fun n =>
  let e := slice (64 + 8 * n) 8 b
  { item := unle (slice 0 2 e), index := unle (slice 2 2 e), value := (BitVec.ofNat 32 (unle (slice 4 4 e))).toInt }

/-- Start-up takes the user values of the block, or every one at its default where the block is wrong (R221, R222). -/
def calLoad (s : State) : State :=
  let ok := calBlockOk s.fe.cal.flash
  let s := { s with fe := { s.fe with
    ped := [], gain := [], scal := [], cal := { s.fe.cal with user := [], staged := [], isDefault := !ok } } }
  if ok then calApply (calEntries s.fe.cal.flash) s else raiseEv { code := 0x22, sev := 0 } s

end Sys2Proof.Machine
end

