-- ==== Sys2Proof/Machine/Journal.lean ====
section
/-!
DEFINITION. The journal, sequence windows, replies and the path every command packet takes (14 R372 to R399).
-/

namespace Sys2Proof.Machine

/- Status codes (R374). -/
def stOk := 0
def stBusy := 1
def stState := 2
def stParam := 3
def stNotOwner := 4
def stNoFit := 5
def stBadImage := 6
def stVersion := 7
def stAuth := 8
def stUpdateBusy := 9
def stMaint := 10
def stUnreach := 11
def stExpired := 12

/-- A command of R391: opcode, states that accept it, marked BC, accepted without holding control, changes configuration
(refused during a replay, R311). -/
structure CmdSpec where
  op : Nat
  states : List DevSt
  bc : Bool := false
  anyone : Bool := false
  cfg : Bool := false
  denied : Nat × List Byte := (0, [])   -- DETAIL and result of ST_NOT_OWNER

/-- "Any" of R388. -/
def anySt : List DevSt := [.ready, .loaded, .armed, .running, .paused, .safe]
def bootAny : List DevSt := .boot :: anySt
def stRL : List DevSt := [.ready, .loaded]
def stRLP : List DevSt := [.ready, .loaded, .paused]
def stRLAUP : List DevSt := [.ready, .loaded, .armed, .running, .paused]
def stLAUP : List DevSt := [.loaded, .armed, .running, .paused]
def stAUP : List DevSt := [.armed, .running, .paused]

/-- The source identity (R377). -/
def srcOf (h : Hdr) : Nat := h.transport % 16 * 2 ^ 28 + h.inst % 4096 * 65536 + h.tag % 65536

/-- Adds a journal entry: JSEQ, tick and time are the journal's own (R396, R397). -/
def journalAdd (e : JEntry) (s : State) : State :=
  let t := todOf (nowL s)
  let e := { e with jseq := s.ctl.jnext, accTick := nowTick s, accSec := t.sec % 2 ^ 32, accNs := t.ns }
  { s with ctl := { s.ctl with
      jnext := s.ctl.jnext + 1, journal := (e :: s.ctl.journal).take 65536, mirror := (e :: s.ctl.mirror).take 1024 } }

/-- Changes the entry with a JSEQ, in the journal and its mirror. -/
def journalUpd (j : Nat) (f : JEntry → JEntry) (s : State) : State :=
  let g := fun (e : JEntry) => if e.jseq = j then f e else e
  { s with ctl := { s.ctl with journal := s.ctl.journal.map g, mirror := s.ctl.mirror.map g } }

/-- An internal entry (R391, R396): source 0x4000_0000 plus a role (R377, log 119). -/
def journalInternal (role op : Nat) (result : List Byte) (s : State) : State :=
  journalAdd { jseq := 0, source := 0x40000000 + role, opcode := op, final := true, internal := true, result := slice 0 8 result } s

/-- The entry of a command (R396). -/
def cmdEntry (op : Nat) (h : Hdr) (final : Bool) (status : Nat) (result : List Byte) : JEntry :=
  { jseq := 0, source := srcOf h, cseq := h.seq, opcode := op, status := status, final := final
    atFlag := h.at_.isSome
    pdigest := slice 0 16 (sha3 h.raw), result := slice 0 8 result }

/-- A reply as bytes (R373); PHASE is set where it enters a completion ring. -/
def replyBytes (r : Reply) (phase trunc : Bool) (n : Nat) : List Byte :=
  let flags := bnat r.final + 2 * bnat trunc + 4 * bnat r.dup + 8 * bnat r.partialR + 128 * bnat phase
  let hd := [0x02#8, BitVec.ofNat 8 flags] ++ le 2 r.opcode ++ le 4 r.seq ++ le 4 r.source ++ le 2 r.result.length ++
    le 2 r.status ++ le 4 (match r.jseq with | some j => j % 2 ^ 32 | none => 2 ^ 32 - 1) ++ le 4 r.detail ++ le 4 0
  let body := r.result.take n
  hd ++ le 4 (crc32c (hd ++ le 4 0 ++ body)).toNat ++ body

/-- A reply formed: to its completion ring's queue, or sent on its transport (R373, R381). -/
def sendReply (r : Reply) (s : State) : State :=
  match r.source / 2 ^ 28 with
  | 0 => { s with ctl := { s.ctl with replies := s.ctl.replies ++ [r] } }
  | 1 => send (.udp (r.source / 65536 % 4096) (replyBytes r false false r.result.length)) s
  | 2 => { s with fab := { s.fab with out2 := (r.source / 65536 % 4096, .reply (replyBytes r false false r.result.length)) :: s.fab.out2 } }
  | 3 => send (.smbus (replyBytes r false false r.result.length)) s
  | _ => s

/-- The reply of a command. -/
def mkReply (op : Nat) (h : Hdr) (j : Option Nat) (status detail : Nat) (result : List Byte) : Reply :=
  { source := srcOf h, seq := h.seq, opcode := op, status := status, jseq := j, detail := detail, result := result
    indirect := h.indirect, raddr := h.raddr, rsize := h.rsize }

/-- Keeps newest replies up to 1 MiB (R379). -/
def cacheTrim : Nat → List Reply → List Reply
  | _, [] => []
  | n, r :: rs => if 32 + r.result.length ≤ n then r :: cacheTrim (n - (32 + r.result.length)) rs else []

/-- An entry of the replay log while a recording runs (11 R310). -/
def logAdd (e : LogEntry) (s : State) : State :=
  if s.acq.recg.running then { s with acq := { s.acq with recg := { s.acq.recg with log := s.acq.recg.log ++ [e] } } } else s

/-- The CMD entry of a command that takes effect (11 R310); annex is the IMAGE_DIGEST of a SECTION_LOAD. -/
def logCmd (eff : Eff) (op : Nat) (h : Hdr) (j : Nat) (annex : List Byte) (s : State) : State :=
  logAdd { type := 5, tick := nowTick s, body := le 4 j ++ le 2 op ++ le 2 h.raw.length, more := h.raw ++ annex, eff := eff } s

/-- A command that took effect enters the replay log with its effect; SECTION_LOAD enters it itself, with its annex (11 R310). -/
def logDone (eff : Eff) (op : Nat) (h : Hdr) (j status : Nat) (s : State) : State :=
  if status = 0 && op != 0x201 then logCmd eff op h j [] s else s

/-- The final reply is kept (R379). -/
def cacheReply (r : Reply) (s : State) : State := { s with ctl := { s.ctl with cache := cacheTrim 1048576 (r :: s.ctl.cache) } }

/-- A journal entry becomes final; RESULT holds the result, or DETAIL where the command failed (R396). -/
def entryDone (status detail : Nat) (jres : List Byte) (e : JEntry) : JEntry :=
  { e with final := true, status := status, result := slice 0 8 (if status = 0 then jres else le 4 detail) }

/-- A control command becomes final: journal entry, reply cache, reply (R373, R379, R396). -/
def finishEff (eff : Eff) (op : Nat) (h : Hdr) (j status detail : Nat) (result jres : List Byte) (s : State) : State :=
  sendReply (mkReply op h (some j) status detail result)
    (cacheReply (mkReply op h (some j) status detail result) (journalUpd j (entryDone status detail jres) (logDone eff op h j status s)))

/-- A control command that no replay applies again becomes final. -/
def finish (op : Nat) (h : Hdr) (j status detail : Nat) (result jres : List Byte) (s : State) : State :=
  finishEff .none op h j status detail result jres s

/-- A control command is refused: journaled final, nothing else changes (R374, R375, R396). -/
def refuse (op : Nat) (h : Hdr) (status detail : Nat) (result : List Byte) (s : State) : State :=
  sendReply (mkReply op h (some s.ctl.jnext) status detail result)
    (cacheReply (mkReply op h (some s.ctl.jnext) status detail result) (journalAdd (cmdEntry op h true status (le 4 detail)) s))

/-- How a SEQ stands to its source's window (R379). -/
inductive SeqCase where
  | new | dup | below
  deriving DecidableEq, Repr

def seqCase (w : SeqWin) (seq : Nat) : SeqCase :=
  if w.seen = 0 then .new else
  let d := (seq + 2 ^ 32 - w.h % 2 ^ 32) % 2 ^ 32
  if d = 0 then .dup
  else if d < 2 ^ 31 then .new
  else if 2 ^ 32 - d ≤ 63 then (if w.seen.testBit (2 ^ 32 - d) then .dup else .new)
  else .below

/-- The window with a new SEQ seen. -/
def seqSee (w : SeqWin) (seq : Nat) : SeqWin :=
  if w.seen = 0 then { h := seq, seen := 1 } else
  let d := (seq + 2 ^ 32 - w.h % 2 ^ 32) % 2 ^ 32
  if d < 2 ^ 31 then { h := seq, seen := (w.seen <<< d ||| 1) % 2 ^ 64 } else { w with seen := w.seen ||| 2 ^ (2 ^ 32 - d) }

def winAt (s : State) (src : Nat) : SeqWin := tget (fun _ => {}) s.ctl.wins src
def seeSeq (h : Hdr) (s : State) : State :=
  { s with ctl := { s.ctl with wins := tset (fun _ => {}) s.ctl.wins (srcOf h) (seqSee (winAt s (srcOf h)) h.seq) } }

/-- The packet's own form: header fields, lengths, and what its transport takes (R372, R376, R381). -/
def formOk (c : CmdSpec) (h : Hdr) : Bool :=
  h.ok && decide (h.raw.length ≤ 4064) && !(h.transport == 1 && h.indirect) &&
  !(h.transport == 3 && (!c.bc || decide (223 < h.raw.length)))

/-- The source holds control (R375, R385). -/
def owns (h : Hdr) (s : State) : Bool := s.ctl.holder == some (srcOf h)

/-- A control command of the holder renews its lease (R385). -/
def renewLease (h : Hdr) (s : State) : State :=
  if owns h s then { s with ctl := { s.ctl with leaseAt := s.time.raw } } else s

/-- The answer to a duplicate of the command of entry e (R379): interim while it is not final, else its reply as cached, else what the
journal holds. -/
def dupReply (op : Nat) (h : Hdr) (e : JEntry) (cache : List Reply) : Reply :=
  if e.final = false then { mkReply op h (some e.jseq) 0 0 [] with final := false, dup := true }
  else match cache.find? (fun r => r.source == srcOf h && r.seq == h.seq) with
    | some r => { r with dup := true }
    | none =>
      if e.status = 0 then { mkReply op h (some e.jseq) 0 0 e.result with dup := true, partialR := true }
      else { mkReply op h (some e.jseq) e.status (unle (e.result.take 4)) [] with dup := true, partialR := true }

/-- A duplicate control command is answered and its entry marked (R379, R396). -/
def answerDup (op : Nat) (h : Hdr) (s : State) : State :=
  match s.ctl.journal.find? (fun e => e.source == srcOf h && e.cseq == h.seq) with
  | none => s
  | some e => sendReply (dupReply op h e s.ctl.cache) (journalUpd e.jseq (fun e => { e with dupSeen := true }) s)

/-- What the own checks and the effect of a control command give. status other than 0: the command fails and changes
nothing; with keep, what the spec lets it leave (a raised event, a spent nonce) stays. -/
structure Act where
  s : State
  status : Nat := 0
  detail : Nat := 0
  result : List Byte := []
  jres : Option (List Byte) := none
  wait : Bool := false
  keep : Bool := false
  eff : Eff := .none

/-- A failing command. -/
def fails (s : State) (status : Nat) (detail : Nat := 0) (result : List Byte := []) : Act :=
  { s := s, status := status, detail := detail, result := result }

/-- A replay is set or running (R311). -/
def replaying (s : State) : Bool := s.acq.replay.running

/-- Checks 1 to 4 of R376 for a control command, on a packet that is no duplicate. -/
def gate (c : CmdSpec) (h : Hdr) (s : State) : Option (Nat × Nat) :=
  if !formOk c h then some (stParam, 0)
  else if !c.anyone && !owns h s then some (stNotOwner, c.denied.1)
  else if !c.states.contains s.dev.st then some (stState, 0)
  else if s.upd.overlay && (c.op / 256 == 2 || c.op / 256 == 6 || c.op / 256 == 7) then some (stBusy, 8)
  else if c.cfg && replaying s then some (stState, 0)
  else none

/-- The entry of a host ring's command is served (R384). -/
def untake (h : Hdr) (s : State) : State :=
  if h.transport = 0 then { s with ctl := { s.ctl with taken := s.ctl.taken.filter (fun t => t.queue != h.inst) } } else s

/-- How a command that passed the checks of R376 goes on, from what its own part gave: refused, waiting, or final. s is the state before its
journal entry, whose JSEQ is s.ctl.jnext. -/
def controlEnd (c : CmdSpec) (h : Hdr) (s : State) (a : Act) : State :=
  if a.status ≠ 0 then
    if a.keep then finishEff .none c.op h s.ctl.jnext a.status a.detail a.result [] a.s else refuse c.op h a.status a.detail a.result s
  else
    let s2 := if h.notify then sendReply { mkReply c.op h (some s.ctl.jnext) 0 0 [] with final := false } a.s else a.s
    if a.wait then s2 else finishEff a.eff c.op h s.ctl.jnext 0 a.detail a.result (a.jres.getD a.result) s2

/-- A control command: duplicate, gate, own checks and effect, journal and reply (R375 to R379, R382, R396). In OFF nothing
reaches the part. -/
def control (c : CmdSpec) (h : Hdr) (act : Nat → State → Act) (s0 : State) : State :=
  if s0.dev.st = .off then s0 else
  let s := untake h (seeRaw h.stamp s0)
  match (if formOk c h then seqCase (winAt s (srcOf h)) h.seq else .new) with
  | .below => refuse c.op h stParam 0 [] s
  | .dup => answerDup c.op h s
  | .new =>
    let s := if formOk c h then renewLease h (seeSeq h s) else s
    match gate c h s with
    | some (st, d) => refuse c.op h st d (if st = stNotOwner then c.denied.2 else []) s
    | none => controlEnd c h s (act s.ctl.jnext (journalAdd (cmdEntry c.op h false 0 []) s))

/-- An observe command: no ownership, no journal (R375). -/
def observe (c : CmdSpec) (h : Hdr) (act : State → Act) (s0 : State) : State :=
  if s0.dev.st = .off then s0 else
  let s := untake h (seeRaw h.stamp s0)
  if !formOk c h then sendReply (mkReply c.op h none stParam 0 []) s
  else match seqCase (winAt s (srcOf h)) h.seq with
    | .below => sendReply (mkReply c.op h none stParam 0 []) s
    | _ =>
      let s := seeSeq h s
      if !c.states.contains s.dev.st then sendReply (mkReply c.op h none stState 0 []) s
      else
        let a := act s
        if a.wait then a.s
        else sendReply (mkReply c.op h none a.status a.detail a.result) (if a.status = 0 then a.s else s)

/- Named ticks (R382, R383). -/

/-- The time of the edge of tick t: where the time base places it, or reckoned from the newest edge of TICK_IN (R366). -/
def edgeL (s : State) (t : Nat) : Nat :=
  if ownEdges s then genL s t else
  match s.time.stamps with
  | [] => genL s t
  | e :: _ => e.2 + (t - e.1) * tickTu s

/-- Tick t lies at least 2 ticks and 2.0 us ahead of now. -/
def leadOk (s : State) (t : Nat) : Bool :=
  decide (nowL s + max (2 * tickTu s) (2000 * 65536) ≤ edgeL s t ∧ nowTick s < t)

/-- The first tick edge that leaves the lead. -/
def firstLead (s : State) : Nat :=
  let base := match s.time.stamps with | [] => genL s (nowTick s) | e :: _ => e.2
  let need := nowL s + max (2 * tickTu s) (2000 * 65536)
  if ownEdges s then max (nowTick s + 1) (genFrom s need) else
  max (nowTick s + 1) (nowTick s + ceilDiv (need - base) (max (tickTu s) 1))

/-- A command tied to a tick edge: checks 5 and 6 of R376, its own checks, then its effect at once (READY and LOADED without
AT) or at its tick (R382, R383). -/
def tickCmd (h : Hdr) (op j : Nat) (eff : Eff) (check : State → Option (Nat × Nat)) (app : State → State) (s : State) : Act :=
  let late := match h.at_ with | some t => !leadOk s t | none => false
  let now := inReady s && h.at_.isNone
  if late then fails s stExpired
  else if !now && decide (256 ≤ s.ctl.waiting.length) then fails s stBusy
  else match check s with
    | some (st, d) => fails s st d
    | none =>
      if now then { s := app s, jres := some (le8 (nowTick s)), eff := eff }
      else
        let t := h.at_.getD (firstLead s)
        { s := { s with ctl := { s.ctl with waiting := s.ctl.waiting ++ [{ jseq := j, h := h, opcode := op, tick := some t, eff := eff }] } }
          wait := true }

/-- The result of a command tied to a tick: its tick (R382). -/
def waitResult (w : Waiting) (status : Nat) : List Byte := if status = 0 then le8 (w.tick.getD 0) else []

/-- A command no longer waits. -/
def waitOver (j : Nat) (s : State) : State := { s with ctl := { s.ctl with waiting := s.ctl.waiting.filter (fun x => x.jseq != j) } }

/-- A waiting command becomes final (R382, R396). -/
def finishWait (w : Waiting) (status : Nat) (s : State) : State :=
  finishEff w.eff w.opcode w.h w.jseq status 0 (waitResult w status) (waitResult w status) (waitOver w.jseq s)

/-- STOP and SAFE_STOP end every command that waits for its tick (R383). -/
def expireWaiting (s : State) : State :=
  (s.ctl.waiting.filter (fun w => w.tick.isSome)).foldl (fun s w => finishWait w stExpired s) s

/-- A long command becomes final (R384). -/
def finishLong (j status detail : Nat) (result : List Byte) (s : State) : State :=
  match s.ctl.waiting.find? (fun w => w.jseq == j) with
  | none => s
  | some w => finishEff w.eff w.opcode w.h j status detail result result (waitOver j s)

/-- A long command goes on after acceptance; eff is what a replay applies of it. -/
def longEff (eff : Eff) (h : Hdr) (op j : Nat) (s : State) : State :=
  { s with ctl := { s.ctl with waiting := s.ctl.waiting ++ [{ jseq := j, h := h, opcode := op, eff := eff }] } }
def longCmd (h : Hdr) (op j : Nat) (s : State) : State := longEff .none h op j s

/-- Control changes hands (R385, R386): the epoch rises, the windows are cleared, CONTROL_CHANGE is raised with its cause
(0 claim, 1 force, 2 release, 3 lease, 4 plan). -/
def changeHolder (new : Option Nat) (cause : Nat) (s : State) : State :=
  let old := s.ctl.holder.getD 0
  let s := { s with ctl := { s.ctl with holder := new, epoch := (s.ctl.epoch + 1) % 2 ^ 32, wins := [] } }
  raiseEv { code := 0x71, sev := 0, body := le 4 old ++ le 4 (new.getD 0) ++ le 4 s.ctl.epoch ++ le 4 cause } s

end Sys2Proof.Machine
end

