-- ==== Sys2Proof/Machine/Alarm.lean ====
section
/-!
DEFINITION. Fault records and the error queue (15 R401 to R408), entry to SAFE_STOP and the start of a power-fail save (18 R503 to R506).
-/

namespace Sys2Proof.Machine

/-- A fault record as bytes (R403). -/
def faultBytes (f : FaultRec) : List Byte :=
  le 8 f.tick ++ le 2 f.code ++ le 1 f.sev ++
  le 1 (bnat f.elastic + 2 * bnat f.confirmed + 4 * bnat f.rotation + 8 * bnat f.pendScan) ++ le 2 (min f.rep 65535) ++
  le 1 f.quad ++ le 1 f.site ++ le 2 f.phase ++ le 2 f.unit ++ le 2 f.index ++ le 1 f.phys ++ le 1 f.section_ ++ le 4 f.detail ++
  le 4 f.fid

/-- The save starts, unless one is under way or step 4 of start-up has not ended (R505): tier-two dispatch, DMA and HBM writes
stop, the ladder is frozen, and ticks from the next edge on are not counted (R506). -/
def startSave (cause : Nat) (s : State) : State :=
  if s.pwr.saving.isSome || !s.pwr.saveOk then s
  else { s with pwr := { s.pwr with
      saving := some cause, saveTick := nowTick s + 1
      save := { s.pwr.save with cause := cause, detTick := nowTick s } } }

/-- No row of the elastic zone that a save stops goes on (R506). -/
def saving (s : State) : Bool := s.pwr.saving.isSome

/-- A setpoint goes out on AVSBus (R497). -/
def avsSend (rail mv : Nat) (s : State) : State :=
  send (.avs rail mv) { s with pwr := { s.pwr with avsMv := s.pwr.avsMv.set rail mv } }

/-- A part between DEMOTING and TRIAL takes its first cause; one in its lehr window falls back at once, the others at their next step
(R451, R453; DEDUCED, log 55). -/
def causePart (c : Nat) (p : UpPart) : UpPart :=
  if p.cause ≠ 0 then p
  else match p.st with
    | .demoting | .writing | .activating => { p with cause := c }
    | .trial => { p with cause := c, st := .fallingBack }
    | _ => p

/-- A cause strikes every part of the update (R451). -/
def markCause (c : Nat) (s : State) : State := { s with upd := { s.upd with parts := s.upd.parts.map (causePart c) } }

/-- The device is in SAFE_STOP with a cause (R392, R504). -/
def safeDev (cause : Nat) (s : State) : State :=
  setDev .safe { s with dev := { s.dev with
      safeCause := cause, draining := false, pauseReq := false, stopReq := false, armAt := none, resumeAt := none } }

/-- BUSY_OUT is active in every class (R503). -/
def busyAll (s : State) : State := { s with comb := { s.comb with busy := 15 } }

/-- Passes are abandoned, with their contexts kept (R503). -/
def endPasses (s : State) : State := { s with t2 := { s.t2 with passes := s.t2.passes.map fun e => (e.1, { e.2 with ctx := none, abandoned := false }) } }

/-- The grid rails go to 0.60 V (R503). -/
def railsDown (s : State) : State := (List.range 4).foldl (fun s q => avsSend q 600 s) s

/-- Entry to SAFE_STOP (R392, R492, R503): BUSY_OUT, no more decisions, the entry journaled, waiting commands expired (R383), passes
abandoned, the update's parts struck, the save of CAUSE 4, the rails down. -/
def enterSafe (cause : Nat) (s : State) : State :=
  if s.dev.st = .safe || s.dev.st = .off then s
  else railsDown (startSave 4 (markCause 4 (endPasses (expireWaiting (journalInternal 0 0x09F3 (le 2 cause) (busyAll (safeDev cause s)))))))

/-- The unit of a record, for coalescing and confirmation: quadrant, site and unit. -/
def unitOf (f : FaultRec) : Nat := (f.quad * 256 + f.site) * 65536 + f.unit % 65536

/-- Health-map unit of a record (R409): the physical tile, or the die-to-die interface, stack or core named. -/
def healthUnit (s : State) (f : FaultRec) : Nat :=
  if f.quad < 4 && f.site != 0xFF then 160 * f.quad + physIndex s f.quad (f.site / 16) (f.site % 16)
  else if f.code == 0x0206 then 1000 + f.unit % 4
  else if f.code / 256 == 3 then 1010 + f.unit % 4
  else if f.code / 256 == 5 then 1020 + f.unit % 8
  else 2000 + f.code

/-- A fault record comes about (R403 to R407). A record for a unit and CODE already queued or in hand raises its REPEAT. At a full
queue it is lost: OVF, LOST and FAULT_PEND of the unit, and the first such loss writes ERRQ_OVF to the event ring. An S4 record goes
first in the queue and enters SAFE_STOP (R401). -/
def fault (f0 : FaultRec) (s : State) : State :=
  let f := { f0 with tick := if f0.elastic && f0.tick ≠ 0 then f0.tick else nowTick s }
  if s.flt.errq.any (fun q => q.st != 3 && q.f.code == f.code && unitOf q.f == unitOf f) then
    { s with flt := { s.flt with errq := s.flt.errq.map fun q =>
        if q.st != 3 && q.f.code == f.code && unitOf q.f == unitOf f then { q with f := { q.f with rep := min (q.f.rep + 1) 65535 } } else q } }
  else if f.sev == 4 then
    let f := { f with fid := s.flt.fid % 2 ^ 32 }
    let s := { s with flt := { s.flt with errq := { f := f } :: s.flt.errq, fid := s.flt.fid + 1 } }
    enterSafe 0x30 (raiseEv { code := 1, sev := 4, origin := f.section_, body := faultBytes f } s)
  else if 256 ≤ s.flt.errq.length then
    let first := !s.flt.ovf
    let u := healthUnit s f
    let s := setHealth u ((healthAt s u) ||| 32) { s with flt := { s.flt with ovf := true, lost := satAdd 16 s.flt.lost 1 } }
    if first then raiseEv { code := 1, sev := 3, body := faultBytes { code := 0x0601, sev := 3, tick := nowTick s, fid := s.flt.fid % 2 ^ 32 } }
      { s with flt := { s.flt with fid := s.flt.fid + 1 } } else s
  else
    let f := { f with fid := s.flt.fid % 2 ^ 32 }
    raiseEv { code := 1, sev := f.sev, origin := f.section_, body := faultBytes f }
      { s with flt := { s.flt with errq := s.flt.errq ++ [{ f := f }], fid := s.flt.fid + 1 } }

/-- A completed repair or other S2 record. -/
def repairDone (code quad unit : Nat) (s : State) : State := fault { code := code, sev := 2, quad := quad, unit := unit } s

/-- A corrected error of a unit (R408): the first of a CE window makes one S1 record, the CE_LIMIT-th an S3 CE_LIMIT. Both carry the
code CE_LIMIT, as R404 names none for a single corrected error (DESIGN CHOICE, log 22). -/
def corrected (unit : Nat) (f : FaultRec) (s : State) : State :=
  let n := cget s.flt.ce unit + 1
  let s := { s with flt := { s.flt with ce := cset s.flt.ce unit n } }
  let lim := bits (regAt s 0x50000) 23 16
  if n = lim then fault { f with code := 0x0111, sev := 3, detail := n } s
  else if n = 1 then fault { f with code := 0x0111, sev := 1, detail := n } s
  else s

/-- A hardware counter of R432, by its place in the block of R474. -/
def hwCount (k : Nat) (s : State) : State := { s with flt := { s.flt with hw := cadd 32 s.flt.hw k 1 } }

/-- Checks of the I/O die's stores: counted and recorded (R400, R404, R432). The counters stand after those of the interfaces (log 23). -/
def ioChecks (e : IoErr) (s : State) : State :=
  let s := if e.ce then corrected 2000010 { code := 0x0111, sev := 1 } (hwCount 72 s) else s
  let s := if e.gather.isEmpty then s else fault { code := 0x0305, sev := 3, index := e.gather.headD 0 } (hwCount 73 s)
  if e.front.isEmpty && e.cond.isEmpty then s
  else fault { code := 0x0301, sev := 3, index := (e.front ++ e.cond).headD 0 } (hwCount 73 s)

/-- Checks of control SRAM, scratch and MRAM: an uncorrectable error in the journal, the role-state areas or the MRAM is fatal (R400, R402). -/
def ctlChecks (core : Nat) (r : StepIn) (s : State) : State :=
  let s := if r.ctlCe then corrected (2000020 + core) { code := 0x0111, sev := 1, unit := core } (hwCount 74 s) else s
  match r.ctlUe with
  | none => s
  | some .other => fault { code := 0x0504, sev := 3, unit := core } (hwCount 75 s)
  | some _ => fault { code := 0x0801, sev := 4, unit := core } (hwCount 75 s)

end Sys2Proof.Machine
end

