-- ==== Sys2Proof/Machine/RegRead.lean ====
section
/-!
DEFINITION. What BAR0 offsets read as (17 R469 to R477): stored registers, status registers composed from the state, counters, and
the scale-state views.
-/

namespace Sys2Proof.Machine

/-- The virtual site that a physical tile index serves, if any (R194, R473). -/
def siteOfPhys (s : State) (q idx : Nat) : Option (Nat × Nat) :=
  ((List.range 12).flatMap fun c => (List.range 12).map fun r => (c, r)).find? fun (c, r) => physIndex s q c r == idx

/-- The line of a physical index below 144, in SKIP order (R473). -/
def lineOfPhys (idx : Nat) : Nat := idx / 9

/-- Registers of a quadrant that is FUSED, OFF or WAKING read zero (R469). -/
def quadReads (s : State) (q : Nat) : Bool := match quadAt s q with | .fused | .off | .waking => false | _ => true

/-- LANE_OFS_MIN and LANE_OFS_MAX (R211). -/
def ofsMin (x : LaneSt) : Nat := match x.ofsMin with | some v => toTwos 32 v | none => 0x7FFFFFFF
def ofsMax (x : LaneSt) : Nat := match x.ofsMax with | some v => toTwos 32 v | none => 0x80000000

/-- The park record of an engine (R291). -/
def parkBytes (e : Nat) (p : Park) : List Byte :=
  le 1 e ++ le 1 p.cause ++ le 2 p.index ++ le 4 p.done ++ le 8 p.addr ++ le 8 p.user ++ le 8 0

/-- LINK_STAT (R321). -/
def linkStat (x : Link) : Nat :=
  let st := match x.st with | .down => 0 | .train => 1 | .cal => 2 | .up => 3
  st * 2 ^ 62 + x.peerId % 1024 * 2 ^ 52 + x.peerLink % 64 * 2 ^ 46 + bnat x.drift * 2 ^ 45 + x.lambda % 2 ^ 32

/-- Contexts in use (R257). -/
def ctxInUse (s : State) : Nat := (s.t2.ctxs.filter fun e => e.2.st != .free).length

/-- DEV_ID0 (R471). -/
def devId0 (s : State) : Nat :=
  0x1C2A * 2 ^ 48 + 0xC200 * 2 ^ 32 + (match s.part.grade with | .c4q20 => 1 | .c3q20 => 2 | .c4q16 => 3) * 2 ^ 24 +
  (if s.part.b0 then 0xB0 else 0xA1) * 2 ^ 16 + s.part.fused % 16 * 2 ^ 12 + 2 ^ 8

/-- TIME_STAT (R356). -/
def timeStat (t : TimeBase) : Nat :=
  toTwos 32 (clampI (-(2 ^ 31)) (2 ^ 31 - 1) t.offsetPs) * 2 ^ 32 + t.utc % 65536 * 65536 + 32 * bnat t.offsetLarge +
  16 * bnat t.slewing + 8 * bnat t.holdover + 4 * bnat t.locked + 2 * bnat t.timeSet

/-- The register named by a kind and instance, with the bits the part itself keeps (R472). -/
def regFull (s : State) (off : Nat) (k : Rk) (i : Nat) : Nat :=
  let v := regAt s off
  match k with
  | .devId0 => devId0 s
  | .devId1 => s.part.uid
  | .devId2 => 512 * 65536 + fMaxMHz s
  | .hostStat => s.host.mmioDenied * 2 ^ 32 + s.host.bar2Denied
  | .pcieStat => s.host.linkDowns * 2 ^ 32 + bnat s.host.linkUp * 1024 + bnat s.host.flit * 512 + s.host.width % 32 * 16 + s.host.speed % 16
  | .gridCfg => v + fGridKHz (iiOf s) (periodOf s) % 2 ^ 24 * 2 ^ 24
  | .decision => v + s.comb.cCycle % 65536 * 65536 + s.comb.dDec % 65536
  | .dbStat => s.host.dbBad * 2 ^ 32 + s.host.lastBad
  | .hbmSize => hbmSize s
  | .loaderBase => loaderBase s
  | .rstoreWp => s.acq.rstoreWp
  | .sqCfg => v + (queueAt s i).head % 65536 * 65536 + (queueAt s i).tail % 65536
  | .cqStat => (queueAt s i).wr % 65536 * 65536 + (queueAt s i).ci % 65536
  | .evqCfg => v + s.host.evLost * 2 ^ 32 + s.host.evHead % 65536 * 65536 + s.host.evTail % 65536
  | .engCfg => (if 32 ≤ i then v ||| (2 * 2 ^ 61) else v) + (engAt s i).ci % 65536 * 65536 + (engAt s i).pi % 65536
  | .dmaPark => match (engAt s i).park with | some p => unle (slice (off % 0x40 - 0x20) 8 (parkBytes i p)) | none => 0
  | .errqStat => bnat s.flt.ovf * 2 ^ 63 + maxL ((s.flt.errq.filter fun q => q.st == 1).map fun q => q.f.sev) * 2 ^ 48 +
      s.flt.lost * 2 ^ 32 + v + s.flt.errq.length % 512
  | .timeStat => timeStat s.time
  | .tickStat => s.time.phaseErr * 2 ^ 32 + s.time.slip * 65536 +
      (match s.time.tickSt with | .unlocked => 0 | .acquire => 1 | .locked => 2 | .holdover => 3)
  | .ppsTs => unle (slice (8 * i) 8 (todBytes (todOf s.time.ppsTs)))
  | .txtsHead => match s.time.txq with
      | (id, t) :: _ => unle (slice (8 * i) 8 (le 2 id ++ le 2 t.frac ++ le 4 t.ns ++ le 8 t.sec))
      | [] => 0
  | .txtsStat => s.time.txq.length % 32 + bnat s.time.txOvf * 2 ^ 31
  | .txtsLost => s.time.txLost
  | .timedCtrl =>
      let d := (tget (fun _ => {}) s.time.timed i : TimedEv).d
      bnat d.en * 2 ^ 31 + bnat d.tickBase * 2 ^ 30 + bnat d.periodic * 2 ^ 29 + bnat d.pinEn * 2 ^ 28 + bnat d.invert * 2 ^ 27 +
        bnat d.tickStart * 2 ^ 26 + d.width
  | .timedPhase => (tget (fun _ => {}) s.time.timed i : TimedEv).d.phase
  | .timedPeriod => (tget (fun _ => {}) s.time.timed i : TimedEv).d.period
  | .timedStart =>
      let d := (tget (fun _ => {}) s.time.timed i : TimedEv).d
      unle (slice (off % 0x20 - 0x10) 8 (if d.tickBase then le 8 d.start.sec ++ le 8 0 else todBytes d.start))
  | .ladderStat => s.acq.shownPressure * 256 + s.acq.level
  | .ofsMin => ofsMin (laneAt s.fe i)
  | .ofsMax => ofsMax (laneAt s.fe i)
  | .linkStat => linkStat (linkAt s i)
  | .tileStat =>
      let q := (off - 0x1000000) / 0x100000
      let h := healthAt s (160 * q + i) * 2 ^ 32
      if !quadReads s q then 0
      else match siteOfPhys s q i with
        | some (c, r) => (tileAt s q c r).owner % 256 * 2 ^ 56 + (c * 16 + r) * 2 ^ 48 + (tileAt s q c r).bank % 2 * 2 ^ 40 + h
        | none => 0xFF * 2 ^ 56 + 0xFF * 2 ^ 48 + h
  | .skip => if quadReads s ((off - 0x1000000) / 0x100000) then skipAt s ((off - 0x1000000) / 0x100000) i else 0
  | _ => v

/-- Device counters in the order of R474: the live CTX_INUSE and CTX_MAX at 23 and 24 of the first block. -/
def devCounter (s : State) (i : Nat) : Nat :=
  if i < 14 then devCnt s i
  else if i < 23 then devCnt s i
  else if i = 23 then ctxInUse s else if i = 24 then s.t2.ctxMax else 0

/-- A counter of the block at 0x0080_0000 (R474), as the value at its own offset. -/
def counterAt (s : State) (off : Nat) : Nat :=
  let o := off - 0x800000
  if o < 0x100 then devCounter s (o / 8)
  else if o < 0x140 then devCnt s (24 + (o - 0x100) / 8)
  else if o < 0x1000 then 0
  else if o < 0x1C00 then cget (laneAt s.fe ((o - 0x1000) / 0x20)).cnt ((o - 0x1000) % 0x20 / 4)
  else if o < 0x2000 then 0
  else if o < 0x3000 then (groupAt s.fe ((o - 0x2000) / 4)).missTicks
  else if o < 0xB000 then (unitAt s.fe ((o - 0x3000) / 4)).fireCount
  else if o < 0xC000 then (if o % 8 = 0 then cget s.fe.orCount ((o - 0xB000) / 8) else cget s.fe.orPoison ((o - 0xB000) / 8))
  else if o < 0xE000 then cget (lineSt s ((o - 0xC000) / 0x20)).cnt ((o - 0xC000) % 0x20 / 4)
  else if o < 0xE200 then (if o % 8 = 0 then cget s.comb.scorePoison ((o - 0xE000) / 8) else cget s.comb.noScore ((o - 0xE000) / 8))
  else if o < 0xE280 then cget s.t2.cls (8 * ((o - 0xE200) / 0x20) + (o - 0xE200) % 0x20 / 4)
  else if o < 0xE480 then
    let p := passAt s ((o - 0xE280) / 0x20)
    match (o - 0xE280) % 0x20 / 8 with | 0 => p.passes | 1 => p.stallCyc | 2 => p.pcapCyc | _ => 0
  else if o < 0xF000 then 0
  else if o < 0xF100 then (tget (fun _ => {}) s.acq.streams ((o - 0xF000) / 8) : Stream).gaps
  else if o < 0xF1A0 then (engAt s ((o - 0xF100) / 4)).parks
  else if o < 0x10000 then 0
  else if o < 0x10900 then
    let k := (o - 0x10000) % 0x40
    cget (linkAt s ((o - 0x10000) / 0x40)).cnt (if k < 8 then 0 else (k - 4) / 4)
  else if o < 0x11000 then 0
  else if o < 0x11010 then cget s.fab.edup ((o - 0x11000) / 4)
  else if o < 0x12000 then 0
  else if o < 0x12100 then cget s.grid.xcoll ((o - 0x12000) / 4)
  else if o < 0x13000 then 0
  else if o < 0x13400 then
    let k := (o - 0x13000) / 4
    if 76 ≤ k then cget s.grid.laneTestErr (k - 76) else cget s.flt.hw k
  else 0

/-- The bytes of a scale-state view (R472, R477), 4 or 8 at an offset. -/
def scaleView (s : State) (off n : Nat) : Nat :=
  if off < 0x3000000 then unle (slice (off % 64) n (scaleBytes (chanScale s.fe ((off - 0x2800000) / 64))))
  else
    let o := off - 0x3000000
    let q := o / 0x400000
    let k := o % 0x400000 / 0x8000
    if !quadReads s q || 72 ≤ k then 0
    else match siteOfPhys s q k with
      | some (c, r) => unle (slice (o % 64) n (scaleBytes (tget (fun _ => zeroScale) (tileAt s q c r).scal (o % 0x8000 / 64))))
      | none => 0

/-- The value of the register, counter or view at an offset; reserved offsets and the doorbell region read zero (R469, R480). -/
def regValue (s : State) (off : Nat) : Nat :=
  match regKind off with
  | some (k, i) => regFull s off k i
  | none =>
    if 0x800000 ≤ off && decide (off < 0x814000) then counterAt s off
    else if 0x1000000 ≤ off && decide (off < 0x1400000) then
      let q := (off - 0x1000000) / 0x100000
      let o := off % 0x100000
      if 0x1000 ≤ o && decide (o < 0x1000 + 160 * 0x80) && quadReads s q then
        match siteOfPhys s q ((o - 0x1000) / 0x80) with
        | some (c, r) => cget (tileAt s q c r).cnt ((o - 0x1000) % 0x80 / 4)
        | none => cget (tget (fun _ => ([] : Tbl Nat)) s.grid.spareCnt (16 * q + lineOfPhys ((o - 0x1000) / 0x80))) ((o - 0x1000) % 0x80 / 4)
      else 0
    else if 0x2800000 ≤ off && decide (off < 0x2840000) then scaleView s off 8
    else if 0x3000000 ≤ off && decide (off < 0x4000000) then scaleView s off 8
    else 0

/-- A read by CFG_READ or of the half that holds it clears an RC field (R211, R394, R408, R469). -/
def rcClear (s : State) (off : Nat) : State :=
  match regKind off with
  | some (.evqCfg, _) => { s with host := { s.host with evLost := 0 } }
  | some (.errqStat, _) => { s with flt := { s.flt with lost := 0 } }
  | some (.ofsMin, i) => { s with fe := setLane s.fe i { laneAt s.fe i with ofsMin := none } }
  | some (.ofsMax, i) => { s with fe := setLane s.fe i { laneAt s.fe i with ofsMax := none } }
  | _ => s

end Sys2Proof.Machine
end

