-- ==== Sys2Proof/Machine/RegWrite.lean ====
section
/-!
DEFINITION. Register writes: the rules of the chapters that define each register, and what a write that takes effect does
beyond storing its fields (14 R389, 17 R470 to R484).
-/

namespace Sys2Proof.Machine

/- Rules over several registers. -/

/-- Two ranges meet. -/
def meets (a b : Nat × Nat) : Bool := decide (0 < a.2 ∧ 0 < b.2 ∧ a.1 < b.1 + b.2 ∧ b.1 < a.1 + a.2)

/-- No two of the ranges meet. -/
def disjoint : List (Nat × Nat) → Bool
  | [] => true
  | a :: l => l.all (fun b => !meets a b) && disjoint l

/-- The areas of the local map: ring, staging, record store, replay areas (R483). -/
def areas (s : State) : List (Nat × Nat) :=
  [(0, if ringOn s then ringSize s else 0), (stageBase s, stageSize s), (regAt s 0x1028, regAt s 0x1030)] ++
  (if s.acq.recg.armed || s.acq.recg.running || s.acq.recg.done then [(s.acq.recg.area, s.acq.recg.size)] else [])

/-- No areas overlap and none passes LOADER_BASE (R483). -/
def areasOk (s : State) : Bool := disjoint (areas s) && (areas s).all fun a => a.2 == 0 || decide (a.1 + a.2 ≤ loaderBase s)

/-- The deadline limit of R257; none: no limit. -/
def deadlineLimit (s : State) : Option Nat :=
  if c1Mode s then gatherG s else if ringOn s then some (ringDepth s) else none

/-- Every class DEADLINE is within the limit (R257). -/
def deadlinesOk (s : State) : Bool :=
  match deadlineLimit s with
  | none => true
  | some d => (List.range 4).all fun c => decide (bits (regAt s (0x70100 + 8 * c)) 31 0 ≤ d)

/-- Lane data rate in b/s (R203). -/
def laneRate (s : State) (l : Nat) : Nat :=
  match bits (regAt s (0x80000 + 4 * (l / 8))) 1 0 with | 0 => 106250000000 | 1 => 53125000000 | _ => 26562500000

/-- The frame of an enabled lane fits its tick (R205): 160 + 32 PLEN at most floor(r / f_tick). -/
def laneFits (s : State) (l : Nat) : Bool :=
  decide (160 + 32 * lanePlen (laneCfg (regAt s) l) ≤ laneRate s l * periodOf s / (2 ^ 32 * 10 ^ 9))

/-- The rules of a context (R214): a write breaks the lane and position rules whatever EN is, the group's rule only where it
enables the context. -/
def ctxOk (s : State) (c : Nat) : Bool :=
  let l := ctxLane (regAt s) c
  let k := laneCfg (regAt s) l
  decide (l < 96) && bit (regAt s (laneCfgOff l)) 31 && decide (ctxPos (regAt s) c < k.ch) &&
  (!ctxEn (regAt s) c || match s.fe.groups.find? (fun e => e.2.set && decide (e.2.d.first ≤ c ∧ c < e.2.d.first + e.2.d.count)) with
    | some (_, g) => g.s == k.s
    | none => true)

/-- No two enabled contexts name one lane position (R214). Contexts at reset are disabled, so only written ones can clash. -/
def ctxDistinct (s : State) : Bool :=
  let cs := (s.regs.filter fun e => decide (0x90000 ≤ e.1 ∧ e.1 < 0x94000) && bit e.2.toNat 31).map fun e => bits e.2.toNat 30 16
  cs.length == cs.eraseDups.length

/-- Enabled members of channel groups keep their group's S (R205, R215). -/
def groupsKeepS (s : State) (l : Nat) : Bool :=
  s.fe.groups.all fun e => !e.2.set || (rangeFrom e.2.d.first e.2.d.count).all fun c =>
    !(ctxEn (regAt s) c && ctxLane (regAt s) c == l) || chanS s c == e.2.s

/-- The rules of a window-table entry (R289). -/
def windowOk (s : State) (n : Nat) : Bool :=
  let w := windowAt s n
  !w.valid || (decide (w.target ≤ 1 ∧ 12 ≤ w.size ∧ w.size ≤ 46 ∧ w.base % 2 ^ w.size = 0) &&
    (w.target == 0 || (!meets (w.base, 2 ^ w.size) (0, if ringOn s then ringSize s else 0) &&
      !meets (w.base, 2 ^ w.size) (stageBase s, stageSize s))))

/-- The rules of a monitor stream (R276). -/
def monOk (s : State) (m : Nat) : Bool :=
  let v := regAt s (0xA0000 + 8 * m)
  if !bit v 63 then true else
  let e := regAt s (0x30000 + 0x40 * bits v 62 58)
  decide (bits e 62 61 = 1 ∧ bits e 60 56 = m) &&
  (rangeFrom (bits v 47 36) (bits v 35 24 + 1)).all fun c => decide (c < 4096) && ctxEn (regAt s) c

/-- Base alignment of an engine's rings at the write that sets EN (R288). -/
def ringsAligned (s : State) (e : Nat) : Bool :=
  let n := 2 ^ (bits (regAt s (0x30000 + 0x40 * e)) 55 52 + 4)
  decide (regAt s (0x30008 + 0x40 * e) % (32 * n) = 0 ∧ regAt s (0x30010 + 0x40 * e) % (16 * n) = 0)

/-- A C1 limit of R302 that a resident image breaks: HBM_RD or HBM_WR in a tier-two image, or NEEDS_RING. -/
def imageC1Ok (img : Image) : Bool :=
  !img.needsRing && (img.kind == 0 || img.windows.isEmpty)

/-- While EN = 1 an engine's registers take no write but one that clears EN, and that one only while the engine is not parked (R288). -/
def writeBusy (s : State) (off : Nat) (k : Rk) (i old new : Nat) : Bool :=
  match k with
  | .engCfg => bit old 63 && (bit new 63 || new % 2 ^ 63 != old % 2 ^ 63 || (engAt s i).park.isSome)
  | .ringBase | .cqBase => bit (regAt s (off / 0x40 * 0x40)) 63
  | _ => false

/-- The check of one entry against the state with every entry stored (R389); m is what MASK selects of the register's RW bits. -/
def entryCheck (s s2 : State) (off : Nat) (k : Rk) (i m : Nat) : Option Nat :=
  let old := regAt s off
  let new := regAt s2 off
  let no (b : Bool) (st : Nat) : Option Nat := if b then none else some st
  match k with
  | .timedCtrl | .timedPhase | .timedPeriod | .timedStart => some stParam
  | _ =>
    if m = 0 then none
    else if readyOnly k old new && !inReady s then some stState
    else if pausedToo k && !(stRLP.contains s.dev.st) then some stState
    else if writeBusy s off k i old new then some stBusy
    else if old = new && k != .ctx && k != .lane then none
    else if !valueOk k new then some stParam
    else match k with
    | .gridCfg => no (rateOk s2 (iiOf s2) (periodOf s2) && decide (regAt s2 0x60070 < iiOf s2) && deadlinesOk s2 &&
        (!c1Mode s2 || (!ringOn s2 && (residents s2).all fun h => imageC1Ok (secAt s2 h).img))) stParam
    | .tickPeriod => no (rateOk s2 (iiOf s2) (periodOf s2)) stParam
    | .decision => no (decide ((recomputeC s2).comb.dDec ≤ 12288)) stParam
    | .bar2Cfg => no (decide (new % 2 ^ 39 % max s.host.bar2Size 1 = 0)) stParam
    | .ringCtl => no (areasOk s2 && deadlinesOk s2 && !(c1Mode s2 && ringOn s2)) stParam
    | .stageBase | .rstoreBase | .rstoreSize => no (areasOk s2) stParam
    | .stageSize => no (areasOk s2 && decide (2 * largestOfAll s2 ≤ stageSize s2)) stParam
    | .engCfg => no (!bit new 63 || ringsAligned s2 i) stParam
    | .winBase | .winCtl => no (windowOk s2 ((off - 0x40000) / 16)) stParam
    | .epochTime => no (i != 0 || decide (bits new 63 32 < 10 ^ 9)) stParam
    | .tickOutPhase => no (decide (new < iiOf s2)) stParam
    | .t2Class => no (match deadlineLimit s2 with | some d => decide (bits new 31 0 ≤ d) | none => true) stParam
    | .lane => no ((!bit new 31 || laneFits s2 i) && groupsKeepS s2 i && deadlinesOk s2) stParam
    | .ctx => no (ctxOk s2 i && ctxDistinct s2) stParam
    | .mon => no (monOk s2 i) stParam
    | _ => none

/-- Stores the RW bits of every entry (R389). -/
def cfgStore (es : List CfgEntry) (s : State) : State :=
  es.foldl (fun s e => match regKind e.off with
    | some (k, i) => setReg e.off (writeRw k i (regAt s e.off) e.mask e.value) s
    | none => s) s

/-- The failing entries: status and index (R389). -/
def cfgFails (s : State) (es : List CfgEntry) : List (Nat × Nat) :=
  let s2 := cfgStore es s
  es.zipIdx.filterMap fun (e, n) =>
    match regKind e.off with
    | none => some (stParam, n)
    | some (k, i) => (entryCheck s s2 e.off k i (e.mask &&& rwMaskAt k i)).map fun st => (st, n)

/-- The first entry that breaks a register's state rule, which R376 tests before the named tick. -/
def cfgStateFail (s : State) (es : List CfgEntry) : Option (Nat × Nat) := (cfgFails s es).find? fun f => f.1 == stState

/-- The first failing entry in the order of R376: its status and index (R389). -/
def cfgCheck (s : State) (es : List CfgEntry) : Option (Nat × Nat) :=
  match cfgStateFail s es with | some x => some x | none => (cfgFails s es).head?

/- Effects beyond the stored fields. -/

/-- The generator starts: at the first T >= T0 whose edge lies ahead of now (R366). TICK_IN waits for an aligned edge. -/
def startTicks (s : State) : State :=
  if bits (regAt s 0x60010) 1 0 = 1 then
    { s with time := { s.time with tickSt := .unlocked, next := none, lastIn := none } }
  else
    { s with time := { s.time with next := some (genFrom s (nowL s + 1)), startL := nowL s, tickSt := .locked } }

/-- Start of link training (R321). -/
def startTrain (l : Nat) (s : State) : State :=
  let x := linkAt s l
  setLink l { x with st := .train, lock := false, good := 0, bad := 0, replays := 0, lc := [(1, 0)], rxCnt := none } s

/-- Fall of a link to DOWN (R321): RETRAIN counts, FABRIC_LINK_DOWN is raised, and AUTO_RETRAIN starts training again. -/
def linkFall (l : Nat) (s : State) : State :=
  let x := linkAt s l
  let x := { x with st := .down, lock := false, good := 0, bad := 0, replays := 0, fixed := [], cnt := cadd 32 x.cnt 6 1 }
  let s := raiseEv { code := 0x40, sev := 3, origin := l, body := le 8 (linkStat x) } (setLink l x s)
  let c := regAt s (0xB0000 + 16 * l)
  if bit c 31 && bit c 29 then startTrain l s else s

/-- The scale-state entry of a channel that becomes a member of a group (R215). -/
def memberEntry (d : GroupDesc) : ScaleEntry :=
  { flatEvent := d.flatEvent, head := d.head, win := d.win, driftK := d.driftK, sFloor := d.sFloor, sSeed := d.sSeed
    satThresh := d.satThresh, flatTicks := d.flatTicks }

/-- The entry of channel c after its context changed from enabled (was) to what it is now (R215). -/
def memberUpdate (was : Bool) (c : Nat) (s : State) : State :=
  let now := ctxEn (regAt s) c
  match now, was, groupOf s.fe c with
  | true, false, some (_, g) => { s with fe := setChanScale s.fe c (memberEntry g.d) }
  | false, _, _ => { s with fe := setChanScale s.fe c zeroScale }
  | _, _, _ => s

/-- A queue with EN = 0: HEAD and TAIL are 0, the completion ring starts anew, and replies that can no longer be written are kept
only in the journal (R380, R467). -/
def queueStop (q : Nat) (s : State) : State :=
  let s := setQueue q {} s
  { s with ctl := { s.ctl with
      replies := s.ctl.replies.filter (fun r => r.source / 65536 % 4096 != q)
      taken := s.ctl.taken.filter (fun t => t.queue != q) } }

/-- What one entry that takes effect does, as each register's rule states. old is the register before. -/
def entryEffect (off old : Nat) (e : CfgEntry) (s : State) : State :=
  match regKind off with
  | none => s
  | some (k, i) =>
    let new := regAt s off
    match k with
    | .errqStat => if bit e.mask 63 && bit e.value 63 then { s with flt := { s.flt with ovf := false } } else s
    | .txtsStat => if bit e.mask 31 && bit e.value 31 then { s with time := { s.time with txOvf := false } } else s
    | .decision | .gridCfg => recomputeC (if k = .gridCfg && old ≠ new then startTicks s else s)
    | .tickCfg | .tickPeriod | .tickEpoch | .epochTime => startTicks s
    | .ringBase | .cqBase => let j := (off - 0x30000) / 0x40; setEng j { engAt s j with ci := 0, pi := 0 } s
    | .engCfg =>
      if bit old 63 && !bit new 63 then setEng i { engAt s i with stopping := true } s
      else if !bit old 63 && bit new 63 then setEng i { engAt s i with stopping := false } s else s
    | .link =>
      if !bit old 31 && bit new 31 then startTrain i s
      else if bit old 31 && !bit new 31 then (if (linkAt s i).st = .down then s else linkFall i s) else s
    | .evqCfg =>
      if bit old 63 && bit new 63 then s
      else { s with host := { s.host with evHead := 0, evTail := 0, evLostMark := 0, unread := [] } }
    | .sqCfg => if bit new 63 then s else queueStop i s
    | .ctx => memberUpdate (bit old 31) i s
    | _ => s

/-- The boot settings follow a change of a persistent register (R476). -/
def saveBoot (s : State) : State :=
  { s with host := { s.host with boot := some (s.regs.filter fun e => match regKind e.1 with | some (k, _) => persistent k | none => false) } }

/-- The entries of a CFG_WRITE take effect together (R389). -/
def cfgApply (es : List CfgEntry) (s : State) : State :=
  let s2 := cfgStore es s
  let s3 := es.foldl (fun t e => entryEffect e.off (regAt s e.off) e t) s2
  if es.any (fun e => match regKind e.off with | some (k, _) => persistent k | none => false) then saveBoot s3 else s3

/-- Some entry is tied to a tick edge (R26, R250, R252). -/
def cfgTickBound (es : List CfgEntry) : Bool := es.any fun e => match regKind e.off with | some (k, _) => tickBound k | none => false

/-- Entries that R311 re-applies in a replay, those of the bit-affecting configuration (R390). -/
def bitAffecting (off : Nat) : Bool :=
  match regKind off with
  | some (k, _) => match k with
    | .lgrp | .lane | .ctx | .orCfg | .scmp | .gho | .fireSrc | .t2Class | .mon | .ladderCfg | .ringCtl | .gridCfg | .decision => true
    | _ => false
  | none => false

/-- CFG_WRITE and the rows that are one register write of it (R382, R389): an engine's disable is final only when it has stopped
(R288). -/
def cfgAct (h : Hdr) (es : List CfgEntry) (j : Nat) (s : State) : Act :=
  if replaying s && es.any (fun e => bitAffecting e.off) then fails s stState
  else if (cfgStateFail s es).isSome then
    match cfgStateFail s es with | some (st, n) => fails s st n | none => fails s stState
  else if h.at_.isSome || cfgTickBound es then
    tickCmd h 0x105 j (.cfg es) (fun s => cfgCheck s es) (cfgApply es) s
  else match cfgCheck s es with
    | some (st, n) => fails s st n
    | none =>
      let s2 := cfgApply es s
      let stops := (List.range 40).filter fun e => (engAt s2 e).stopping && !(engAt s e).stopping
      if stops.isEmpty then { s := s2, eff := .cfg es }
      else { s := longEff (.cfg es) h 0x105 j (stops.foldl (fun t e => setEng e { engAt t e with stopReply := some j } t) s2), wait := true }

/-- The command CFG_WRITE over a list of entries. A register keeps its own state rule, so the gate asks none (R388, R389). -/
def cfgCmd (h : Hdr) (es : List CfgEntry) (s : State) : State :=
  control { op := 0x105, states := anySt } h (cfgAct h es) s

/-- A write of whole fields of one register. -/
def one (off mask value : Nat) : List CfgEntry := [{ off := off, mask := mask, value := value }]

end Sys2Proof.Machine
end

