-- ==== Sys2Proof/Machine/Snapshot.lean ====
section
/-!
DEFINITION. What the part reports of itself: CONFIG_DIGEST (14 R390), the DEVICE_STATE snapshot (14 R393), the cullet log
(10 R293), the update state record (16 R438).
-/

namespace Sys2Proof.Machine

/-- Descriptors as bytes, in the layouts of R215, R224, R228, R237 and R266. -/
def groupBytes (g : GroupSt) : List Byte :=
  let d := g.d
  if !g.set then List.replicate 32 0#8 else
  le 2 d.first ++ le 2 d.count ++ le 1 (d.feature + 4 * d.miss + 16 * bnat d.rtz) ++ le 1 (d.fmt + 16 * d.zp) ++
  le 1 (toTwos 8 d.lo) ++ le 1 (toTwos 8 d.hi) ++ le 1 (128 * bnat d.flatEvent + 8 * d.head + d.win) ++ le 1 d.driftK ++
  le 2 d.sFloor ++ le 2 d.sSeed ++ le 2 d.satThresh ++ le 2 d.flatTicks ++ le 1 d.dec ++ List.replicate 13 0#8

def primBytes (d : PrimDesc) : List Byte :=
  le 1 (128 * bnat d.en + 16 * d.kind + 8 * bnat d.pol + d.mode) ++ le 1 (d.k - 1) ++ le 2 d.hyst ++ le 4 (toTwos 32 d.ta) ++
  le 4 (toTwos 32 d.tb) ++ le 2 d.wmin ++ le 2 d.wmax ++
  (List.range 4).flatMap (fun i => match d.orsel[i]? with | some g => le 2 (0x8000 + g) | none => le 2 0) ++ le 8 0

def measDescBytes (d : MeasDesc) : List Byte :=
  le 2 (0x8000 * bnat d.en + d.chan) ++ le 1 (bnat d.pol + 2 * d.nbExp) ++ le 1 0 ++ le 4 (toTwos 32 d.i0) ++ le 4 (toTwos 32 d.i1) ++
  le 4 (toTwos 32 d.tTot) ++ le 4 (toTwos 32 d.lPer) ++ le 2 d.hyst ++ List.replicate 10 0#8

def lineDescBytes (d : LineDesc) : List Byte :=
  le 2 (0x8000 * bnat d.en + 0x2000 * d.kind + 0x1000 * bnat d.accept + 0x800 * bnat d.stage2 + 0x400 * bnat d.sheddable +
    0x200 * bnat d.ghoTrig + 0x100 * bnat d.ghoExempt + 16 * d.prio + 4 * d.hoMode) ++
  le 4 d.p ++ le 4 d.n ++ le 1 d.template ++ le 1 (d.t2 + 64 * d.cls) ++
  (List.range 6).flatMap (fun i => le 2 (d.in1.getD i 0)) ++ (List.range 6).flatMap (fun i => le 2 (d.in2.getD i 0)) ++ le 4 0 ++
  le 8 d.lut1 ++ le 8 d.lut2 ++ le 4 d.mark ++ le 4 0

def templateBytes (d : TemplateDesc) : List Byte :=
  le 2 (0x8000 * bnat d.en + 0x2000 * d.dest + 0x1000 * bnat d.digest + 0x100 * d.digSec + 0x80 * bnat d.forceRing) ++
  le 2 d.destId ++ le 2 (d.pre - 1) ++ le 2 (d.post - 1) ++ le 1 d.cr.length ++ le 1 d.er.length ++ List.replicate 6 0#8 ++
  (List.range 16).flatMap (fun i => match d.cr[i]? with | some (a, n) => le 4 (a + (n - 1) * 65536) | none => le 4 0) ++
  (List.range 4).flatMap (fun i => match d.er[i]? with | some (a, n) => le 4 (a + (n - 1) * 65536) | none => le 4 0) ++
  List.replicate 32 0#8

/-- The registers of R390's second item in ascending offset. -/
def configOffsets : List Nat :=
  [0x48, 0x1010, 0x70000, 0x70010] ++ (List.range 4).map (0x70100 + 8 * ·) ++ (List.range 32).map (0x70300 + 2 * ·) ++
  (List.range 1024).map (0x72000 + 8 * ·) ++ (List.range 12).map (0x80000 + 4 * ·) ++ (List.range 96).map (0x81000 + 16 * ·) ++
  (List.range 512).map (0x82000 + ·) ++ (List.range 4096).map (0x90000 + 4 * ·) ++ (List.range 32).map (0xA0000 + 8 * ·)

/-- STALL_LIMIT and seed of resident sections, and the plan digest. -/
def planDigest (s : State) : BitVec 512 := match s.fab.plan with | some p => p.digest | none => 0#512

/-- The serialisation of R390; II and TIMING_MODE are taken as 8 bytes each, PED as 4, GAIN and S_CAL as 2 (DESIGN CHOICE, log 18). -/
def configBytes (s : State) : List Byte :=
  le 8 (iiOf s) ++ le 8 (bnat (c1Mode s)) ++ configOffsets.flatMap (fun o => le 8 (regAt s o)) ++
  (List.range 1024).flatMap (fun g => groupBytes (groupAt s.fe g)) ++ (List.range 8192).flatMap (fun u => primBytes (unitAt s.fe u).d) ++
  (List.range 1024).flatMap (fun e => measDescBytes (tget (fun _ => {}) s.fe.meas e)) ++
  (List.range 256).flatMap (fun n => lineDescBytes (lineSt s n).d) ++ (List.range 64).flatMap (fun k => templateBytes (templateAt s k)) ++
  (List.range 4096).flatMap (fun c => le 4 (toTwos 32 (pedAt s.fe c)) ++ le 2 (gainAt s.fe c) ++ le 2 (scalAt s.fe c)) ++
  (residents s).flatMap (fun h => le 1 h ++ le 8 (secAt s h).seed ++ le 4 (secAt s h).stallLimit) ++ le 64 (planDigest s).toNat

/-- CONFIG_DIGEST (R390). -/
def configDigest (s : State) : BitVec 512 := sha3Num (configBytes s)

/-- LEASE_LEFT in ms (R385, R393). -/
def leaseLeft (s : State) : Nat :=
  if s.ctl.holder.isNone || s.ctl.leaseMs == 0 then 2 ^ 32 - 1
  else s.ctl.leaseMs - (s.time.raw - s.ctl.leaseAt) / (65536 * 1000000)

/-- Version of a part's installed firmware. -/
def partAt (s : State) (t : Nat) : UpPart := s.upd.parts.getD (t - 1) {}
def setPart (t : Nat) (p : UpPart) (s : State) : State := { s with upd := { s.upd with parts := s.upd.parts.set (t - 1) p } }

/-- The 256-byte snapshot of R393. -/
def deviceStateBytes (s : State) : List Byte :=
  le 8 (nowTick s) ++ le 8 (s.ctl.jnext - 1) ++ le 1 (stCode s.dev.st) ++
  le 1 (bnat s.upd.overlay + 2 * bnat s.dev.draining + 4 * bnat s.acq.replay.running + 8 * bnat s.acq.recg.running +
    16 * bnat s.fe.cal.isDefault + 32 * bnat (c1Mode s) + 64 * bnat s.fab.member + 128 * bnat s.fab.isMaster) ++
  (List.range 4).flatMap (fun q => le 1 (quadCode (quadAt s q))) ++ le 2 (s.ctl.waiting.filter (·.tick.isSome)).length ++
  le 4 (s.ctl.holder.getD 0) ++ le 4 (leaseLeft s) ++ le 4 s.ctl.epoch ++ le 2 (bitSet (residents s)) ++ le 2 (bitSet (stagedSecs s)) ++
  le 4 (iiOf s) ++ le 4 (fGridKHz (iiOf s) (periodOf s)) ++ le 8 s.dev.tA ++ le 8 s.dev.tR ++ le 64 (configDigest s).toNat ++
  le 8 s.dev.tP ++ le 1 s.acq.level ++ List.replicate 7 0#8 ++
  (List.range 5).flatMap (fun t => le 8 (partAt s (t + 1)).version) ++ le 8 0 ++ le 64 (planDigest s).toNat

/-- Cullet log part 0 without its tick (R293). -/
def culletBody (s : State) : List Byte :=
  (List.range 14).flatMap (fun k => le 8 (devCnt s k)) ++ (rangeFrom 14 5).flatMap (fun k => le 8 (devCnt s k)) ++
  le 8 (sumL ((List.range 32).map fun m => (tget (fun _ => {}) s.acq.streams m : Stream).gaps)) ++
  le 8 (devCnt s 21) ++ le 8 (devCnt s 22) ++ (List.range 9).flatMap (fun l => le 8 (cget s.acq.ladderTicks l)) ++
  (List.range 4).flatMap (fun c => le 4 (cget s.t2.cls (8 * c + 1)) ++ le 4 (cget s.t2.cls (8 * c + 2)) ++ le 4 (cget s.t2.cls (8 * c + 3))) ++
  le 8 (devCnt s 19) ++ le 8 (devCnt s 20)

/-- Lines of parts 1 and 2: L_HELD, L_PRESCALED, L_SHED, L_NO_SLOT, L_DOUBT (R251, R293). -/
def culletLines (s : State) (a : Nat) : List Byte :=
  (rangeFrom a 128).flatMap fun n => [2, 3, 4, 5, 1].flatMap fun k => le 4 (cget (lineSt s n).cnt k)

/-- The three parts of a snapshot at this edge (R34, R293). -/
def culletSnap (s : State) : List (List Byte) :=
  let t := le 8 (nowTick s)
  [t ++ culletBody s, t ++ culletLines s 0, t ++ culletLines s 128]

/-- PartSt codes (R438). -/
def partCode : PartSt → Nat
  | .idle => 0 | .staged => 1 | .demoting => 2 | .writing => 3 | .activating => 4 | .trial => 5 | .confirmed => 6
  | .fallingBack => 7 | .fallenBack => 8 | .pendingBoot => 9

/-- The 224-byte update state record (R438). -/
def updateRecord (s : State) : List Byte :=
  let b := le 4 0x44505543 ++ le 4 s.upd.rseq ++ le 4 (s.upd.holder.getD 0) ++ le 4 0 ++
    le 64 (if s.upd.holder.isSome then s.upd.man.digest.toNat else 0) ++
    s.upd.parts.flatMap (fun p => le 1 (partCode p.st) ++ le 1 p.cause ++ le 1 p.svn ++ le 1 0 ++ le 4 p.lehr ++ le 8 p.version)
  b ++ sha3 b

/-- A journal entry as bytes (R396). -/
def entryBytes (e : JEntry) : List Byte :=
  le 8 e.jseq ++ le 8 e.accTick ++ le 4 e.accSec ++ le 4 e.accNs ++ le 4 e.source ++ le 4 e.cseq ++ le 2 e.opcode ++ le 2 e.status ++
  le 2 (bnat e.final + 2 * bnat e.atFlag + 4 * bnat e.internal + 8 * bnat e.dupSeen) ++ le 2 0 ++ slice 0 16 e.pdigest ++ slice 0 8 e.result

end Sys2Proof.Machine
end

