-- ==== Sys2Proof/Machine/HostSide.lean ====
section
/-!
DEFINITION. Shared operations of the host interface: MSI-X, parking of engines, direct reads of BAR0, the event ring, and what the
loss of the host does (17 R463 to R485, 14 R394, 10 R291).
-/

namespace Sys2Proof.Machine

/- Interrupts (R478, R479). -/

def msixAt (s : State) (v : Nat) : Msix := tget (fun _ => {}) s.host.msix v
def setMsix (v : Nat) (m : Msix) (s : State) : State := { s with host := { s.host with msix := tset (fun _ => {}) s.host.msix v m } }

/-- A vector's message leaves; a hold-off starts where HOLDOFF_US is nonzero (R479). -/
def msiSend (v : Nat) (s : State) : State :=
  let s := send (.msi v (msixAt s v).addr (msixAt s v).data) s
  if bits (regAt s 0x50) 15 0 = 0 then s else { s with host := { s.host with holding := v :: s.host.holding.filter (· != v) } }

/-- A trigger of a vector: merged in its hold-off, pending where masked, else sent (R479). -/
def trigger (v : Nat) (s : State) : State :=
  if s.host.holding.contains v then { s with host := { s.host with merged := v :: s.host.merged.filter (· != v) } }
  else if (msixAt s v).masked then { s with host := { s.host with pba := v :: s.host.pba.filter (· != v) } }
  else msiSend v s

/-- An engine signals its vector (R478). -/
def engTrigger (e : Nat) (s : State) : State := trigger (bits (regAt s (0x30018 + 0x40 * e)) 7 0) s

/- Engines (10 R288 to R291). -/

def engCfg (s : State) (e : Nat) : Nat := regAt s (0x30000 + 0x40 * e)
def engEn (s : State) (e : Nat) : Bool := bit (engCfg s e) 63
/-- The engine works: enabled, or finishing its last buffer (R288). -/
def engLive (s : State) (e : Nat) : Bool := engEn s e || (engAt s e).stopping
/-- SRC; H2D engines have it fixed at 2 (R288). -/
def engSrc (s : State) (e : Nat) : Nat := if 32 ≤ e then 2 else bits (engCfg s e) 62 61
def engStream (s : State) (e : Nat) : Nat := bits (engCfg s e) 60 56
def engSize (s : State) (e : Nat) : Nat := 2 ^ (bits (engCfg s e) 55 52 + 4)
/-- Device address of the descriptor at the engine's CI (R290). -/
def descAddr (s : State) (e : Nat) : Nat := regAt s (0x30008 + 0x40 * e) + 32 * ((engAt s e).ci % engSize s e)
/-- Device address of the completion entry at the engine's CI (R290, R482). -/
def cplAddr (s : State) (e : Nat) : Nat := regAt s (0x30010 + 0x40 * e) + 16 * ((engAt s e).ci % engSize s e)

/-- An engine parks (R291): the park record, DMA_PARKED, DMA_PARKS, and its vector. -/
def parkEng (e : Nat) (p : Park) (s : State) : State :=
  let x := engAt s e
  engTrigger e (raiseEv { code := 0x30, sev := 0, origin := e, body := parkBytes e p }
    (setEng e { x with park := some p, parks := satAdd 32 x.parks 1 } s))

/-- A park of an engine at its present descriptor. -/
def parkHere (e cause done addr at_ : Nat) (s : State) : State :=
  let x := engAt s e
  let user := match x.cur with | some d => d.user | none => 0
  parkEng e { cause := cause, index := x.ci % 65536, done := done, addr := addr, user := user, at_ := at_ } s

/- Direct reads of BAR0 (R469). -/

/-- Bytes of a register. -/
def regWidth : Rk → Nat
  | .trgOut | .busy | .lgrp | .lane | .ofsMin | .ofsMax | .ctx | .timedCtrl | .timedPhase | .link => 4
  | .fireSrc => 2
  | .orCfg | .skip => 1
  | _ => 8

/-- The byte at an offset of BAR0. -/
def bar0Byte (s : State) (off : Nat) : Nat :=
  match (List.range 8).find? (fun k => decide (k ≤ off) && (match regKind (off - k) with | some (r, _) => decide (k < regWidth r) | none => false)) with
  | some k => regValue s (off - k) >>> (8 * k) % 256
  | none =>
    if 0x800000 ≤ off && decide (off < 0x814000) then
      let o := off - 0x800000
      let wide := decide (o < 0x1000) || decide (0xE280 ≤ o ∧ o < 0xE480) || decide (0x10000 ≤ o ∧ o < 0x11000 ∧ o % 0x40 < 8)
      if wide then regValue s (off / 8 * 8) >>> (8 * (off % 8)) % 256 else regValue s (off / 4 * 4) >>> (8 * (off % 4)) % 256
    else if 0x1000000 ≤ off && decide (off < 0x1400000) then regValue s (off / 4 * 4) >>> (8 * (off % 4)) % 256
    else regValue s off % 256

/-- The value a read of n bytes returns: the latched high half where one is held; in BOOT only the identity block is read (R469, R512). -/
def bar0Value (s : State) (off n : Nat) : Nat :=
  if s.dev.st = .boot && decide (0x1000 ≤ off) then 0
  else match s.host.latch with
    | some (o, v) => if o = off && n == 4 then v else sumL ((List.range n).map fun k => bar0Byte s (off + k) * 256 ^ k)
    | none => sumL ((List.range n).map fun k => bar0Byte s (off + k) * 256 ^ k)

/-- Offsets of the RC fields' bytes within n bytes from off: the register to clear (R469). -/
def rcIn (off n : Nat) : List Nat :=
  (if off ≤ 0x20008 + 4 && decide (0x20008 + 4 < off + n) then [0x20008] else []) ++
  (if off ≤ 0x50000 + 4 && decide (0x50000 + 4 < off + n) then [0x50000] else []) ++
  ((List.range n).filterMap fun k => match regKind (off + k) with
    | some (.ofsMin, _) | some (.ofsMax, _) => some (off + k)
    | _ => none)

/-- A direct read: Completer Abort where its size or alignment is wrong; the low half of a 64-bit register latches the high one; RC
fields in the half read are cleared; the last byte of TXTS_HEAD removes its entry (R363, R469). -/
def bar0Read (off n : Nat) (s : State) : State :=
  if s.dev.st = .off then s
  else if !(n == 4 || n == 8) || off % n != 0 then send (.completion false []) s
  else
    let s1 := send (.completion true (le n (bar0Value s off n))) s
    let low := n == 4 && off % 8 == 0 && (match regKind off with | some (k, _) => regWidth k == 8 | none => false)
    let fresh := { s with host := { s.host with latch := none } }
    let latch := if low then some (off + 4, bar0Value fresh (off + 4) 4)
      else if s.host.latch.map (·.1) == some off then none else s.host.latch
    let s2 := { s1 with host := { s1.host with latch := latch } }
    if s.dev.st = .boot then s2 else
    let s3 := (rcIn off n).foldl rcClear s2
    if decide (off ≤ 0x6005F ∧ 0x6005F < off + n) then { s3 with time := { s3.time with txq := s3.time.txq.drop 1 } } else s3

/- Ignored writes (R470, R480). -/

def mmioDenied (s : State) : State := { s with host := { s.host with mmioDenied := satAdd 32 s.host.mmioDenied 1 } }
def dbBad (page : Nat) (s : State) : State :=
  { s with host := { s.host with dbBad := satAdd 32 s.host.dbBad 1, lastBad := page % 8192 } }
/-- Doorbells are ignored until step 4 of start-up has ended (R512). -/
def dbOpen (s : State) : Bool := s.pwr.saveOk && s.dev.st != .off

/- Events (14 R394, R395). -/

def evqSize (s : State) : Nat := 2 ^ (bits (regAt s 0x20008) 62 59 + 6)
def evqEn (s : State) : Bool := bit (regAt s 0x20008) 63

/-- An event as bytes: header and body in whole units. -/
def eventBytes (r : EvRec) (phase : Bool) : List Byte :=
  let units := ceilDiv (32 + r.e.body.length) 64
  let b := le 8 r.eseq ++ le 8 r.tick ++ le 4 r.sec ++ le 4 r.ns ++ le 2 r.e.code ++ le 1 r.e.sev ++ le 1 (bnat phase) ++ le 2 units ++
    le 2 r.e.origin ++ r.e.body
  b ++ List.replicate (64 * units - b.length) 0#8

/-- Writes an event's units into the ring and signals its vector (R394, R478). -/
def eventPut (r : EvRec) (s : State) : State :=
  let n := evqSize s
  let bs := eventBytes r (s.host.evHead / n % 2 == 0)
  let units := bs.length / 64
  let s := (List.range units).foldl (fun t i =>
    send (.mem (regAt t 0x20000 + 64 * ((s.host.evHead + i) % n)) (slice (64 * i) 64 bs)) t) s
  let s := { s with host := { s.host with
      evHead := s.host.evHead + units
      unread := if 3 ≤ r.e.sev then (s.host.evHead + units) :: s.host.unread else s.host.unread } }
  trigger (bits (regAt s 0x20008) 55 48) s

/-- Units free in the ring: the producer leaves at most S - 1 unread (R482). -/
def evRoom (s : State) : Nat := evqSize s - 1 - (s.host.evHead - s.host.evTail)

/-- EVENTS_LOST goes first when room has returned (R394). -/
def lostMark (s : State) : State :=
  if s.host.evLostMark = 0 || evRoom s == 0 then s
  else
    let t := todOf (nowL s)
    let r : EvRec := { eseq := s.host.eseq, tick := nowTick s, sec := t.sec % 2 ^ 32, ns := t.ns, e := { code := 0x80, sev := 1, body := le 8 s.host.evLostMark } }
    eventPut r { s with host := { s.host with eseq := s.host.eseq + 1, evLostMark := 0 } }

/-- An event that is due for the ring is written, or is lost and counted (R394). -/
def eventRing (r : EvRec) (s0 : State) : State :=
  if !evqEn s0 || decide (r.e.sev < bits (regAt s0 0x20008) 58 56) then s0
  else
    let s := lostMark s0
    if s.host.evLostMark = 0 && decide (ceilDiv (32 + r.e.body.length) 64 ≤ evRoom s) then eventPut r s
    else { s with host := { s.host with evLost := satAdd 16 s.host.evLost 1, evLostMark := s.host.evLostMark + 1 } }

/-- MGMT_EVT_DEST is set. -/
def evtDestSet (s : State) : Bool := regAt s 0x21028 != 0 || regAt s 0x21030 != 0 || regAt s 0x21038 != 0

/-- An event's other destinations: UDP, and for S2 or above the fabric master (R394). 0xFFFF stands for MGMT_EVT_DEST. -/
def eventElse (r : EvRec) (s : State) : State :=
  let s := if evtDestSet s then send (.udp 0xFFFF (eventBytes r false)) s else s
  match s.fab.plan with
  | some p => if s.fab.member && !s.fab.isMaster && decide (2 ≤ r.e.sev) then
      { s with fab := { s.fab with out2 := (p.master, .event (eventBytes r false)) :: s.fab.out2 } } else s
  | none => s

/- Loss of the host (R467). -/

/-- EN of a queue is cleared (R380). -/
def queueOff (q : Nat) (s : State) : State :=
  if bit (regAt s (0x10010 + 0x40 * q)) 63 then queueStop q (setReg (0x10010 + 0x40 * q) (regAt s (0x10010 + 0x40 * q) % 2 ^ 63) s) else s

/-- EN of the event ring is cleared. Due events not yet written are lost and counted; those S3 and above stay with the other destinations. -/
def ringOff (s : State) : State :=
  if !evqEn s then s else
  let due := (s.host.raised.filter fun r => decide (bits (regAt s 0x20008) 58 56 ≤ r.e.sev)).length
  let s := s.host.raised.foldl (fun t r => eventElse r t) s
  setReg 0x20008 (regAt s 0x20008 % 2 ^ 63) { s with host := { s.host with
    raised := [], evHead := 0, evTail := 0, evLostMark := 0, unread := [], evLost := satAdd 16 s.host.evLost due } }

/-- Every queue and the event ring are disabled. -/
def queuesOff (s : State) : State := ringOff ((List.range 64).foldl (fun t q => queueOff q t) s)

/-- An engine with a descriptor outstanding parks with CAUSE 4 at byte 0 of its oldest descriptor without a completion; one not yet
fetched parks at its fetch (log 28). -/
def parkOne (e : Nat) (s : State) : State :=
  let x := engAt s e
  if x.park.isNone && decide (x.ci < x.pi) && engLive s e then
    match x.cur with
    | some d => parkHere e 4 0 d.addr 0 (setEng e { x with done := 0, owed := none } s)
    | none => parkHere e 4 0 (descAddr s e) 1 s
  else s
def parkBusy (s : State) : State := (List.range 40).foldl (fun t e => parkOne e t) s

/-- All five events of R467. -/
def hostLost (s : State) : State := parkBusy (queuesOff s)

/-- The configuration header (R466): Vendor and Device ID, Revision ID with the Class Code, Subsystem IDs as presented, Interrupt Pin. No row of the
table reads configuration space. -/
def configHeader (s : State) : List (Nat × Nat) :=
  [(0x00, 0xC200 * 65536 + 0x1C2A), (0x08, 0x120000 * 256 + (if s.part.b0 then 0xB0 else 0xA1)), (0x2C, s.host.subsysShown % 2 ^ 32), (0x3C, 0)]

/-- Configuration space, BARs, MSI-X and the SUBSYS presentation at their reset (R467, R468, R471). -/
def configReset (s : State) : State :=
  { s with host := { s.host with
      msix := [], pba := [], holding := [], merged := [], latch := none, bar2Size := 2 ^ 28, subsysShown := regAt s 0x30, d3 := false } }

end Sys2Proof.Machine
end

