-- ==== Sys2Proof/Machine/Control.lean ====
section
/-!
DEFINITION. Commands of class 0x01 and 0x09, and the rows of command packets (14 R372 to R399, 18 R500, R503).
-/

namespace Sys2Proof.Machine

/-- The commanded source is the fabric master of the plan in force (R385, R387). -/
def isMasterSrc (h : Hdr) (s : State) : Bool :=
  h.transport == 2 && (match s.fab.plan with | some p => s.fab.member && p.master == h.inst | none => false)

/-- DEVICE_ID: DEV_ID0, DEV_ID1 and DEV_ID2 in this order (R391, R471; DESIGN CHOICE, log 23). -/
def execDeviceId (h : Hdr) (s : State) : Host.Outcome State Fault Refusal :=
  goes (observe { op := 0x101, states := bootAny, bc := true } h
    (fun s => { s := s, result := le 8 (regValue s 0) ++ le 8 (regValue s 8) ++ le 8 (regValue s 16) }) s)

/-- The tick generator gives edges. -/
def ticking (s : State) : Bool := s.time.next.isSome && s.time.tickSt != .unlocked

/-- DEVICE_STATE: the snapshot of the next tick edge; at once where no edge comes (R393; log 24). -/
def execDeviceState (h : Hdr) (s : State) : Host.Outcome State Fault Refusal :=
  goes (observe { op := 0x102, states := bootAny, bc := true } h
    (fun s =>
      if ticking s then { s := { s with ctl := { s.ctl with snapWait := s.ctl.snapWait ++ [(h, 0)] } }, wait := true }
      else { s := s, result := deviceStateBytes s }) s)

/-- A claim that succeeds sets the lease (R385). -/
def setLease (ms : Nat) (s : State) : State := { s with ctl := { s.ctl with leaseMs := ms, leaseAt := s.time.raw } }

/-- The checks and effect of CONTROL_CLAIM (R385). A FORCE from another source fails with ST_PARAM (DESIGN CHOICE, log 25). -/
def claimAct (h : Hdr) (leaseMs : Nat) (force : Bool) (s : State) : Act :=
  if leaseMs != 0 && decide (leaseMs < 100 ∨ 3600000 < leaseMs) then fails s stParam
  else if force && !(h.transport == 3 || isMasterSrc h s) then fails s stParam
  else
    let take (cause : Nat) : Act :=
      let s2 := setLease leaseMs (changeHolder (some (srcOf h)) cause s)
      { s := s2, result := le 4 s2.ctl.epoch }
    match s.ctl.holder with
    | none => take 0
    | some o =>
      if o = srcOf h then { s := setLease leaseMs s, result := le 4 s.ctl.epoch }
      else if force then take 1
      else fails s stNotOwner 0 (le 4 o ++ le 4 (leaseLeft s))

/-- CONTROL_CLAIM (R385). -/
def execControlClaim (h : Hdr) (leaseMs : Nat) (force : Bool) (s : State) : Host.Outcome State Fault Refusal :=
  goes (control { op := 0x103, states := anySt, bc := true, anyone := true } h (fun _ => claimAct h leaseMs force) s)

/-- CONTROL_RELEASE (R385). -/
def execControlRelease (h : Hdr) (s : State) : Host.Outcome State Fault Refusal :=
  goes (control { op := 0x104, states := anySt, bc := true } h (fun _ s => { s := setLease 0 (changeHolder none 2 s) }) s)

/-- CFG_WRITE (R389). COUNT entries of 24 bytes fit 4,064 parameter bytes. -/
def execCfgWrite (h : Hdr) (es : List CfgEntry) (s : State) : Host.Outcome State Fault Refusal :=
  goes (cfgCmd { h with ok := h.ok && decide (8 + 24 * es.length ≤ 4064) } es s)

/-- CFG_READ: eight bytes for each offset, in the order asked; RC fields are cleared (R389, R469; DESIGN CHOICE, log 23). -/
def execCfgRead (h : Hdr) (offs : List Nat) (s : State) : Host.Outcome State Fault Refusal :=
  goes (observe { op := 0x106, states := anySt } h
    (fun s =>
      if 4064 < 8 * offs.length then fails s stParam
      else offs.foldl (fun a o => { s := rcClear a.s o, result := a.result ++ le 8 (regValue a.s o) }) { s := s }) s)

/-- Every quadrant a resident section stands in is ACTIVE (R430). -/
def placesActive (s : State) : Bool :=
  (residents s).all fun h => (secAt s h).place.all fun q => quadAt s q == .active

/-- The tick of a recording's START entry. -/
def startTick (log : List LogEntry) : Option Nat := (log.find? fun e => e.type == 1).map (·.tick)
/-- The ARM or RESUME that follows a REPLAY_SET names another tick than the START entry, or would start a fabric-wide replay on a
tick source other than FABRIC (R311; the status of the second is a DESIGN CHOICE, log 144). -/
def replayElsewhere (s : State) (t : Nat) : Bool :=
  s.acq.replay.set && !s.acq.replay.running &&
  (startTick s.acq.replay.log != some t || (s.acq.replay.wide && bits (regAt s 0x60010) 1 0 != 2))

/-- The links of this device that the plan uses are calibrated and within their compiled latency (R319, R336). -/
def linksFit (s : State) : Bool :=
  let ok (l : Nat) : Bool := (linkAt s l).st == .up && !(linkAt s l).drift
  match s.fab.plan with
  | some p => p.links.all fun k => (k.a != s.fab.id || ok k.aLink) && (k.b != s.fab.id || ok k.bLink)
  | none => true

/-- The time is locked to fabric time; the root's own time is fabric time (R319, R364). -/
def timeFit (s : State) : Bool := s.time.locked || s.fab.timeRoot == some s.fab.id

/-- A fabric barrier can start this device (R319). -/
def startFit (s : State) : Bool := !s.fab.member || (linksFit s && timeFit s)

/-- The checks of ARM (R222, R256, R382, R430); a generator without edges fails with ST_STATE (DEDUCED, log 26). -/
def armCheck (h : Hdr) (ta : Nat) (allowDefault : Bool) (s : State) : Option Nat :=
  if s.fab.member && !s.fab.isMaster && !isMasterSrc h s then some stNotOwner
  else if !leadOk s ta then some stExpired
  else if replayElsewhere s ta then some stParam
  else if (s.fe.cal.isDefault && !allowDefault) || !placesActive s || !ticking s || !startFit s then some stState
  else none

/-- The device waits for its run to start at E(T_a) (R392). -/
def armSet (ta : Nat) (s : State) : State :=
  setDev .armed { s with dev := { s.dev with armAt := some ta, tA := ta } }

/-- The master sends a message on VC2 to every other device of the plan (R330, R344). -/
def toMembers (m : Msg2) (s : State) : State :=
  match s.fab.plan with
  | some p => if s.fab.member && s.fab.isMaster then
      { s with fab := { s.fab with out2 := (p.devs.filter (fun d => d.id != s.fab.id)).map (fun d => (d.id, m)) ++ s.fab.out2 } }
    else s
  | none => s

/-- Waits for a tick edge whose effect the edge itself makes. -/
def waitTick (op : Nat) (h : Hdr) (j t : Nat) (s : State) : State :=
  { s with ctl := { s.ctl with waiting := s.ctl.waiting ++ [{ jseq := j, h := h, opcode := op, tick := some t }] } }

/-- ARM (R256, R392): final at E(T_a). The master names T_a to every device of its fabric as a start barrier (R319, R344). -/
def execArm (h : Hdr) (ta : Nat) (allowDefault : Bool) (s : State) : Host.Outcome State Fault Refusal :=
  goes (control { op := 0x107, states := stRL } h
    (fun j s => match armCheck h ta allowDefault s with
      | some st => fails s st
      | none =>
        let b : BarrierDesc := { tick := ta, start := true }
        let s := if s.fab.member && s.fab.isMaster then
          toMembers (.barrier b) { s with fab := { s.fab with barriers := s.fab.barriers ++ [b] } } else s
        { s := waitTick 0x107 h j ta (armSet ta s), wait := true }) s)

/-- PAUSE (R264, R315): dispatch stops at once; final when the device is PAUSED. A second PAUSE fails with ST_BUSY (DESIGN
CHOICE, log 27). -/
def execPause (h : Hdr) (s : State) : Host.Outcome State Fault Refusal :=
  goes (control { op := 0x108, states := [.running] } h
    (fun j s =>
      if s.dev.pauseReq then fails s stBusy
      else { s := longCmd h 0x108 j { s with dev := { s.dev with pauseReq := true, pauseJ := some j } }, wait := true }) s)

/-- RESUME (R318): final at E(T_r). -/
def execResume (h : Hdr) (tr : Nat) (s : State) : Host.Outcome State Fault Refusal :=
  goes (control { op := 0x109, states := [.paused] } h
    (fun j s =>
      if tr ≤ nowTick s then fails s stExpired
      else if replayElsewhere s tr then fails s stParam
      else if s.dev.draining then fails s stState
      else if s.dev.resumeAt.isSome then fails s stBusy
      else { s := waitTick 0x109 h j tr { s with dev := { s.dev with resumeAt := some tr } }, wait := true }) s)

/-- LOADED, or READY with no section (R392). -/
def toIdle (s : State) : State := setDev (if (residents s).isEmpty then .ready else .loaded) s

/-- What STOP does once the commands that waited for their ticks have ended: it cancels an arm at once, else pauses and drains (R392). -/
def stopNow (h : Hdr) (j : Nat) (s : State) : Act :=
  match s.dev.st with
  | .armed => { s := toIdle { s with dev := { s.dev with armAt := none, tA := 0 } } }
  | .paused => { s := longCmd h 0x10A j { s with dev := { s.dev with draining := true, resumeAt := none, stopJ := some j } }, wait := true }
  | _ => { s := longCmd h 0x10A j { s with dev := { s.dev with pauseReq := true, stopReq := true, stopJ := some j } }, wait := true }

/-- STOP (R383, R392). -/
def stopAct (h : Hdr) (j : Nat) (s : State) : Act :=
  if s.dev.stopReq || s.dev.draining then fails s stBusy else stopNow h j (expireWaiting s)

/-- STOP (R392). -/
def execStop (h : Hdr) (s : State) : Host.Outcome State Fault Refusal :=
  goes (control { op := 0x10A, states := stAUP } h (stopAct h) s)

/-- DEVICE_RESET (R392, R505): the save with CAUSE 3 starts, or the one under way leads to BOOT. -/
def execDeviceReset (h : Hdr) (s : State) : Host.Outcome State Fault Refusal :=
  goes (control { op := 0x10B, states := anySt, bc := true } h
    (fun _ s => { s := startSave 3 { s with dev := { s.dev with resetReq := true } } }) s)

/-- SAFE_STOP (R503, R504). -/
def execSafeStop (h : Hdr) (cause : Nat) (s : State) : Host.Outcome State Fault Refusal :=
  goes (control { op := 0x10C, states := stRLAUP, bc := true } h
    (fun _ s => if decide (0x8000 ≤ cause ∧ cause ≤ 0xFFFF) then { s := enterSafe cause s } else fails s stParam) s)

/-- A quadrant's sensors read only while it is powered (R500). -/
def powered (s : State) (q : Nat) : Bool := match quadAt s q with | .fused | .off => false | _ => true

/-- The highest thermal level (R501). -/
def kindLevel (t : Therm) : Nat := if t.trip then 3 else if t.cap then 2 else if t.warn then 1 else 0
def thermLevel (p : Pwr) : Nat := max (kindLevel p.dieT) (kindLevel p.hbmT)

/-- The 112 bytes of R500. -/
def telemetryBytes (s : State) : List Byte :=
  le 8 (nowTick s) ++
  (List.range 16).flatMap (fun k => if powered s (k / 4) then le 2 (toTwos 16 (s.pwr.temps.grid.getD k 0)) else le 2 0x8000) ++
  (List.range 4).flatMap (fun k => le 2 (toTwos 16 (s.pwr.temps.iod.getD k 0))) ++
  (List.range 4).flatMap (fun k => le 2 (toTwos 16 (s.pwr.temps.hbm.getD k 0))) ++
  (List.range 15).flatMap (fun k => le 2 (s.pwr.temps.volts.getD k 0)) ++ le 2 0 ++
  (List.range 4).flatMap (fun k => le 2 (s.pwr.temps.amps.getD k 0)) ++ le 2 s.pwr.avg ++ le 2 s.pwr.maxAvg ++
  le 2 (thermLevel s.pwr + 4 * bnat s.pwr.cap) ++ le 2 s.dev.safeCause ++ le 8 0

/-- TELEMETRY_READ (R500). -/
def execTelemetryRead (h : Hdr) (s : State) : Host.Outcome State Fault Refusal :=
  goes (observe { op := 0x10D, states := bootAny, bc := true } h (fun s => { s := s, result := telemetryBytes s }) s)

/-- The chunks of a transfer of n bytes from a device address: place, first byte, length (R289). fuel bounds the chunks. -/
def chunksOf (s : State) (write : Bool) : Nat → Nat → Nat → Nat → List (Place × Nat × Nat)
  | 0, _, _, _ => []
  | fuel + 1, a, k, n =>
    if n = 0 then [] else
    match translate s write false a with
    | .bad c => [(.bad c, k, n)]
    | p => (p, k, min n (chunkLeft s a)) :: chunksOf s write fuel (a + min n (chunkLeft s a)) (k + min n (chunkLeft s a)) (n - min n (chunkLeft s a))

/-- A chunk that may be accessed: its window allows it, and an HBM range lies below HBM_SIZE (R483). -/
def chunkOk (s : State) (c : Place × Nat × Nat) : Bool :=
  match c.1 with | .bad _ => false | .host _ => true | .hbm a => decide (a + c.2.2 ≤ hbmSize s)

/-- MEM_WRITE: every chunk is checked before the first is written (R289, R374). No HBM write goes on in a save (R506). -/
def execMemWrite (h : Hdr) (addr : Nat) (data : List Byte) (s : State) : Host.Outcome State Fault Refusal :=
  goes (control { op := 0x10E, states := anySt } h
    (fun _ s =>
      let cs := chunksOf s true 4 addr 0 data.length
      if decide (4056 < data.length) || data.isEmpty || !cs.all (chunkOk s) then fails s stParam
      else if saving s then fails s stBusy
      else { s := cs.foldl (fun t c => match c.1 with
              | .host a => send (.mem a (slice c.2.1 c.2.2 data)) t
              | .hbm a => hbmWrite a (slice c.2.1 c.2.2 data) t
              | .bad _ => t) s }) s)

/-- MEM_READ (R289); found are the bytes that host windows of the range hold (log 9). -/
def execMemRead (h : Hdr) (addr len : Nat) (found : List Byte) (s : State) : Host.Outcome State Fault Refusal :=
  goes (observe { op := 0x10F, states := anySt } h
    (fun s =>
      let cs := chunksOf s false 4 addr 0 len
      if decide (4064 < len) || len == 0 || !cs.all (chunkOk s) then fails s stParam
      else { s := s, result := cs.flatMap fun c => match c.1 with
              | .host _ => slice c.2.1 c.2.2 found
              | .hbm a => hbmRead s a c.2.2
              | .bad _ => [] }) s)

/- The journal and the packets themselves. -/

/-- JOURNAL_READ (R399): MAX 1 to 63, over I3C or SMBus at most 3. -/
def execJournalRead (h : Hdr) (from_ max : Nat) (s : State) : Host.Outcome State Fault Refusal :=
  goes (observe { op := 0x901, states := anySt, bc := true } h
    (fun s =>
      if decide (63 < max) || (h.transport == 3 && decide (3 < max)) then fails s stParam
      else
        let old := match s.ctl.journal.getLast? with | some e => e.jseq | none => s.ctl.jnext
        let first := Nat.max from_ old
        let es := (s.ctl.journal.reverse.filter fun e => decide (first ≤ e.jseq)).take max
        let nxt := match es.getLast? with | some e => e.jseq + 1 | none => first
        { s := s, result := le 8 old ++ le 6 nxt ++ le 2 (bnat (decide (from_ < old))) ++ es.flatMap entryBytes }) s)

/-- JOURNAL_NOTE (R396): its 16 bytes enter the journal as PDIGEST. -/
def execJournalNote (h : Hdr) (s : State) : Host.Outcome State Fault Refusal :=
  goes (control { op := 0x902, states := anySt } h (fun _ s => if h.raw.length = 16 then { s := s } else fails s stParam) s)

/-- Records of ERRQ_READ, each with its state byte (R408). -/
def errqBytes (s : State) : List Byte :=
  s.flt.errq.flatMap (fun q => faultBytes q.f ++ le 1 q.st) ++ s.flt.handled.flatMap (fun f => faultBytes f ++ le 1 3)

/-- ERRQ_READ (R408). -/
def execErrqRead (h : Hdr) (s : State) : Host.Outcome State Fault Refusal :=
  goes (observe { op := 0x903, states := anySt, bc := true } h (fun s => { s := s, result := (errqBytes s).take 4064 }) s)

/-- BAD_PACKET (R378): ST_PARAM with DETAIL 1 on a host ring, the fields echoed as read; else discarded and counted. -/
def execBadPacket (h : Hdr) (opcode : Nat) (s : State) : Host.Outcome State Fault Refusal :=
  goes (if s.dev.st = .off then s
    else if h.transport = 0 then sendReply (mkReply opcode h none stParam 1 []) (seeRaw h.stamp s)
    else { s with ctl := { s.ctl with crcErr := cadd 32 s.ctl.crcErr h.transport 1 } })

/-- CMD_DENIED (R381). -/
def execCmdDenied (s : State) : Host.Outcome State Fault Refusal :=
  goes { s with ctl := { s.ctl with denied := satAdd 32 s.ctl.denied 1 } }

/-- LEASE_EXPIRED (R385): control becomes free; the entry names the old holder. -/
def execLeaseExpired (s : State) : Host.Outcome State Fault Refusal :=
  goes (match s.ctl.holder with
    | some o => if s.ctl.leaseMs = 0 || s.dev.st == .off then s
        else setLease 0 (changeHolder none 3 (journalInternal 0 0x09F1 (le 4 o) s))
    | none => s)

end Sys2Proof.Machine
end

