-- ==== Sys2Proof/Machine/Matrix.lean ====
section
/-!
DEFINITION. The matrix tile: MVM, MVM_ACC, CHAIN_PASS and REQ (04 R95 to R111) as functions of the tile.
-/

namespace Sys2Proof

/-- One element of the weight store: the set from unit WBASE, bit offset o, width w (R98). -/
def wsElem (t : Tile) (base o w : Nat) : Nat :=
  let x := base * 4096 + o
  bits (tget (fun _ => 0#64) t.ws (x / 64)).toNat (x % 64 + w - 1) (x % 64)

/-- Column j's constants of entry cci (R100). -/
def ccWord (t : Tile) (cci j : Nat) : Nat := (tget (fun _ => 0#64) t.cc (cci * 64 + j)).toNat

/-- Output columns of a mode (R46). -/
def mvmCols (w : Fmt) : Nat := if w = .int8 then 32 else 64

/-- The sum of products of output column j (R105). -/
def mvmColumn (t : Tile) (base cci : Nat) (w : Fmt) (nr j : Nat) (qa : List Int) : Int :=
  let k := ccWord t cci j
  ((List.range nr).zip qa).foldl (fun s (i, q) =>
    let x := (codeVal w (wsElem t base ((j * nr + i) * fmtWidth w) (fmtWidth w))).getD 0
    let sh := if i < 32 then bits k 22 20 else bits k 25 23
    s + q * x * (2 ^ sh : Nat)) 0

/-- The residue mod 15 that the checker forms for column j from the operands as they were read (R110). -/
def residueColumn (t : Tile) (base cci : Nat) (w : Fmt) (nr j : Nat) (qa : List Int) (add : Int) : Int :=
  let k := ccWord t cci j
  (((List.range nr).zip qa).foldl (fun s (i, q) =>
    let x := (codeVal w (wsElem t base ((j * nr + i) * fmtWidth w) (fmtWidth w))).getD 0
    let sh := if i < 32 then bits k 22 20 else bits k 25 23
    (s + (q % 15) * (x % 15) * (2 ^ sh : Nat)) % 15) (add % 15)) % 15

/-- The residue mod 15 of the row-sum lane, from the operands as they were read (R110). -/
def residueRow (qa : List Int) (add : Int) : Int := qa.foldl (fun s q => (s + q % 15) % 15) (add % 15)

/-- A chain word with every column poisoned, values zero (R59, R106). -/
def poisonChain (cols tick btag : Nat) : Chain :=
  { sums := List.replicate cols 0, row := 0, v := true, p := true, tick := tick, btag := btag }

/-- Ports of a matrix tile in a fault record: an operand source by its kind of R156, the chain input 16, accumulator n 32 + n
(DESIGN CHOICE, log 126). -/
def portChain := 16
def portAcc (n : Nat) : Nat := 32 + n

/-- The fields of an MVM or MVM_ACC word (R104). -/
structure MvmWord where
  cin : Bool
  first : Bool
  acc : Nat
  wbase : Nat
  cci : Nat
  fa : Option Fmt
  fw : Option Fmt
  tagCheck : Bool

def mvmWord (w : BitVec 128) : MvmWord :=
  { cin := bit (wMod w) 7, first := bit (wMod w) 6, acc := bits (wMod w) 5 3, wbase := bits (wImm w) 15 7,
    cci := bits (wImm w) 6 0, fa := fmtOf (bits (wSel w) 15 12), fw := fmtOf (bits (wSel w) 11 8),
    tagCheck := bit (wTagchk w) 7 }

/-- The result of MVM (acc = false) or MVM_ACC (acc = true) with its operand cases in order (R105, R106, R110, R111). -/
def mvmCore (isAcc : Bool) (e : Env) (t : Tile) : TileOut × Chain :=
  let m := mvmWord e.w
  let inp := operand t e.c (wSrcA e.w)
  let ch := chainAt t.chain (e.c + 3)
  let ac := accAt t.accs m.acc (e.c + 3)
  let useAcc := isAcc && !m.first
  let fa := m.fa.getD .int4
  let fw := m.fw.getD .int4
  let nr := reductionOf fa fw
  let q := ((unpack fa inp.data).take nr)
  let cols := mvmCols fw
  let poisoned := poisonChain cols inp.tick inp.btag
  let bad (t : Tile) (fs : List TFault) := (({ t := t, faults := fs } : TileOut), poisoned)
  let invalid := !inp.v || (m.cin && !ch.v) || (useAcc && !ac.v)
  if invalid then
    if e.elastic then ({ t := t, stall := true }, {})
    else bad (tcount cInvalidRead 1 t)
      [{ code := 0x0101, sev := 3, unit := if !inp.v then bits (wSrcA e.w) 15 12 else if m.cin && !ch.v then portChain else portAcc m.acc }]
  else if inp.p || (m.cin && ch.p) || (useAcc && ac.p) then bad t []
  else if q.any (· == none) then bad (tcount cInvalidCode 1 t) []
  else if m.tagCheck && ((m.cin && ch.tick != inp.tick) || (useAcc && ac.tick != inp.tick)) then
    let viaChain := m.cin && ch.tick != inp.tick
    ({ t := tcount cTagErr 1 t, suspect := e.elastic,
       faults := [{ code := 0x0102, sev := 3, unit := if viaChain then portChain else portAcc m.acc
                    detail := inp.tick * 256 + (if viaChain then ch.tick else ac.tick) }] },
     poisoned)
  else if e.hw.wsUe.isSome then
    ({ t := tcount cWsUe 1 t, suspect := e.elastic, faults := [{ code := 0x0106, sev := 3, index := m.wbase + e.hw.wsUe.getD 0 }] }, poisoned)
  else if e.hw.ccUe then
    ({ t := tcount cCcUe 1 t, suspect := e.elastic, faults := [{ code := 0x010E, sev := 3, index := m.cci }] }, poisoned)
  else
    let qa := q.map (·.getD 0)
    let add (j : Nat) : Int :=
      (if m.cin then ch.sums.getD j 0 else 0) + (if useAcc then ac.sums.getD j 0 else 0)
    let err (j : Nat) : Int := ((e.hw.sumErr.filter (·.1 == j)).map (·.2)).foldl (· + ·) 0
    let sums := (List.range cols).map fun j => add j + mvmColumn t m.wbase m.cci fw nr j qa + err j
    let fourBit := max (fmtMode fa) (fmtMode fw) = 2
    let addRow : Int := (if m.cin then ch.row else 0) + (if useAcc then ac.row else 0)
    let row := (if fourBit then addRow + qa.foldl (· + ·) 0 else 0) + err 64
    let residue := (((List.range cols).find? fun j => residueColumn t m.wbase m.cci fw nr j qa (add j) != (sums.getD j 0) % 15).or
      (if (if fourBit then residueRow qa addRow else 0) != row % 15 then some 64 else none))
    let wrong (j : Nat) : Nat := ((if j = 64 then row else sums.getD j 0) % 15).toNat
    let lim : Int := if isAcc then 2 ^ 31 else 2 ^ 23
    let above := (sums ++ [row]).findIdx? (fun x => decide (x < -lim ∨ lim ≤ x))
    let t1 := if e.hw.wsCe then tcount cWsCe 1 t else t
    let t2 := if e.hw.ccCe then tcount cCcCe 1 t1 else t1
    let ces := (if e.hw.wsCe then [cWsCe] else []) ++ (if e.hw.ccCe then [cCcCe] else [])
    match residue, above with
    | some j, none =>
      (({ t := tcount cResidue 1 t2, ces := ces, suspect := e.elastic,
          faults := [{ code := 0x0103, sev := 3, index := j, detail := wrong j }] } : TileOut), poisoned)
    | some j, some _ =>
      ({ t := tcount cResidue 1 t2, ces := ces, suspect := e.elastic,
         faults := [{ code := 0x0104, sev := 3, index := j, detail := wrong j }] }, poisoned)
    | none, some j =>
      ({ t := t2, ces := ces, suspect := e.elastic, faults := [{ code := 0x0105, sev := 3, index := j }] }, poisoned)
    | none, none =>
      ({ t := t2, ces := ces },
       if e.hw.rotation then poisoned else { sums := sums, row := row, v := true, p := false, tick := inp.tick, btag := inp.btag })

/-- MVM: the result goes to the chain output at c + 4 (R102, R105). -/
def mvmOp (e : Env) (t : Tile) : TileOut :=
  let (o, r) := mvmCore false e t
  if o.stall then o else { o with chain := some r }

/-- MVM_ACC: the result is written into the accumulator at c + 4 (R101, R105). -/
def mvmAccOp (e : Env) (t : Tile) : TileOut :=
  let (o, r) := mvmCore true e t
  if o.stall then o
  else
    let m := mvmWord e.w
    let keep := o.t.accs.filter (fun x => x.n != m.acc || decide (e.c ≤ x.cyc + 8))
    let old := (o.t.accs.filter (fun x => x.n == m.acc && decide (x.cyc + 8 < e.c))).getLast?
    let base := match old with | some x => x :: keep | none => keep
    { o with t := { o.t with accs := base ++ [{ n := m.acc, cyc := e.c + 4, c := r }] } }

/-- CHAIN_PASS: the chain input of cycle c is on the chain output at c + 1 (R102). -/
def chainPassOp (e : Env) (t : Tile) : TileOut := { t := t, chain := some (chainAt t.chain e.c) }

/-- The corrected sum of column j (R79). -/
def correctedSum (a row csum : Int) (k za zw : Nat) : Int := a - zw * row - za * csum + k * za * zw

/-- A point of an incoming section takes over its entry (R93): INHERIT goes on under the new configuration, SEED starts with FILL = 0. -/
def startPoint (x : ScalePt × OutSpec) (t : Tile) : Tile :=
  let cur : ScaleEntry := tget (fun _ => {}) t.scal x.1.entry
  let kept := restoreScale false cur x.1.e
  let e : ScaleEntry := if x.1.inherit.isSome then { deriveScale x.2.fmt x.2.zp kept with scaleSat := kept.scaleSat }
    else { cur with fill := 0, sCur := cur.sSeed }
  { t with scal := tset (fun _ => {}) t.scal x.1.entry e }

/-- The first REQ of an incoming section on a group: all points of the group take over their entries, since its register holds the scales
of all of them for the tick (R93, R107). Until then the outgoing section's earlier ticks go on with theirs (DEDUCED, log 127). -/
def startGroup (entry : Nat) (t : Tile) : Tile :=
  match t.starts.find? (fun x => x.1.entry == entry) with
  | none => t
  | some y =>
    let t1 := (t.starts.filter fun x => x.1.group == y.1.group).foldl (fun t x => startPoint x t) t
    { t1 with starts := t.starts.filter fun x => x.1.group != y.1.group }

/-- The residue mod 15 of the corrected sum, from the residues of its terms (R110). -/
def residueReq (a row csum : Int) (k za zw : Nat) : Int :=
  (a % 15 - (zw % 15 : Nat) * (row % 15) - (za % 15 : Nat) * (csum % 15) + (k % 15 * (za % 15) * (zw % 15) : Nat)) % 15

/-- The group-scale register g for tick T, latched at its first use in the tick (R65, R107). -/
def groupReg (t : Tile) (g tick : Nat) : Nat × Tile :=
  let r := tget (fun _ => (0, 0)) t.greg g
  if r.1 = tick + 1 then (r.2, t)
  else
    let ms := t.member.filter (fun e => e.2 = g + 1)
    let v := groupScale (ms.map fun e => tget (fun _ => {}) t.scal e.1)
    (v, { t with greg := tset (fun _ => (0, 0)) t.greg g (tick + 1, v) })

/-- Codes laid out in the output words of a format (R108). -/
def outWords (f : Fmt) (codes : List Nat) : List Line :=
  match f with
  | .int8 =>
    if codes.length ≤ 32 then [packCodes 8 codes] else [packCodes 8 (codes.take 32), packCodes 8 (codes.drop 32)]
  | .int16 => (List.range (max 1 (codes.length / 16))).map fun k => packCodes 16 ((codes.drop (16 * k)).take 16)
  | f => [packCodes (fmtWidth f) codes]

/-- The generator word of element j at a point (R55 to R57). -/
def genWord (e : Env) (r : Rnd) (pnum j : Nat) : Nat :=
  match r with
  | .srSeeded => srWord e.seed e.tick pnum j
  | .srEntropy => e.free j
  | _ => 0

/-- Words as emissions from cycle off on. -/
def emitsFrom (off dest : Nat) (ws : List LWord) : List Emit :=
  (ws.zipIdx).map fun (w, k) => { off := off + k, dest := dest, w := w }

/-- REQ with its operand cases in order (R84, R108, R109). Any REQ of a running point latches its group register before its own point moves
on, so that members of a later cycle of the tick use the scales of that tick (R65, R72). It sends no scale word: REQ has no field that
names a destination for one (DESIGN CHOICE, log 128). The width of a source that nothing has written counts as 64 columns. -/
def reqOp (e : Env) (t0 : Tile) : TileOut :=
  let srcChain := bit (wMod e.w) 7
  let keep := bit (wMod e.w) 6
  let n := bits (wMod e.w) 5 3
  let consume := bit (wMod e.w) 2
  let sb := bits (wSrcB e.w) 13 12
  let entry := bits (wImm e.w) 8 0
  let d := tget (fun _ => {}) t0.rdesc (bits (wSel e.w) 15 10)
  let t1 := sbufTrim (startGroup entry t0) sb (e.c - 2)
  let (g, t) := if d.running then groupReg t1 d.group e.tick else (0, t1)
  let src := if srcChain then chainAt t.chain e.c else accAt t.accs n e.c
  let clearV (t : Tile) : Tile :=
    if srcChain || keep then t
    else { t with accs := t.accs.map fun x => if x.n = n ∧ x.cyc ≤ e.c then { x with c := { x.c with v := false } } else x }
  let head := ((sbufHeld t sb (e.c - 2)).head?).map (·.w)
  let cols := if src.sums.length = 32 then 32 else 64
  let btag := blockTag e.tick d.nblk d.blk
  let old := tget (fun _ => ({} : ScaleEntry)) t.scal entry
  let dn := bits (wSel e.w) 15 10
  let putEntry (t : Tile) (x : ScaleEntry) : Tile :=
    if d.running then { t with scal := tset (fun _ => {}) t.scal entry x } else t
  let evs (x : ScaleEntry × Bool × Bool) : List (Nat × Nat × Nat) :=
    if d.running then (if x.2.1 then [(0x0010, entry, x.1.satWin)] else []) ++ (if x.2.2 then [(0x0011, entry, x.1.flatRun)] else [])
    else []
  let poisonOut (t : Tile) (fs : List TFault) (sus : Bool) : TileOut :=
    let pt : PointTick := { peak := 0, allPoison := true, allZero := false, sats := 0 }
    let x := countTick e.tick pt old
    { t := putEntry (clearV t) (deriveScale d.out.fmt d.out.zp (pushPeak pt x.1)), faults := fs, suspect := sus,
      emits := emitsFrom 2 (wDest e.w) ((outWords d.out.fmt (List.replicate cols 0)).map fun _ => poisonWord src.tick btag) }
  let pop (t : Tile) : Tile := if consume then sbufPop t sb else t
  if !src.v then
    if e.elastic then { t := t0, stall := true }
    else poisonOut (pop (tcount cInvalidRead 1 t)) [{ code := 0x0101, sev := 3, unit := n }] false
  else if src.p then poisonOut (pop t) [] false
  else if e.hw.ccUe then poisonOut (pop (tcount cCcUe 1 t)) [{ code := 0x010E, sev := 3, index := d.cci }] e.elastic
  else if e.hw.ssUe then
    let t := tcount cSsUe 1 t
    let o := poisonOut (pop t) [{ code := 0x010F, sev := 3, index := entry }] e.elastic
    { o with t := putEntry o.t { (tget (fun _ => {}) o.t.scal entry) with sCur := old.sSeed, fill := 0, hptr := 0 } }
  else
    match tagCase e.elastic head src.btag [fmtCode d.fmtIn] with
    | .wait => { t := t, stall := true }
    | .discard => { t := tcount cScaleSkew 1 (sbufPop t sb), stall := true }
    | .poison c => poisonOut (tcount cScaleSkew 1 (if c then sbufPop t sb else t)) [] false
    | .match_ sw =>
      if sw.p then poisonOut (pop t) [] false
      else
        let s := sw.data.toNat
        let sa := bits s 15 0
        let za := if d.fmtIn = .uint4 then bits s 19 16 else 0
        let so := if d.running then s16Resolve old.sFloor g else d.sStatic
        let row := if d.fmtIn = .uint4 then src.row else 0
        let col (j : Nat) : Int × Mult × Nat :=
          let k := ccWord t d.cci j
          let a := correctedSum (src.sums.getD j 0) row (ofTwos 32 (bits k 63 32)) d.k za (bits k 19 16)
          (a + ((e.hw.sumErr.filter (·.1 == j)).map (·.2)).foldl (· + ·) 0, buildMult d.out.fmt sa (bits k 15 0) so, bits k 15 0)
        let cs := (List.range cols).map col
        let resid (j : Nat) : Int :=
          let k := ccWord t d.cci j
          residueReq (src.sums.getD j 0) row (ofTwos 32 (bits k 63 32)) d.k za (bits k 19 16)
        match (cs.zipIdx).find? (fun (x, j) => x.1 % 15 != resid j) with
        | some (x, j) =>
          poisonOut (pop (tcount cResidue 1 t)) [{ code := 0x0103, sev := 3, index := j, detail := (x.1 % 15).toNat }] e.elastic
        | none =>
        let rs := (cs.zipIdx).map fun ((a, m, _), j) => requant d.out m.m m.s (genWord e d.out.rnd d.pnum j) a
        let sats := (rs.filter (·.2)).length
        let pt := pointTick (cs.map fun (a, _, sw) => some (a.natAbs, s16Val sa * s16Val sw)) (2 ^ 41) sats
        let x1 := cs.foldl (fun x (_, m, _) => countMult m x) old
        let x2 := countTick e.tick pt x1
        let x3 := deriveScale d.out.fmt d.out.zp (pushPeak pt x2.1)
        let t := putEntry (pop (clearV t)) x3
        let t := if d.running then t else (cs.foldl (fun t (_, m, _) => tmult m t) { t with descSat := cadd 32 t.descSat dn sats })
        let t := if e.hw.ccCe then tcount cCcCe 1 t else t
        let t := if e.hw.ssCe then tcount cSsCe 1 t else t
        { t := t, events := evs x2,
          ces := (if e.hw.ccCe then [cCcCe] else []) ++ (if e.hw.ssCe then [cSsCe] else []),
          emits := emitsFrom 2 (wDest e.w) ((outWords d.out.fmt (rs.map (·.1))).map fun l =>
            { data := l, v := true, p := false, k := false, tick := src.tick, btag := btag }) }

end Sys2Proof
end

