-- ==== Sys2Proof/Machine/Memory.lean ====
section
/-!
DEFINITION. The memory tile: address generators, reads and writes with their cases (04 R112 to R123).
-/

namespace Sys2Proof

/-- The region in use (R113). -/
def agBase (g : AddrGen) : Nat := if g.sel then g.base1 else g.base0

/-- A line as reads of cycle c see it (R120). -/
def memAt (t : Tile) (line c : Nat) : MLine :=
  match (t.memNew.filter (fun w => w.line == line && decide (w.vis ≤ c))).getLast? with
  | some w => w.l
  | none => tget (fun _ => {}) t.mem line

/-- The writes that every later read sees, put into the store. -/
def memCommit (c : Nat) (t : Tile) : Tile :=
  { t with mem := (t.memNew.filter (fun w => decide (w.vis ≤ c))).foldl (fun m w => tset (fun _ => {}) m w.line w.l) t.mem
           memNew := t.memNew.filter (fun w => !decide (w.vis ≤ c)) }

/-- The line of entry n of a FIFO or queue. The lines of a queue lie 8 apart, since its region lies in one bank (DEDUCED from R117, log 142). -/
def fifoLine (g : AddrGen) (n : Nat) : Nat := (agBase g + (if g.mode == .queue then 8 * n else n)) % 65536

/-- The generator at k. -/
def agAt (t : Tile) (k : Nat) : AddrGen := t.ags.getD k {}

/-- The tile with generator k replaced. -/
def setAg (t : Tile) (k : Nat) (g : AddrGen) : Tile :=
  { t with ags := modAt k (fun _ => g) (t.ags ++ List.replicate (k + 1 - t.ags.length) {}) }

/-- What a read access gives before the line is fetched. -/
inductive ReadPlan where
  | line (n expTag : Nat)     -- the line and the expected stored tag
  | zero                      -- a zero word that is not poisoned
  | poison (cnt : Nat) (code : Nat)   -- counter raised (28 for none), fault code (0 for none)
  | short (p : Bool)          -- a short history read (R115)
  | stall
  deriving DecidableEq, Repr

/-- The address of a read through generator g and the generator after it (R114 to R117, R121). -/
def agRead (e : Env) (g : AddrGen) (ofs : Bool) (off : Nat) (idx : LWord) : ReadPlan × AddrGen :=
  let b := agBase g
  match g.mode with
  | .plain =>
    if ofs then (.line ((b + off) % 65536) e.tag, g)
    else (.line ((b + g.ptr) % 65536) e.tag, { g with ptr := (((g.ptr : Int) + g.stride) % (max g.len 1 : Nat)).toNat })
  | .fifo | .queue =>
    if g.aux = 0 then
      if e.elastic then (.stall, g) else (.poison cFifoUnder 0x010A, g)
    else
      let g' := { g with ptr := (g.ptr + 1) % max g.depth 1, aux := g.aux - 1,
                         poisoned := g.poisoned && decide (g.aux - 1 ≠ 0) }
      if g.poisoned then (.poison 28 0, g')
      else (.line (fifoLine g g.ptr) ((e.tag + 256 - g.lag % 256) % 256), g')
  | .history =>
    let d := bits off 15 6
    let l := bits off 5 0
    if g.aux < d then (.short g.short, g)
    else
      let slot := (g.ptr + max g.depth 1 - d % max g.depth 1) % max g.depth 1
      (.line ((b + g.stride.toNat * slot + l) % 65536) ((e.tag + 256 - d % 256) % 256), g)
  | .lut =>
    -- an index of 0xFFFF, which only gather gives a meaning, reads the same zero word (DESIGN CHOICE, log 130)
    let i := bits idx.data.toNat (16 * (off % 16) + 15) (16 * (off % 16))
    if idx.p then (.poison 28 0, g)
    else if i = 0xFFFF then (.zero, g)
    else if g.len ≤ i then (.poison cRangeErr 0, g)
    else (.line ((b + 8 * i) % 65536) e.tag, g)
  | .gather =>
    let lat := if g.ptr = 0 then idx else g.latch
    let i := bits lat.data.toNat (16 * g.ptr + 15) (16 * g.ptr)
    let g' := { g with latch := lat, ptr := (g.ptr + 1) % 16 }
    if lat.p then (.poison 28 0, g')
    else if i = 0xFFFF then (.zero, g')
    else if g.len ≤ i then (.poison cRangeErr 0, g')
    else (.line ((b + 8 * i) % 65536) e.tag, g')

/-- Raise a counter unless its number is 28. -/
def tcountOpt (k : Nat) (t : Tile) : Tile := if k = 28 then t else tcount k 1 t

/-- One read: side 0 is read A, side 1 is read B; busy lists the banks already used. Answers the word, the bank used
and the outcome (R119 to R121). -/
def readAccess (e : Env) (side : Nat) (ag : Nat) (ofs : Bool) (off : Nat) (idx : LWord) (busy : List Nat) (t : Tile) :
    TileOut × LWord × List Nat :=
  let g := agAt t ag
  let (plan, g') := agRead e g ofs off idx
  let t1 := setAg t ag g'
  let bt := e.free (100 + side) % 64
  let word (d : Line) (p : Bool) : LWord := { data := if p then 0#256 else d, v := true, p := p, tick := e.tag, btag := bt }
  let credit := if g.mode == .queue && plan != .stall then [ag] else []
  match plan with
  | .stall => ({ t := t, stall := true, waitAg := some ag }, {}, busy)
  | .zero => ({ t := t1, credits := credit }, word 0#256 false, busy)
  | .short p => ({ t := tcount cHistShort 1 t1, credits := credit }, word 0#256 p, busy)
  | .poison k code =>
    ({ t := tcountOpt k t1, credits := credit,
       faults := if code = 0 then [] else [{ code := code, sev := 3, unit := ag }] }, word 0#256 true, busy)
  | .line n exp =>
    let m := memAt t n e.c
    let bank := n % 8
    let chk := bit (wTagchk e.w) (5 - side)
    let t2 := if e.hw.memCe.contains side then tcount cMemCe 1 t1 else t1
    let ces := if e.hw.memCe.contains side then [cMemCe] else []
    if busy.contains bank then
      ({ t := tcount cBankErr 1 t2, credits := credit, ces := ces, suspect := e.elastic,
         faults := [{ code := 0x010C, sev := 3, unit := bank, index := n / 8 }] }, word 0#256 true, busy)
    else if e.hw.memUe.contains side then
      ({ t := tcount cMemUe 1 t2, credits := credit, ces := ces, suspect := e.elastic,
         faults := [{ code := 0x0108, sev := 3, unit := bank, index := n / 8 }] }, word 0#256 true, bank :: busy)
    else if chk && m.tick != exp then
      ({ t := tcount cTagErr 1 t2, credits := credit, ces := ces, suspect := e.elastic,
         faults := [{ code := 0x0102, sev := 3, unit := bank, index := n / 8, detail := exp * 256 + m.tick }] },
       word 0#256 true, bank :: busy)
    else ({ t := t2, credits := credit, ces := ces }, word m.data m.p, bank :: busy)

/-- One write (R114, R115, R119, R121). LUT and gather generators, to which the spec gives no write addressing, write as plain ones do; a
write dropped by a bank collision has moved its generator on all the same (DESIGN CHOICE, log 131). -/
def writeAccess (e : Env) (ag : Nat) (busy : List Nat) (t : Tile) : TileOut :=
  let g := agAt t ag
  let inp := operand t e.c (wSrcA e.w)
  let badTag := bit (wTagchk e.w) 7 && inp.v && inp.tick != e.tag
  let inv := !inp.v
  if inv && e.elastic then { t := t, stall := true }
  else
    let p := inp.p || badTag || inv
    let fs : List TFault :=
      (if inv then [{ code := 0x0101, sev := 3, unit := bits (wSrcA e.w) 15 12 }] else []) ++
      (if badTag then [{ code := 0x0102, sev := 3, unit := bits (wSrcA e.w) 15 12, detail := e.tag * 256 + inp.tick }] else [])
    let t := if inv then tcount cInvalidRead 1 t else t
    let t := if badTag then tcount cTagErr 1 t else t
    let l : MLine := { data := if p then 0#256 else inp.data, p := p, tick := inp.tick }
    let put (n : Nat) (g' : AddrGen) : TileOut :=
      if busy.contains (n % 8) then
        { t := tcount cBankErr 1 (setAg t ag g'), suspect := e.elastic,
          faults := fs ++ [{ code := 0x010C, sev := 3, unit := n % 8, index := n / 8 }] }
      else { t := { (setAg t ag g') with memNew := t.memNew ++ [{ vis := e.c + 2, line := n, l := l }] }, suspect := e.elastic && badTag, faults := fs }
    match g.mode with
    | .plain | .lut | .gather =>
      put ((agBase g + g.ptr) % 65536) { g with ptr := (((g.ptr : Int) + g.stride) % (max g.len 1 : Nat)).toNat }
    | .fifo | .queue =>
      if g.depth ≤ g.aux then
        if e.elastic then { t := t, stall := true }
        else { t := tcount cFifoOvf 1 (setAg t ag { g with poisoned := true }),
               faults := fs ++ [{ code := 0x010B, sev := 3, unit := ag }] }
      else put (fifoLine g ((g.ptr + g.aux) % max g.depth 1)) { g with aux := g.aux + 1 }
    | .history => put ((agBase g + g.stride.toNat * g.ptr + g.wc) % 65536) { g with wc := g.wc + 1 }

/-- The first destination of a set: the highest of bits [15:10] (log 14). -/
def firstDest (d : Nat) : Nat :=
  match [15, 14, 13, 12, 11, 10].find? (fun k => d.testBit k) with
  | some k => 2 ^ k + (if k = 10 then d % 1024 else 0)
  | none => 0

/-- The memory operations: which of read A, read B and the write the opcode makes (R118). Two reads share one
destination set: read A takes its first destination, read B the others (DESIGN CHOICE, log 14). -/
def memoryOp (ra rb wr : Bool) (e : Env) (t0 : Tile) : TileOut :=
  let t := memCommit e.c t0
  let idx0 := operand t e.c (wSrcB e.w)
  let idxBad := bit (wTagchk e.w) 6 && idx0.v && idx0.tick != e.tag
  let usesIdx (k : Nat) : Bool := let m := (agAt t k).mode; m == .lut || (m == .gather && (agAt t k).ptr == 0)
  let agA := bits (wMod e.w) 7 6
  let agB := bits (wMod e.w) 5 4
  let idxUsed := (ra && usesIdx agA) || (rb && usesIdx agB)
  let idxInv := idxUsed && !idx0.v
  if idxInv && e.elastic then { t := t0, stall := true }
  else
    let idx := if idxBad || idxInv then { idx0 with p := true } else idx0
    let fs : List TFault :=
      (if idxUsed && idxInv then [{ code := 0x0101, sev := 3, unit := bits (wSrcB e.w) 15 12 }] else []) ++
      (if idxUsed && idxBad then [{ code := 0x0102, sev := 3, unit := bits (wSrcB e.w) 15 12,
                                    detail := e.tag * 256 + idx0.tick }] else [])
    let t := if idxUsed && idxInv then tcount cInvalidRead 1 t else t
    let t := if idxUsed && idxBad then tcount cTagErr 1 t else t
    let (oa, wa, ba) := if ra then readAccess e 0 agA (bit (wMod e.w) 1) (wImm e.w) idx [] t
      else (({ t := t } : TileOut), ({} : LWord), [])
    let (ob, wb, bb) := if rb then readAccess e 1 agB (bit (wMod e.w) 0) (wSel e.w) idx ba oa.t
      else (({ t := oa.t } : TileOut), ({} : LWord), ba)
    let ow := if wr then writeAccess e (bits (wMod e.w) 3 2) bb ob.t else { t := ob.t }
    if oa.stall || ob.stall || ow.stall then { t := t0, stall := true, waitAg := oa.waitAg.or ob.waitAg }
    else
      let d := wDest e.w
      let dA := if rb then firstDest d else d
      let dB := d - firstDest d
      { t := ow.t
        emits := (if ra then [{ off := 3, dest := dA, w := wa }] else []) ++
                 (if rb then [{ off := 3, dest := dB, w := wb }] else [])
        faults := fs ++ oa.faults ++ ob.faults ++ ow.faults
        ces := oa.ces ++ ob.ces
        credits := oa.credits ++ ob.credits
        suspect := oa.suspect || ob.suspect || ow.suspect || (e.elastic && idxUsed && idxBad) }

/-- A tick edge for the generators of a fixed-path tile; history advances only on counted ticks (R114, R115). -/
def agTickEdge (counted : Bool) (g : AddrGen) : AddrGen :=
  match g.mode with
  | .plain | .gather => { g with ptr := 0 }
  | .history =>
    if counted then { g with ptr := (g.ptr + 1) % max g.depth 1, aux := min (g.aux + 1) (g.depth - 1), wc := 0 } else g
  | _ => g

/-- The start of a pass for the generators of a tier-two tile (R114). -/
def agPassStart (g : AddrGen) : AddrGen :=
  match g.mode with
  | .plain | .gather => { g with ptr := 0 }
  | _ => g

/-- ARM for a generator: history cleared (R115). -/
def agArm (g : AddrGen) : AddrGen := if g.mode == .history then { g with ptr := 0, aux := 0, wc := 0 } else g

/-- A line written into a queue or FIFO by a credited transfer, none when it is full (R117, R121). -/
def queuePut (t : Tile) (ag : Nat) (l : MLine) : Option Tile :=
  let g := agAt t ag
  if g.depth ≤ g.aux then none
  else
    let n := fifoLine g ((g.ptr + g.aux) % max g.depth 1)
    some { (setAg t ag { g with aux := g.aux + 1 }) with mem := tset (fun _ => {}) t.mem n l }

end Sys2Proof
end

