-- ==== Sys2Proof/Machine/ImageWords.lean ====
section
/-!
DEFINITION. What the loader asks of each word, descriptor and generator of an image by itself: opcodes, frame fields, formats and their
roles (02 R35; 04 R102 to R119; 05 R129 to R150; 06 R155 to R157).
-/

namespace Sys2Proof.Machine

/-- The opcodes of a class; fixed says whether the section is a fixed-path one (R149, R181). -/
def classOps (k : TileClass) (fixed : Bool) : List Nat :=
  match k with
  | .matrix => [0x00, 0x01, 0x02, 0x08, 0x3F]
  | .memory => [0x40, 0x41, 0x42, 0x43, 0x44, 0x7F]
  | .function => [0x80, 0x81, 0x88, 0x89, 0x90, 0x91, 0x92, 0x93, 0x94, 0x98, 0xA0, 0xA1, 0xA8, 0xA9, 0xAA, 0xB0, 0xB1, 0xB8, 0xC0, 0xC8,
      0xD0, 0xD1, 0xD2, 0xDF]
  | .ingest => if fixed then [0xE0, 0xFF] else [0xE1, 0xFF]
  | .egress => if fixed then [0xE8, 0xFF] else [0xEA, 0xFF]
  | .hbmPort => if fixed then [0xFF] else [0xF0, 0xF1, 0xF2, 0xFF]
  | .fabricPort => if fixed then [0xF8, 0xF9, 0xFF] else [0xFA, 0xFB, 0xFF]

/-- The declared latency of each opcode (R103, R118, R130, R149, R300). -/
def declaredLatency : List (Nat × Nat) :=
  [(0x00, 4), (0x01, 4), (0x02, 1), (0x08, 2), (0x40, 3), (0x41, 2), (0x42, 3), (0x43, 3), (0x44, 3), (0x80, 1), (0x81, 3), (0x88, 1), (0x89, 1),
   (0x90, 1), (0x91, 1), (0x92, 1), (0x93, 1), (0x94, 2), (0x98, 2), (0xA0, 1), (0xA1, 2), (0xA8, 6), (0xA9, 12), (0xAA, 3), (0xB0, 8), (0xB1, 6),
   (0xB8, 8), (0xC0, 4), (0xC8, 2), (0xD0, 1), (0xD1, 1), (0xD2, 1), (0xE0, 2), (0xE1, 2), (0xE8, 2), (0xEA, 2), (0xF0, 1), (0xF1, 1), (0xF2, 1),
   (0xF8, 2), (0xF9, 2), (0xFA, 2), (0xFB, 2)]

def latencyOf (op : Nat) : Nat := ((declaredLatency.find? fun e => e.1 == op).map (·.2)).getD 0

/-- Opcodes whose modifier bit [119] (STATIC of R131, R132, R135) makes a new scale, and those that always make one (R130: N). -/
def isN (w : BitVec 128) : Bool :=
  let op := wOpcode w
  op == 0x98 || op == 0xB1 || op == 0xB8 || ((op == 0x80 || op == 0x81 || op == 0x94) && bit (wMod w) 7)

/-- The opcodes that write, read A and read B of a memory tile (R118). -/
def memReadsA (op : Nat) : Bool := op == 0x40 || op == 0x42 || op == 0x43 || op == 0x44
def memReadsB (op : Nat) : Bool := op == 0x43 || op == 0x44
def memWrites (op : Nat) : Bool := op == 0x41 || op == 0x42 || op == 0x44

/-- The generator of read A, read B and the write (R119). -/
def agA (w : BitVec 128) : Nat := bits (wMod w) 7 6
def agB (w : BitVec 128) : Nat := bits (wMod w) 5 4
def agW (w : BitVec 128) : Nat := bits (wMod w) 3 2

def imAg (t : ImTile) (k : Nat) : AddrGen := t.ags.getD k {}

/-- A generator whose reads take an index word (R116). -/
def indexed (g : AddrGen) : Bool := g.mode == .lut || g.mode == .gather

/-- Some read of a memory word takes the index word (R119). -/
def readsIndex (t : ImTile) (w : BitVec 128) : Bool :=
  (memReadsA (wOpcode w) && indexed (imAg t (agA w))) || (memReadsB (wOpcode w) && indexed (imAg t (agB w)))

/-- The word has an operand A, or an operand B (R104, R119, R129, R150). -/
def usesA (w : BitVec 128) : Bool :=
  let op := wOpcode w
  op == 0 || op == 1 || memWrites op || (0x80 ≤ op && op ≤ 0xD2) || [0xE8, 0xEA, 0xF0, 0xF1, 0xF2, 0xF8, 0xFA].contains op
def usesB (t : ImTile) (w : BitVec 128) : Bool :=
  let op := wOpcode w
  ((op == 0x88 || op == 0x89) && bit (wMod w) 7) || ((op == 0x90 || op == 0x91) && !bit (wMod w) 7) ||
  [0x98, 0xA0, 0xAA, 0xB1, 0xD1, 0xF1].contains op || readsIndex t w

/-- The immediate as a destination set: of the scale word, or the alternative set of ROUTE (R128, R146, R150, R157). -/
def immDest (w : BitVec 128) : Option Nat :=
  let op := wOpcode w
  if op = 0x98 ∨ op = 0xB1 ∨ op = 0xB8 ∨ op = 0xD2 ∨ (op = 0x94 ∧ bit (wMod w) 7) ∨ (op = 0xE0 ∧ bit (wMod w) 7) then some (wImm w)
  else if (op = 0x80 ∨ op = 0x81) ∧ bit (wMod w) 7 then some (wImm w / 4096 * 4096)
  else none

/-- A route directive of side k (0 north, 1 east, 2 south, 3 west) is allowed at a tile (R155). -/
def directiveOk (cls : Option TileClass) (d k : Nat) : Bool :=
  decide (d < 14) && d != k + 1 &&
  (if d = 7 then cls != some .matrix && cls != some .function else true) &&
  (if 10 ≤ d then (match cls with | some .matrix => true | some .function => decide (d ≤ 11) | _ => false) else true)

/-- The directive of a side. -/
def sideDir (dirs side : Nat) : Nat := bits dirs (15 - 4 * side) (12 - 4 * side)

/-- An operand field (R156): a kind that is not reserved, [11:0] zero, and the access point only where there is one. -/
def srcOk (cls : Option TileClass) (f : Nat) : Bool :=
  decide (bits f 15 12 ≤ 8) && bits f 11 0 == 0 && (bits f 15 12 != 7 || (cls != some .matrix && cls != some .function))

/-- What R104 and R129 let an opcode use of its fields: the bits of MOD, IMM, SEL and TAGCHK it has a meaning for, and whether it has a
destination set. -/
structure FieldUse where
  mod : Nat
  imm : Nat := 0
  sel : Nat := 0
  tag : Nat := 0
  dest : Bool := true

/-- The fields of the matrix and special-function opcodes; two: the word has two operands. Every special-function word names its input
format in SEL [31:28]. -/
def fieldUse (w : BitVec 128) (two : Bool) : Option FieldUse :=
  let op := wOpcode w
  let top := bit (wMod w) 7
  let tag := if two then 0xC0 else 0
  match op with
  | 0x00 => some { mod := 0x80, imm := 0xFFFF, sel := 0xFF00, tag := 0x80, dest := false }
  | 0x01 => some { mod := 0xF8, imm := 0xFFFF, sel := 0xFF00, tag := 0x80, dest := false }
  | 0x02 => some { mod := 0, dest := false }
  | 0x08 => some { mod := 0xFC, imm := 0x1FF, sel := 0xFC00 }
  | 0x80 | 0x81 => some { mod := 0x81, imm := if top then 0xFFFF else 0x0FFF, sel := if top then 0xFF80 else 0xF080 }
  | 0x88 => some { mod := 0x8E, imm := if top then 0 else 0xFFFF, sel := 0xF000, tag := tag }
  | 0x89 => some { mod := 0x8F, imm := if top then 0 else 0xFFFF, sel := 0xF080, tag := tag }
  | 0x90 | 0x91 => some { mod := 0x80, imm := if top then 0xFFFF else 0, sel := 0xF000, tag := tag }
  | 0x92 => some { mod := 0, imm := 0xF, sel := 0xF000 }
  | 0x93 => some { mod := 0x06, imm := 0xF, sel := 0xF000 }
  | 0x94 => some { mod := if top then 0xF9 else 0xF8, imm := if top then 0xFFFF else 0, sel := if top then 0xFF80 else 0xF000 }
  | 0x98 => some { mod := 0x03, imm := 0xFFFF, sel := 0xFFC0, tag := tag }
  | 0xA0 => some { mod := 0, sel := 0xF000, tag := tag }
  | 0xA1 => some { mod := 0, sel := 0xF000 }
  | 0xA8 => some { mod := 0xBE, imm := 0xF, sel := 0xF000 }
  | 0xA9 => some { mod := 0x80, imm := 0xF, sel := 0xF000 }
  | 0xAA => some { mod := 0x80, sel := 0xF000, tag := tag }
  | 0xB0 => some { mod := 0x01, sel := 0xF080 }
  | 0xB1 => some { mod := 0x01, imm := 0xFFFF, sel := 0xFF80, tag := tag }
  | 0xB8 => some { mod := 0x01, imm := 0xFFFF, sel := 0xFF80 }
  | 0xC0 => some { mod := 0, imm := 0xFFFF, sel := 0xF000 }
  | 0xC8 => some { mod := 0xC0, sel := 0xF000, dest := bit (wMod w) 6 }
  | 0xD0 => some { mod := 0x80, imm := if top then 0xFFFF else 0xFF, sel := 0xF000, dest := false }
  | 0xD1 => some { mod := 0, sel := 0xF000, tag := tag }
  | 0xD2 => some { mod := 0, imm := 0xFFFF, sel := 0xF000 }
  | _ => none

/-- No bit of v lies outside a mask. -/
def within (v mask : Nat) : Bool := v &&& mask == v

/-- The offset of an access is one its mode takes (R114 to R116, R119). -/
def offsetOk (g : AddrGen) (ofs : Bool) (off : Nat) : Bool :=
  match g.mode with
  | .plain => ofs || off == 0
  | .history => ofs
  | .lut => !ofs && decide (off < 16)
  | _ => !ofs && off == 0

/-- The fields of a memory word (R119). -/
def memFieldsOk (fixed : Bool) (t : ImTile) (w : BitVec 128) : Bool :=
  let op := wOpcode w
  (memWrites op || wSrcA w == 0) && (readsIndex t w || wSrcB w == 0) &&
  (if memReadsA op then offsetOk (imAg t (agA w)) (bit (wMod w) 1) (wImm w) else !bit (wMod w) 1 && wImm w == 0) &&
  (if memReadsB op then offsetOk (imAg t (agB w)) (bit (wMod w) 0) (wSel w) else !bit (wMod w) 0 && wSel w == 0) &&
  bits (wTagchk w) 3 0 == 0 && (fixed || bits (wTagchk w) 5 4 == 0) && (memReadsA op || wDest w == 0)

/-- What single opcodes ask beside (R102, R133 to R138, R145, R146). -/
def opcodeOk (fixed : Bool) (row : Nat) (w : BitVec 128) : Bool :=
  let m := wMod w
  match wOpcode w with
  | 0x00 => row != 9 && (!bit m 7 || row != 2)
  | 0x01 => !bit m 7 || row != 2
  | 0x08 => decide (bits (wSrcB w) 15 12 ≤ 3) && bits (wSrcB w) 11 0 == 0
  | 0x81 => wImm w % 32 == 0 || (bit m 7 && wImm w % 4096 % 32 == 0)
  | 0x88 | 0x89 => decide (bits m 3 1 ≤ 5)
  | 0x93 => decide (bits m 2 1 ≤ 1)
  | 0x94 =>
    let o := bits m 6 3
    let i := bits (wSel w) 15 12
    (i == 10 && (o == 9 || o == 8)) || (i == 9 && o == 8)
  | 0xA8 => decide (1 ≤ bits m 5 1 ∧ bits m 5 1 ≤ 16)
  | 0xD0 => !(fixed && bit m 7)
  | 0xD2 =>
    let d := wDest w
    let e := wImm w
    bits d 15 12 &&& bits e 15 12 == 0 && !(bit d 11 && bit e 11) && !(bit d 10 && bit e 10 && bit d 9 == bit e 9)
  | _ => true

/-- Frame fields of a word: operand kinds, reserved bits, directives, fields its opcode does not use, and what a repeat word must leave
zero (R104, R119, R129, R155 to R157, R182). -/
def fieldsOk (fixed : Bool) (t : ImTile) (w : BitVec 128) : Bool :=
  let cls := siteClass t.col t.row
  let op := wOpcode w
  let dirs := (List.range 4).map (sideDir (wRoute w))
  let caps := dirs.filter (8 ≤ ·)
  dirs.zipIdx.all (fun (d, k) => directiveOk cls d k) && caps.length == caps.eraseDups.length &&
  (if isIdle op then wMod w == 0 && wSrcA w == 0 && wSrcB w == 0 && wDest w == 0 && wTagchk w == 0
    else
      srcOk cls (wSrcA w) && (op == 8 || srcOk cls (wSrcB w)) && bits (wDest w) 8 0 == 0 &&
      (match immDest w with | some d => bits d 8 0 == 0 | none => true) &&
      (match fieldUse w (usesB t w) with
        | some u => within (wMod w) u.mod && within (wImm w) u.imm && within (wSel w) u.sel && within (wTagchk w) u.tag &&
            (u.dest || wDest w == 0) && (usesA w || wSrcA w == 0) && (op == 8 || usesB t w || wSrcB w == 0)
        | none => true) &&
      (if 0x40 ≤ op ∧ op < 0x7F then memFieldsOk fixed t w else true) && opcodeOk fixed t.row w)

/-- Two operands of a word meet: then a fixed-path word compares their tick tags; ADD and SUB compare the block tags of their operands, and
reads of FIFO and history lines the stored tags (R27, R104, R119, R129, R134). -/
def tagBitsOk (fixed : Bool) (t : ImTile) (w : BitVec 128) : Bool :=
  let op := wOpcode w
  let joins := (op == 0 && bit (wMod w) 7) || (op == 1 && (bit (wMod w) 7 || !bit (wMod w) 6)) ||
    (0x80 ≤ op && op ≤ 0xD1 && usesB t w)
  let stored (k : Nat) : Bool := (imAg t k).mode == .fifo || (imAg t k).mode == .history
  (!fixed || !joins || bit (wTagchk w) 7) &&
  (!((op == 0x90 || op == 0x91) && usesB t w) || bit (wTagchk w) 6) &&
  (!fixed || !memReadsA op || !stored (agA w) || bit (wTagchk w) 5) &&
  (!fixed || !memReadsB op || !stored (agB w) || bit (wTagchk w) 4)

/-- Formats an activation and a weight may have (R35). -/
def activations : List Nat := [0, 1, 2, 4, 5, 6, 7, 8]
def weightFormats : List Nat := [0, 1, 2, 3, 4, 5, 6, 7, 8]

/-- Input formats of a special-function opcode (R130). -/
def inputFormats (op : Nat) : List Nat :=
  let four := [0, 1, 2, 4]
  match op with
  | 0x80 | 0xA8 | 0xA9 | 0xC0 | 0xC8 => four
  | 0x81 | 0xB0 | 0xB1 | 0xB8 => four ++ [8]
  | 0x90 | 0x91 | 0x92 | 0x93 => [9]
  | 0x94 => [9, 10]
  | 0x88 | 0x89 | 0x98 | 0xA0 | 0xA1 => four ++ [8, 9]
  | _ => List.range 11

/-- The formats a word names, in their roles (R35, R130). -/
def formatsOk (w : BitVec 128) : Bool :=
  let op := wOpcode w
  if op ≤ 1 then activations.contains (bits (wSel w) 15 12) && weightFormats.contains (bits (wSel w) 11 8)
  else if 0x80 ≤ op ∧ op ≤ 0xD2 then (inputFormats op).contains (bits (wSel w) 15 12)
  else true

/-- The formats a descriptor names (R35, R107, R127). -/
def descFormatsOk (fn : Bool) (d : ReqDesc) : Bool :=
  fmtOutput d.out.fmt && (if fn then d.fmtIn != .fp4b else activations.contains (fmtCode d.fmtIn))

/-- A generator of an image: its mode in the section's kind, and the ranges of its fields (R113, R114, R116, R117). -/
def agOk (fixed : Bool) (g : AddrGen) : Bool :=
  decide (g.base0 < 65536 ∧ g.base1 < 65536 ∧ g.len < 65536 ∧ g.lag < 256) && (g.mode == .fifo || g.lag == 0) &&
  match g.mode with
  | .plain => g.depth == 0 && decide (-32768 ≤ g.stride ∧ g.stride < 32768)
  | .fifo => g.stride == 0 && decide (1 ≤ g.depth ∧ g.depth < 65536)
  | .history => fixed && decide (1 ≤ g.stride ∧ g.stride ≤ 64 ∧ 2 ≤ g.depth ∧ g.depth ≤ 1024)
  | .lut | .gather => g.stride == 0 && g.depth == 0
  | .queue => !fixed && g.stride == 0 && decide (1 ≤ g.depth)

/-- A requantisation descriptor (R54, R107, R127). -/
def rdescOk (fn : Bool) (d : ReqDesc) : Bool :=
  outSpecOk d.out && decide (d.cci < 96 ∧ d.group < 64 ∧ d.pnum < 65536) &&
  (if d.running then !fn && d.sStatic == 0 && !(d.out.fmt == .uint4 && d.out.zp == 15) else s16Normal d.sStatic) &&
  (if fn then d.k == 0 && d.cci == 0 && d.group == 0 else decide (1 ≤ d.k ∧ d.k ≤ 16384))

/-- The descriptor of a REQ word. -/
def reqDesc (t : ImTile) (w : BitVec 128) : ReqDesc := ((t.rdesc.find? fun e => e.1 == bits (wSel w) 15 10).map (·.2)).getD {}
/-- The descriptor of a special-function word. -/
def fnDesc (t : ImTile) (w : BitVec 128) : ReqDesc := ((t.rdesc.find? fun e => e.1 == bits (wSel w) 11 8).map (·.2)).getD {}

/-- A REQ of a static point names entry 0 (R107). -/
def reqEntryOk (t : ImTile) (w : BitVec 128) : Bool := wOpcode w != 8 || (reqDesc t w).running || bits (wImm w) 8 0 == 0

/-- Units of the weight store that a set of two formats takes (R97). -/
def setSize (fa fw : Fmt) : Nat := reductionOf fa fw * mvmCols fw * fmtWidth fw
def setUnits (w : WeightSet) : Nat := ceilDiv (setSize w.fa w.fw) 4096

/-- A weight set's codes are valid (R61). -/
def weightsOk (w : WeightSet) : Bool :=
  let t : Tile := { ws := tsetAll (fun _ => 0#64) [] 0 w.words }
  (List.range (64 * w.words.length / fmtWidth w.fw)).all fun i => (codeVal w.fw (wsElem t 0 (i * fmtWidth w.fw) (fmtWidth w.fw))).isSome

/-- A weight set as the loader accepts it: its length, valid codes, place, and a block exponent for each block of 32 weights of each column
where the format has them, none of them 0xFF (R42, R61, R97). -/
def weightSetOk (w : WeightSet) : Bool :=
  64 * w.words.length == setSize w.fa w.fw && weightsOk w && w.unit % setUnits w == 0 && decide (w.unit + setUnits w ≤ 384) &&
  w.exps.length == (if w.fw = .fp4b then mvmCols w.fw * (reductionOf w.fa w.fw / 32) else 0)

/-- The set that an MVM or MVM_ACC names: WBASE is its first unit, and its formats give the mode of the word (R46, R97). -/
def setOf (t : ImTile) (w : BitVec 128) : Option WeightSet :=
  let m := mvmWord w
  t.weights.find? fun x => x.unit == m.wbase && some x.fw == m.fw && (m.fa.any fun a => reductionOf a x.fw == reductionOf x.fa x.fw)

end Sys2Proof.Machine
end

