-- ==== Sys2Proof/Machine/ImageFlow.lean ====
section
/-!
DEFINITION. The loader's recomputation of where every word of a schedule comes from and when it arrives, from the schedule words and the
declared latencies (07 R175, R185), and the checks of ports, registers and lanes that rest on it (06 R155 to R165). A cycle of a
fixed-path section is counted from a tick edge, and what a schedule does repeats every II; a cycle of a tier-two section is counted from the
start of the pass.
-/

namespace Sys2Proof.Machine

/-- A list in the order of le, equal elements as they stood. -/
def insertBy {α : Type} (le : α → α → Bool) (x : α) : List α → List α
  | [] => [x]
  | y :: l => if le x y then x :: y :: l else y :: insertBy le x l
def sortBy {α : Type} (le : α → α → Bool) (l : List α) : List α := l.foldr (insertBy le) []

/- Sites, lanes and access points (R154, R161). -/

/-- The site next to a side: 0 north, 1 east, 2 south, 3 west. -/
def neighbour (col row side : Nat) : Option (Nat × Nat) :=
  match side with
  | 0 => if row = 0 then none else some (col, row - 1)
  | 1 => if 11 ≤ col then none else some (col + 1, row)
  | 2 => if 11 ≤ row then none else some (col, row + 1)
  | _ => if col = 0 then none else some (col - 1, row)

/-- Lanes an access point stands on, with its access number (R161). -/
def lanesOf (col row : Nat) : List (Nat × Nat) :=
  (if 2 ≤ row ∧ row ≤ 9 ∧ (col < 2 ∨ 10 ≤ col) then [(row - 2, if col < 2 then col else col - 8)] else []) ++
  (if col < 2 then (rangeFrom 8 4).map fun l => (l, 2 * row + col)
   else if 10 ≤ col then (rangeFrom 12 4).map fun l => (l, 2 * row + (col - 10)) else [])

/-- The site of an access number on a lane. -/
def accessSite (lane a : Nat) : Nat × Nat :=
  if lane < 8 then (if a < 2 then a else a + 8, lane + 2) else if lane < 12 then (a % 2, a / 2) else (10 + a % 2, a / 2)

/-- A site of an image. -/
structure Spot where
  vq : Nat
  col : Nat
  row : Nat
  deriving DecidableEq, Repr, Inhabited

def spotOf (t : ImTile) : Spot := { vq := t.vq, col := t.col, row := t.row }

/-- The image tile of a site. -/
def imTile? (img : Image) (p : Spot) : Option ImTile := img.tiles.find? fun t => t.vq == p.vq && t.col == p.col && t.row == p.row
def imTileOf (img : Image) (p : Spot) : ImTile := (imTile? img p).getD { vq := p.vq, col := p.col, row := p.row }

/- Cycles (R181, R182). -/

/-- The cycles after which a schedule repeats: II, or none in tier two. -/
def isFixedIm (img : Image) : Bool := img.kind == 0
def period (img : Image) : Nat := max img.ii 1

/-- The word of a list that covers a phase, with its index and first phase. -/
def scanWords : List (BitVec 128) → Nat → Nat → Nat → Option (Nat × Nat × BitVec 128)
  | [], _, _, _ => none
  | w :: l, i, st, ph => if ph < st + wSpan w then some (i, st, w) else scanWords l (i + 1) (st + wSpan w) ph

/-- The word that a tile executes at cycle x: index, first phase, word. -/
def wordAt (img : Image) (t : ImTile) (x : Int) : Option (Nat × Nat × BitVec 128) :=
  if isFixedIm img then scanWords t.words 0 0 (x % period img).toNat
  else if 0 ≤ x then scanWords t.words 0 0 x.toNat else none

/-- The word that issues an operation at cycle x. -/
def issueAt (img : Image) (t : ImTile) (x : Int) : Option (Nat × Nat × BitVec 128) :=
  (wordAt img t x).filter fun e => !isIdle (wOpcode e.2.2)

/-- Every word of a tile: index, first phase, word. -/
def placed (t : ImTile) : List (Nat × Nat × BitVec 128) :=
  (t.words.foldl (fun (a : List (Nat × Nat × BitVec 128) × Nat) w => (a.1 ++ [(a.1.length, a.2, w)], a.2 + wSpan w)) ([], 0)).1

/-- The operations of a tile. -/
def issues (t : ImTile) : List (Nat × Nat × BitVec 128) := (placed t).filter fun e => !isIdle (wOpcode e.2.2)

/-- The last cycle not above lim in which a word of first phase p issues. -/
def lastIssue (img : Image) (p : Nat) (lim : Int) : Option Int :=
  if isFixedIm img then some (lim - (lim - p) % period img) else if (p : Int) ≤ lim then some p else none

/-- STAGE and MIXED of a word. -/
def stageAt (t : ImTile) (i : Nat) : Nat := bits (t.stage.getD i 0) 10 0
def mixedAt (t : ImTile) (i : Nat) : Bool := bit (t.stage.getD i 0) 15

/-- The tick that a word issued at cycle x acts for, counted from the tick whose edge is cycle 0. -/
def tickAt (img : Image) (t : ImTile) (i p : Nat) (x : Int) : Int :=
  if isFixedIm img then (x - p) / period img - stageAt t i else 0

/- Accumulations (R49, R101, R102). -/

/-- One MVM or MVM_ACC of an accumulation: its tile, index, first phase, word, and the cycle of its issue. -/
structure MacStep where
  t : ImTile
  i : Nat
  p : Nat
  w : BitVec 128
  y : Int
  deriving DecidableEq, Repr, Inhabited

/-- The steps whose products are in the chain word on the chain input of a site at cycle x: from an MVM above issued 5 cycles before, with
what its own chain input brought, or through a CHAIN_PASS. -/
def chainSteps (fuel : Nat) (img : Image) (s : Spot) (x : Int) : Option (List MacStep) :=
  match fuel with
  | 0 => none
  | k + 1 =>
    if s.row = 0 then none else
    let n : Spot := { s with row := s.row - 1 }
    match imTile? img n with
    | none => none
    | some t =>
      match (issueAt img t (x - 5)).filter (fun e => wOpcode e.2.2 == 0) with
      | some (i, p, w) =>
        let st : MacStep := { t := t, i := i, p := p, w := w, y := x - 5 }
        if (mvmWord w).cin then (chainSteps k img n (x - 2)).map (· ++ [st]) else some [st]
      | none =>
        if (issueAt img t (x - 2)).any (fun e => wOpcode e.2.2 == 2) then chainSteps k img n (x - 2) else none

/-- The last MVM_ACC into accumulator n of a tile that issued at or before cycle lim. -/
def lastAcc (img : Image) (t : ImTile) (n : Nat) (lim : Int) : Option MacStep :=
  (issues t).foldl (fun best e =>
    if wOpcode e.2.2 == 1 && (mvmWord e.2.2).acc == n then
      match lastIssue img e.2.1 lim with
      | some y => if best.all fun (b : MacStep) => decide (b.y < y) then some { t := t, i := e.1, p := e.2.1, w := e.2.2, y := y } else best
      | none => best
    else best) none

/-- The steps summed in accumulator n as cycle q reads it. -/
def accSteps (fuel : Nat) (img : Image) (t : ImTile) (n : Nat) (q : Int) : Option (List MacStep) :=
  match fuel with
  | 0 => none
  | k + 1 =>
    match lastAcc img t n (q - 4) with
    | none => none
    | some st =>
      let m := mvmWord st.w
      let before := if m.first then some [] else accSteps k img t n (st.y + 3)
      let chain := if m.cin then chainSteps 16 img (spotOf t) (st.y + 3) else some []
      match before, chain with
      | some a, some c => some (a ++ c ++ [st])
      | _, _ => none

/-- Steps of an accumulation that a schedule may have: those of R52 and one more. -/
def stepFuel : Nat := 515

/-- The steps of the accumulation that a REQ issued at cycle q requantises. -/
def reqSteps (img : Image) (t : ImTile) (w : BitVec 128) (q : Int) : Option (List MacStep) :=
  if bit (wMod w) 7 then chainSteps 16 img (spotOf t) q else accSteps stepFuel img t (bits (wMod w) 5 3) q

/-- The output columns of an accumulation (R46, R108). -/
def stepCols (l : List MacStep) : Nat :=
  match l.getLast? with | some s => mvmCols ((mvmWord s.w).fw.getD .int4) | none => 64

/- Words that leave a tile (R108, R120, R129, R149). -/

/-- A word that leaves: cycles after issue, destination set, its number among the words of the operation, and whether it is a scale word. -/
structure OutW where
  off : Nat
  dest : Nat
  n : Nat := 0
  scale : Bool := false
  deriving DecidableEq, Repr, Inhabited

/-- Words that one REQ sends (R108). -/
def reqWords (f : Fmt) (cols : Nat) : Nat := match f with | .int8 => cols / 32 | .int16 => cols / 16 | _ => 1

/-- The words that an operation issued at phase p sends. -/
def outsOf (img : Image) (t : ImTile) (p : Nat) (w : BitVec 128) : List OutW :=
  let op := wOpcode w
  let lat := latencyOf op
  let many (n : Nat) : List OutW := (List.range n).map fun k => { off := lat + k, dest := wDest w, n := k }
  if op = 8 then many (reqWords (reqDesc t w).out.fmt (stepCols ((reqSteps img t w p).getD [])))
  else if op < 0x40 then []
  else if op = 0x41 then []
  else if op < 0x80 then
    if memReadsB op then [{ off := 3, dest := firstDest (wDest w) }, { off := 3, dest := wDest w - firstDest (wDest w), n := 1 }] else many 1
  else if op = 0xA9 then many 4
  else if op = 0xC8 then (if bit (wMod w) 6 then many 1 else [])
  else if op = 0xD0 then []
  else if op = 0xD2 then many 1 ++ [{ off := 1, dest := wImm w, n := 1 }]
  else if op < 0xE0 then
    many 1 ++ (match isN w, immDest w with | true, some d => [{ off := lat, dest := d, scale := true }] | _, _ => [])
  else if op = 0xE0 then (if bit (wMod w) 7 then [{ off := 2, dest := wImm w, scale := true }] else many 1)
  else if op = 0xE1 ∨ op = 0xF9 ∨ op = 0xFB then many 1
  else []

/-- What emerges from a tile in a cycle: the word that made it (index, first phase, word), and the word that leaves. -/
def emerging (img : Image) (t : ImTile) (x : Int) : List ((Nat × Nat × BitVec 128) × OutW) :=
  (List.range 16).flatMap fun (off : Nat) =>
    match issueAt img t (x - off) with
    | some e => ((outsOf img t e.2.1 e.2.2).filter fun o => o.off == off).map fun o => (e, o)
    | none => []

/- Slots (R162 to R164). -/

/-- The slot index of a put of the fixed class at cycle x (R163). -/
def idxOf (img : Image) (x : Int) : Nat := (x % period img).toNat % 1024

/-- The lane on which a site is the writer of the slot of cycle x. -/
def writerLane (img : Image) (s : Spot) (x : Int) : Option (Nat × ImSlot) :=
  (lanesOf s.col s.row).findSome? fun l =>
    (img.slots.find? fun e => e.vq == s.vq && e.lane == l.1 && e.idx == idxOf img x && e.writer == l.2).map fun e => (l.1, e)

/-- Where the word that an access point takes at cycle x was put, and when: on a lane of its own quadrant 3 cycles before, or in another one
11 cycles earlier still. -/
def takenFrom (img : Image) (s : Spot) (x : Int) : Option (Spot × Int) :=
  (lanesOf s.col s.row).findSome? fun l =>
    match img.slots.find? fun e => e.vq == s.vq && e.lane == l.1 && e.idx == idxOf img (x - 3) && bit e.readers l.2 with
    | none => none
    | some e =>
      if e.writer != 24 then let a := accessSite l.1 e.writer; some ({ vq := s.vq, col := a.1, row := a.2 }, x - 3)
      else
        match img.switches.find? fun y => y.dvq == s.vq && y.dlane == l.1 && y.idx == idxOf img (x - 14) with
        | none => none
        | some y => (img.slots.find? fun f => f.vq == y.vq && f.lane == y.lane && f.idx == y.idx && bit f.readers 24 && f.writer != 24).map fun f =>
            let a := accessSite y.lane f.writer; ({ vq := y.vq, col := a.1, row := a.2 }, x - 14)

/- Where a word comes from (R175). -/

/-- The operation that made a word: its tile, index, first phase and word, the number of the word it sent, and the cycle of its issue. A
word driven by another section from outside the image has none of these. -/
structure Orig where
  ext : Bool := false
  t : ImTile
  i : Nat := 0
  p : Nat := 0
  w : BitVec 128 := 0#128
  n : Nat := 0
  scale : Bool := false
  y : Int := 0
  deriving DecidableEq, Repr, Inhabited

def origOf (t : ImTile) (e : (Nat × Nat × BitVec 128) × OutW) (x : Int) : Orig :=
  { t := t, i := e.1.1, p := e.1.2.1, w := e.1.2.2, n := e.2.n, scale := e.2.scale, y := x - e.2.off }

/-- The tick that a word belongs to. -/
def origTick (img : Image) (o : Orig) : Int := tickAt img o.t o.i o.p o.y

/-- The route directive of a side in force at cycle x. -/
def dirAt (img : Image) (t : ImTile) (side : Nat) (x : Int) : Nat :=
  match wordAt img t x with | some (_, _, w) => sideDir (wRoute w) side | none => 0

mutual
/-- The word on an input port at cycle x. fuel bounds the hops. -/
def traceIn (fuel : Nat) (img : Image) (s : Spot) (side : Nat) (x : Int) : Option Orig :=
  match fuel with
  | 0 => none
  | k + 1 =>
    match neighbour s.col s.row side with
    | none => none
    | some (c, r) =>
      let n : Spot := { s with col := c, row := r }
      match imTile? img n with
      | none => some { ext := true, t := imTileOf img n, y := x - 1 }
      | some _ => traceOut k img n ((side + 2) % 4) (x - 1)

/-- The word on an output port at cycle x. -/
def traceOut (fuel : Nat) (img : Image) (s : Spot) (side : Nat) (x : Int) : Option Orig :=
  match fuel with
  | 0 => none
  | k + 1 =>
    let t := imTileOf img s
    match (emerging img t x).find? fun e => bit e.2.dest (15 - side) with
    | some e => some (origOf t e x)
    | none =>
      match dirAt img t side x with
      | 1 => traceIn k img s 0 x
      | 2 => traceIn k img s 1 x
      | 3 => traceIn k img s 2 x
      | 4 => traceIn k img s 3 x
      | 5 => traceHold k img s 0 x
      | 6 => traceHold k img s 1 x
      | 7 => traceTake k img s x
      | _ => none

/-- The word in a hold register at cycle x: the one captured last before x (R154). -/
def traceHold (fuel : Nat) (img : Image) (s : Spot) (n : Nat) (x : Int) : Option Orig :=
  match fuel with
  | 0 => none
  | k + 1 =>
    let t := imTileOf img s
    ((List.range (if isFixedIm img then period img else x.toNat)).findSome? fun (d : Nat) =>
      let y := x - 1 - (d : Int)
      match (emerging img t y).find? fun e => bit e.2.dest 10 && bnat (bit e.2.dest 9) == n with
      | some e => some (some (origOf t e y))
      | none => ((List.range 4).find? fun side => dirAt img t side y == 8 + n).map fun side => traceIn k img s side y).join

/-- The word taken at an access point at cycle x. -/
def traceTake (fuel : Nat) (img : Image) (s : Spot) (x : Int) : Option Orig :=
  match fuel with
  | 0 => none
  | _ + 1 =>
    match takenFrom img s x with
    | none => none
    | some (p, y) =>
      let t := imTileOf img p
      ((emerging img t y).find? fun e => bit e.2.dest 11).map fun e => origOf t e y
end

/-- More hops than any path of a schedule has. -/
def traceFuel : Nat := 4096

/-- The word that an operand field names at cycle x (R156). -/
def traceOp (img : Image) (s : Spot) (f : Nat) (x : Int) : Option Orig :=
  let k := bits f 15 12
  if 1 ≤ k ∧ k ≤ 4 then traceIn traceFuel img s (k - 1) x
  else if k = 5 ∨ k = 6 then traceHold traceFuel img s (k - 5) x
  else if k = 7 then traceTake traceFuel img s x
  else if k = 8 then let t := imTileOf img s; ((emerging img t x).head?).map fun e => origOf t e x
  else none

/-- The operand fields of a word. -/
def operandsOf (t : ImTile) (w : BitVec 128) : List Nat :=
  (if usesA w then [wSrcA w] else []) ++ (if usesB t w then [wSrcB w] else [])

/-- An operand is at hand in the cycle of issue: a data word, for the tick its operation acts for (R27, R175). A word from another section is
taken as the joins of R159 check it. -/
def operandsThere (img : Image) (t : ImTile) (e : Nat × Nat × BitVec 128) : Bool :=
  (operandsOf t e.2.2).all fun f =>
    match traceOp img (spotOf t) f e.2.1 with
    | some o => o.ext || (!o.scale && origTick img o == tickAt img t e.1 e.2.1 e.2.1)
    | none => false

/-- The ticks of the sums that a word takes in: those of the last step on the chain and in the accumulator; none where one is missing. -/
def sumTicks (img : Image) (t : ImTile) (e : Nat × Nat × BitVec 128) : List (Option Int) :=
  let of (l : Option (List MacStep)) : Option Int := (l.bind (·.getLast?)).map fun s => tickAt img s.t s.i s.p s.y
  let m := mvmWord e.2.2
  let op := wOpcode e.2.2
  (if op ≤ 1 && m.cin then [of (chainSteps 16 img (spotOf t) (e.2.1 + 3))] else []) ++
  (if op == 1 && !m.first then [of (accSteps stepFuel img t m.acc (e.2.1 + 3))] else []) ++
  (if op == 2 then [of (chainSteps 16 img (spotOf t) e.2.1)] else []) ++
  (if op == 8 then [of (reqSteps img t e.2.2 e.2.1)] else [])

/-- Every operand and every sum of a fixed-path word is there, for its tick (R175). -/
def arrivalsOk (img : Image) (t : ImTile) (e : Nat × Nat × BitVec 128) : Bool :=
  operandsThere img t e && (sumTicks img t e).all fun k => k == some (tickAt img t e.1 e.2.1 e.2.1)

/-- The stages of the words that a word handles in its span: operands, sums, and what its directives forward and capture (R185). An operation
that takes in none (IN_RD, FAB_RX, a memory read) makes a word of its own stage. -/
def handled (img : Image) (t : ImTile) (e : Nat × Nat × BitVec 128) : List Int :=
  let s := spotOf t
  let stage (o : Option Orig) : List Int := match o with | some o => if o.ext then [] else [-(origTick img o)] | none => []
  let ops : List Int := if isIdle (wOpcode e.2.2) then [] else
    (if (operandsOf t e.2.2).isEmpty && (sumTicks img t e).isEmpty then [(stageAt t e.1 : Int)] else []) ++ (operandsOf t e.2.2).flatMap (fun f => stage (traceOp img s f e.2.1)) ++ (sumTicks img t e).filterMap fun k => k.map fun x => -x
  let routed := if wRoute e.2.2 = 0 then [] else (rangeFrom e.2.1 (wSpan e.2.2)).flatMap fun (x : Nat) => (List.range 4).flatMap fun side =>
    let d := sideDir (wRoute e.2.2) side
    if 1 ≤ d ∧ d ≤ 4 then stage (traceIn traceFuel img s (d - 1) x)
    else if d = 5 ∨ d = 6 then stage (traceHold traceFuel img s (d - 5) x)
    else if d = 7 then stage (traceTake traceFuel img s x)
    else if 8 ≤ d then stage (traceIn traceFuel img s side x)
    else []
  (ops ++ routed).eraseDups

/-- A stage-array entry is the one the arrivals give (R185): the stage of the words handled, MIXED where there are several, 0 where there
is none. -/
def stageFound (img : Image) (t : ImTile) (e : Nat × Nat × BitVec 128) : Bool :=
  let v := stageAt t e.1
  match handled img t e with
  | [] => !mixedAt t e.1 && (v == 0 || !isIdle (wOpcode e.2.2))
  | [k] => !mixedAt t e.1 && k == (v : Int)
  | ks => mixedAt t e.1 && ks.contains (v : Int)

/- Ports, registers and lanes (R128, R129, R155, R158). -/

/-- The words that an operation sends meet no other source: on an output port, in a hold register, on a lane, on the one output path and at
the one scale-word sender of a special-function tile; and none leaves the quadrant but by a lane (R158). The lanes are those of the image's
slots, of which only fixed-class ones have a cycle. -/
def sendsOk (img : Image) (t : ImTile) (e : Nat × Nat × BitVec 128) : Bool :=
  let s := spotOf t
  (outsOf img t e.2.1 e.2.2).all fun o =>
    let x : Int := (e.2.1 + o.off : Nat)
    let all := emerging img t x
    let once (p : OutW → Bool) : Bool := (all.filter fun y => p y.2).length == 1
    ((List.range 4).all fun side => !bit o.dest (15 - side) ||
      ((neighbour s.col s.row side).isSome && dirAt img t side x == 0 && once fun y => bit y.dest (15 - side))) &&
    (!bit o.dest 10 || (once (fun y => bit y.dest 10 && bit y.dest 9 == bit o.dest 9) &&
      (List.range 4).all fun side => dirAt img t side x != 8 + bnat (bit o.dest 9))) &&
    (!bit o.dest 11 || (once (fun y => bit y.dest 11) && (!isFixedIm img || (writerLane img s x).isSome)))

/-- One output path and one scale-word sender (R128, R129). -/
def pathOk (img : Image) (t : ImTile) (e : Nat × Nat × BitVec 128) : Bool :=
  siteClass t.col t.row != some .function || (outsOf img t e.2.1 e.2.2).all fun o =>
    ((emerging img t (e.2.1 + o.off : Nat)).all fun y => y.2.scale != o.scale || y.1.1 == e.1)

/-- A forward does not leave the quadrant (R158). -/
def forwardsOk (t : ImTile) (w : BitVec 128) : Bool :=
  (List.range 4).all fun side => let d := sideDir (wRoute w) side; !decide (1 ≤ d ∧ d ≤ 7) || (neighbour t.col t.row side).isSome

/-- What a fixed-class slot may carry: scale words, words between I/O and memory tiles, and words to another quadrant (R165). -/
def trafficOk (img : Image) (t : ImTile) (e : Nat × Nat × BitVec 128) : Bool :=
  (outsOf img t e.2.1 e.2.2).all fun o =>
    !bit o.dest 11 || o.scale ||
    match writerLane img (spotOf t) (e.2.1 + o.off : Nat) with
    | none => true
    | some (lane, f) =>
      let io (c r : Nat) : Bool := siteClass c r != some .memory
      (setBits 24 f.readers).all fun a => let p := accessSite lane a; io p.1 p.2 != io t.col t.row

end Sys2Proof.Machine
end

