-- ==== Sys2Proof/Machine/ImageFile.lean ====
section
/-!
DEFINITION. The bytes of a section image: header, chunk directory and digests (07 R190, R191; 11 R306), and its report (07 R200).
-/

namespace Sys2Proof.Machine

/- Header and digest (R190). -/

/-- The 256 bytes of the header, with d as bytes 64 to 127. -/
def imageHeader (img : Image) (d : Nat) : List Byte :=
  le 4 img.magic ++ le 2 img.format ++ le 1 img.kind ++
  le 1 (bnat img.nondet + 2 * bnat img.needsRing + 4 * bnat img.fabric + 8 * img.reserved.1) ++
  le 4 img.ii ++ le 2 img.lSec ++ le 2 img.lPad ++ le 4 img.passTime ++ le 1 img.stallExp ++ le 1 img.vq ++ le 2 img.runtimeMin ++
  le 8 img.seed ++ (List.range 4).flatMap (fun k => le 2 (img.tileCounts.getD k 0)) ++ le 4 img.imageLen ++ le 2 img.nChunk ++
  le 2 img.reserved.2.1 ++ ((img.name ++ List.replicate 16 0).take 16) ++ le 64 d ++ le 128 img.reserved.2.2

/-- The digest over the whole image, bytes 64 to 127 taken as zero (R190). -/
def imageDigest (img : Image) : BitVec 512 := sha3Num (imageHeader img 0 ++ img.rest)

/- Chunk directory (R191). -/

/-- An entry of the chunk directory. -/
structure ChunkEntry where
  type : Nat
  vq : Nat
  reserved : Nat
  count : Nat
  offset : Nat
  length : Nat
  deriving DecidableEq, Repr

/-- Entry k of the directory. -/
def chunkEntry (img : Image) (k : Nat) : ChunkEntry :=
  let f (o n : Nat) : Nat := unle (slice (16 * k + o) n img.rest)
  { type := f 0 2, vq := f 2 1, reserved := f 3 1, count := f 4 4, offset := f 8 4, length := f 12 4 }

def directory (img : Image) : List ChunkEntry := (List.range img.nChunk).map (chunkEntry img)

/-- An entry of the directory is one that R191 allows, and its chunk lies in the image behind the directory. -/
def entryOk (img : Image) (e : ChunkEntry) : Bool :=
  decide (1 ≤ e.type ∧ e.type ≤ 0x13) && (e.vq == 0xFF || decide (e.vq < img.vq)) && e.reserved == 0 &&
  decide (e.offset % 64 = 0 ∧ 256 + 16 * img.nChunk ≤ e.offset ∧ e.offset + e.length ≤ img.imageLen)

/-- The bytes of the chunks of one type, in the order of the directory. -/
def chunkBytes (img : Image) (type : Nat) : List Byte :=
  ((directory img).filter fun e => e.type == type).flatMap fun e => slice (e.offset - 256) e.length img.rest

/-- WEIGHT_DIGEST: over the chunks WEIGHTS, CSUM, CCONST, REQDESC and TABLE (R306). -/
def weightDigest (img : Image) : BitVec 512 := sha3Num ([2, 3, 4, 5, 7].flatMap (chunkBytes img))

/-- Check 0x0101: MAGIC, FORMAT, IMAGE_LEN, chunk directory, reserved fields, and the ranges that R190 gives the header's fields. -/
def headerOk (img : Image) : Bool :=
  img.magic == 0x444E4C50 && (img.format == 2 || (img.format == 1 && img.vq == 1)) && decide (img.kind ≤ 1 ∧ 1 ≤ img.vq ∧ img.vq ≤ 4) &&
  img.reserved == (0, 0, 0) && img.imageLen == 256 + img.rest.length && decide (16 * img.nChunk ≤ img.rest.length) &&
  (directory img).all (entryOk img) && decide (16 ≤ img.stallExp ∧ img.stallExp ≤ 32) &&
  (if img.kind = 0 then img.passTime == 0 && decide (8 ≤ img.ii ∧ img.ii ≤ 65536) else img.ii == 0 && img.lSec == 0)

/- Report (R200). -/

/-- Link words that QBLOCK takes in a tick (R305, R307). -/
def qblockWords (img : Image) : Nat :=
  sumL (img.tiles.map fun t => ((issues t).filter fun e => wOpcode e.2.2 == 0xE0 || wOpcode e.2.2 == 0xF9).length)

/-- Tiles of a virtual quadrant by class: matrix, memory, special function, I/O. -/
def tilesOf (img : Image) (vq : Nat) : List Nat :=
  let cs := (img.tiles.filter fun t => t.vq == vq).filterMap fun t => siteClass t.col t.row
  let n (p : TileClass → Bool) : Nat := (cs.filter p).length
  [n (· == .matrix), n (· == .memory), n (· == .function), n fun k => k != .matrix && k != .memory && k != .function]

/-- The number of a loop's kind. -/
def loopCode : LoopKind → Nat
  | .expressSame => 0 | .expressOther => 1 | .hbmRead => 2 | .hbmReadOther => 3 | .hbmWrite => 4 | .fabric => 5 | .verdict => 6

/-- The report's fields in the order of R200, each list after its length (layout: log 23). -/
def reportBytes (img : Image) (stages : Nat) (hard : Bool) (bound : LoopKind → Nat) : List Byte :=
  let rep := img.report
  let list {α : Type} (l : List α) (f : α → List Byte) : List Byte := le 2 l.length ++ l.flatMap f
  let at_ (vq col row : Nat) : List Byte := le 1 vq ++ le 1 (16 * col + row)
  ((img.name ++ List.replicate 16 0).take 16) ++ le 64 img.digest.toNat ++ le 1 img.kind ++ le 4 img.ii ++ le 4 img.lSec ++ le 4 img.lPad ++
  le 4 stages ++ le 1 (bnat hard) ++
  (List.range 4).flatMap (fun q => (tilesOf img q).flatMap (le 2)) ++
  list rep.links (fun e => at_ e.1 e.2.1 e.2.2.1 ++ le 4 e.2.2.2.1 ++ le 4 e.2.2.2.2) ++
  list rep.slots (fun e => le 1 e.1 ++ le 1 e.2.1 ++ le 2 e.2.2.1 ++ le 2 e.2.2.2) ++
  list rep.bankIdle (fun e => at_ e.1 e.2.1 e.2.2.1 ++ le 1 e.2.2.2.1 ++ le 4 e.2.2.2.2) ++
  list img.tiles (fun t => at_ t.vq t.col t.row ++ le 2 (sumL (t.weights.map setUnits)) ++ le 1 t.ccon.length) ++
  list rep.issues (fun e => at_ e.1 e.2.1 e.2.2.1 ++ le 4 e.2.2.2) ++
  le 8 rep.macs ++
  list img.points (fun p => le 2 p.pnum ++ le 1 p.kind ++ at_ p.vq p.col p.row ++ le 1 p.fmt ++ le 1 p.n ++ le 1 p.h) ++
  le 4 img.passTime ++
  list img.loops (fun l => le 1 (loopCode l.kind) ++ le 2 (bound l.kind) ++ le 4 l.num ++ le 4 l.den ++ le 4 l.d ++
    le 4 (l.d - ceilDiv (bound l.kind * l.num) (max l.den 1))) ++
  list img.joins (fun j => le 4 j.skew ++ le 4 j.d) ++
  le 2 img.windows.length ++ le 8 rep.hbmRead ++ le 8 rep.hbmWritten ++ le 1 (bnat img.nondet) ++ le 8 rep.power

end Sys2Proof.Machine
end

