-- ==== Sys2Proof/Machine/ImageSums.lean ====
section
/-!
DEFINITION. What the loader proves of an image's arithmetic: the producers of every row, the overflow proof, K and the column sums, the
folding of block exponents, data blocks and the timing of scale words (02 R41 to R52; 03 R66, R80, R85 to R87; 04 R100, R107, R108; 05
R128, R150).
-/

namespace Sys2Proof.Machine

/- Delivery lists (R150, R219). -/

/-- The words the front end sends an ingest tile in each tick: block after block in the order of b, the scale word of a group before its
data words, as (group, word, scale). -/
def feedItems (fe : Fe) (f : ImFeed) : List (Nat × Nat × Bool) :=
  (sortBy (fun a b => decide (a.2 ≤ b.2)) f.groups).flatMap fun (g, _) =>
    let d := (groupAt fe g).d
    (g, 0, true) :: (List.range (ceilDiv (d.count * featureK d.feature (groupAt fe g).s) 64)).map fun k => (g, k, false)

/-- The cycle in which a word acts for tick 0 (R185). -/
def cycleOf (img : Image) (t : ImTile) (e : Nat × Nat × BitVec 128) : Nat := e.2.1 + (if isFixedIm img then stageAt t e.1 * img.ii else 0)

/-- The operations of a tile that satisfy a condition, in the order in which they act for a tick. -/
def inOrder (img : Image) (t : ImTile) (p : BitVec 128 → Bool) : List (Nat × Nat × BitVec 128) :=
  sortBy (fun a b => decide (cycleOf img t a ≤ cycleOf img t b)) ((issues t).filter fun e => p e.2.2)

/-- The delivery list of an ingest tile: what each IN_RD finds, in order; one with SCL = 1 takes a scale word, another a data word
(DEDUCED, log 139). -/
def deliveryList (fe : Fe) (img : Image) (f : ImFeed) : List (Nat × Nat × Nat × Bool) :=
  let t := imTileOf img { vq := f.vq, col := f.col, row := f.row }
  ((inOrder img t fun w => wOpcode w == 0xE0).zip (feedItems fe f)).filterMap fun (e, x) =>
    if bit (wMod e.2.2) 7 == x.2.2 then some (e.1, x.1, x.2.1, x.2.2) else none

def feedAt (img : Image) (s : Spot) : Option ImFeed := img.feeds.find? fun f => f.vq == s.vq && f.col == s.col && f.row == s.row

/-- Every IN_RD of an ingest tile has a listed word, and none issues before the front end has sent it (R150, R219). -/
def feedsOk (fe : Fe) (align : Nat) (img : Image) (t : ImTile) (e : Nat × Nat × BitVec 128) : Bool :=
  wOpcode e.2.2 != 0xE0 || (decide (align + 28 ≤ cycleOf img t e) &&
    match feedAt img (spotOf t) with | some f => (deliveryList fe img f).any (·.1 == e.1) | none => false)

/- Producers (R51, R66, R150). -/

/-- The lines of a generator's region in use, from its base on. -/
def regionSize (g : AddrGen) : Nat :=
  match g.mode with
  | .plain => g.len
  | .fifo => g.depth
  | .history => g.depth * g.stride.toNat
  | .lut | .gather | .queue => 8 * (max g.len g.depth)

/-- Two ranges of lines meet; a region may wrap. -/
def linesMeet (a n b m : Nat) : Bool := decide ((b + 65536 - a) % 65536 < n ∨ (a + 65536 - b) % 65536 < m) && n != 0 && m != 0

/-- The regions of two generators share a line. -/
def agsMeet (g h : AddrGen) : Bool :=
  [g.base0, g.base1].any fun a => [h.base0, h.base1].any fun b => linesMeet a (regionSize g) b (regionSize h)

/-- The write words of a memory tile that may fill the region of generator k. -/
def writersOf (t : ImTile) (k : Nat) : List (Nat × Nat × BitVec 128) :=
  (issues t).filter fun e => memWrites (wOpcode e.2.2) && agsMeet (imAg t (agW e.2.2)) (imAg t k)

/-- The region of generator k holds lines that come with the image. -/
def initialised (t : ImTile) (k : Nat) : Bool :=
  let g := imAg t k
  t.mem.any fun e => linesMeet g.base0 (regionSize g) e.1 1 || linesMeet g.base1 (regionSize g) e.1 1

/-- What stands behind a word: a producer, or none where the section does not make it; and whether its elements came unchanged, through steer
units and memory alone. -/
structure Leaf where
  o : Option Orig
  same : Bool
  deriving DecidableEq, Repr

/-- The producers behind a word: points, ingest words and unscaled results; look-ups, lane operations and the like stand for what they take
in (05, "Output units": I). -/
def leaves (fuel : Nat) (img : Image) (o : Option Orig) (same : Bool) : List Leaf :=
  match fuel, o with
  | 0, _ => [⟨none, false⟩]
  | _, none => [⟨none, false⟩]
  | k + 1, some o =>
    let op := wOpcode o.w
    let s := spotOf o.t
    let back (f : Nat) (y : Int) (same : Bool) : List Leaf := leaves k img (traceOp img s f y) same
    if o.ext then [⟨none, false⟩]
    else if op = 8 ∨ op = 0xE0 ∨ isN o.w ∨ op = 0x88 ∨ op = 0xB0 ∨ op = 0xC0 ∨ op = 0xC8 then [⟨some o, same⟩]
    else if 0x40 ≤ op ∧ op < 0x7F then
      let g := if o.n = 0 ∧ memReadsA op then agA o.w else agB o.w
      let ws := writersOf o.t g
      (if ws.isEmpty || initialised o.t g || (imAg o.t g).mode == .queue then [⟨none, false⟩] else []) ++
        ws.flatMap fun e => back (wSrcA e.2.2) e.2.1 same
    else if op = 0xD1 then back (wSrcA o.w) o.y same ++ back (wSrcB o.w) o.y same
    else if op = 0xD2 then back (wSrcA o.w) o.y same
    else if 0x80 ≤ op ∧ op < 0xD0 then
      back (wSrcA o.w) o.y false ++ (if usesB o.t o.w then back (wSrcB o.w) o.y false else [])
    else [⟨none, false⟩]

/-- Steps that the search for producers may take. -/
def leafFuel : Nat := 256

/-- The group whose word an IN_RD forwards. -/
def groupOfIn (fe : Fe) (img : Image) (o : Orig) : Option GroupDesc :=
  (feedAt img (spotOf o.t)).bind fun f => ((deliveryList fe img f).find? fun d => d.1 == o.i).map fun d => (groupAt fe d.2.1).d

/-- The clamp range and the zero point of a producer (R51). -/
def producerSpec (fe : Fe) (img : Image) (o : Orig) : Option OutSpec :=
  let op := wOpcode o.w
  if op = 8 then some (reqDesc o.t o.w).out
  else if isN o.w then some (fnDesc o.t o.w).out
  else if op = 0xE0 then (groupOfIn fe img o).map groupOut
  else none

/-- What is known of the elements of a row: range of codes, and range of zero points. -/
structure RowInfo where
  lo : Int
  hi : Int
  zlo : Nat := 0
  zhi : Nat := 0
  deriving DecidableEq, Repr

/-- The rows of a word of format f: the clamp ranges of its producers, and the whole range of the format where one is not the section's own
(R51). -/
def rowInfo (fe : Fe) (img : Image) (f : Fmt) (o : Option Orig) : RowInfo :=
  let full : RowInfo := { lo := (fmtRange f).1, hi := (fmtRange f).2, zhi := if f = .uint4 then 15 else 0 }
  let specs := (leaves leafFuel img o true).map fun l => if l.same then l.o.bind (producerSpec fe img) else none
  let z (s : OutSpec) : Nat := if f = .uint4 then s.zp else 0
  match specs.head?.join with
  | none => full
  | some s0 =>
    if specs.all (·.isSome) then
      specs.foldl (fun r s => match s with
        | some s => { lo := min r.lo s.lo, hi := max r.hi s.hi, zlo := min r.zlo (z s), zhi := max r.zhi (z s) }
        | none => r) { lo := s0.lo, hi := s0.hi, zlo := z s0, zhi := z s0 }
    else full

/-- The rows of the input word of a step: what the image declares of them, else what their producers give. -/
def stepRows (fe : Fe) (img : Image) (st : MacStep) : RowInfo :=
  let f := (mvmWord st.w).fa.getD .int4
  let r := rowInfo fe img f (traceOp img (spotOf st.t) (wSrcA st.w) st.y)
  match img.ranges.find? fun d => d.vq == st.t.vq && d.col == st.t.col && d.row == st.t.row && d.i == st.i with
  | some d => { r with lo := d.lo, hi := d.hi }
  | none => r

/-- A declared range is not narrower than the clamp range of its producer (R51). -/
def rangeWide (fe : Fe) (img : Image) (st : MacStep) : Bool :=
  let r := rowInfo fe img ((mvmWord st.w).fa.getD .int4) (traceOp img (spotOf st.t) (wSrcA st.w) st.y)
  let d := stepRows fe img st
  decide (d.lo ≤ r.lo ∧ r.hi ≤ d.hi)

/- Accumulations (R49 to R52, R80, R100). -/

/-- An accumulation: its steps, and the REQ word that requantises it. -/
structure Accum where
  t : ImTile
  i : Nat
  p : Nat
  w : BitVec 128
  steps : List MacStep
  deriving DecidableEq, Repr, Inhabited

/-- Every accumulation of an image. -/
def accums (img : Image) : List Accum :=
  img.tiles.flatMap fun t => ((issues t).filter fun e => wOpcode e.2.2 == 8).filterMap fun (i, p, w) =>
    (reqSteps img t w p).map fun l => { t := t, i := i, p := p, w := w, steps := l }

def stepSet (st : MacStep) : Option WeightSet := setOf st.t st.w
/-- Rows that a step reduces (R46). -/
def stepRed (st : MacStep) : Nat := let m := mvmWord st.w; reductionOf (m.fa.getD .int4) (m.fw.getD .int4)
/-- Rows that an accumulation reduces. -/
def accumRows (a : Accum) : Nat := sumL (a.steps.map stepRed)

/-- The block exponents of column j of a set; a set without them has none. -/
def colExps (w : WeightSet) (j : Nat) : List Nat :=
  if w.fw = .fp4b then let n := reductionOf w.fa w.fw / 32; (List.range n).map fun b => w.exps.getD (j * n + b) 0 else []

/-- Every block exponent of column j of an accumulation, and the smallest of them (R43). -/
def accumExps (a : Accum) (j : Nat) : List Nat := a.steps.flatMap fun s => match stepSet s with | some w => colExps w j | none => []
def eBase (a : Accum) (j : Nat) : Nat := (accumExps a j).foldl min 255

/-- The shifts of column j of a step: of elements 0 to 31 and of those above (R43, R100). -/
def stepShift (a : Accum) (s : MacStep) (j k : Nat) : Nat :=
  match stepSet s with | some w => (match (colExps w j)[k]? with | some e => e - eBase a j | none => 0) | none => 0

/-- The exponents of a column: none 0xFF, and their span at most 7 (R42). -/
def expsOk (a : Accum) : Bool :=
  (List.range (stepCols a.steps)).all fun j => let es := accumExps a j; !es.contains 0xFF && decide (maxL es ≤ eBase a j + 7 ∨ es.isEmpty)

/-- The weight of element i of column j of a set as the array takes it. -/
def weightAt (w : WeightSet) (i j : Nat) : Int :=
  let t : Tile := { ws := tsetAll (fun _ => 0#64) [] 0 w.words }
  (codeVal w.fw (wsElem t 0 ((j * reductionOf w.fa w.fw + i) * fmtWidth w.fw) (fmtWidth w.fw))).getD 0

/-- Column constants of an entry of an image tile. -/
def imConst (t : ImTile) (cci j : Nat) : Nat := (((t.ccon.find? fun e => e.1 == cci).map (·.2)).getD []).getD j 0#64 |>.toNat

/-- The weight zero point of column j of an accumulation: in the entry of the descriptor that requantises it (R100). -/
def accumZw (a : Accum) (j : Nat) : Nat := bits (imConst a.t (reqDesc a.t a.w).cci j) 19 16

/-- T of one step and column, and its corrected bound: sums of A |q_w| 2^sh and of A' |q_w - z_w| 2^sh. Column 64 is the sum column, with
weight 1 for each element, which only the four-bit mode forms (R49, R50, R101). -/
def stepBound (fe : Fe) (img : Image) (a : Accum) (s : MacStep) (j : Nat) : Nat × Nat :=
  let r := stepRows fe img s
  let big := max r.lo.natAbs r.hi.natAbs
  let corr := max (max (r.lo - r.zlo).natAbs (r.hi - r.zlo).natAbs) (max (r.lo - r.zhi).natAbs (r.hi - r.zhi).natAbs)
  if j = 64 then if stepRed s = 64 then (64 * big, 64 * corr) else (0, 0)
  else match stepSet s with
    | none => (0, 0)
    | some w =>
      let zw : Int := (accumZw a j : Nat)
      (List.range (stepRed s)).foldl (fun x i =>
        let q := weightAt w i j
        let sh := stepShift a s j (i / 32)
        (x.1 + big * q.natAbs * 2 ^ sh, x.2 + corr * (q - zw).natAbs * 2 ^ sh)) (0, 0)

/-- The steps summed on the chain up to and including a step (R49). -/
def chainTo (img : Image) (s : MacStep) : List MacStep :=
  (if (mvmWord s.w).cin then (chainSteps 16 img (spotOf s.t) (s.y + 3)).getD [] else []) ++ [s]

/-- Every C_jk, B_j and B'_j of a column is in range (R49, R50). -/
def columnBounded (fe : Fe) (img : Image) (a : Accum) (j : Nat) : Bool :=
  let t (l : List MacStep) : Nat := sumL (l.map fun s => (stepBound fe img a s j).1)
  (a.steps.all fun s => decide (t (chainTo img s) ≤ 8388607)) && decide (t a.steps ≤ 2147483647) &&
  decide (sumL (a.steps.map fun s => (stepBound fe img a s j).2) ≤ 2147483647)

/-- The proof of R49 to R51 for an accumulation, the sum column included. -/
def overflowOk (fe : Fe) (img : Image) (a : Accum) : Bool :=
  a.steps.all (rangeWide fe img) && (List.range (stepCols a.steps)).all (columnBounded fe img a) && columnBounded fe img a 64

/-- Sum of a column's weights in a set (R80). -/
def columnSum (w : WeightSet) (j : Nat) : Int := ((List.range (reductionOf w.fa w.fw)).map fun i => weightAt w i j).foldl (· + ·) 0

/-- The column sums that the image holds of a set. -/
def setSums (img : Image) (t : ImTile) (w : WeightSet) : Option (List Int) :=
  (img.csums.find? fun e => e.1 == t.vq && e.2.1 == t.col && e.2.2.1 == t.row && e.2.2.2.1 == w.unit).map (·.2.2.2.2)

/-- Column sums the image holds equal those of the weights, one for each column (R80). -/
def csumsOk (img : Image) : Bool :=
  img.csums.all fun (vq, col, row, u, cs) =>
    match (imTileOf img { vq := vq, col := col, row := row }).weights.find? (·.unit == u) with
    | some w => cs.length == mvmCols w.fw && cs.zipIdx.all fun (x, j) => x == columnSum w j
    | none => false

/-- A set that has zero points or meets UINT4 activations has its column sums, and K is the number of rows fed (R80, R107). -/
def sumsThere (img : Image) (a : Accum) : Bool :=
  (reqDesc a.t a.w).k == accumRows a &&
  a.steps.all fun s => match stepSet s with
    | some w => (setSums img s.t w).isSome ||
        (some Fmt.uint4 != (mvmWord s.w).fa && (List.range (mvmCols w.fw)).all fun j => accumZw a j == 0)
    | none => false

/-- CSUM of a column: the sums of every set fed into the accumulation (R100). -/
def accumSum (img : Image) (a : Accum) (j : Nat) : Int :=
  (a.steps.map fun s => ((stepSet s).bind (setSums img s.t)).elim 0 (·.getD j 0)).foldl (· + ·) 0

/-- The power of two that the loader folds into the weight scale of a column: 2^(e_base - 127), and ½ for each FP4 operand (R41, R43). The
scale of an FP4 activation is a word made at run time, so its ½ goes into the weight scale of the columns that meet it (DESIGN CHOICE,
log 140). -/
def foldExp (a : Accum) (j : Nat) : Int :=
  match a.steps.head? with
  | none => 0
  | some s =>
    let m := mvmWord s.w
    (if (accumExps a j).isEmpty then 0 else (eBase a j : Int) - 127) - (if m.fw = some .fp4 ∨ m.fw = some .fp4b then 1 else 0) -
      (if m.fa = some .fp4 then 1 else 0)

/-- The weight scale with the folded power, none outside the normal range of S16 (R43). -/
def foldedScale (sw : Nat) (e : Int) : Option Nat :=
  let x := (sw / 1024 : Nat) + e
  if 1 ≤ x ∧ x ≤ 62 then some (x.toNat * 1024 + sw % 1024) else none

/-- The folded weight scales of an accumulation are in range (R43). -/
def foldsOk (a : Accum) : Bool :=
  (List.range (stepCols a.steps)).all fun j => (foldedScale (bits (imConst a.t (reqDesc a.t a.w).cci j) 15 0) (foldExp a j)).isSome

/-- Column constants of an image entry: SW normal; SH0 and SH1 zero but for sets with E8M0 exponents, and SH1 zero where a reduction holds one
block (R100). -/
def cconOk (t : ImTile) (n : Nat) (ws : List (BitVec 64)) : Bool :=
  let sets := (issues t).filterMap fun e => if wOpcode e.2.2 ≤ 1 && (mvmWord e.2.2).cci == n then setOf t e.2.2 else none
  ws.all fun x => s16Normal (bits x.toNat 15 0) && (bits x.toNat 25 20 == 0 || sets.all fun w => w.fw == .fp4b) &&
    (bits x.toNat 25 23 == 0 || sets.all fun w => decide (reductionOf w.fa w.fw ≠ 32))

/-- A column-constant word as the loader writes it: block shifts for the MVM words that name the entry, the folded weight scale and CSUM for
the REQ words that do (R43, R98, R100). -/
def constWord (img : Image) (as : List Accum) (t : ImTile) (n j : Nat) (x : Nat) : BitVec 64 :=
  let mine (u : ImTile) : Bool := spotOf u == spotOf t
  let shifts := as.findSome? fun a => (a.steps.find? fun s => mine s.t && (mvmWord s.w).cci == n && (stepSet s).any fun w => w.fw == .fp4b).map fun s => (a, s)
  let sh := match shifts with
    | some (a, s) => stepShift a s j 0 + 8 * stepShift a s j 1
    | none => bits x 25 20
  let req := as.find? fun a => mine a.t && (reqDesc a.t a.w).cci == n
  let (cs, sw) := match req with
    | some a => (toTwos 32 (accumSum img a j), (foldedScale (bits x 15 0) (foldExp a j)).getD (bits x 15 0))
    | none => (bits x 63 32, bits x 15 0)
  BitVec.ofNat 64 (cs * 2 ^ 32 + sh * 2 ^ 20 + bits x 19 16 * 2 ^ 16 + sw)

/-- The tiles of an image with their column constants as the loader fills them. -/
def filledTiles (img : Image) : List ImTile :=
  let as := accums img
  img.tiles.map fun t => { t with ccon := t.ccon.map fun (n, ws) => (n, ws.zipIdx.map fun (x, j) => constWord img as t n j x.toNat) }

/-- Two accumulations that share a column-constant entry ask the same of it. -/
def entriesAgree (img : Image) : Bool :=
  let as := accums img
  as.all fun a => as.all fun b =>
    !(spotOf a.t == spotOf b.t && (reqDesc a.t a.w).cci == (reqDesc b.t b.w).cci) ||
      (List.range 64).all fun j => foldExp a j == foldExp b j && accumSum img a j == accumSum img b j

/- Data blocks (R66). -/

/-- What names a data block: the running point's group on its tile, the static point's scale and block number, or the channel group. -/
def blockOf (fe : Fe) (img : Image) (o : Orig) : Option (List Nat) :=
  let op := wOpcode o.w
  if op = 8 then
    let d := reqDesc o.t o.w
    some (if d.running then [0, o.t.vq, o.t.col, o.t.row, d.group, d.blk] else [1, d.sStatic, d.blk, d.nblk])
  else if isN o.w then let d := fnDesc o.t o.w; some [1, d.sStatic, d.blk, d.nblk]
  else if op = 0xE0 then
    (feedAt img (spotOf o.t)).bind fun f => ((deliveryList fe img f).find? fun d => d.1 == o.i).map fun d => [2, d.2.1]
  else none

/-- The data blocks behind the input word of a step; words the section does not make name none. -/
def stepBlocks (fe : Fe) (img : Image) (s : MacStep) : List (List Nat) :=
  (leaves leafFuel img (traceOp img (spotOf s.t) (wSrcA s.w) s.y) true).filterMap fun l => l.o.bind (blockOf fe img)

/-- An accumulation draws on a single data block (R66). -/
def oneBlock (fe : Fe) (img : Image) (a : Accum) : Bool :=
  decide ((a.steps.flatMap (stepBlocks fe img)).eraseDups.length ≤ 1)

/-- The block that a REQ makes has at most 64 words in a tick or pass (R66). -/
def blockSize (fe : Fe) (img : Image) (a : Accum) : Bool :=
  let key (x : Accum) : Option (List Nat) := blockOf fe img { t := x.t, i := x.i, p := x.p, w := x.w }
  decide (sumL (((accums img).filter fun x => key x == key a).map fun x =>
    reqWords (reqDesc x.t x.w).out.fmt (stepCols x.steps)) ≤ 64)

/- Scale words and spacing (R85, R86, R108, R128). -/

/-- The scale buffers an operation takes a scale word from, and whether it consumes it (R104, R129, R136). -/
def scaleUses (w : BitVec 128) : List (Nat × Bool) :=
  let op := wOpcode w
  let m := wMod w
  let sba := bnat (bit (wSel w) 7)
  let four := bits (wSel w) 15 12 == 1
  if op = 8 then [(bits (wSrcB w) 13 12, bit m 2)]
  else if op = 0x98 then [(sba, bit m 0), (bnat (bit (wSel w) 6), bit m 1)]
  else if (op = 0x94 ∧ bit m 7) ∨ op = 0xB8 then [(sba, bit m 0)]
  else if (op = 0xB1 ∧ (bit m 0 || four)) ∨ ((op = 0x89 ∨ op = 0xB0) ∧ four) then [(sba, bit m 0)]
  else if (op = 0x80 ∨ op = 0x81) ∧ bit m 0 then [(sba, true)]
  else []

/-- The scale words captured into a buffer for tick 0: the cycles of their capture, in order; none where one comes from another section. -/
def capturesOf (img : Image) (t : ImTile) (b : Nat) : Option (List Int) :=
  let found : List (Option Int) := (placed t).flatMap fun (_, p, w) => (List.range 4).flatMap fun side =>
    if sideDir (wRoute w) side = 10 + b then
      (rangeFrom p (wSpan w)).filterMap fun (x : Nat) =>
        (traceIn traceFuel img (spotOf t) side x).bind fun o =>
          if o.ext then some none else if o.scale then some (some ((x : Int) - origTick img o * period img)) else none
    else []
  if found.any (·.isNone) then none else some (sortBy (fun a b => decide (a ≤ b)) (found.filterMap id))

/-- The operations that use one scale word: the cycles of the first and the last. A group ends with the one that consumes it. -/
def useGroups : List (Nat × Bool) → Option Nat → List (Nat × Nat) × Bool
  | [], open_ => ([], open_.isNone)
  | (c, consume) :: l, open_ =>
    let a := open_.getD c
    if consume then let r := useGroups l none; ((a, c) :: r.1, r.2) else useGroups l (some a)

/-- Both limits of R85 for one buffer of a tile: each scale word is there 2 gc before the first use of its block and not before the last use
of the block before; every scale word is consumed, by the last use of its block (R85, R108, R128). -/
def bufferOk (img : Image) (t : ImTile) (b : Nat) : Bool :=
  let uses := (inOrder img t fun w => (scaleUses w).any (·.1 == b)).flatMap fun e =>
    ((scaleUses e.2.2).filter (·.1 == b)).map fun u => (cycleOf img t e, u.2)
  match capturesOf img t b with
  | none => true
  | some ys =>
    let g := useGroups uses none
    let lasts : List Int := match g.1.getLast? with | some x => ((x.2 : Int) - period img) :: g.1.map (fun y => (y.2 : Int)) | none => []
    g.2 && g.1.length == ys.length && ((ys.zip g.1).zip lasts).all fun ((y, u), prev) => decide (y + 2 ≤ u.1 ∧ prev ≤ y)

/-- The scale buffers of a tile keep the limits of R85 in a fixed-path section. -/
def scalesOk (img : Image) (t : ImTile) : Bool := !isFixedIm img || (List.range 4).all (bufferOk img t)

/-- REQ words of a tile leave its output words their cycles (R108). -/
def reqSpaced (img : Image) (t : ImTile) (e : Nat × Nat × BitVec 128) : Bool :=
  wOpcode e.2.2 != 8 ||
  (rangeFrom 1 (reqWords (reqDesc t e.2.2).out.fmt (stepCols ((reqSteps img t e.2.2 e.2.1).getD [])) - 1)).all fun d =>
    !((issueAt img t (e.2.1 + d : Nat)).any fun x => wOpcode x.2.2 == 8)

/-- The requantisations of a group's ticks lie 8 gc apart, or 7 for a group of one (R86). -/
def groupSpaced (img : Image) (t : ImTile) (g : Nat) : Bool :=
  let rs := inOrder img t fun w => wOpcode w == 8 && (reqDesc t w).running && (reqDesc t w).group == g
  match rs.head?, rs.getLast? with
  | some a, some b =>
    let n := (rs.map fun e => bits (wImm e.2.2) 8 0).eraseDups.length
    decide (cycleOf img t b + (if n = 1 then 7 else 8) ≤ cycleOf img t a + period img)
  | _, _ => true

/- Scores (R150). -/

/-- An OUT_SCORE takes its word from no running point, and is the only one of its block in the tick (R150). -/
def scoreOk (img : Image) (t : ImTile) (e : Nat × Nat × BitVec 128) : Bool :=
  wOpcode e.2.2 != 0xE8 ||
  (((leaves leafFuel img (traceOp img (spotOf t) (wSrcA e.2.2) e.2.1) true).all fun l => match l.o with
      | some o => wOpcode o.w != 0xE0 && (wOpcode o.w != 8 || !(reqDesc o.t o.w).running)
      | none => true) &&
    (img.tiles.flatMap fun u => (issues u).filter fun x => wOpcode x.2.2 == 0xE8 && bits (wImm x.2.2) 5 0 == bits (wImm e.2.2) 5 0).length == 1)

/-- The latency from the section's input to its last score, for the alignment in force (R20, R201). -/
def latencyFound (align : Nat) (img : Image) : Nat :=
  maxL (img.tiles.flatMap fun t => ((issues t).filter fun e => wOpcode e.2.2 == 0xE8).map fun e => cycleOf img t e - (align + 30))

/-- Operands of RESADD have as many elements each (R136): the format of B is that of its producers. -/
def resaddOk (fe : Fe) (img : Image) (t : ImTile) (e : Nat × Nat × BitVec 128) : Bool :=
  wOpcode e.2.2 != 0x98 ||
  (leaves leafFuel img (traceOp img (spotOf t) (wSrcB e.2.2) e.2.1) true).all fun l =>
    match if l.same then l.o.bind (producerSpec fe img) else none with
    | some s => fmtCount s.fmt == fmtCount ((fmtOf (bits (wSel e.2.2) 15 12)).getD .int4)
    | none => true

end Sys2Proof.Machine
end

