-- ==== Sys2Proof/Machine/ImageMem.lean ====
section
/-!
DEFINITION. The loader's checks of memory tiles: the addresses of every scheduled access, bank by bank, and the occupancy of FIFOs, followed
along the schedule (04 R114 to R120; 06 R170, R172).
-/

namespace Sys2Proof.Machine

/-- An access of a memory word: its generator, whether it writes, OFS and OFFSET. -/
structure Access where
  ag : Nat
  write : Bool
  ofs : Bool := false
  off : Nat := 0
  deriving DecidableEq, Repr

/-- The accesses of a word in the order read A, read B, write (R118). -/
def accessesOf (w : BitVec 128) : List Access :=
  let op := wOpcode w
  (if memReadsA op then [{ ag := agA w, write := false, ofs := bit (wMod w) 1, off := wImm w }] else []) ++
  (if memReadsB op then [{ ag := agB w, write := false, ofs := bit (wMod w) 0, off := wSel w }] else []) ++
  (if memWrites op then [{ ag := agW w, write := true }] else [])

/-- The bank that an access takes and the generator after it. LUT, gather and queue generators reserve the bank of B (R116, R117, R120). A read
of an empty FIFO and a write to a full one leave it as it is. -/
def agMove (a : Access) (g : AddrGen) : Nat × AddrGen :=
  let b := agBase g
  let step : AddrGen := { g with ptr := (((g.ptr : Int) + g.stride) % (max g.len 1 : Nat)).toNat }
  match g.mode with
  | .plain => if a.ofs && !a.write then ((b + a.off) % 8, g) else ((b + g.ptr) % 8, step)
  | .fifo =>
    if a.write then ((b + (g.ptr + g.aux) % max g.depth 1) % 8, if g.depth ≤ g.aux then g else { g with aux := g.aux + 1 })
    else ((b + g.ptr) % 8, if g.aux = 0 then g else { g with ptr := (g.ptr + 1) % max g.depth 1, aux := g.aux - 1 })
  | .history =>
    if a.write then ((b + g.stride.toNat * g.ptr + g.wc) % 8, { g with wc := g.wc + 1 })
    else
      let d := max g.depth 1
      ((b + g.stride.toNat * ((g.ptr + d - bits a.off 15 6 % d) % d) + bits a.off 5 0) % 8, g)
  | .lut | .queue => (b % 8, g)
  | .gather => (b % 8, { g with ptr := (g.ptr + 1) % 16 })

/-- A FIFO that an access would read while it is empty, or write while it is full (R120). -/
def fifoBad (a : Access) (g : AddrGen) : Bool :=
  g.mode == .fifo && (if a.write then decide (g.depth ≤ g.aux) else g.aux == 0)

/-- The accesses of one word follow one another: banks so far, generators, and whether the rules of R120 have held. -/
def wordMove (fixed : Bool) (w : BitVec 128) (ags : List AddrGen) : List AddrGen × List Nat × Bool :=
  (accessesOf w).foldl (fun (x : List AddrGen × List Nat × Bool) a =>
    let g := x.1.getD a.ag {}
    let m := agMove a g
    (x.1.set a.ag m.2, m.1 :: x.2.1, x.2.2 && !x.2.1.contains m.1 && !(fixed && fifoBad a g))) (ags, [], true)

/-- A generator serves one access in a cycle, a FIFO one read and one write (R120). -/
def oncePerCycle (t : ImTile) (w : BitVec 128) : Bool :=
  let as := accessesOf w
  (as.filter (!·.write)).length == ((as.filter (!·.write)).map (·.ag)).eraseDups.length &&
  as.all fun a => as.all fun b => !(a.write && !b.write && a.ag == b.ag) || (imAg t a.ag).mode == .fifo

/-- The generators through one tick, the n-th after ARM, or one pass: in a tick only the words whose stage has been reached execute. -/
def tickMove (img : Image) (t : ImTile) (n : Nat) (ags : List AddrGen) : List AddrGen × Bool :=
  (issues t).foldl (fun (x : List AddrGen × Bool) e =>
    if isFixedIm img && decide (n < stageAt t e.1) then x
    else let y := wordMove (isFixedIm img) e.2.2 x.1; (y.1, x.2 && y.2.2)) (ags, true)

/-- Every access from ARM on, tick after tick or pass after pass, n of them. -/
def runMove (img : Image) (t : ImTile) : Nat → Nat → List AddrGen → Bool
  | 0, _, _ => true
  | k + 1, n, ags =>
    let y := tickMove img t n ags
    y.2 && runMove img t k (n + 1) (y.1.map fun g => if isFixedIm img then agTickEdge true g else agPassStart g)

/-- Ticks after which the generators of a tile repeat: the filling of the stages, then the common period of its FIFOs and histories. -/
def moveSpan (t : ImTile) : Nat :=
  maxL (t.words.zipIdx.map fun (_, i) => stageAt t i) + 2 +
    t.ags.foldl (fun m g => match g.mode with | .fifo | .history => Nat.lcm m (max g.depth 1) | _ => m) 1

/-- The generators as they are loaded, at rest in region 0 (R113). -/
def agsAtRest (t : ImTile) : List AddrGen := (List.range 4).map fun k => { imAg t k with sel := false, ptr := 0, aux := 0, wc := 0 }

/-- No two accesses of a cycle meet in a bank, and no fixed-zone FIFO underruns or overruns (R120). -/
def banksOk (img : Image) (t : ImTile) : Bool := (issues t).isEmpty || runMove img t (moveSpan t) 0 (agsAtRest t)

/-- The accesses of a tile that use generator k: first phase and access. -/
def usesOf (t : ImTile) (k : Nat) : List (Nat × Access) :=
  (issues t).flatMap fun e => ((accessesOf e.2.2).filter fun a => a.ag == k).map fun a => (e.2.1, a)

/-- A plain offset lies in the region; a history is written STRIDE times a tick, and read within its slots and lines, the current slot 2 gc or
more after the line was written; LUT and gather regions have at most 8,192 entries (R114 to R116). -/
def addressesOk (t : ImTile) (k : Nat) : Bool :=
  let g := imAg t k
  let us := usesOf t k
  match g.mode with
  | .plain => us.all fun u => !u.2.ofs || u.2.write || decide (u.2.off < g.len)
  | .history =>
    let ws := us.filter (·.2.write)
    (us.isEmpty || ws.length == g.stride.toNat) && us.all fun u => u.2.write ||
      (let d := bits u.2.off 15 6
       let l := bits u.2.off 5 0
       decide (d < g.depth ∧ l < g.stride.toNat) && (d != 0 || match ws[l]? with | some x => decide (x.1 + 2 ≤ u.1) | none => false))
  | .lut | .gather => decide (g.len ≤ 8192)
  | _ => true

/-- A queue: LEN = DEPTH, its lines within one bank, and no other generator of the tile in that bank (R117). -/
def queueOk (t : ImTile) (k : Nat) : Bool :=
  let g := imAg t k
  g.mode != .queue || (g.len == g.depth && decide (8 * g.depth ≤ 65536) &&
    (List.range 4).all fun j => j == k || (usesOf t j).isEmpty ||
      (let h := imAg t j
       let touches (b : Nat) : Bool :=
         if h.mode == .lut || h.mode == .gather || h.mode == .queue then b % 8 == g.base0 % 8
         else decide ((g.base0 + 8 - b % 8) % 8 < regionSize h)
       !touches h.base0))

/- Queues of tier two (R170, R172). -/

/-- The cycles at which the producer of a loop asks for lines or sends a word (R150, R151, R157). -/
def loopAsks (img : Image) (l : ImLoop) : List Nat :=
  let t := imTileOf img { vq := l.pvq, col := l.pcol, row := l.prow }
  ((issues t).filter fun e => match l.kind with
    | .hbmRead | .hbmReadOther => wOpcode e.2.2 == 0xF0 || wOpcode e.2.2 == 0xF2
    | _ => (outsOf img t e.2.1 e.2.2).any fun o => bit o.dest 11).map (·.2.1)

/-- The cycles at which the consumer of a loop reads its queue. -/
def loopReads (img : Image) (l : ImLoop) : List Nat :=
  ((usesOf (imTileOf img { vq := l.cvq, col := l.ccol, row := l.crow }) l.ag).filter (!·.2.write)).map (·.1)

/-- The round-trip bound B of a loop kind (R167). -/
def loopB : LoopKind → Nat
  | .expressSame => 8 | .expressOther => 30 | .hbmRead => 324 | .hbmReadOther => 335 | .hbmWrite => 96 | .fabric => 24 | .verdict => 0

/-- Each read of a queue is scheduled B and the line's position after the request that fills it (R170). A request is taken to bring the
longest count that the loop declares, since the counts are data of the pass (DESIGN CHOICE, log 141). -/
def readsTimely (img : Image) (l : ImLoop) : Bool :=
  match l.kind with
  | .hbmWrite | .fabric | .verdict => true
  | _ =>
    let n := match l.kind with | .hbmRead | .hbmReadOther => max l.maxLines 1 | _ => 1
    let asks := loopAsks img l
    (loopReads img l).zipIdx.all fun (x, j) => match asks[j / n]? with
      | some r => decide (r + loopB l.kind + j % n ≤ x)
      | none => false

/-- In tier two a FIFO that the section's own words fill is read, in schedule order, only after it has been written (R172). -/
def writtenFirst (img : Image) (t : ImTile) (k : Nat) : Bool :=
  let us := usesOf t k
  isFixedIm img || (imAg t k).mode != .fifo || !us.any (·.2.write) ||
    us.zipIdx.all fun (u, n) => u.2.write || (let before := us.take n
      decide ((before.filter (!·.2.write)).length < (before.filter fun y => y.2.write).length))

end Sys2Proof.Machine
end

