-- ==== Sys2Proof/Machine/ImagePlace.lean ====
section
/-!
DEFINITION. The loader's checks of an image beside the sections on the part: slot tables and lane switches (06 R163 to R165), neighbour joins
(06 R159), credit loops and their graph (06 R167 to R176), and the conflicts of a swap (07 R187).
-/

namespace Sys2Proof.Machine

/- Slots (R163, R164). -/

/-- An access number of a lane: the four of a horizontal lane, the 24 of a vertical one, and the die port (R161). -/
def accessOk (lane a : Nat) : Bool := a == 24 || (if lane < 8 then decide (a < 4) else decide (a < 24))

/-- Two accesses of two lanes are one access point (R161, R163). -/
def samePoint (l a m b : Nat) : Bool := a != 24 && b != 24 && accessSite l a == accessSite m b

/-- One slot entry by itself (R163). -/
def slotOk (img : Image) (e : ImSlot) : Bool :=
  decide (e.lane < 16 ∧ e.idx < 1024 ∧ e.vq < img.vq) && e.readers != 0 && accessOk e.lane e.writer &&
  (setBits 25 e.readers).all (accessOk e.lane) && decide (e.readers < 2 ^ 25) && (e.elastic == (img.kind == 1)) &&
  (!e.elastic || popc 25 e.readers == 1)

/-- Two entries of one index: not one slot twice, and no access point that writes two lanes or takes from two (R163). -/
def slotsApart (e f : ImSlot) : Bool :=
  e.vq != f.vq || e.idx != f.idx ||
  (e.lane != f.lane && !samePoint e.lane e.writer f.lane f.writer &&
    (setBits 25 e.readers).all fun a => (setBits 25 f.readers).all fun b => !samePoint e.lane a f.lane b)

/-- The slot entries of an image alone (R163). -/
def slotsOk (img : Image) : Bool :=
  img.slots.all (slotOk img) && img.slots.zipIdx.all fun (e, i) => img.slots.zipIdx.all fun (f, j) => i == j || slotsApart e f

/-- The slot indices at which a word arrives that was put at an index (R162, R164). In the fixed class an index stands for each phase of the
tick that has it. -/
def arrivalIdx (img : Image) (idx : Nat) : List Nat :=
  if isFixedIm img then ((List.range (ceilDiv (period img) 1024)).map (fun k => idx + 1024 * k)).filterMap fun p =>
    if p < period img then some ((p + 11) % period img % 1024) else none
  else [(idx + 11) % 1024]

/-- The lane switch entries of an image alone: another quadrant, and a die-port slot of the destination lane at the arrival (R164). -/
def switchesOk (img : Image) : Bool :=
  img.switches.all fun e => decide (e.vq < img.vq ∧ e.lane < 16 ∧ e.idx < 1024 ∧ e.dlane < 16) && e.vq != e.dvq && decide (e.dvq < img.vq) &&
    (arrivalIdx img e.idx).all fun k => img.slots.any fun f => f.vq == e.dvq && f.lane == e.dlane && f.idx == k && f.writer == 24

/-- An image's slot is claimed by another section (R163). -/
def slotTaken (s : State) (others a : List Nat) (e : ImSlot) : Bool :=
  others.any fun h => (secAt s h).img.slots.any fun f => f.lane == e.lane && f.idx == e.idx && (secAt s h).place[f.vq]? == a[e.vq]?

/- Loops (R167, R168, R172, R176). -/

/-- D is at least ceil(B rho), and at least the longest request of an HBM read; the lines of an HBM write and of a fabric port have the
credits of R167 (R167, R168). The buffer of a loop that ends in a queue is that queue. -/
def loopOk (img : Image) (l : ImLoop) : Bool :=
  let q := imAg (imTileOf img { vq := l.cvq, col := l.ccol, row := l.crow }) l.ag
  decide (ceilDiv (loopB l.kind * l.num) (max l.den 1) ≤ l.d) &&
  (match l.kind with
    | .hbmRead | .hbmReadOther => decide (l.maxLines ≤ l.d) && q.depth == l.d
    | .expressSame | .expressOther => q.depth == l.d
    | .hbmWrite => l.d == 64
    | .fabric => l.d == 32
    | .verdict => true)

/-- D is at least ceil(S rho) at a join (R176). -/
def joinOk (j : ImJoin) : Bool := decide (ceilDiv (j.skew * j.num) (max j.den 1) ≤ j.d)

/-- Nodes that one node reaches within n edges. -/
def reach (edges : List (Nat × Nat)) : Nat → List Nat → List Nat
  | 0, l => l
  | n + 1, l => reach edges n ((l ++ (edges.filter fun e => l.contains e.1).map (·.2)).eraseDups)

/-- The edges of a section's loops in the credit-dependency graph: to the tier-two queue (node 16) by a verdict, to the fabric link layer (node
18) by its fabric port. HBM loops add none, nor does an express loop, which starts and ends in the section (R172). The acquisition engine
(node 19) sends to no section. -/
def loopEdges (h : Nat) (img : Image) : List (Nat × Nat) :=
  img.loops.filterMap fun l => match l.kind with
    | .verdict => some (h, 16)
    | .fabric => some (h, 18)
    | _ => none

/-- The credit-dependency graph with the new section (node 17) has no directed cycle (R172). -/
def acyclic (s : State) (img : Image) : Bool :=
  let edges := ((residents s).filter fun h => !isFixed (secAt s h)).flatMap (fun h => loopEdges h (secAt s h).img) ++ loopEdges 17 img
  (List.range 20).all fun h => !(reach edges 20 ((edges.filter fun e => e.1 == h).map (·.2))).contains h

/- Joins between sections (R159). -/

/-- A section's image with its tiles as they stand on the part: a virtual quadrant is its physical one. -/
def standing (x : Sec) : Image := { x.img with tiles := x.placed }

/-- A word of a tile that the section executes at cycle x takes what is on an input port. -/
def takesPort (img : Image) (t : ImTile) (side : Nat) (x : Int) : Bool :=
  match wordAt img t x with
  | none => false
  | some (_, _, w) =>
    decide (8 ≤ sideDir (wRoute w) side) || ((List.range 4).any fun k => sideDir (wRoute w) k == side + 1) ||
    (!isIdle (wOpcode w) && (operandsOf t w).any fun f => bits f 15 12 == side + 1)

/-- A tile drives an output port at cycle x. -/
def drivesPort (img : Image) (t : ImTile) (side : Nat) (x : Int) : Bool :=
  let d := dirAt img t side x
  decide (1 ≤ d ∧ d ≤ 7) || (emerging img t x).any fun e => bit e.2.dest (15 - side)

/-- The sections at a physical site with their tiles: the resident one, and those staged over it. -/
def sectionsAt (s : State) (q col row : Nat) : List (Sec × ImTile) :=
  (residents s ++ stagedSecs s).filterMap fun h =>
    (imTile? (standing (secAt s h)) { vq := q, col := col, row := row }).map fun t => (secAt s h, t)

/-- What a tile drives over the border of its section, or takes from beyond it, is named by both images, both of fixed-path sections. A word
driven towards a tile of no section goes nowhere (R159). -/
def borderOk (s : State) (img : Image) (a : List Nat) (t : ImTile) (e : Nat × Nat × BitVec 128) : Bool :=
  let q := a.getD t.vq 0
  let across (side : Nat) (alone : Bool) (ok : Image → ImTile → Nat → Bool) : Bool := match neighbour t.col t.row side with
    | none => true
    | some (c, r) =>
      (imTile? img { vq := t.vq, col := c, row := r }).isSome ||
      (let l := sectionsAt s q c r
       (alone && l.isEmpty) || (isFixedIm img && l.any fun (y, u) => isFixed y && ok (standing y) u ((side + 2) % 4)))
  let out (side : Nat) (x : Int) : Bool := across side true fun y u k => takesPort y u k (x + 1)
  let take (side : Nat) (x : Int) : Bool := across side false fun y u k => drivesPort y u k (x - 1)
  let idle := isIdle (wOpcode e.2.2)
  ((if idle then [] else outsOf img t e.2.1 e.2.2).all fun o => (List.range 4).all fun side =>
    !bit o.dest (15 - side) || out side (e.2.1 + o.off : Nat)) &&
  ((wRoute e.2.2 == 0 && idle) || (rangeFrom e.2.1 (wSpan e.2.2)).all fun (x : Nat) => (List.range 4).all fun side =>
    (!takesPort img t side x || take side x) && (!decide (1 ≤ sideDir (wRoute e.2.2) side ∧ sideDir (wRoute e.2.2) side ≤ 7) || out side x))

/- Conflicts of a swap (R187). -/

/-- What a word holds in a cycle: a site or a lane by number, a resource of it, the cycle from the edge of the tick in which the word executes,
and its stage. -/
structure Hold where
  key : Nat
  res : Nat
  ph : Nat
  sg : Nat
  deriving DecidableEq, Repr

/-- The banks that an access may take. -/
def banksOf (t : ImTile) (a : Access) : List Nat :=
  let g := imAg t a.ag
  match g.mode with
  | .lut | .gather | .queue => [g.base0 % 8]
  | .plain => if a.ofs && !a.write then [(g.base0 + a.off) % 8] else List.range 8
  | _ => List.range 8

/-- What the words of a section's tiles hold: output ports 0 to 3, hold registers 4 and 5, scale buffers 6 to 9, the express put 10, the output
path 11 and the scale-word sender 12 of a special-function tile, and banks from 20 on (R120, R128, R129, R155, R158); lanes by the slots of
the words put on them (R163). -/
def holdsOf (img : Image) (slotQuad : Nat → Nat) : List Hold :=
  img.tiles.flatMap fun t => (placed t).flatMap fun e =>
    let key := siteNo t.vq t.col t.row
    let sg := stageAt t e.1
    let sends := if isIdle (wOpcode e.2.2) then [] else (outsOf img t e.2.1 e.2.2).flatMap fun o =>
      let at_ (res : Nat) : Hold := { key := key, res := res, ph := e.2.1 + o.off, sg := sg }
      ((List.range 4).filter fun side => bit o.dest (15 - side)).map at_ ++
      (if bit o.dest 10 then [at_ (4 + bnat (bit o.dest 9))] else []) ++
      (if bit o.dest 11 then at_ 10 :: (img.slots.filter fun f => slotQuad f.vq == t.vq && f.idx == idxOf img (e.2.1 + o.off : Nat) &&
          f.writer != 24 && accessSite f.lane f.writer == (t.col, t.row)).map fun f => { at_ 0 with key := 4096 + 16 * t.vq + f.lane } else []) ++
      (if siteClass t.col t.row = some .function then [at_ (if o.scale then 12 else 11)] else [])
    let routes := if wRoute e.2.2 = 0 then [] else (rangeFrom e.2.1 (wSpan e.2.2)).flatMap fun x => (List.range 4).flatMap fun side =>
      let d := sideDir (wRoute e.2.2) side
      let at_ (res : Nat) : Hold := { key := key, res := res, ph := x, sg := sg }
      (if d = 0 then [] else [at_ side]) ++ (if 8 ≤ d then [at_ (d - 4)] else [])
    let banks := if isIdle (wOpcode e.2.2) then [] else (accessesOf e.2.2).flatMap fun a => (banksOf t a).map fun b =>
      { key := key, res := 20 + b, ph := e.2.1, sg := sg : Hold }
    sends ++ routes ++ banks

/-- Words of an outgoing and of an incoming section hold one thing in one cycle after E(T_s), both live: the outgoing word for a tick before
T_s, the incoming one for T_s or a later one (R186, R187). -/
def meetAfter (ii : Nat) (o i : Hold) : Bool :=
  o.key == i.key && o.res == i.res && o.ph % ii == i.ph % ii && decide ((i.sg : Int) + ((i.ph : Int) - o.ph) / ii < o.sg)

/-- The sections that a staged image stands over. -/
def standsOver (s : State) (tiles : List ImTile) : List Nat :=
  (residents s).filter fun h => (secAt s h).placed.any fun t => tiles.any fun u => u.vq == t.vq && u.col == t.col && u.row == t.row

/-- Some word of an image has MIXED = 1 (R185, R186). -/
def anyMixed (img : Image) : Bool := img.tiles.any fun t => t.stage.any fun v => bit v 15

/-- The first conflict of the clean swap that a staging names (R187). tiles are those of the image as they would be written, a its place. -/
def swapConflict (s : State) (img : Image) (a : List Nat) (tiles : List ImTile) : Option Hold :=
  let outs := (standsOver s tiles).filter fun h => isFixed (secAt s h)
  if !isFixedIm img || anyMixed img || outs.any fun h => anyMixed (secAt s h).img then none
  else
    let ins := holdsOf { img with tiles := tiles } fun v => a.getD v 0
    let old := outs.flatMap fun h => holdsOf (standing (secAt s h)) fun v => (secAt s h).place.getD v 0
    ins.find? fun i => old.any fun o => meetAfter (period img) o i

end Sys2Proof.Machine
end

