-- ==== Sys2Proof/Machine/Loader.lean ====
section
/-!
DEFINITION. The loader (07 R192 to R202): the checks of R196 in the order of their codes, mapping, placement and patching, and the
writing of the image.
-/

namespace Sys2Proof.Machine

/- Refusals (R197). -/

/-- A refusal: check code, status, and the fields of R197. -/
structure Refuse where
  code : Nat
  status : Nat
  vq : Nat := 0xFF
  site : Nat := 0xFF
  idx : Nat := 0xFFFF
  res : Nat := 0
  short : List Nat := [0, 0, 0, 0]
  shortQ : Nat := 0
  shortR : Nat := 0
  deriving DecidableEq, Repr

/-- The 20 bytes of R197. -/
def refuseBytes (r : Refuse) : List Byte :=
  le 2 r.code ++ le 1 r.vq ++ le 1 r.site ++ le 2 r.idx ++ le 2 r.res ++ (List.range 4).flatMap (fun k => le 2 (r.short.getD k 0)) ++
  le 2 r.shortQ ++ le 2 r.shortR

/-- A check that refuses where b is false. -/
def need (b : Bool) (r : Refuse) : Option Refuse := if b then none else some r

/-- A refusal that names an index of a tile (R197). -/
def refuseAt (code : Nat) (t : ImTile) (i : Nat) : Refuse :=
  { code := code, status := stBadImage, vq := t.vq, site := t.col * 16 + t.row, idx := i }

/-- A check of every item of every tile: the first item that fails gives the index. -/
def everyItem {α : Type} (code : Nat) (img : Image) (items : ImTile → List (Nat × α)) (ok : ImTile → Nat × α → Bool) : Option Refuse :=
  img.tiles.findSome? fun t => ((items t).find? fun x => !ok t x).map fun x => refuseAt code t x.1

/-- A check of every tile as a whole. -/
def everyTile (code : Nat) (img : Image) (ok : ImTile → Bool) : Option Refuse := (img.tiles.find? fun t => !ok t).map fun t => refuseAt code t 0xFFFF

/-- The items of a list with their indices. -/
def numbered {α : Type} (l : List α) : List (Nat × α) := l.zipIdx.map fun x => (x.2, x.1)

/-- A check of every accumulation, which the index of its REQ word names. -/
def everyAccum (code : Nat) (img : Image) (ok : Accum → Bool) : Option Refuse := ((accums img).find? fun a => !ok a).map fun a => refuseAt code a.t a.i

/-- The stores of an image tile as the tile holds them (R97, R100, R107, R113, R126). -/
def storeTile (im : ImTile) (t : Tile) : Tile :=
  { t with
    ws := im.weights.foldl (fun m w => tsetAll (fun _ => 0#64) m (64 * w.unit) w.words) t.ws
    cc := im.ccon.foldl (fun m e => tsetAll (fun _ => 0#64) m (64 * e.1) e.2) t.cc
    rdesc := im.rdesc.foldl (fun m e => tset (fun _ => {}) m e.1 e.2) t.rdesc
    tbl := im.table.foldl (fun m e => tset (fun _ => 0#64) m e.1 e.2) t.tbl
    mem := im.mem.foldl (fun m e => tset (fun _ => {}) m e.1 e.2) t.mem }

/- Spans and stages (R182, R185). -/

/-- The spans add up to II or the pass compute time, at most 1,024 words, a stage entry for each (R182, R185). -/
def spansOk (img : Image) (t : ImTile) : Bool :=
  decide (t.words.length ≤ 1024 ∧ t.stage.length = t.words.length) &&
  sumL (t.words.map wSpan) == (if img.kind = 0 then img.ii else img.passTime)

/-- A stage-array entry by itself (R185). -/
def stageOk (img : Image) (t : ImTile) (e : Nat × Nat × BitVec 128) : Bool :=
  let v := t.stage.getD e.1 0
  decide (bits v 10 0 ≤ 1535) && bits v 14 11 == 0 && decide (v < 65536) && (img.kind == 0 || v == 0) &&
  (!(isIdle (wOpcode e.2.2) && wRoute e.2.2 == 0) || v == 0)

/- Mapping (R193, R194). -/

/-- Physical positions of a line (in SKIP order) whose tiles have failed (R409). -/
def failedOn (s : State) (q k : Nat) : List Nat := (List.range 9).filter fun p => healthAt s (160 * q + lineBase k + p) / 64 == 2

/-- A line has a working map unless two of its tiles have failed (R194). -/
def lineWorks (s : State) (q k : Nat) : Bool := decide ((failedOn s q k).length ≤ 1)

/-- A quadrant may hold sections: ACTIVE or IDLE and not the standby (R193, R393). -/
def quadMay (s : State) (q : Nat) : Bool := (quadAt s q == .active || quadAt s q == .idle) && s.dev.standby != some q

/-- A virtual site of a quadrant can take a tile: it has a working map, and is free or, for staging, not staged already (R193). -/
def siteMay (s : State) (staging : Bool) (q col row : Nat) : Bool :=
  (siteClass col row).isSome &&
  (match lineOfSite col row with | some (k, _) => lineWorks s q k | none => healthAt s (160 * q + ioIndex col row) / 64 != 2) &&
  ((tileAt s q col row).owner == 0xFF ||
    (staging && !((stagedSecs s).any fun h => (secAt s h).placed.any fun t => t.vq == q && t.col == col && t.row == row)))

/-- Every assignment of n virtual quadrants to distinct physical ones, in lexicographic order (R193). -/
def assignments : Nat → List (List Nat)
  | 0 => [[]]
  | n + 1 => (assignments n).flatMap fun a => ((List.range 4).filter fun q => !a.contains q).map fun q => a ++ [q]

/-- An assignment fits: every quadrant and site may take its part. -/
def assignOk (s : State) (staging : Bool) (img : Image) (a : List Nat) : Bool :=
  a.all (quadMay s) && img.tiles.all fun t => match a[t.vq]? with | some q => siteMay s staging q t.col t.row | none => false

/-- The assignments to try: the one PLACE gives, else all. -/
def candidates (img : Image) (place : Nat) : List (List Nat) :=
  if place = 0xFFFFFFFF then assignments img.vq else [(List.range img.vq).map fun k => bits place (8 * k + 7) (8 * k)]

def findPlace (s : State) (staging : Bool) (img : Image) (place : Nat) : Option (List Nat) := (candidates img place).find? (assignOk s staging img)

/-- PLACE is well formed (R193). -/
def placeOk (img : Image) (place : Nat) : Bool :=
  place == 0xFFFFFFFF ||
  (let a := (List.range img.vq).map fun k => bits place (8 * k + 7) (8 * k)
   a.all (· < 4) && a.length == a.eraseDups.length)

/-- Sites of each class that sections may use: matrix, memory, special function, I/O. -/
def sitesFree (s : State) (staging : Bool) : List Nat :=
  let sites := (List.range 4).flatMap fun q => if quadMay s q then
    (List.range 12).flatMap fun c => ((List.range 12).filter fun r => siteMay s staging q c r).filterMap fun r => siteClass c r else []
  [(sites.filter (· == .matrix)).length, (sites.filter (· == .memory)).length, (sites.filter (· == .function)).length,
   (sites.filter fun k => k != .matrix && k != .memory && k != .function).length]

/- Placement of stores (R195). -/

/-- The lowest place of size units at a multiple of align, clear of the ranges in use; the compiled place where it is free. -/
def placeOne (cap : Nat) (used : List (Nat × Nat)) (old size align : Nat) : Option Nat :=
  let clear (b : Nat) : Bool := decide (b + size ≤ cap) && used.all fun u => decide (b + size ≤ u.1 ∨ u.1 + u.2 ≤ b)
  if clear old then some old else ((List.range (cap / max align 1)).map (· * align)).find? clear

/-- Places for a list of items (first, size, align): the map from compiled to given places, none where one does not fit. -/
def placeList (cap : Nat) : List (Nat × Nat) → List (Nat × Nat × Nat) → Option (List (Nat × Nat))
  | _, [] => some []
  | used, (old, size, align) :: l =>
    match placeOne cap used old size align with
    | none => none
    | some b => (placeList cap ((b, size) :: used) l).map ((old, b) :: ·)

/-- A map's answer for a compiled number. -/
def mapped (m : List (Nat × Nat)) (k : Nat) : Nat := match m.find? (·.1 == k) with | some (_, v) => v | none => k

/-- A common shift, a multiple of step, that moves numbered items clear of those in use (R195). -/
def shiftFor (cap step : Nat) (used items : List Nat) : Option Nat :=
  ((List.range (cap / step)).map (· * step)).find? fun k => items.all fun i => decide (i + k < cap) && !used.contains (i + k)

/-- Ranges of memory lines that a tile uses: the lines it starts with, and both regions of every generator (R113, R195). -/
def memRanges (t : ImTile) : List (Nat × Nat) :=
  t.mem.map (fun e => (e.1, 1)) ++ t.ags.flatMap fun g => [(g.base0, regionSize g), (g.base1, regionSize g)]

/-- A common shift, a multiple of 8 lines, that moves the ranges of a tile clear of those in use (R195). -/
def rangeShift (used items : List (Nat × Nat)) : Option Nat :=
  ((List.range 8192).map (· * 8)).find? fun k => items.all fun i => used.all fun u => !linesMeet ((i.1 + k) % 65536) i.2 u.1 u.2

/-- Where the stores of one tile go: weights, constants, descriptors, scale entries, and the shifts of table units and lines. -/
structure TileMap where
  w : List (Nat × Nat) := []
  c : List (Nat × Nat) := []
  d : List (Nat × Nat) := []
  e : List (Nat × Nat) := []
  tbl : Nat := 0
  mem : Nat := 0

/-- Entries that an incoming point inherits stay where they are (R93). -/
def ownPoints (im : ImTile) : List ScalePt := im.points.filter fun p => p.inherit.isNone

/-- The map of a tile over what other sections use of it, or the RESOURCE that falls short and by how much (R195, R197). -/
def mapTile (used : List ImTile) (im : ImTile) : Except (Nat × Nat) TileMap :=
  let uw := used.flatMap fun t => t.weights.map fun w => (w.unit, setUnits w)
  let uc := used.flatMap fun t => t.ccon.map fun e => (e.1, 1)
  let ud := used.flatMap fun t => t.rdesc.map fun e => (e.1, 1)
  let ue := used.flatMap fun t => t.points.map fun p => (p.entry, 1)
  let ut := used.flatMap fun t => t.table.map (·.1)
  let um := used.flatMap memRanges
  let dcap := match siteClass im.col im.row with | some .function => 16 | _ => 64
  let above (cap n m : Nat) : Nat := n + m - cap
  match placeList 384 uw (im.weights.map fun w => (w.unit, setUnits w, max (setUnits w) 1)),
        placeList 96 uc (im.ccon.map fun e => (e.1, 1, 1)),
        placeList dcap ud (im.rdesc.map fun e => (e.1, 1, 1)),
        placeList 512 ue ((ownPoints im).map fun p => (p.entry, 1, 1)),
        shiftFor 4096 32 ut (im.table.map (·.1)), rangeShift um (memRanges im) with
  | none, _, _, _, _, _ => .error (2, above 384 (sumL (uw.map (·.2))) (sumL (im.weights.map setUnits)))
  | _, none, _, _, _, _ => .error (3, above 96 uc.length im.ccon.length)
  | _, _, none, _, _, _ => .error (4, above dcap ud.length im.rdesc.length)
  | _, _, _, none, _, _ => .error (5, above 512 ue.length (ownPoints im).length)
  | _, _, _, _, none, _ => .error (6, above 4096 ut.length im.table.length)
  | _, _, _, _, _, none => .error (7, above 65536 (sumL (um.map (·.2))) (sumL ((memRanges im).map (·.2))))
  | some w, some c, some d, some e, some tb, some m =>
    .ok { w := w, c := c, d := d, e := e ++ (im.points.filterMap fun p => p.inherit.map fun old => (p.entry, old)), tbl := tb, mem := m }

/-- A schedule word with bits [hi:lo] set. -/
def wset (w : BitVec 128) (hi lo v : Nat) : BitVec 128 :=
  BitVec.ofNat 128 (w.toNat - wbits w hi lo * 2 ^ lo + v % 2 ^ (hi + 1 - lo) * 2 ^ lo)

/-- The fields of R195 patched, and CHECK written again. -/
def patchWord (m : TileMap) (scores windows : List Nat) (w : BitVec 128) : BitVec 128 :=
  let op := wOpcode w
  let w1 :=
    if op = 0 ∨ op = 1 then wset (wset w 47 39 (mapped m.w (wbits w 47 39))) 38 32 (mapped m.c (wbits w 38 32))
    else if op = 8 then wset (wset w 31 26 (mapped m.d (wbits w 31 26))) 40 32 (mapped m.e (wbits w 40 32))
    else if op = 0x80 ∨ op = 0x81 then wset w 47 32 (wbits w 47 32 + m.tbl)
    else if op = 0xF0 ∨ op = 0xF1 then wset w 41 32 (windows.getD (wbits w 41 32) 0)
    else if op = 0xE8 then wset w 37 32 (scores.getD (wbits w 37 32) 0)
    else w
  let w2 := if isN w then wset w1 27 24 (mapped m.d (wbits w1 27 24)) else w1
  if w2 = w then w else writeCheck w2

/-- A tile of the image as it is written at physical quadrant q. -/
def placeTile (m : TileMap) (q : Nat) (scoreMap windows : List Nat) (t : ImTile) : ImTile :=
  { t with
    vq := q
    words := t.words.map (patchWord m scoreMap windows)
    weights := t.weights.map fun w => { w with unit := mapped m.w w.unit }
    ccon := t.ccon.map fun e => (mapped m.c e.1, e.2)
    rdesc := t.rdesc.map fun e => (mapped m.d e.1, { e.2 with cci := mapped m.c e.2.cci })
    points := t.points.map fun p => { p with entry := mapped m.e p.entry }
    table := t.table.map fun e => (e.1 + m.tbl, e.2)
    ags := t.ags.map fun g => { g with base0 := (g.base0 + m.mem) % 65536, base1 := (g.base1 + m.mem) % 65536 }
    mem := t.mem.map fun e => ((e.1 + m.mem) % 65536, e.2) }

/-- What other sections hold of a site. -/
def usedAt (s : State) (q col row : Nat) : List ImTile :=
  (residents s ++ stagedSecs s).flatMap fun h => (secAt s h).placed.filter fun t => t.vq == q && t.col == col && t.row == row

/-- Free numbers for the compiled ones: the same where free, else the lowest free (R195). -/
def freeNumbers (cap : Nat) (used wanted : List Nat) : Option (List Nat) :=
  (placeList cap (used.map (·, 1)) (wanted.map (·, 1, 1))).map fun m => m.map (·.2)

/-- Score blocks and HBM windows other sections hold. A window-table entry is free when it is not valid. -/
def scoresUsed (s : State) : List Nat := (residents s ++ stagedSecs s).flatMap fun h => (secAt s h).scores
def windowsUsed (s : State) : List Nat :=
  (residents s ++ stagedSecs s).flatMap (fun h => (secAt s h).windows) ++
  ((s.regs.filter fun e => decide (0x40000 ≤ e.1 ∧ e.1 < 0x44000 ∧ e.1 % 16 = 8) && bit e.2.toNat 15).map fun e => (e.1 - 0x40000) / 16)

/-- A slot entry's place in the tables (R163). -/
def slotNo (q lane bank idx : Nat) : Nat := ((16 * q + lane) * 2 + bank) * 1024 + idx

/- The plan of a load: the checks in order, then where everything goes. -/

/-- What a load that passes writes. -/
structure LoadPlan where
  place : List Nat
  tiles : List ImTile
  scores : List Nat
  windows : List Nat
  h : Nat

/-- Checks 0x0101 to 0x0105: the file, its words, spans and stages (R196). -/
def fileChecks (s : State) (img : Image) : List (Option Refuse) :=
  let bad (code : Nat) (b : Bool) : Option Refuse := need b { code := code, status := stBadImage }
  [bad 0x0101 (headerOk img),
   bad 0x0102 (img.digest == imageDigest img),
   need (decide (img.runtimeMin ≤ s.grid.runtime)) { code := 0x0103, status := stVersion },
   everyItem 0x0104 img placed fun _ e => schedRead e.2.2 == .good e.2.2,
   everyTile 0x0105 img (spansOk img),
   everyItem 0x0105 img placed (stageOk img),
   everyItem 0x0105 img placed fun t e => !isFixedIm img || stageFound img t e,
   bad 0x0105 (isFixedIm img || decide (1 ≤ img.passTime ∧ img.passTime ≤ 16777216))]

/-- Checks 0x0201 to 0x0203: opcodes and fields, formats, weights and constants (R196). -/
def fieldChecks (fe : Fe) (img : Image) : List (Option Refuse) :=
  let fixed := isFixedIm img
  let cls (t : ImTile) : Option TileClass := siteClass t.col t.row
  [everyItem 0x0201 img placed fun t e =>
     (match cls t with | some k => (classOps k fixed).contains (wOpcode e.2.2) | none => false) && fieldsOk fixed t e.2.2 && forwardsOk t e.2.2,
   everyItem 0x0201 img (fun t => numbered t.ags) fun _ g => agOk fixed g.2,
   everyItem 0x0201 img issues fun t e => sendsOk img t e && pathOk img t e && reqEntryOk t e.2.2,
   everyItem 0x0201 img issues fun t e => resaddOk fe img t e && scoreOk img t e,
   everyItem 0x0202 img issues fun _ e => formatsOk e.2.2,
   everyItem 0x0202 img (fun t => numbered t.rdesc) fun t d => descFormatsOk (cls t == some .function) d.2.2,
   everyAccum 0x0202 img fun a => expsOk a && foldsOk a,
   everyItem 0x0203 img (fun t => numbered t.weights) fun _ w => weightSetOk w.2,
   everyItem 0x0203 img issues fun t e => !decide (wOpcode e.2.2 ≤ 1) || (setOf t e.2.2).isSome,
   everyItem 0x0203 img (fun t => numbered t.ccon) fun t e => cconOk t e.2.1 e.2.2,
   need (entriesAgree img) { code := 0x0203, status := stBadImage }]

/-- Checks 0x0204 to 0x0208: overflow, reductions, sums, scale points, data blocks and their timing (R196). -/
def sumChecks (s : State) (img : Image) : List (Option Refuse) :=
  let cls (t : ImTile) : Option TileClass := siteClass t.col t.row
  [everyAccum 0x0204 img (overflowOk s.fe img),
   everyAccum 0x0205 img fun a => decide (accumRows a ≤ 16384),
   need (csumsOk img) { code := 0x0206, status := stBadImage },
   everyAccum 0x0206 img (sumsThere img),
   everyItem 0x0207 img (fun t => numbered t.rdesc) fun t d => rdescOk (cls t == some .function) d.2.2,
   everyItem 0x0207 img (fun t => numbered t.points) fun _ p => decide (p.2.entry < 512 ∧ p.2.group < 64) && scaleEntryOk p.2.e,
   everyAccum 0x0208 img fun a => oneBlock s.fe img a && blockSize s.fe img a,
   everyItem 0x0208 img issues fun t e => reqSpaced img t e && feedsOk s.fe (alignOf s) img t e,
   everyTile 0x0208 img fun t => scalesOk img t && (!isFixedIm img || (List.range 64).all (groupSpaced img t))]

/-- Every sum that a tier-two word takes in is one the schedule makes (R175). -/
def sumsMade (img : Image) (t : ImTile) (e : Nat × Nat × BitVec 128) : Bool := (sumTicks img t e).all (·.isSome)

/-- Checks 0x0209 to 0x020B and 0x020D to 0x0210: latencies, arrivals, memory, slots, queues (R196). border: check 0x020C. -/
def flowChecks (s : State) (img : Image) (border : Option Refuse) : List (Option Refuse) :=
  let fixed := isFixedIm img
  let bad (code : Nat) (b : Bool) : Option Refuse := need b { code := code, status := stBadImage }
  [bad 0x0209 (img.latency.all fun e => declaredLatency.contains e),
   everyItem 0x020A img issues fun t e => tagBitsOk fixed t e.2.2 && (if fixed then arrivalsOk img t e else sumsMade img t e),
   everyItem 0x020B img issues fun t e => oncePerCycle t e.2.2,
   everyItem 0x020B img (fun t => numbered t.ags) fun t g => addressesOk t g.1 && queueOk t g.1,
   everyTile 0x020B img (banksOk img),
   border,
   bad 0x020D (slotsOk img && switchesOk img),
   everyItem 0x020D img issues fun t e => !fixed || trafficOk img t e,
   bad 0x020E (img.loops.all (loopOk img) && img.joins.all joinOk),
   bad 0x020E (img.loops.all (readsTimely img)),
   bad 0x020F (img.nondet || img.tiles.all fun t => t.rdesc.all fun e => e.2.out.rnd != .srEntropy),
   bad 0x0210 (!fixed || decide (latencyFound (alignOf s) img ≤ img.lSec ∧ img.lSec ≤ 8192))]

/-- Check 0x020C, at the place that the mapping would give; where there is none, check 0x0402 refuses. -/
def borderCheck (s : State) (staging : Bool) (r : LoadReq) : Option Refuse :=
  match findPlace s staging r.img r.place with
  | none => none
  | some a => everyItem 0x020C r.img placed (borderOk s r.img a)

/-- The checks on the image, 0x0101 to 0x0210, in the order of their codes (R196). -/
def imageChecks (s : State) (staging : Bool) (r : LoadReq) : List (Option Refuse) :=
  fileChecks s r.img ++ fieldChecks s.fe r.img ++ sumChecks s r.img ++ flowChecks s r.img (borderCheck s staging r)

/-- L_max in force (R23). -/
def lMax (s : State) : Nat :=
  maxL ((residents s).filterMap fun h => let x := secAt s h; if isFixed x && !x.scores.isEmpty then some x.img.lSec else none)

/-- The decision latency with the new section resident (R23). -/
def newDecision (s : State) (img : Image) : Nat :=
  max s.comb.cCycle (if img.kind = 0 && !img.scores.isEmpty then alignOf s + 36 + img.lSec else 0) + 12

/-- Every FAB_RX issues in the cycle GIVE of its entry, and the entry of every FAB_TX takes 2 gc after its issue (R327, R341). -/
def fabIoOk (s : State) (img : Image) : Bool :=
  img.tiles.all fun t => (List.range t.words.length).all fun i =>
    let w := t.words.getD i 0#128
    let x := t.stage.getD i 0 % 2048 * iiOf s + sumL ((List.range i).map fun j => wSpan (t.words.getD j 0#128))
    let e := (s.fab.act.fslot.find? fun e => e.1 == bits (wImm w) 11 0).map (·.2)
    (wOpcode w != 0xF9 || e.any fun e => decide (e.out = 0 ∧ e.give = x)) &&
    (wOpcode w != 0xF8 || e.any fun e => decide (e.inp = 0 ∧ e.take = x + 2))

/-- The checks against the configuration, 0x0301 to 0x0304 (R196, R302). -/
def configChecks (s : State) (staging : Bool) (img : Image) : List (Option Refuse) :=
  let par (code : Nat) (b : Bool) : Option Refuse := need b { code := code, status := stParam }
  [par 0x0301 (img.kind == 1 || (img.ii == iiOf s && rateOk s (iiOf s) (periodOf s))),
   par 0x0302 (if staging then !(img.kind == 0 && !img.scores.isEmpty) || decide (img.lSec ≤ lMax s) else decide (newDecision s img ≤ 12288)),
   par 0x0303 ((img.feeds.all fun f => f.groups.all fun g => (groupAt s.fe g.1).set) && (!img.needsRing || ringOn s) && (!c1Mode s || imageC1Ok img)),
   par 0x0304 ((img.fslots.all fun n => s.fab.act.fslot.any fun e => e.1 == n) && fabIoOk s img &&
     (img.routes.all fun n => s.fab.act.epoint.any fun e => e.1 == n) && (img.fslots.isEmpty || s.fab.member))]

/-- The refusal of a swap conflict: the site, or the lane as an index (R187, R197). -/
def conflictAt (a : List Nat) (c : Hold) : Refuse :=
  let r : Refuse := { code := 0x0405, status := stNoFit, res := 11, shortR := 1 }
  let vq (q : Nat) : Nat := (a.idxOf? q).getD 0xFF
  if c.key < 4096 then { r with vq := vq (c.key / 256), site := c.key % 256 } else { r with vq := vq ((c.key - 4096) / 16), idx := c.key % 16 }

/-- The checks of resources, 0x0401 to 0x0406, and what they give (R193 to R197). -/
def fitImage (s : State) (staging : Bool) (r : LoadReq) : Except Refuse LoadPlan :=
  let img := r.img
  let fit (code res shortR : Nat) : Refuse := { code := code, status := stNoFit, res := res, shortR := shortR }
  match (List.range 16).find? fun h => !(secAt s h).resident && !(secAt s h).staged with
  | none => .error (fit 0x0401 12 1)
  | some h =>
    match findPlace s staging img r.place with
    | none =>
      let have_ := sitesFree s staging
      let quads := ((List.range 4).filter (quadMay s)).length
      .error { fit 0x0402 1 (sumL ((List.range 4).map fun k => img.tileCounts.getD k 0 - have_.getD k 0)) with
        short := (List.range 4).map fun k => img.tileCounts.getD k 0 - have_.getD k 0, shortQ := img.vq - quads }
    | some a =>
      let qOf (t : ImTile) : Nat := a.getD t.vq 0
      let ims := filledTiles img
      match ims.foldlM (fun l t => match mapTile (usedAt s (qOf t) t.col t.row) t with
          | .ok m => Except.ok (l ++ [m])
          | .error (res, n) => .error { fit 0x0403 res n with vq := t.vq, site := t.col * 16 + t.row }) [] with
      | .error e => .error e
      | .ok maps =>
        match freeNumbers 64 (scoresUsed s) img.scores, freeNumbers 1024 (windowsUsed s) (List.range img.windows.length) with
        | none, _ => .error (fit 0x0404 8 ((scoresUsed s).length + img.scores.length - 64))
        | _, none => .error (fit 0x0404 9 ((windowsUsed s).length + img.windows.length - 1024))
        | some sc, some wins =>
          match (if staging then [] else img.slots).find? (slotTaken s (residents s) a) with
          | some e => .error { fit 0x0404 10 1 with vq := e.vq, idx := e.idx }
          | none =>
            let scoreMap := (List.range 64).map fun b => match img.scores.idxOf? b with | some i => sc.getD i b | none => b
            let tiles := (ims.zip maps).map fun (t, m) => placeTile m (qOf t) scoreMap wins t
            match if staging then swapConflict s img a tiles else none with
            | some c => .error (conflictAt a c)
            | none =>
              if !acyclic s img then .error { code := 0x0406, status := stBadImage }
              else match everyItem 0x0406 img (fun t => numbered t.ags) fun t g => writtenFirst img t g.1 with
                | some e => .error e
                | none => .ok { place := a, scores := sc, windows := wins, h := h, tiles := tiles }

/-- Quadrants whose shadow banks a maintenance activity holds (R428, R429). -/
def shadowClaimed (s : State) (q : Nat) : Bool :=
  s.flt.takeover.isSome || s.flt.remaps.any (fun r => r.q == q) || quadAt s q == .waking

/-- Every check from 0x0101 on, in order. -/
def loadPlan (s : State) (staging : Bool) (r : LoadReq) : Except Refuse LoadPlan :=
  match (imageChecks s staging r ++ configChecks s staging r.img).findSome? id with
  | some x => .error x
  | none => fitImage s staging r

/- Writing (R192, R195). -/

/-- A generator as it is loaded: SEL is 0, and its state at rest (R113). -/
def agLoaded (g : AddrGen) : AddrGen := { g with sel := false, ptr := 0, aux := 0, wc := 0, latch := {}, poisoned := false }

/-- Group registers of the points of a tile. -/
def membersOf (im : ImTile) : Tbl Nat := im.points.foldl (fun m p => cset m p.entry (p.group + 1)) []

/-- Writes one placed tile into the active or the shadow bank. -/
def writeTile (h : Nat) (staging : Bool) (im : ImTile) (s : State) : State :=
  let t := storeTile im (tileAt s im.vq im.col im.row)
  let b := if staging then 1 - t.bank % 2 else t.bank
  let clearBank (m : Tbl (BitVec 128)) : Tbl (BitVec 128) := m.filter fun e => e.1 / 1024 != b
  let t := { t with
    tsw := tsetAll (fun _ => 0#128) (clearBank t.tsw) (wordNo b 0) im.words
    stage := (im.stage.zipIdx).foldl (fun m (v, i) => cset m (wordNo b i) v) (t.stage.filter fun e => e.1 / 1024 != b)
    scal := (ownPoints im).foldl (fun m (p : ScalePt) => tset (fun _ => zeroScale) m p.entry (armPoint p.e)) t.scal }
  setTile im.vq im.col im.row (if staging then { t with ags2 := im.ags.map agLoaded, member2 := membersOf im }
    else { t with ags := im.ags.map agLoaded, member := membersOf im, owner := h }) s

/-- Writes the slots and lane switches of an image into one bank (R163, R164). -/
def writeSlots (bank : Nat) (a : List Nat) (img : Image) (s : State) : State :=
  let slots := img.slots.foldl (fun m e => tset (fun _ => {}) m (slotNo (a.getD e.vq 0) e.lane bank e.idx)
    { valid := true, elastic := e.elastic, writer := e.writer, readers := e.readers }) s.grid.slots
  let sw := img.switches.foldl (fun m e => tset (fun _ => (0, 0)) m ((16 * a.getD e.vq 0 + e.lane) * 1024 + e.idx) (a.getD e.dvq 0, e.dlane + 1))
    s.grid.switches
  { s with grid := { s.grid with slots := slots, switches := sw } }

/-- SKIP of a line with one failed tile becomes that tile's position before tiles are placed there (R194). -/
def settleSkip (p : LoadPlan) (s : State) : State :=
  let lines := p.tiles.filterMap fun t => (lineOfSite t.col t.row).map fun e => 16 * t.vq + e.1
  lines.eraseDups.foldl (fun t k => match failedOn t (k / 16) (k % 16) with
    | [f] => setSkip (k / 16) (k % 16) f t
    | _ => t) s

/-- STALL_LIMIT: the exponent of the command, or the image's where it is 0 (R174, R190, log 30). -/
def stallOf (r : LoadReq) : Nat := 2 ^ (if r.stallExp = 0 then r.img.stallExp else r.stallExp)

/-- A load that passed is written: tiles, slots, section (R192 to R195). -/
def writeImage (staging : Bool) (r : LoadReq) (p : LoadPlan) (s0 : State) : State :=
  let s := p.tiles.foldl (fun t im => writeTile p.h staging im t) (settleSkip p s0)
  let s := if staging then s else writeSlots s.grid.slotBank p.place r.img s
  let seed := if r.seed = 0 then r.img.seed else r.seed
  let s := setSec p.h { resident := !staging, staged := staging, img := r.img, placed := p.tiles, place := p.place, seed := seed, stallLimit := stallOf r, scores := p.scores, windows := p.windows } s
  if staging then s else recomputeC s

/-- A tile of the plan whose read-back fails, where the plan maps it (R192, R194). -/
def readBackBad (s : State) (r : LoadReq) (p : LoadPlan) : Option (Nat × Nat) :=
  let s := settleSkip p s
  (p.tiles.map fun t => (t.vq, physIndex s t.vq t.col t.row)).find? fun x => r.readBad.contains x

/-- The tile is marked failed in the health map (R192, R409). -/
def failTile (x : Nat × Nat) (s : State) : State := setStatus (160 * x.1 + x.2) 2 s

/-- The loader: at most one second try of the mapping after a read-back that fails (R192). -/
def runLoader (s : State) (staging : Bool) (r : LoadReq) : State × Except Refuse LoadPlan :=
  match loadPlan s staging r with
  | .error e => (s, .error e)
  | .ok p => match readBackBad s r p with
    | none => (writeImage staging r p s, .ok p)
    | some x =>
      let s := failTile x s
      match loadPlan s staging r with
      | .error e => (s, .error { e with status := stNoFit })
      | .ok p => match readBackBad s r p with
        | none => (writeImage staging r p s, .ok p)
        | some y => (failTile y s, .error { code := 0x0402, status := stNoFit, res := 1, shortR := 1 })

/-- The reply of a load: handle, then score blocks and windows (R195; DESIGN CHOICE, log 23). -/
def loadResult (p : LoadPlan) : List Byte :=
  le 1 p.h ++ le 1 p.scores.length ++ le 2 p.windows.length ++ ((p.place ++ [255, 255, 255, 255]).take 4).flatMap (fun x => le 1 x) ++
  p.scores.flatMap (fun x => le 1 x) ++ p.windows.flatMap (fun x => le 2 x)

end Sys2Proof.Machine
end

