-- ==== Sys2Proof/Machine/TierTwo.lean ====
section
/-!
DEFINITION. Tier two: how a parison ends, what its tick takes from it, and how a pass ends (09 R257 to R264, R514; 01 R11, R33).
-/

namespace Sys2Proof.Machine

/-- Outcomes of a parison (R33, R261). -/
inductive ParEnd where
  | accept | reject | expired | suspect
  deriving DecidableEq, Repr

/-- The counter of R33 that an outcome raises; a suspect pass is split by the line's policy on doubt. -/
def parCtr (e : ParEnd) (policy : Bool) : Nat :=
  match e with | .accept => 8 | .reject => 9 | .expired => 10 | .suspect => if policy then 11 else 12

/-- The parison ends in an accept, on its verdict or on doubt (R11). -/
def parAccepts (e : ParEnd) (policy : Bool) : Bool := e == .accept || (e == .suspect && policy)
/-- The parison makes its tick void unless another accepts (R11). -/
def parVoids (e : ParEnd) (policy : Bool) : Bool := e == .expired || (e == .suspect && !policy)

/-- The tick of an ended parison takes its outcome with the last one (R11, R247, R261). -/
def pendEnd (t : Nat) (acc void : Bool) (s : State) : State :=
  match s.comb.pend.find? (fun e => e.1 == t) with
  | none => s
  | some (_, p) =>
    let p := { p with left := p.left - 1, acc := p.acc || acc, void := p.void || void }
    if 0 < p.left then { s with comb := { s.comb with pend := tins (tdel s.comb.pend t) t p } }
    else
      let s := { s with comb := { s.comb with pend := tdel s.comb.pend t } }
      if p.accepted then s else addCnt (outcomeCtr (pendOutcome p)) 1 (decCnt 6 s)

/-- Per-class counters (R265). -/
def clsCount (c k : Nat) (s : State) : State := { s with t2 := { s.t2 with cls := cadd 32 s.t2.cls (8 * c + k) 1 } }

/-- A tier-two accept whose template is disabled makes no record (R266). -/
def deliverStart (c : Nat) (x : Ctx) (doubt : Bool) (s : State) : State :=
  if x.tpl.en then setCtx c { x with st := .deliver, doubt := x.doubt || doubt, suspect := doubt } s
  else addCnt 31 1 (setCtx c {} s)

/-- The parison of a context ends (R261): counters, its tick, its context. -/
def parEnd (c : Nat) (e : ParEnd) (s : State) : State :=
  let x := ctxAt s c
  let s := decCnt 13 (addCnt (parCtr e x.accept) 1 s)
  let s := pendEnd x.tick (parAccepts e x.accept) (parVoids e x.accept) s
  if parAccepts e x.accept then deliverStart c x (e == .suspect) s else setCtx c {} s

/-- A queued candidate ends expired with a cause: 0 deadline, 1 ring, 2 no section (R260, R264, R310). -/
def expireCtx (c cause : Nat) (s : State) : State :=
  let x := ctxAt s c
  let s := logAdd { type := 9, tick := x.tick, body := le 1 x.line ++ le 1 cause } s
  parEnd c .expired (clsCount x.cls (1 + cause) s)

/- Sections and passes. -/

/-- Sites of a section's tiles: quadrant, column, row (R195). -/
def sitesOf (x : Sec) : List (Nat × Nat × Nat) := x.placed.map fun t => (t.vq, t.col, t.row)

/-- Changes every tile of a section. -/
def mapTiles (h : Nat) (f : Tile → Tile) (s : State) : State :=
  (sitesOf (secAt s h)).foldl (fun t p => setTile p.1 p.2.1 p.2.2 (f (tileAt t p.1 p.2.1 p.2.2)) t) s

/-- Newest word of each register or buffer slot, to be readable from cycle 0 of the next pass (R154). -/
def newestRuns (l : List Run) : List Run :=
  ((l.map (·.port)).eraseDups.filterMap fun p => (l.filter (fun r => r.port == p)).foldl (fun (b : Option Run) r =>
    match b with | none => some r | some x => if x.a ≤ r.a then some r else some x) none).map fun r => { r with a := 0, b := 0 }

/-- Newest contents of each accumulator. -/
def newestAccs (l : List ChainAt) : List ChainAt :=
  (l.map (·.n)).eraseDups.filterMap fun n => ((l.filter (fun x => x.n == n)).getLast?).map fun x => { x with cyc := 0 }

/-- A tile between passes: what stays in its registers and stores is read from cycle 0 of the next pass; words in flight are gone
(R169, R514). -/
def tileRebase (t : Tile) : Tile :=
  { t with
    inbox := [], outs := [], chain := [], chainOut := [], routes := [], greg := [], greg2 := []
    hr := newestRuns t.hr
    sbuf := t.sbuf.map fun r => { r with a := 0, b := 0 }
    accs := newestAccs t.accs
    mem := t.memNew.foldl (fun m w => tset (fun _ => {}) m w.line w.l) t.mem
    memNew := []
    token := { t.token with vis := 0 }
    poisonTo := 0 }

/-- A tile's queues, FIFOs and hold registers reset (R174, R514). -/
def tileReset (t : Tile) : Tile :=
  { tileRebase t with
    hr := [], sbuf := [], token := {}, kept := []
    ags := t.ags.map fun g => match g.mode with
      | .fifo | .queue => { g with ptr := 0, aux := 0, poisoned := false }
      | _ => agPassStart g }

/-- The generators and registers at the first cycle of a pass (R114). -/
def tilePassStart (t : Tile) : Tile := { tileRebase t with ags := t.ags.map agPassStart }

/-- A word owed to a section by its credit loops (R514). -/
def owedWords (s : State) (h : Nat) : Nat := sumL ((s.grid.asks.filter fun a => a.h == h).map (·.lines.length))

/-- A pass under way ends suspect or expired before its verdict (R261, R514): the outcome now, the tiles idle, the section
resets at its boundary. -/
def abandonPass (h : Nat) (e : ParEnd) (s : State) : State :=
  let p := passAt s h
  match p.ctx with
  | none => s
  | some c =>
    let s := if e == .expired then clsCount (ctxAt s c).cls 2 (logAdd { type := 9, tick := (ctxAt s c).tick, body := le 1 (ctxAt s c).line ++ le 1 1 } s) else s
    setPass h { passAt (parEnd c e s) h with ctx := none, abandoned := true, stallCyc := satAdd 64 p.stallCyc p.freeze } (parEnd c e s)

/-- The pass ends with a verdict code: 0 reject, 1 accept, others suspect (R261). x is the cycle at which it reaches the queue. -/
def endPass (h v x : Nat) (s : State) : State :=
  let p := passAt s h
  match p.ctx with
  | none => s
  | some c =>
    let e : ParEnd := if v = 1 then .accept else if v = 0 then .reject else .suspect
    let s := parEnd c e s
    let frozen := x - 1 - p.start - (secAt s h).img.passTime
    setPass h { p with ctx := none, verdict := none, boundary := x - 1, stallCyc := satAdd 64 p.stallCyc frozen } s

/-- A pass runs (R258). -/
def running (s : State) (h : Nat) : Bool := (passAt s h).ctx.isSome
/-- No section runs a pass. -/
def noPass (s : State) : Bool := (residents s).all fun h => !running s h

/-- Candidates queued for a section (R258). -/
def queuedFor (s : State) (h : Nat) : List (Nat × Ctx) := s.t2.ctxs.filter fun e => e.2.st == .queued && e.2.handle == h

/-- The dispatch order of R259: class, tick, priority, line. -/
def ctxBefore (a b : Nat × Ctx) : Bool :=
  if a.2.cls ≠ b.2.cls then decide (a.2.cls < b.2.cls)
  else if a.2.tick ≠ b.2.tick then decide (a.2.tick < b.2.tick)
  else if a.2.prio ≠ b.2.prio then decide (b.2.prio < a.2.prio)
  else decide (a.2.line ≤ b.2.line)

/-- The candidate R259 chooses. -/
def bestOf (l : List (Nat × Ctx)) : Option (Nat × Ctx) :=
  l.foldl (fun b x => match b with | none => some x | some y => if ctxBefore y x then some y else some x) none

/-- The deep ring no longer holds the tick: overwritten, or earlier than T_start (R151, R260). In C1 timing mode the gather buffer
stands for the ring (R302). -/
def ringGone (s : State) (t : Nat) : Bool :=
  if c1Mode s then
    (match s.fe.gather.head? with | some e => decide (t < e.1) | none => true)
  else
    decide (t < s.acq.tStart.getD 0) || (match s.acq.newest with | some w => decide (t + ringDepth s ≤ w) | none => false)

/-- Every candidate queued for a handle ends with X_NO_SECTION (R264). -/
def expireAll (h : Nat) (s : State) : State := (queuedFor s h).foldl (fun t e => expireCtx e.1 2 t) s

/-- The registers as they stand for tick t: the value before an edge later than t (R250). -/
def regFor (s : State) (t off : Nat) : Nat :=
  match s.comb.oldRegs.find? (fun e => e.2.1 == off && decide (t < e.1)) with
  | some e => e.2.2
  | none => regAt s off

end Sys2Proof.Machine
end

