-- ==== Sys2Proof/Machine/Sections.lean ====
section
/-!
DEFINITION. Resident sections: removal, swaps (07 R186 to R189), slot tables, the start of a run (03 R73, R91), and digests
(11 R304 to R307).
-/

namespace Sys2Proof.Machine

/- Tiles. -/

/-- The scale-state entries of a placed tile leave their groups. -/
def dropPoints (im : ImTile) (t : Tile) : Tile := { t with member := im.points.foldl (fun m p => cset m p.entry 0) t.member }

/-- A tile whose section goes: it drives idle words (R189). -/
def freeTile (im : ImTile) (t : Tile) : Tile :=
  let t := dropPoints im t
  { t with
    owner := 0xFF, ags := [], held := false, poisonTo := 0
    inbox := [], outs := [], chain := [], routes := [], hr := [], sbuf := [], accs := [], token := {}
    tsw := t.tsw.filter fun e => e.1 / 1024 != t.bank % 2
    stage := t.stage.filter fun e => e.1 / 1024 != t.bank % 2 }

/-- Frees the tiles of a list. -/
def freeTiles (ims : List ImTile) (s : State) : State :=
  ims.foldl (fun t im => setTile im.vq im.col im.row (freeTile im (tileAt t im.vq im.col im.row)) t) s

/-- A tile that only an outgoing section of a swap uses goes, and exchanges its banks with the others of the swap (R186, R188). -/
def leaveTile (im : ImTile) (t : Tile) : Tile := let u := freeTile im t; { u with bank := 1 - t.bank % 2, member := [], greg := [] }

def leaveTiles (ims : List ImTile) (s : State) : State :=
  ims.foldl (fun t im => setTile im.vq im.col im.row (leaveTile im (tileAt t im.vq im.col im.row)) t) s

/-- A tile exchanges its banks and takes its incoming section (R186, R188): its points that have not begun do so now. The outgoing section's
entries leave their groups. -/
def installTile (h : Nat) (t : Tile) : Tile :=
  let u := t.starts2.foldl (fun t x => startPoint x t) t
  { u with bank := 1 - t.bank % 2, owner := h, ags := t.ags2, ags2 := [], member := t.member2, member2 := [], greg := t.greg2, greg2 := []
           starts := [], starts2 := [], kept := [] }

def installTiles (h : Nat) (ims : List ImTile) (s : State) : State :=
  ims.foldl (fun t im => setTile im.vq im.col im.row (installTile h (tileAt t im.vq im.col im.row)) t) s

/-- The output of the point that writes an entry, by the REQ word that names it (R107, R108). -/
def pointOut (im : ImTile) (entry : Nat) : OutSpec :=
  match im.words.find? (fun w => wOpcode w == 8 && bits (wImm w) 8 0 == entry) with
  | some w => match im.rdesc.find? (fun d => d.1 == bits (wSel w) 15 10) with | some d => d.2.out | none => {}
  | none => {}

/-- The points of an incoming section stand ready to take over their entries (R93). -/
def readyPoints (im : ImTile) (t : Tile) : Tile := { t with starts2 := im.points.map fun p => (p, pointOut im p.entry) }

def readyAllPoints (ims : List ImTile) (s : State) : State :=
  ims.foldl (fun t im => setTile im.vq im.col im.row (readyPoints im (tileAt t im.vq im.col im.row)) t) s

/-- Points as they are once they have taken over their entries. -/
def startAllPoints (ims : List ImTile) (s : State) : State :=
  ims.foldl (fun t im => setTile im.vq im.col im.row
    ((im.points.map fun p => (p, pointOut im p.entry)).foldl (fun t x => startPoint x t) (tileAt t im.vq im.col im.row)) t) s

/- Slot tables (R163, R164). -/

/-- Empties one bank of every slot table. -/
def clearSlots (bank : Nat) (s : State) : State :=
  { s with grid := { s.grid with slots := s.grid.slots.filter fun e => e.1 / 1024 % 2 != bank } }

/-- Slot tables and lane switches as the resident sections have them: an incoming section of a swap under way in the shadow bank, an
outgoing one in the active bank only. -/
def rebuildSlots (s : State) : State :=
  let outs := match s.grid.swap with | some w => w.outs | none => []
  let act := (residents s).filter fun h => !(secAt s h).begun
  let nxt := (residents s).filter fun h => !outs.contains h
  let put (bank : Nat) (hs : List Nat) (t : State) : State := hs.foldl (fun t h => writeSlots bank (secAt t h).place (secAt t h).img t) (clearSlots bank t)
  let s := { s with grid := { s.grid with switches := [] } }
  put (1 - s.grid.slotBank % 2) nxt (put (s.grid.slotBank % 2) act s)

/-- A section is removed. -/
def dropSection (h : Nat) (s : State) : State :=
  rebuildSlots (setPass h {} (setSec h {} (freeTiles (secAt s h).placed s)))

/- Digests (R304 to R307). -/

/-- SCALE_DIGEST (R306). -/
def scaleDigest (s : State) (x : Sec) : BitVec 512 :=
  sha3Num (x.placed.flatMap fun im => im.points.flatMap fun p =>
    (scaleBytes (tget (fun _ => zeroScale) (tileAt s im.vq im.col im.row).scal p.entry)).take 46)

/-- The section's start edge: SCALE_DIGEST as its entries stand (R306). -/
def markStart (h : Nat) (s : State) : State := setSec h { secAt s h with scaleDigest := scaleDigest s (secAt s h), qblock := [], digests := [] } s

/-- The start edge of an incoming section of a clean swap: SCALE_DIGEST as its points take over their entries (R93, R306). -/
def markIncoming (h : Nat) (s : State) : State :=
  setSec h { secAt s h with scaleDigest := scaleDigest (startAllPoints (secAt s h).placed s) (secAt s h), qblock := [], digests := [] } s

/-- A link word as a digest takes it: 32 data bytes and 17 side-band bits (R305). -/
def linkWordBytes (w : LWord) : List Byte :=
  lineBytes w.data ++ le 4 (bnat w.v + 2 * bnat w.p + 4 * bnat w.k + w.tick % 256 * 8 + w.btag % 64 * 2048)

/-- A word enters QBLOCK of a tick or pass at its place in the order of R305 (R307). -/
def qblockAdd (h key ord : Nat) (w : LWord) (s : State) : State :=
  let x := secAt s h
  setSec h { x with qblock := x.qblock ++ [(key, ord, linkWordBytes w)] } s

/-- Words put in order, those of one place as they came. -/
def qblockInsert (x : Nat × Nat × List Byte) (l : List (Nat × Nat × List Byte)) : List (Nat × Nat × List Byte) :=
  match l with
  | [] => [x]
  | y :: r => if x.2.1 ≤ y.2.1 then x :: y :: r else y :: qblockInsert x r

/-- The result digest of a tick or pass is kept, the last 4,096 of them (R304, R307). key names the tick or pass, tick the TICK field. -/
def qblockClose (h key tick : Nat) (s : State) : State :=
  let x := secAt s h
  let q := ((x.qblock.filter fun e => e.1 == key).foldr qblockInsert []).flatMap fun e => e.2.2
  let d := sha3Num (le 64 x.img.digest.toNat ++ le 64 (weightDigest x.img).toNat ++ le 64 x.scaleDigest.toNat ++ q ++ le 8 tick)
  setSec h { x with
    qblock := x.qblock.filter (fun e => e.1 != key)
    digests := lastN 4096 (tins (tdel x.digests key) key (BitVec.ofNat 512 (d.toNat % 2 ^ 256))) } s

/-- A fixed-path section carries digests only within its budget (R307). -/
def digestAble (s : State) (h : Nat) : Bool := !isFixed (secAt s h) || decide (36 * qblockWords (secAt s h).img ≤ 192 * iiOf s)

/-- The tiles' stores still hold what the image placed in them (R306). -/
def storesMatch (s : State) (h : Nat) : Bool :=
  (secAt s h).placed.all fun im =>
    let t := tileAt s im.vq im.col im.row
    let u := storeTile im t
    t.ws == u.ws && t.cc == u.cc && t.rdesc == u.rdesc && t.tbl == u.tbl

/- Lines of memory tiles (R122, R123). -/

/-- The physical site of a section's virtual one. -/
def siteIn (s : State) (hd vq col row : Nat) : Option (Nat × Nat × Nat) :=
  match (secAt s hd).place[vq]? with
  | some q => if (sitesOf (secAt s hd)).contains (q, col, row) && (secAt s hd).resident then some (q, col, row) else none
  | none => none

/-- A line as the newest write left it. -/
def lineNow (t : Tile) (line : Nat) : MLine :=
  match (t.memNew.filter fun w => w.line == line).getLast? with
  | some w => w.l
  | none => tget (fun _ => ({} : MLine)) t.mem line

/-- The line after a write of 8 bytes into its low word, or of 32 bytes. TILE_WRITE names no word of the line; the P bit and the tick tag
stay at a write of 8 bytes, and are 0 after one of 32 (DESIGN CHOICE, log 143). -/
def tileLineWritten (l : MLine) (data : List Byte) : MLine :=
  if data.length = 32 then { data := lineOf data }
  else { l with data := BitVec.ofNat 256 (l.data.toNat / 2 ^ 64 * 2 ^ 64 + unle data) }

/-- The ECC of a line that the host reads: counted, and recorded under tile, bank and row, as for a row's read (R112, R121, R400). -/
def hostEcc (hd q c r line : Nat) (ecc : Ecc) (s : State) : State :=
  let f : FaultRec := { code := 0x0108, sev := 3, quad := q, site := 16 * c + r, unit := line % 8, index := line / 8,
                        phys := physOf s q c r, section_ := hd }
  match ecc with
  | .ok => s
  | .corrected => corrected (64 * (160 * q + physIndex s q c r) + cMemCe) f (setTile q c r (tcount cMemCe 1 (tileAt s q c r)) s)
  | .bad => fault f (setTile q c r (tcount cMemUe 1 (tileAt s q c r)) s)

/-- A tile with a line written by the host: it replaces what the newest write left (R122). A write of 8 bytes reads the line it updates;
where that cannot be corrected, the line is poisoned (DESIGN CHOICE, log 150). -/
def putLine (line : Nat) (data : List Byte) (ecc : Ecc) (t : Tile) : Tile :=
  let old := lineNow t line
  let new : MLine := if ecc = .bad ∧ data.length ≠ 32 then { p := true, tick := old.tick } else tileLineWritten old data
  { t with mem := tset (fun _ => {}) t.mem line new, memNew := t.memNew.filter fun w => w.line != line }

/-- A line of a section's memory tile is written. -/
def writeTileLine (hd vq col row line : Nat) (data : List Byte) (ecc : Ecc) (s : State) : State :=
  match siteIn s hd vq col row with
  | none => s
  | some (q, c, r) =>
    let s := if data.length = 32 then s else hostEcc hd q c r line ecc s
    setTile q c r (putLine line data ecc (tileAt s q c r)) s

/-- The writes to a tier-two section that waited for its pass boundary take effect and become final (R123). -/
def serveWrites (hd : Nat) (s : State) : State :=
  s.ctl.waiting.foldl (fun t w => match w.eff with
    | .tile h vq col row line data ecc => if h = hd then finishLong w.jseq 0 0 [] (writeTileLine h vq col row line data ecc t) else t
    | _ => t) s

/- Swaps (R186 to R189). -/

def fixedOf (s : State) (hs : List Nat) : List Nat := hs.filter fun h => isFixed (secAt s h)
def tierOf (s : State) (hs : List Nat) : List Nat := hs.filter fun h => !isFixed (secAt s h)
/-- An image has a word with MIXED = 1 (R185). -/
def mixedImage (x : Sec) : Bool := x.placed.any fun t => t.stage.any fun v => bit v 15
/-- The largest STAGE of a section (R186). -/
def maxStage (x : Sec) : Nat := maxL (x.placed.map fun t => maxL (t.stage.map fun v => bits v 10 0))

/-- Tiles of outgoing sections that no incoming one uses. -/
def onlyOut (s : State) (outs ins : List Nat) : List ImTile :=
  let inSites := ins.flatMap fun h => sitesOf (secAt s h)
  (outs.flatMap fun h => (secAt s h).placed).filter fun t => !inSites.contains (t.vq, t.col, t.row)

/-- The exchange of banks of the fixed-path sections of a swap (R186, R188). -/
def exchangeFixed (outs ins : List Nat) (s : State) : State :=
  let s := leaveTiles (onlyOut s outs ins) s
  let s := ins.foldl (fun t h => setSec h { secAt t h with begun := false } (installTiles h (secAt t h).placed t)) s
  let s := outs.foldl (fun t h => setSec h {} t) s
  { s with grid := { s.grid with slotBank := 1 - s.grid.slotBank % 2 } }

/-- Scores of outgoing sections that have not reached the combiner input by cycle x are lost in a hard swap (R188). -/
def loseScores (outs : List Nat) (x : Nat) (s : State) : State :=
  let blocks := outs.flatMap fun h => (secAt s h).scores
  { s with comb := { s.comb with scores := s.comb.scores.filter fun e => !(blocks.contains (e.1 % 64) && decide (x < cget s.comb.scoreAt e.1)) } }

/-- One pair of tier-two sections changes (R189, R264). -/
def exchangePair (p : Option Nat × Option Nat) (s : State) : State :=
  match p with
  | (some o, some i) =>
    let x := secAt s i
    let s := leaveTiles (onlyOut s [o] [i]) (readyAllPoints x.placed s)
    let s := installTiles o x.placed s
    rebuildSlots (markStart o (setPass o { passAt s o with ctx := none, abandoned := false } (setSec i {} (setSec o { x with resident := true, staged := false } s))))
  | (none, some i) =>
    let x := secAt s i
    let s := installTiles i x.placed (readyAllPoints x.placed s)
    rebuildSlots (markStart i (setPass i { boundary := gcOf s (nowTick s) } (setSec i { x with resident := true, staged := false } s)))
  | (some o, none) => dropSection o (leaveTiles (secAt s o).placed (expireAll o s))
  | (none, none) => s

/-- Pairs in the order listed (R189). -/
def pairUp : List Nat → List Nat → List (Option Nat × Option Nat)
  | [], [] => []
  | o :: os, [] => (some o, none) :: pairUp os []
  | [], i :: is => (none, some i) :: pairUp [] is
  | o :: os, i :: is => (some o, some i) :: pairUp os is

/-- A pair whose outgoing section has a pass under way, or one not yet at its boundary, waits (R189). -/
def pairWaits (s : State) (p : Option Nat × Option Nat) : Bool :=
  match p.1 with | some o => running s o || (passAt s o).abandoned | none => false

/-- A swap takes effect at E(T_s) (R186 to R189). -/
def beginSwap (ts : Nat) (outs ins : List Nat) (s : State) : State :=
  let fo := fixedOf s outs
  let fi := fixedOf s ins
  let pairs := pairUp (tierOf s outs) (tierOf s ins)
  let sigma := maxL (fo.map fun h => maxStage (secAt s h))
  let clean := !((fo ++ fi).any fun h => mixedImage (secAt s h)) && decide (0 < sigma)
  let s := fi.foldl (fun t h =>
    markIncoming h (setSec h { secAt t h with resident := true, staged := false, begun := true } (readyAllPoints (secAt t h).placed t))) s
  let wait := pairs.filter (pairWaits s)
  let s := (pairs.filter fun p => !pairWaits s p).foldl (fun t p => exchangePair p t) s
  let s := if clean then s else exchangeFixed fo fi (loseScores fo (gcOf s ts) s)
  let sw : Swap := { ts := ts, outs := if clean then fo else [], ins := if clean then fi else [], endTick := ts + sigma, pairs := wait }
  let s := { s with grid := { s.grid with swap := if clean || !wait.isEmpty then some sw else none } }
  rebuildSlots s

/-- The swap is over when nothing of it is left. -/
def swapSettle (w : Swap) (s : State) : State :=
  rebuildSlots { s with grid := { s.grid with swap := if w.outs.isEmpty && w.ins.isEmpty && w.pairs.isEmpty then none else some w } }

/-- A tier-two section of a swap reaches its boundary (R189). -/
def swapBoundary (h : Nat) (s : State) : State :=
  match s.grid.swap with
  | none => s
  | some w => match w.pairs.find? (fun p => p.1 == some h) with
    | none => s
    | some p => swapSettle { w with pairs := w.pairs.filter (fun q => q != p) } (exchangePair p s)

/- ARM (R91, R115, R259). -/

/-- The tile counters that describe the hardware and not a run: CC_CE, CC_UE, SS_CE, SS_UE (R432, R475). -/
def hwCounts (c : Tbl Nat) : Tbl Nat := c.filter fun e => decide (24 ≤ e.1)

/-- A tile as a run starts: scale points cleared, history windows empty, the counters of runs at zero. What it holds of an earlier run in
its registers goes too, the token and histogram registers among them (DESIGN CHOICE, log 138). -/
def tileArm (im : ImTile) (t : Tile) : Tile :=
  { tileRebase t with
    hr := [], sbuf := [], accs := [], token := {}, descSat := [], multHigh := 0, multLow := 0, kept := [], cnt := hwCounts t.cnt, greg := [], bins := [], binsP := false
    ags := t.ags.map fun g => agArm (agPassStart g)
    scal := im.points.foldl (fun m (p : ScalePt) => tset (fun _ => zeroScale) m p.entry (armPoint (tget (fun _ => zeroScale) m p.entry))) t.scal }

/-- Every resident section as at ARM. -/
def armSections (s : State) : State :=
  (residents s).foldl (fun t h =>
    let t := (secAt t h).placed.foldl (fun t im => setTile im.vq im.col im.row (tileArm im (tileAt t im.vq im.col im.row)) t) t
    markStart h { t with grid := { t.grid with secs := tset (fun _ => {}) t.grid.secs h { secAt t h with credits := [], returning := [], qreq := 0 } } }) s

end Sys2Proof.Machine
end

