-- ==== Sys2Proof/Machine/StateImages.lean ====
section
/-!
DEFINITION. State images: what STATE_SAVE takes and what the ARM or RESUME edge puts back (11 R316, R317; 03 R94).
-/

namespace Sys2Proof.Machine

/-- The virtual site number of a placed tile: its virtual quadrant is the place of its physical one (R193, R316). -/
def virtSite (x : Sec) (im : ImTile) : Nat := siteNo ((x.place.idxOf? im.vq).getD 0) im.col im.row

/-- How far the loader moved a tile's memory lines (R195). -/
def memShift (x : Sec) (im : ImTile) : Nat :=
  match (x.placed.zip x.img.tiles).find? (fun e => e.1.vq == im.vq && e.1.col == im.col && e.1.row == im.row) with
  | some (p, i) => match p.ags.head?, i.ags.head? with | some a, some b => (a.base0 + 65536 - b.base0) % 65536 | _, _ => 0
  | none => 0

/-- Lines of the region in use of a generator (R113, R115). -/
def regionLines (g : AddrGen) : List Nat :=
  let n := if g.mode == .history then g.depth * g.stride.toNat else g.depth
  (List.range n).map fun k => fifoLine g k

/-- The lines a section keeps: of FIFO and history generators of a fixed-path section, all of a tier-two section (R316). -/
def keptLines (x : Sec) (t : Tile) : List (Nat × MLine) :=
  if isFixed x then
    ((t.ags.filter fun g => g.mode == .fifo || g.mode == .history).flatMap regionLines).map fun n => (n, tget (fun _ => {}) t.mem n)
  else t.mem

/-- One section's parts. -/
def saveSec (s : State) (h : Nat) : SecImage :=
  let x := secAt s h
  let per {α : Type} (f : ImTile → Tile → List α) : List α := x.placed.flatMap fun im => f im (tileAt s im.vq im.col im.row)
  { hd := h
    digest := x.img.digest
    seed := x.seed
    wdigest := weightDigest x.img
    scale := per fun im t => im.points.zipIdx.map fun (p, i) => (virtSite x im, i, tget (fun _ => zeroScale) t.scal p.entry)
    gens := if isFixed x then per fun im t => (t.ags.zipIdx.filter fun e => e.1.mode == .fifo || e.1.mode == .history).map fun e => (virtSite x im, e.2, e.1) else []
    lines := per fun im t => (keptLines x t).map fun e => (virtSite x im, (e.1 + 65536 - memShift x im) % 65536, e.2)
    seq := (passAt s h).seq }

/-- The state image of the device as it stands (R316). -/
def captureState (addr : Nat) (s : State) : StateImage :=
  let next := if s.dev.tP = 0 then (match s.comb.decided with | some d => d + 1 | none => 0) else s.dev.tP
  { addr := addr
    tNext := next
    config := configDigest s
    secs := (residents s).map (saveSec s)
    chans := s.fe.scale
    units := s.fe.units
    hold := s.fe.hold
    lines := s.comb.lines
    ghoLeft := s.comb.ghoTo + 1 - next
    level := s.acq.level
    sinceChange := s.acq.lastChange.map fun c => next - c
    lowRun := s.acq.lowRun
    ctxs := s.t2.ctxs
    pend := s.comb.pend
    cls := s.t2.cls
    cnt := s.comb.cnt
    lanes := s.fe.lanes.map fun e => (e.1, e.2.cnt)
    streamGaps := s.acq.streams.map fun e => (e.1, e.2.gaps)
    ladderTicks := s.acq.ladderTicks
    tiles := s.grid.tiles.map fun e => (e.1, e.2.cnt.filter fun c => decide (c.1 < 24)) }

/-- The 160-byte header (R316). STATE_DIGEST runs over the parts, whose bytes the spec does not lay out: a free value (log 17). -/
def stateHeader (i : StateImage) : List Byte :=
  le 4 0x54533243 ++ le 2 1 ++ le 2 8 ++ le 8 i.tNext ++ le 64 i.config.toNat ++ le 64 i.digest.toNat ++ List.replicate 16 0#8

/-- A saved section goes back into the resident one (R94, R317). -/
def secFits (s : State) (i : SecImage) : Bool :=
  let x := secAt s i.hd
  x.resident && x.img.digest == i.digest &&
  x.placed.all fun im => im.points.zipIdx.all fun (p, k) =>
    match i.scale.find? (fun e => e.1 == virtSite x im && e.2.1 == k) with
    | some (_, _, e) => sameScaleCfg e (tget (fun _ => zeroScale) (tileAt s im.vq im.col im.row).scal p.entry)
    | none => false

/-- Every check of STATE_RESTORE: its status, 0 where it passes (R317). -/
def restoreStatus (s : State) (i : StateImage) : Nat :=
  if !i.digestOk then stBadImage
  else if !(i.secs.map (·.hd) == residents s && i.secs.all (secFits s) && i.config == configDigest s &&
      i.chans.all fun e => sameScaleCfg e.2 (chanScale s.fe e.1)) then stParam
  else 0

/-- One tile of a restored section (R94, R317). -/
def restoreTile (noHist : Bool) (x : Sec) (i : SecImage) (im : ImTile) (t : Tile) : Tile :=
  let t := im.points.zipIdx.foldl (fun (t : Tile) (p, k) =>
    match i.scale.find? (fun e => e.1 == virtSite x im && e.2.1 == k) with
    | some (_, _, e) => { t with scal := tset (fun _ => zeroScale) t.scal p.entry (restoreScale noHist e (tget (fun _ => zeroScale) t.scal p.entry)) }
    | none => t) t
  if noHist then { t with ags := t.ags.map agArm }
  else
    let t := (i.gens.filter fun e => e.1 == virtSite x im).foldl (fun t e =>
      setAg t e.2.1 { agAt t e.2.1 with ptr := e.2.2.ptr, aux := e.2.2.aux, wc := e.2.2.wc }) t
    { t with mem := (i.lines.filter fun e => e.1 == virtSite x im).foldl (fun m e => tset (fun _ => {}) m ((e.2.1 + memShift x im) % 65536) e.2.2) t.mem }

def restoreSec (noHist : Bool) (s : State) (i : SecImage) : State :=
  let x := secAt s i.hd
  let s := x.placed.foldl (fun t im => setTile im.vq im.col im.row (restoreTile noHist x i im (tileAt t im.vq im.col im.row)) t) s
  markStart i.hd (setPass i.hd { passAt s i.hd with seq := i.seq } s)

/-- A tick of the saved run as the resumed one numbers it: what lay ahead of the saved run's next tick lies as far ahead of t
(R318). -/
def rebaseTick (next t k : Nat) : Nat := if k ≤ next then 0 else t + (k - next)

/-- The restored parts replace the clears of the edge of tick t (R317). -/
def applyRestore (i : StateImage) (noHist : Bool) (t : Nat) (s : State) : State :=
  let s := i.secs.foldl (restoreSec noHist) s
  let line (s : State) (n : Nat) (l : LineSt) : LineSt := { l with d := (lineSt s n).d, armedFrom := rebaseTick i.tNext t l.armedFrom }
  let lines := i.lines.foldl (fun m e => tset (fun _ => {}) m e.1 (line s e.1 e.2)) s.comb.lines
  { s with
    fe := { s.fe with
      scale := i.chans.foldl (fun m e => tset (fun _ => zeroScale) m e.1 (restoreScale noHist e.2 (chanScale s.fe e.1))) s.fe.scale
      units := i.units.foldl (fun m e => tset (fun _ => {}) m e.1 { e.2 with d := (unitAt s.fe e.1).d }) s.fe.units
      hold := i.hold
      lanes := i.lanes.foldl (fun m e => tset (fun _ => {}) m e.1 { (tget (fun _ => {}) m e.1 : LaneSt) with cnt := e.2 }) s.fe.lanes }
    comb := { s.comb with
      lines := lines, ghoFrom := t, ghoTo := if i.ghoLeft = 0 then 0 else t + i.ghoLeft - 1, cnt := i.cnt, pend := i.pend }
    t2 := { s.t2 with ctxs := i.ctxs, cls := i.cls }
    acq := { s.acq with
      level := i.level, levels := [(t, i.level)], lastChange := i.sinceChange.map (t - ·), lowRun := i.lowRun
      ladderTicks := i.ladderTicks
      streams := i.streamGaps.foldl (fun m e => tset (fun _ => {}) m e.1 { (tget (fun _ => {}) m e.1 : Stream) with gaps := e.2 }) s.acq.streams }
    grid := { s.grid with
      tiles := i.tiles.foldl (fun m e => tset (fun _ => {}) m e.1 { (tget (fun _ => {}) m e.1 : Tile) with cnt := e.2 ++ hwCounts (tget (fun _ => ({} : Tile)) m e.1).cnt }) s.grid.tiles }
    restoring := none }

end Sys2Proof.Machine
end

