-- ==== Sys2Proof/Machine/SectionCmd.lean ====
section
/-!
DEFINITION. Commands of class 0x02: sections, state images, tile access, probes, digests (14 R391).
-/

namespace Sys2Proof.Machine

/- SECTION_LOAD (R196). -/

/-- Quadrants a load may touch: those PLACE names, or all. -/
def placeQuads (r : LoadReq) : List Nat :=
  if r.place = 0xFFFFFFFF then List.range 4 else (List.range r.img.vq).map fun k => bits r.place (8 * k + 7) (8 * k)

/-- A swap is under way or waits for its tick (R196). -/
def swapPending (s : State) : Bool :=
  s.grid.swap.isSome || s.ctl.waiting.any fun w => match w.eff with | .swap _ _ => true | _ => false

/-- Every target quadrant that PLACE names may take tiles (R196). -/
def quadsReady (s : State) (r : LoadReq) : Bool :=
  r.place == 0xFFFFFFFF || (placeQuads r).all fun q => quadAt s q == .active || quadAt s q == .idle

/-- A load goes through the loader; it becomes final with the handle, or with the check that refuses it (R195 to R197). A command
queued for maintenance is already accepted. -/
def loadNow (r : LoadReq) (s : State) : Act :=
  match runLoader s (stAUP.contains s.dev.st) r with
  | (s2, .ok p) => { s := if s2.dev.st = .ready then setDev .loaded s2 else s2, result := loadResult p, jres := some (le 8 p.h) }
  | (s2, .error e) => { s := s2, status := e.status, detail := e.code, result := refuseBytes e }

/-- The DETAIL and result of a check before the image (R196, R197). -/
def loadFails (s : State) (status code : Nat) : Act := fails s status code (refuseBytes { code := code, status := status })

/-- The effect of a load on the log and the device state: the CMD entry with its annex (R310). -/
def loadLog (h : Hdr) (j : Nat) (r : LoadReq) (s : State) : State := logCmd (.load r) 0x201 h j (le 64 r.img.digest.toNat) s

/-- The checks of R196 in order, then the loader. A tile that fails its read-back stays marked whatever the reply (R192). -/
def loadAct (h : Hdr) (r : LoadReq) (j : Nat) (s : State) : Act :=
  if !stRLAUP.contains s.dev.st then loadFails s stState 2
  else if !placeOk r.img r.place || !(r.stallExp == 0 || decide (16 ≤ r.stallExp ∧ r.stallExp ≤ 32)) then fails s stParam
  else if !quadsReady s r then loadFails s stState 2
  else if swapPending s || !s.ctl.loadQueue.isEmpty then loadFails s stBusy 3
  else if (placeQuads r).any (shadowClaimed s) then
    if h.queue then { s := longCmd h 0x201 j { s with ctl := { s.ctl with loadQueue := s.ctl.loadQueue ++ [(j, h, r)] } }, wait := true }
    else loadFails s stMaint 4
  else
    let a := loadNow r s
    if a.status = 0 then { a with s := loadLog h j r a.s }
    else if r.readBad.isEmpty then a
    else { s := finishLong j a.status a.detail a.result (longCmd h 0x201 j a.s), wait := true }

/-- The oldest load that waited for maintenance is served (R196). -/
def serveLoads (s : State) : State :=
  match s.ctl.loadQueue with
  | [] => s
  | (j, h, r) :: rest =>
    if (placeQuads r).any (shadowClaimed s) then s
    else
      let s := { s with ctl := { s.ctl with loadQueue := rest } }
      let a := loadNow r s
      if a.status = 0 then finishLong j 0 0 a.result (loadLog h j r a.s)
      else finishLong j a.status a.detail a.result a.s

/-- SECTION_LOAD as the gate takes it: a source without control fails check 0x0001 (R196, R197). -/
def loadSpec : CmdSpec :=
  { op := 0x201, states := anySt, cfg := true, denied := (1, refuseBytes { code := 1, status := stNotOwner }) }

/-- SECTION_LOAD (R196). -/
def execSectionLoad (h : Hdr) (r : LoadReq) (s : State) : Host.Outcome State Fault Refusal :=
  goes (control loadSpec h (loadAct h r) s)

/-- SECTION_UNLOAD (R392): the last one leads back to READY. -/
def execSectionUnload (h : Hdr) (hd : Nat) (s : State) : Host.Outcome State Fault Refusal :=
  goes (control { op := 0x202, states := stRL } h (fun _ s =>
    if !(decide (hd < 16) && (secAt s hd).resident) then fails s stParam
    else
      let s := recomputeC (dropSection hd s)
      { s := if (residents s).isEmpty then setDev .ready s else s }) s)

/-- Sites of incoming sections are free or leave with an outgoing one; what other sections hold of the slot tables stays clear
(R163, R187). -/
def swapFits (s : State) (outs ins : List Nat) : Bool :=
  (ins.all fun i => (secAt s i).placed.all fun t =>
    let o := (tileAt s t.vq t.col t.row).owner
    o == 0xFF || outs.contains o) &&
  ins.all fun i => (secAt s i).img.slots.all fun e => !slotTaken s ((residents s).filter fun h => !outs.contains h) (secAt s i).place e

/-- The checks of a swap at acceptance (R186, R187, R196). -/
def swapCheck (outs ins : List Nat) (s : State) : Option (Nat × Nat) :=
  if !(outs.all fun h => decide (h < 16) && (secAt s h).resident) || !(ins.all fun h => decide (h < 16) && (secAt s h).staged) ||
      outs.length != outs.eraseDups.length || ins.length != ins.eraseDups.length then some (stParam, 0)
  else if swapPending s then some (stBusy, 0)
  else if !swapFits s outs ins then some (stNoFit, 0)
  else none

/-- SECTION_SWAP (R186). -/
def execSectionSwap (h : Hdr) (outs ins : List Nat) (s : State) : Host.Outcome State Fault Refusal :=
  goes (control { op := 0x203, states := stAUP, cfg := true } h
    (fun j s => tickCmd h 0x203 j (.swap outs ins) (swapCheck outs ins) (fun s => s) s) s)

/-- LOOP_LATE of each loop of a section (R178, R474). -/
def loopLates (s : State) (hd : Nat) : List Byte :=
  ((List.range (secAt s hd).img.loops.length).map fun k => cget s.t2.loopLate (64 * hd + k)).flatMap (le 4)

/-- SECTION_INFO: what the device holds of the section (R190), the report (R200), and LOOP_LATE after it (R474; layout: log 23). -/
def infoBytes (s : State) (hd : Nat) : List Byte :=
  let x := secAt s hd
  le 1 hd ++ le 1 (bnat x.resident + 2 * bnat x.staged + 4 * bnat x.stopped) ++
  le 1 x.place.length ++ ((x.place ++ [255, 255, 255, 255]).take 4).flatMap (fun q => le 1 q) ++ le 8 x.seed ++ le 8 x.stallLimit ++
  le 1 x.scores.length ++ le 2 x.windows.length ++ x.scores.flatMap (fun b => le 1 b) ++ x.windows.flatMap (fun w => le 2 w) ++
  reportBytes x.img (maxStage x) (mixedImage x) loopB ++ loopLates s hd

/-- SECTION_INFO (R200). -/
def execSectionInfo (h : Hdr) (hd : Nat) (s : State) : Host.Outcome State Fault Refusal :=
  goes (observe { op := 0x204, states := anySt } h (fun s =>
    if decide (hd < 16) && ((secAt s hd).resident || (secAt s hd).staged) then { s := s, result := (infoBytes s hd).take 4064 }
    else fails s stParam) s)

/-- Writes bytes through the window table. -/
def windowWrite (addr : Nat) (bs : List Byte) (s : State) : State :=
  (chunksOf s true (bs.length / 4096 + 2) addr 0 bs.length).foldl (fun t c => match c.1 with
    | .host a => send (.mem a (slice c.2.1 c.2.2 bs)) t
    | .hbm a => hbmWrite a (slice c.2.1 c.2.2 bs) t
    | .bad _ => t) s

/-- The weights of a resident section still match their digest; a mismatch records an S3 fault that names it (R306). -/
def verifyWeights (hd : Nat) (s : State) : State :=
  if storesMatch s hd then s else fault { code := 0x0106, sev := 3, section_ := hd } s

/-- The windows of a transfer allow it (R289). -/
def rangeOk (s : State) (write : Bool) (addr len : Nat) : Bool :=
  (chunksOf s write (len / 4096 + 2) addr 0 len).all (chunkOk s)

/-- STATE_SAVE (R316, R317); its result is the bytes moved. -/
def execStateSave (h : Hdr) (addr len : Nat) (s : State) : Host.Outcome State Fault Refusal :=
  goes (control { op := 0x205, states := [.loaded, .paused] } h (fun _ s =>
    if s.t2.ctxs.any fun e => e.2.st == .deliver then fails s stBusy
    else if saving s then fails s stBusy
    else if decide (len < 160) || !rangeOk s true addr len then fails s stParam
    else
      let s := (residents s).foldl (fun t hd => verifyWeights hd t) s
      let (d, s) := drawFree 512 s
      let i := { captureState addr s with digest := d }
      let s := windowWrite addr (stateHeader i) { s with images := i :: s.images.filter fun x => x.addr != addr }
      { s := s, result := le 8 len }) s)

/-- STATE_RESTORE (R317): what it found takes effect at the next ARM or RESUME edge. -/
def execStateRestore (h : Hdr) (img : StateImage) (noHist : Bool) (s : State) : Host.Outcome State Fault Refusal :=
  goes (control { op := 0x206, states := [.loaded, .paused], cfg := true } h (fun _ s =>
    match restoreStatus s img with
    | 0 => { s := { s with restoring := some img, dev := { s.dev with noHist := noHist } } }
    | st => fails s st) s)

/- Tiles (R122, R123). -/

/-- An entry of TABLE_SWITCH names a memory tile of a resident section. -/
def tabOk (s : State) (e : TabSel) : Bool :=
  decide (e.hd < 16 ∧ e.mask < 16) && siteClass e.col e.row == some .memory && (siteIn s e.hd e.vq e.col e.row).isSome

/-- SEL of every generator named changes (R123). -/
def switchTables (es : List TabSel) (s : State) : State :=
  es.foldl (fun t e => match siteIn t e.hd e.vq e.col e.row with
    | some (q, c, r) =>
      let x := tileAt t q c r
      setTile q c r { x with ags := (x.ags.zipIdx).map fun (g, k) => if e.mask.testBit k then { g with sel := !g.sel } else g } t
    | none => t) s

/-- TABLE_SWITCH (R123). -/
def execTableSwitch (h : Hdr) (es : List TabSel) (s : State) : Host.Outcome State Fault Refusal :=
  goes (control { op := 0x207, states := stLAUP, cfg := true } h (fun j s =>
    tickCmd h 0x207 j (.tables es)
      (fun s => if decide (es.length ≤ 64) && es.all (tabOk s) then none else some (stParam, 0)) (switchTables es) s) s)

/-- A line lies in the region in use of a generator (R113, R116, R117, R123): LEN lines, or for a LUT, a gather table and a queue the lines
of its entries, 8 apart. -/
def inRegion (g : AddrGen) (line : Nat) : Bool :=
  let off := (line + 65536 - agBase g % 65536) % 65536
  match g.mode with
  | .lut | .gather | .queue => decide (off % 8 = 0 ∧ off / 8 < g.len)
  | _ => decide (off < g.len)

/-- A line lies in the region in use of a generator of the tile (R123). -/
def lineInUse (t : Tile) (line : Nat) : Bool := t.ags.any fun g => inRegion g line

/-- Cycles of one tick or pass in which a placed tile's words access a bank, with its generators as they stand (R120, R122). -/
def bankCycles (im : ImTile) (ags : List AddrGen) (bank : Nat) : Nat :=
  ((issues im).foldl (fun (x : List AddrGen × Nat) e =>
    let y := wordMove false e.2.2 x.1
    (y.1, x.2 + bnat (y.2.1.contains bank))) (ags, 0)).2

/-- The active schedule uses the bank of a line in every cycle of the tick, or of the pass (R122). -/
def bankFull (s : State) (hd : Nat) (q c r line : Nat) : Bool :=
  let x := secAt s hd
  let n := if isFixed x then x.img.ii else x.img.passTime
  x.placed.any fun im => im.vq == q && im.col == c && im.row == r &&
    decide (n ≤ bankCycles im ((tileAt s q c r).ags.map fun g => if isFixed x then agTickEdge false g else agPassStart g) (line % 8))

/-- A write to a tier-two section waits for its pass boundary: a pass is under way, or has been abandoned and has not reached it (R123). -/
def writeWaits (s : State) (hd : Nat) : Bool := !isFixed (secAt s hd) && (running s hd || (passAt s hd).abandoned)

/-- TILE_WRITE (R122, R123). -/
def execTileWrite (h : Hdr) (hd vq col row line : Nat) (data : List Byte) (ecc : Ecc) (s : State) : Host.Outcome State Fault Refusal :=
  goes (control { op := 0x208, states := stLAUP, cfg := true } h (fun j s =>
    match siteIn s hd vq col row with
    | none => fails s stParam
    | some (q, c, r) =>
      let eff : Eff := .tile hd vq col row line data ecc
      if siteClass c r != some .memory || decide (65536 ≤ line) || !(data.length == 8 || data.length == 32) then fails s stParam
      else if isFixed (secAt s hd) && lineInUse (tileAt s q c r) line then fails s stState
      else if bankFull s hd q c r line then fails s stBusy
      else if writeWaits s hd then { s := longEff eff h 0x208 j s, wait := true }
      else { s := writeTileLine hd vq col row line data ecc s, eff := eff }) s)

/-- TILE_READ: the 32 bytes of a line (R122); zero bits where it cannot be corrected, as a poisoned word has them (R121). -/
def execTileRead (h : Hdr) (hd vq col row line : Nat) (ecc : Ecc) (s : State) : Host.Outcome State Fault Refusal :=
  goes (observe { op := 0x209, states := stLAUP } h (fun s =>
    match siteIn s hd vq col row with
    | none => fails s stParam
    | some (q, c, r) =>
      if siteClass c r != some .memory || decide (65536 ≤ line) then fails s stParam
      else if bankFull s hd q c r line then fails s stBusy
      else { s := hostEcc hd q c r line ecc s, result := lineBytes (if ecc = .bad then 0#256 else (lineNow (tileAt s q c r) line).data) }) s)

/- Probes and digests (R306 to R308). -/

def setProbe (n : Nat) (p : Probe) (s : State) : State :=
  { s with grid := { s.grid with probes := tset (fun _ => {}) s.grid.probes n { p with set := true, buf := [] } } }

/-- PROBE_SET (R308). A sum-chain source needs a matrix tile. -/
def execProbeSet (h : Hdr) (n : Nat) (p : Probe) (s : State) : Host.Outcome State Fault Refusal :=
  goes (control { op := 0x20A, states := stLAUP } h (fun _ s =>
    let ok := decide (n < 16 ∧ p.source ≤ 6 ∧ 1 ≤ p.count ∧ p.count ≤ 64) && (siteIn s p.handle p.vq p.col p.row).isSome &&
      (p.source != 6 || siteClass p.col p.row == some .matrix)
    if ok then { s := setProbe n p s, eff := .probe n p }
    else fails s stParam) s)

/-- PROBE_READ: 48 bytes for each entry (R308). -/
def execProbeRead (h : Hdr) (n : Nat) (s : State) : Host.Outcome State Fault Refusal :=
  goes (observe { op := 0x20B, states := anySt } h (fun s =>
    if 16 ≤ n then fails s stParam
    else { s := s, result := (tget (fun _ => ({} : Probe)) s.grid.probes n).buf.flatMap fun (w, t, c) => linkWordBytes w ++ le 8 t ++ le 4 c }) s)

/-- DIGEST_READ: the kept digests of a span (R307); one no longer kept fails with ST_EXPIRED. -/
def execDigestRead (h : Hdr) (hd first count : Nat) (s : State) : Host.Outcome State Fault Refusal :=
  goes (observe { op := 0x20C, states := anySt } h (fun s =>
    if !(decide (hd < 16 ∧ 1 ≤ count ∧ count ≤ 127) && (secAt s hd).resident) then fails s stParam
    else
      let ds := (rangeFrom first count).map (keptDigest s hd)
      if ds.any (·.isNone) then fails s stExpired
      else { s := s, result := ds.flatMap fun d => le 32 ((d.getD 0#512).toNat) }) s)

/-- DIGEST_VERIFY: whether WEIGHT_DIGEST matches, and the digest (R306). -/
def execDigestVerify (h : Hdr) (hd : Nat) (s : State) : Host.Outcome State Fault Refusal :=
  goes (observe { op := 0x20D, states := stLAUP } h (fun s =>
    if !(decide (hd < 16) && (secAt s hd).resident) then fails s stParam
    else { s := verifyWeights hd s, result := le 1 (bnat (storesMatch s hd)) ++ le 64 (weightDigest (secAt s hd).img).toNat }) s)

end Sys2Proof.Machine
end

