-- ==== Sys2Proof/Machine/ZoneCmd.lean ====
section
/-!
DEFINITION. Commands of classes 0x03 and 0x04: channels, calibration, combiner lines, templates, windows, records, DMA, recordings
(14 R391; 08, 09, 10, 11).
-/

namespace Sys2Proof.Machine

/- Class 0x03. -/

/-- CHAN_SET: CTX values of consecutive contexts (R214). -/
def execChanSet (h : Hdr) (first : Nat) (vals : List Nat) (s : State) : Host.Outcome State Fault Refusal :=
  goes (control { op := 0x301, states := stRL, cfg := true } h (fun _ s =>
    let es := vals.zipIdx.map fun (v, i) => ({ off := ctxOff (first + i), mask := ones 31 16, value := v } : CfgEntry)
    if vals.isEmpty || decide (4096 < first + vals.length) then fails s stParam
    else match cfgCheck s es with
      | some (st, n) => fails s st n
      | none => { s := cfgApply es s }) s)

/-- Enabled contexts of a range. -/
def groupMembers (s : State) (d : GroupDesc) : List Nat := (rangeFrom d.first d.count).filter (ctxEn (regAt s))

/-- The descriptor rules of R215. -/
def groupOk (s : State) (g : Nat) (d : GroupDesc) : Bool :=
  let ms := groupMembers s d
  let ss := (ms.map (chanS s)).eraseDups
  let e := memberEntry d
  decide (g < 1024 ∧ 1 ≤ d.count ∧ d.count ≤ 256 ∧ d.first + d.count ≤ 4096 ∧ d.feature ≤ 2 ∧ d.miss ≤ 2 ∧ d.fmt ≤ 2 ∧ d.dec < 256) &&
  !(s.fe.groups.any fun x => x.1 != g && x.2.set && meets (x.2.d.first, x.2.d.count) (d.first, d.count)) &&
  ss.length == 1 && outSpecOk (groupOut d) && decide (0 < qmax ((fmtOf d.fmt).getD .int4) d.zp) && scaleEntryOk e &&
  decide (d.count * featureK d.feature (ss.headD 1) ≤ 4096)

/-- The group is set: its S kept, entries of its members started, those of channels that left zeroed (R215). -/
def groupSet (g : Nat) (d : GroupDesc) (s : State) : State :=
  let old := groupAt s.fe g
  let ms := groupMembers s d
  let s := { s with fe := { s.fe with groups := tset (fun _ => {}) s.fe.groups g { set := true, d := d, s := chanS s (ms.headD 0), missTicks := old.missTicks } } }
  let fe := if old.set then (rangeFrom old.d.first old.d.count).foldl (fun f c => setChanScale f c zeroScale) s.fe else s.fe
  { s with fe := ms.foldl (fun f c => setChanScale f c (memberEntry d)) fe }

/-- Every enabled template stays within 256 MiB (R266). -/
def templatesFit (s : State) : Bool := (List.range 64).all fun k => !(templateAt s k).en || decide (largestRecord s (templateAt s k) ≤ 2 ^ 28)

/-- GROUP_SET (R215). -/
def execGroupSet (h : Hdr) (g : Nat) (d : GroupDesc) (s : State) : Host.Outcome State Fault Refusal :=
  goes (control { op := 0x302, states := stRL, cfg := true } h (fun _ s =>
    if groupOk s g d && templatesFit (groupSet g d s) then { s := groupSet g d s } else fails s stParam) s)

/-- Descriptors of consecutive primitive units take effect (R226). -/
def setPrims (first : Nat) (ds : List PrimDesc) (s : State) : State :=
  { s with fe := { s.fe with units := ds.zipIdx.foldl (fun m (d, i) =>
      tset (fun _ => ({} : PrimUnit)) m (first + i) { d := d, fireCount := (tget (fun _ => ({} : PrimUnit)) m (first + i)).fireCount }) s.fe.units } }

/-- PRIM_SET (R224, R226). -/
def execPrimSet (h : Hdr) (first : Nat) (ds : List PrimDesc) (s : State) : Host.Outcome State Fault Refusal :=
  goes (control { op := 0x303, states := stRLAUP, cfg := true } h (fun j s =>
    tickCmd h 0x303 j (.prims first ds)
      (fun _ => if !ds.isEmpty && decide (first + ds.length ≤ 8192) && ds.all primOk then none else some (stParam, 0)) (setPrims first ds) s) s)

def setMeas (e : Nat) (d : MeasDesc) (s : State) : State := { s with fe := { s.fe with meas := tset (fun _ => {}) s.fe.meas e d } }

/-- MEAS_SET (R228). -/
def execMeasSet (h : Hdr) (e : Nat) (d : MeasDesc) (s : State) : Host.Outcome State Fault Refusal :=
  goes (control { op := 0x304, states := stRLP, cfg := true } h (fun _ s =>
    if decide (e < 1024) && measOk d then
      { s := setMeas e d s, eff := .meas e d }
    else fails s stParam) s)

/-- Entries by when they may change (R220). -/
def calWhen (e : CalEntry) : Nat := match calItem e.item with | some c => c.when_ | none => 0

/-- CAL_WRITE (R220, R221): values that change at once do so at acceptance, the others at their tick. -/
def execCalWrite (h : Hdr) (es : List CalEntry) (s : State) : Host.Outcome State Fault Refusal :=
  goes (control { op := 0x305, states := anySt, cfg := true } h (fun j s =>
    if es.isEmpty || !es.all calEntryOk then fails s stParam
    else if es.any (fun e => calWhen e == 0) && !inReady s then fails s stState
    else
      let stage (s : State) : State := { s with fe := { s.fe with cal := { s.fe.cal with staged := es.foldl (fun l e => calPut e l) s.fe.cal.staged } } }
      let ticked := es.filter fun e => calWhen e == 1
      let now (s : State) : State := calApply (es.filter fun e => calWhen e != 1) (stage s)
      if ticked.isEmpty then { s := now s, eff := .cal es }
      else
        let a := tickCmd h 0x305 j (.cal ticked) (fun _ => none) (calApply ticked) s
        if a.status = 0 then { a with s := now a.s } else a) s)

/-- The staged set becomes the block of the flash, with its header and digest (R221). -/
def commitCal (version : Nat) (s : State) : State :=
  { s with fe := { s.fe with cal := { s.fe.cal with flash := calBlock version s.fe.cal.staged } } }

/-- CAL_COMMIT (R221). -/
def execCalCommit (h : Hdr) (version : Nat) (s : State) : Host.Outcome State Fault Refusal :=
  goes (control { op := 0x306, states := stRLAUP, cfg := true } h (fun _ s =>
    let b := s.fe.cal.flash
    if calBlockOk b && decide (version ≤ calVersion b) then fails s stVersion
    else { s := commitCal version s, eff := .commit version }) s)

/-- CAL_READ: factory, user and effective values and CLAMPED, 16 bytes for each instance (R221; log 23). -/
def execCalRead (h : Hdr) (item first count : Nat) (s : State) : Host.Outcome State Fault Refusal :=
  goes (observe { op := 0x307, states := anySt } h (fun s =>
    match calItem item with
    | some c =>
      if decide (1 ≤ count ∧ count ≤ 254 ∧ first + count ≤ c.n) then
        { s := s, result := (rangeFrom first count).flatMap fun i =>
            let e := calEffective s item i
            le 4 (toTwos 32 (calFactory s item i)) ++ le 4 (toTwos 32 (calUser s item i)) ++ le 4 (toTwos 32 e.1) ++ le 4 (bnat e.2) }
      else fails s stParam
    | none => fails s stParam) s)

/-- A line takes effect (R250). -/
def setCombLine (n : Nat) (d : LineDesc) (s : State) : State := setLine n (lineWritten d (lineSt s n)) s

/-- The rules of R237. -/
def combLineOk (s : State) (n : Nat) (d : LineDesc) : Bool :=
  decide (n < 256) && lineFieldsOk n d &&
  (d.kind != 1 || ((secAt s d.t2).resident && !isFixed (secAt s d.t2))) && !(d.kind == 1 && d.en && !ringOn s)

/-- COMB_LINE_SET (R237, R250). -/
def execCombLineSet (h : Hdr) (n : Nat) (d : LineDesc) (s : State) : Host.Outcome State Fault Refusal :=
  goes (control { op := 0x308, states := stRLAUP, cfg := true } h (fun j s =>
    tickCmd h 0x308 j (.line n d) (fun s => if combLineOk s n d then none else some (stParam, 0)) (setCombLine n d) s) s)

/- Class 0x04. -/

/-- Ranges of a list do not meet (R266). -/
def rangesOk (lim : Nat) (l : List (Nat × Nat)) : Bool := l.all (fun r => decide (1 ≤ r.2 ∧ r.1 + r.2 ≤ lim)) && disjoint l

/-- The rules of R266 on an enabled template; others are not checked. -/
def templateOk (s : State) (k : Nat) (d : TemplateDesc) : Bool :=
  decide (k < 64) && (!d.en ||
    (decide (d.dest ≤ 2 ∧ 16 ≤ d.pre ∧ d.pre ≤ 65536 ∧ 16 ≤ d.post ∧ d.post ≤ 65536 ∧ 1 ≤ d.cr.length ∧ d.cr.length ≤ 16 ∧ d.er.length ≤ 4 ∧ d.digSec < 16) &&
     rangesOk 4096 d.cr && rangesOk 1024 d.er && (tplChans d).all (ctxEn (regAt s)) &&
     (tplEngines d).all (fun e => let m : MeasDesc := tget (fun _ => {}) s.fe.meas e; m.en && (tplChans d).contains m.chan) &&
     (match d.dest with | 0 => decide (d.destId < 32) && engSrc s d.destId == 0 | 1 => d.destId == 0 | _ => decide (d.destId < 1024)) &&
     decide (largestRecord s d ≤ 2 ^ 28) && (!needsRing s d || ringOn s) && (!d.digest || digestAble s d.digSec)))

/-- A template takes effect. -/
def setTemplate (k : Nat) (d : TemplateDesc) (s : State) : State :=
  { s with acq := { s.acq with templates := tset (fun _ => {}) s.acq.templates k d } }

/-- TEMPLATE_SET (R266). -/
def execTemplateSet (h : Hdr) (k : Nat) (d : TemplateDesc) (s : State) : Host.Outcome State Fault Refusal :=
  goes (control { op := 0x401, states := stRLAUP, cfg := true } h (fun j s =>
    tickCmd h 0x401 j (.template k d) (fun s => if templateOk s k d then none else some (stParam, 0)) (setTemplate k d) s) s)

/-- A transfer under way uses a window: the data of an engine's descriptor, or its rings (R289, R391). -/
def windowBusy (s : State) (n : Nat) : Bool := (List.range 40).any fun e =>
  let x := engAt s e
  engLive s e && (match x.cur with | some d => decide (bits d.addr 63 54 = n ∨ (engSrc s e = 2 ∧ bits d.addr2 63 54 = n)) && decide (0 < x.done) | none => false)

def setWindow (n : Nat) (w : Window) (s : State) : State := setReg (0x40008 + 16 * n) (windowCtl w) (setReg (0x40000 + 16 * n) w.base s)

/-- WINDOW_SET (R289). -/
def execWindowSet (h : Hdr) (n : Nat) (w : Window) (s : State) : Host.Outcome State Fault Refusal :=
  goes (control { op := 0x402, states := stRLAUP, cfg := true } h (fun _ s =>
    let s2 := setWindow n w s
    if 1024 ≤ n then fails s stParam
    else if windowBusy s n then fails s stBusy
    else if windowOk s2 n then { s := s2, eff := .window n w } else fails s stParam) s)

/-- The record request of an extraction. -/
def extractReq (t k : Nat) (s : State) : RecReq :=
  { tick := t, template := k, tpl := templateAt s k, outcome := 3, stamp := stampOf s t, tStart := s.acq.tStart.getD 0 }

def extract (t k : Nat) (s : State) : State := addCnt 19 1 { s with acq := { s.acq with reqs := s.acq.reqs ++ [extractReq t k s] } }

/-- RING_EXTRACT as a host request (R282); a full request queue fails with ST_BUSY (DESIGN CHOICE, log 32). -/
def execRingExtract (h : Hdr) (t k : Nat) (s : State) : Host.Outcome State Fault Refusal :=
  goes (control { op := 0x403, states := stAUP } h (fun _ s =>
    if !ringOn s then fails s stState
    else if decide (64 ≤ k) || !(templateAt s k).en then fails s stParam
    else if ringGone s (firstTick s (extractReq t k s)) then fails s stExpired
    else if 4096 ≤ s.acq.reqs.length then fails s stBusy
    else { s := extract t k s, eff := .extract t k }) s)

/-- A completion that an engine owes. -/
def oweCpl (e : Nat) (c : DmaCpl) (s : State) : State := setEng e { engAt s e with owed := some c } s

/-- The completion has been written, or dropped: the engine goes on with the next descriptor, first with the bytes that a lost link did
not deliver (R292). -/
def engNext (e : Nat) (s : State) : State :=
  let x := engAt s e
  setEng e { x with owed := none, cur := none, done := 0, moved := x.moved.drop x.done, ci := x.ci + 1 } s

/-- What SKIP does at each place of a park (R292). -/
def skipPark (e : Nat) (p : Park) (s : State) : State :=
  let x := engAt s e
  let irq := match x.cur with | some d => d.irq | none => false
  match p.at_ with
  | 0 => oweCpl e { user := p.user, bytes := p.done, status := 1, split := engSrc s e != 2, irq := irq } s
  | 1 => oweCpl e { user := 0, bytes := 0, status := 1 } s
  | _ => engNext e s

/-- A parked engine goes on: it retries, or skips (R292). -/
def resumeEng (e mode : Nat) (s : State) : State :=
  match (engAt s e).park with
  | none => s
  | some p =>
    let s := setEng e { engAt s e with park := none } s
    if mode = 0 then s else skipPark e p s

/-- DMA_RESUME (R292). -/
def execDmaResume (h : Hdr) (e mode : Nat) (s : State) : Host.Outcome State Fault Refusal :=
  goes (control { op := 0x404, states := anySt } h (fun _ s =>
    if decide (40 ≤ e ∨ 2 ≤ mode) then fails s stParam
    else if (engAt s e).park.isNone then fails s stState
    else { s := resumeEng e mode s, eff := .resumeDma e mode }) s)

/-- CULLET_READ (R293): part 0 latches at the next edge, at once where no edge comes (log 24). -/
def execCulletRead (h : Hdr) (part : Nat) (s : State) : Host.Outcome State Fault Refusal :=
  goes (observe { op := 0x405, states := anySt } h (fun s =>
    if 2 < part then fails s stParam
    else if part = 0 then
      if ticking s then { s := { s with ctl := { s.ctl with snapWait := s.ctl.snapWait ++ [(h, 1)] } }, wait := true }
      else
        let snap := culletSnap s
        { s := { s with acq := { s.acq with snap := snap } }, result := snap.getD 0 [] }
    else { s := s, result := s.acq.snap.getD part [] }) s)

/- Recordings and replays (11 R309 to R314). -/

/-- A resident section uses FAB_RX. -/
def usesFabRx (s : State) : Bool := (residents s).any fun h => (secAt s h).placed.any fun t => t.words.any fun w => wOpcode w == 0xF9

/-- RECORD_INPUTS_SET (R309). With FABRIC_WIDE the master sends it to every device on VC2. -/
def execRecordInputsSet (h : Hdr) (area size endTick : Nat) (freeze wide : Bool) (s : State) : Host.Outcome State Fault Refusal :=
  goes (control { op := 0x406, states := [.loaded, .paused] } h (fun _ s =>
    let r : Rec := { area := area, size := size, endTick := endTick, freeze := freeze, wide := wide, armed := true }
    if replaying s then fails s stState
    else if decide (size < 2 ^ 26 ∨ 2 ^ 32 < size) || !areasOk { s with acq := { s.acq with recg := r } } || !ringOn s ||
      ((List.range 96).any fun l => (laneCfg (regAt s) l).en && !(laneCfg (regAt s) l).ringEn) || (usesFabRx s && !wide) ||
      (wide && !(s.fab.member && s.fab.isMaster)) then fails s stParam
    else
      let s := { s with acq := { s.acq with recg := r } }
      { s := if wide then toMembers (.command (le 2 0x406 ++ h.raw)) s else s }) s)

/-- The IMAGE_DIGESTs that CMD entries of a log name (R310). -/
def logImages (log : List LogEntry) : List (BitVec 512) :=
  (log.filter fun e => e.type == 5 && unle (slice 4 2 e.body) == 0x201).map fun e => BitVec.ofNat 512 (unle (slice (unle (slice 6 2 e.body)) 64 e.more))

/-- The checks of REPLAY_SET (R311). -/
def replayOk (s : State) (r : Rec) (imgs : List (BitVec 512)) : Bool :=
  match r.log.head? with
  | none => false
  | some st =>
    st.type == 1 && unle (slice 4 4 st.body) == iiOf s && unle (slice 0 64 st.more) == (configDigest s).toNat &&
    (logImages r.log).all (fun d => imgs.contains d) && ringHolds s st.tick &&
    (match (r.log.getLast?) with | some e => ringHolds s e.tick | none => false) &&
    (!st.flags.testBit 0 || s.fab.member)

/-- REPLAY_SET (R311). The master sends that of a fabric-wide recording to every device of its fabric on VC2. -/
def execReplaySet (h : Hdr) (area : Nat) (recorded quiet : Bool) (imgs : List (BitVec 512)) (s : State) : Host.Outcome State Fault Refusal :=
  goes (control { op := 0x407, states := [.loaded], cfg := true } h (fun _ s =>
    match s.acq.recorded.find? (fun r => r.area == area) with
    | none => fails s stParam
    | some r =>
      if replayOk s r imgs then
        let s := { s with acq := { s.acq with replay := { set := true, recorded := recorded, quiet := quiet, wide := r.wide, log := r.log } } }
        { s := if r.wide then toMembers (.command (le 2 0x407 ++ h.raw)) s else s }
      else fails s stParam) s)

/-- A replay-log entry as bytes (R310). -/
def logEntryBytes (e : LogEntry) : List Byte :=
  let units := 1 + ceilDiv e.more.length 32
  le 1 e.type ++ le 1 e.flags ++ le 2 units ++ le 4 0 ++ le 8 e.tick ++ slice 0 16 e.body ++ slice 0 (32 * (units - 1)) e.more

/-- Ticks of a recording's span. -/
def recSpan (r : Rec) : List Nat :=
  match r.log.head?, r.log.getLast? with | some a, some b => rangeFrom a.tick (b.tick + 1 - a.tick) | _, _ => []

/-- REPLAY_EXPORT: ring slots, then log, by a D2H engine in copy mode; the copy takes no window (R314). -/
def execReplayExport (h : Hdr) (e area addr : Nat) (s : State) : Host.Outcome State Fault Refusal :=
  goes (control { op := 0x408, states := [.ready, .loaded, .paused] } h (fun _ s =>
    match s.acq.recorded.find? (fun r => r.area == area) with
    | none => fails s stParam
    | some r =>
      if !(decide (e < 32) && engSrc s e == 2) then fails s stParam
      else if (engAt s e).cur.isSome || (engAt s e).park.isSome || saving s then fails s stBusy
      else
        let bs := (recSpan r).flatMap (fun t => hbmRead s (slotAddr s t) (slotBytes s)) ++ r.log.flatMap logEntryBytes
        { s := send (.mem addr bs) s, result := le 8 bs.length }) s)

/-- REPLAY_IMPORT: a recording as read from host memory comes into the ring and a replay area by an H2D engine (R314). -/
def execReplayImport (h : Hdr) (e : Nat) (r : Recording) (size : Nat) (s : State) : Host.Outcome State Fault Refusal :=
  goes (control { op := 0x409, states := stRL, cfg := true } h (fun _ s =>
    let rc : Rec := { area := r.area, size := size, wide := r.wide, done := true, log := r.log }
    if !(decide (32 ≤ e ∧ e < 40)) || !ringOn s || !areasOk { s with acq := { s.acq with recg := rc } } ||
      r.slots.any (fun x => x.2.length != slotBytes s) || decide (ringDepth s < r.slots.length) then fails s stParam
    else if (engAt s e).cur.isSome || (engAt s e).park.isSome || saving s then fails s stBusy
    else
      let s := r.slots.foldl (fun t x => hbmWrite (slotAddr t x.1) x.2 t) s
      { s := { s with acq := { s.acq with
          recg := rc
          recorded := rc :: s.acq.recorded.filter (fun x => x.area != r.area)
          tStart := (r.slots.head?.map (·.1)).or s.acq.tStart, newest := (r.slots.getLast?.map (·.1)).or s.acq.newest } }
        result := le 8 (sumL (r.slots.map fun x => x.2.length)) }) s)

end Sys2Proof.Machine
end

