-- ==== Sys2Proof/Machine/Zone.lean ====
section
/-!
DEFINITION. Operations of the fixed zone: which ticks count, what a tick is combined with, pins, and what becomes of a pause (01, 09;
11 R309 to R315).
-/

namespace Sys2Proof.Machine

/-- First tick of the run under way. -/
def runStart (s : State) : Nat := max s.dev.tA s.dev.tR

/-- Tick t is counted (R31, R315, R506). -/
def counted (s : State) (t : Nat) : Bool :=
  s.dev.st == .running && decide (runStart s ≤ t ∧ t ≤ nowTick s) &&
  (match s.dev.pauseAt with | some p => decide (t < p) | none => true) && (!saving s || decide (t < s.pwr.saveTick))

/-- The tick whose decision comes next (R249). -/
def nextDecided (s : State) : Nat := match s.comb.decided with | some d => max (d + 1) (runStart s) | none => runStart s

/-- Gives effect to a change of the zone. -/
def zoneEff (e : Eff) (s : State) : State :=
  match e with
  | .prims first ds => setPrims first ds s
  | .cal es => calApply es s
  | .line n d => setCombLine n d s
  | .template k d => setTemplate k d s
  | _ => s

/-- A change that the alignment point takes up; the others wait for the combiner. -/
def alignEff (e : Eff) : Bool := match e with | .prims _ _ => true | .cal _ => true | _ => false

/-- The changes whose tick has been reached by the alignment point (align) or the combiner take effect, oldest first (R250). -/
def settleDue (align : Bool) (t : Nat) (s : State) : State :=
  let hit (e : Nat × Eff) : Bool := decide (e.1 ≤ t) && alignEff e.2 == align
  (s.comb.due.filter hit).foldl (fun s e => zoneEff e.2 s) { s with comb := { s.comb with due := s.comb.due.filter fun e => !hit e } }

/-- Every change due takes effect: no tick in flight uses the old values. -/
def flushDue (s : State) : State :=
  s.comb.due.foldl (fun s e => zoneEff e.2 s) { s with comb := { s.comb with due := [], oldRegs := [] } }

/-- The ladder level in force for a tick (R244, R285). -/
def levelFor (s : State) (t : Nat) : Nat := match s.acq.levels.find? (fun e => decide (e.1 ≤ t)) with | some e => e.2 | none => 0

/- Replay (R311, R312). -/

/-- Entries of the log under replay, of one type and tick. -/
def replayAt (s : State) (type t : Nat) : List LogEntry := s.acq.replay.log.filter fun e => e.type == type && e.tick == t
/-- The replay imposes the recorded feedback. -/
def recordedFeedback (s : State) : Bool := s.acq.replay.running && s.acq.replay.recorded
/-- A case of the replay that the recording does not have (R312). -/
def diverge (t case_ : Nat) (s : State) : State := raiseEv { code := 0x60, sev := 0, body := le 8 t ++ le 8 case_ } (addCnt 30 1 s)

/- Conditions (R235, R236, R254, R255). -/

/-- Offsets of the score comparators that may be enabled. -/
def scmpOffs (s : State) : List Nat :=
  ((s.regs.map (·.1) ++ s.comb.oldRegs.map (·.2.1)).filter fun o => decide (0x72000 ≤ o ∧ o < 0x74000)).eraseDups

/-- Score blocks that an enabled comparator reads for tick t (R236). -/
def blocksRead (s : State) (t : Nat) : List Nat :=
  ((scmpOffs s).filterMap fun o => let v := regFor s t o; if bit v 63 then some (bits v 57 48 / 16) else none).eraseDups

/-- The word of a score block for tick t. -/
def scoreWord (s : State) (t b : Nat) : LWord := tget (fun _ => {}) s.comb.scores (64 * t + b)

/-- The comparison of SCMP (R236). -/
def scmpHolds (op : Nat) (x y : Int) : Bool :=
  match op with
  | 0 => decide (y < x) | 1 => decide (y ≤ x) | 2 => decide (x < y) | 3 => decide (x ≤ y) | 4 => decide (x = y) | _ => decide (x ≠ y)

/-- A score comparator's condition. -/
def scoreCond (s : State) (t k : Nat) : Cond :=
  let v := regFor s t (0x72000 + 8 * k)
  let w := scoreWord s t (bits v 57 48 / 16)
  if !bit v 63 || !w.v || w.p || w.tick % 256 != t % 256 then none
  else
    let l := bits v 57 48 % 16
    some (scmpHolds (bits v 34 32) (ofTwos 16 (bits w.data.toNat (16 * l + 15) (16 * l))) (ofTwos 16 (bits v 15 0)))

/-- The fire bits and doubt bits of a tick, with the case of R255; none: outside a fabric that fires. -/
structure FireCase where
  fire : Nat := 0
  doubt : Nat := 0
  case_ : Nat := 0
  deriving DecidableEq, Repr

/-- Firing across the fabric is in use (R23, R254). -/
def fires (s : State) : Bool := match s.fab.plan with | some p => s.fab.member && decide (0 < p.f) | none => false

/-- The case of the merged fire word (R255). -/
def fireCase (t : Nat) (w : FireWord) : FireCase :=
  if !w.v then { case_ := 3 } else if w.p then { case_ := 2 } else if w.tick ≠ t then { case_ := 1 }
  else { fire := w.fire, doubt := w.doubt }

/-- The fire word a tick is combined with: live, or from the log in a replay that is not fabric-wide (R255, R311). -/
def fireFor (s : State) (t : Nat) : Option FireCase :=
  if s.acq.replay.running && !s.acq.replay.wide then
    (replayAt s 3 t).head?.map fun e => { fire := unle (slice 0 4 e.body), doubt := unle (slice 4 4 e.body), case_ := unle (slice 8 1 e.body) }
  else if fires s then some (fireCase t (tget (fun _ => {}) s.comb.fireIn t))
  else none

/-- TRG_IN and timed-event bits of a tick (R22, R370, R311). -/
def trgBits (s : State) (t : Nat) : Nat :=
  if s.acq.replay.running then (match (replayAt s 2 t).head? with | some e => unle (slice 0 1 e.body) | none => 0) else cget s.fe.trgIn t
def timedFor (s : State) (t : Nat) : Nat :=
  if s.acq.replay.running then (match (replayAt s 4 t).head? with | some e => unle (slice 0 2 e.body) | none => 0) else cget s.time.timedBits t

/-- A condition of tick t (R235). -/
def condAt (s : State) (t : Nat) (f : Option FireCase) (i : Nat) : Cond :=
  if i < 0x400 then scoreCond s t i
  else if i < 0x600 then
    let o : OrOut := tget (fun _ => {}) s.fe.orOut t
    if bit o.poison (i - 0x400) then none else some (bit o.fire (i - 0x400))
  else if i < 0x608 then some (bit (trgBits s t) (i - 0x600))
  else if 0x610 ≤ i && decide (i < 0x630) then
    (match f with
     | none => some false
     | some c => if c.case_ ≠ 0 || bit c.doubt (i - 0x610) then none else some (bit c.fire (i - 0x610)))
  else if 0x630 ≤ i && decide (i < 0x640) then some (bit (timedFor s t) (i - 0x630))
  else some (i == 0xFFF)

/-- Score words that a comparator reads: faults and counters of R236. -/
def scoreChecks (t : Nat) (s : State) : State :=
  (blocksRead s t).foldl (fun s b =>
    let w := scoreWord s t b
    if !w.v then { s with comb := { s.comb with noScore := cadd 32 s.comb.noScore b 1 } }
    else if w.p then { s with comb := { s.comb with scorePoison := cadd 32 s.comb.scorePoison b 1 } }
    else if w.tick % 256 ≠ t % 256 then fault { code := 0x0102, sev := 3, unit := b, detail := t % 256 * 256 + w.tick % 256 } s
    else s) s

/-- Counters and faults of the fire word, and its log entry (R255, R310). -/
def fireChecks (t : Nat) (f : Option FireCase) (s : State) : State :=
  match f with
  | none => s
  | some c =>
    let s := logAdd { type := 3, tick := t, body := le 4 c.fire ++ le 4 c.doubt ++ le 1 c.case_ } s
    match c.case_ with
    | 0 => addCnt 25 (popc 32 c.doubt) s
    | 1 => fault { code := 0x0404, sev := 3 } (addCnt 26 1 s)
    | 2 => addCnt 27 1 s
    | _ => fault { code := 0x0405, sev := 3 } (addCnt 28 1 s)

/- Pins (R252, R253). -/

/-- A time of the grid in femtoseconds from E(0). -/
def gcFs (s : State) (gc : Nat) : Nat := gc * periodOf s * 1000000 / (2 ^ 32 * max (iiOf s) 1)

/-- The pin time of tick t on TRG_OUT[k] in femtoseconds (R252). -/
def pinTime (s : State) (t k : Nat) : Nat := gcFs s (gcOf s t + s.comb.dDec) + (calEffective s 3 k).1.toNat * 1000

/-- Global hold-off acts on tick t (R242). -/
def ghoActs (s : State) (t : Nat) : Bool := decide (s.comb.ghoFrom ≤ t ∧ t ≤ s.comb.ghoTo ∧ 0 < s.comb.ghoTo)

/-- A TRG_OUT source of a decided tick (R252). -/
def trgSource (src : Nat) (o : CombOut) (void : Bool) : Bool :=
  if src < 0x100 then o.fired.contains src
  else match src with
    | 0x100 => !o.accFired.isEmpty | 0x101 => !o.parFired.isEmpty | 0x102 => !o.accFired.isEmpty || !o.parFired.isEmpty | 0x103 => void
    | _ => false

/-- The pins after the decision of tick t (R252). endFs is 0 while no pulse runs. -/
def drivePins (t : Nat) (o : CombOut) (void : Bool) (s : State) : State :=
  if s.acq.replay.running && s.acq.replay.quiet then s else
  (List.range 8).foldl (fun s k =>
    let v := regFor s t (0x70200 + 4 * k)
    let p : TrgPin := tget (fun _ => {}) s.comb.trg k
    let put (p : TrgPin) : State := { s with comb := { s.comb with trg := tset (fun _ => {}) s.comb.trg k p } }
    let above := decide (p.endFs ≠ 0)
    if !bit v 31 then put { p with active := above }
    else if bits v 24 16 = 0x104 then put { p with active := above || decide (t < s.comb.ghoTo) }
    else if trgSource (bits v 24 16) o void then
      put { active := true, endFs := max p.endFs (pinTime s t k + gcFs s (bits v 15 0)) }
    else put { p with active := above }) s

/-- Sources of BUSY_OUT[k] that are true (R253). -/
def busyActive (s : State) (k : Nat) : Bool :=
  let v := regAt s (0x70240 + 4 * k)
  let d (i : Nat) : Nat := s.comb.atDecision.getD i 0
  let lvl := if bits v 7 5 = 0 then 8 else bits v 7 5
  (bit v 4 && s.dev.st != .running) || (bit v 3 && decide (bits v 28 16 ≤ d 0)) || (bit v 2 && decide (bits v 28 16 ≤ d 1)) ||
  (bit v 1 && decide (lvl ≤ d 2)) || (bit v 0 && d 3 == 1)

/-- BUSY_OUT at a tick edge; in SAFE_STOP every pin is active (R492). -/
def driveBusy (s : State) : State :=
  { s with comb := { s.comb with busy := bitSet ((List.range 4).filter fun k => s.dev.st == .safe || busyActive s k) } }

/- Streams: closing an open entry (R278, R279). -/

def streamAt (s : State) (m : Nat) : Stream := tget (fun _ => {}) s.acq.streams m
def setStream (m : Nat) (x : Stream) (s : State) : State := { s with acq := { s.acq with streams := tset (fun _ => {}) s.acq.streams m x } }

/-- A stream entry of 32-byte units. -/
def streamEntry (m type flags tick count level : Nat) (body : List Byte) : List Byte :=
  let units := 1 + ceilDiv body.length 32
  le 1 type ++ le 1 m ++ le 2 flags ++ le 4 units ++ le 8 tick ++ le 4 count ++ le 1 level ++ List.replicate 11 0#8 ++ slice 0 (32 * (units - 1)) body

/-- The open DATA entry of a stream ends. -/
def closeData (m : Nat) (x : Stream) : Stream :=
  if x.count = 0 then x
  else { x with entries := x.entries ++ [streamEntry m 1 (bnat x.missing) x.first x.count x.level x.body], count := 0, body := [], missing := false }

/-- The run of dropped ticks of a stream is written as its one GAP entry; the LADDER and MARK entries of its later ticks follow, in
tick order (R279). -/
def closeGap (m : Nat) (x : Stream) : Stream :=
  if x.gapCount = 0 then x
  else { x with
    entries := x.entries ++ streamEntry m 3 0 x.gapFirst x.gapCount x.gapLevel [] :: x.gapHeads
    gapCount := 0, gapHeads := [] }

/-- Bytes a stream holds. -/
def streamBytes (x : Stream) : Nat := sumL ((x.entries ++ x.gapHeads).map (·.length)) - x.sent + x.body.length + (if x.count = 0 then 0 else 32)

def streamOn (s : State) (m : Nat) : Bool := bit (regAt s (0xA0000 + 8 * m)) 63

/-- Pressure, in units of 1/256, at most 255 (R285). -/
def pressureOf (s : State) : Nat :=
  let streams := ((List.range 32).filter (streamOn s)).map fun m => streamBytes (streamAt s m) * 256 / max Config.streamBuf 1
  min 255 (max (s.acq.reqs.length * 256 / 4096) (max (stagedBytes s * 256 / max (stageSize s) 1) (maxL streams)))

/- Probes (11 R308). -/

/-- The words a probe's source shows at a cycle. -/
def probeWords (t : Tile) (source c : Nat) : List LWord :=
  if source < 4 then [runAt t.outs (10 + source) c]
  else if source < 6 then [holdAt t.hr (source - 4) c]
  else
    let x := chainAt t.chainOut c
    let v := sumL (((List.range 64).zip x.sums).map fun p => toTwos 24 p.2 * 2 ^ (24 * p.1))
    (List.range 6).map fun k => { data := BitVec.ofNat 256 (v / 2 ^ (256 * k)), v := x.v, p := x.p, tick := x.tick, btag := x.btag }

/-- A probe copies its source for tick or pass n; base is the cycle number of the tick's first cycle. -/
def probeTake (h n base k : Nat) (s : State) : State :=
  let p : Probe := tget (fun _ => {}) s.grid.probes k
  if !p.set || p.handle != h || !decide (p.first ≤ n ∧ n < p.first + p.count) then s
  else
    let q := (secAt s h).place.getD p.vq 0
    let ws := (probeWords (tileAt s q p.col p.row) p.source (base + p.cycle)).map fun w => (w, n, p.cycle)
    { s with grid := { s.grid with probes := tset (fun _ => {}) s.grid.probes k { p with buf := (p.buf ++ ws).take 64 } } }

/-- Every probe of a section. -/
def probeAll (h n base : Nat) (s : State) : State := (List.range 16).foldl (fun s k => probeTake h n base k s) s

/- Pause (R264, R315). -/

/-- The open DATA entries end at a pause edge (R279). -/
def closeStreams (s : State) : State := (List.range 32).foldl (fun t m => setStream m (closeData m (streamAt t m)) t) s

/-- The device enters PAUSED; PAUSE becomes final, and a STOP goes on to drain (R315, R392). Streams that have released every tick
before the edge close their entries; the others do so as they reach it. -/
def enterPaused (p : Nat) (s : State) : State :=
  let s := flushDue s
  let s := if s.acq.released.all (fun r => decide (p ≤ r + 1)) then closeStreams s else s
  let j := s.dev.pauseJ
  let s := setDev .paused { s with dev := { s.dev with
    tP := p, pauseAt := none, pauseReq := false, pauseJ := none, draining := s.dev.stopReq, stopReq := false } }
  match j with | some j => finishLong j 0 0 [] s | none => s

end Sys2Proof.Machine
end

