-- ==== Sys2Proof/Machine/AcqRows.lean ====
section
/-!
DEFINITION. Rows of the acquisition engine: the deep ring, record assembly, monitor streams, the replay log (10 R270 to R287; 11 R310).
-/

namespace Sys2Proof.Machine

/-- The newest tick the gather buffer holds. -/
def gatherNewest (s : State) : Option Nat := s.fe.gather.getLast?.map (·.1)

/-- The elastic zone stands still: SAFE_STOP with cause THERMAL or SUPPLY (R503, R504), or no power. -/
def elasticOff (s : State) : Bool :=
  s.dev.st == .off || s.dev.st == .boot || (s.dev.st == .safe && (s.dev.safeCause == 0x20 || s.dev.safeCause == 0x21))

/-- The tick the ring writer takes next (R281). -/
def nextRing (s : State) : Option Nat :=
  match s.acq.tStart, s.acq.newest with
  | some a, some w => some (max a (w + 1))
  | some a, none => some a
  | none, _ => none

/-- The ring is not written past the end of a recording with FREEZE (R309). -/
def ringFrozen (s : State) (t : Nat) : Bool :=
  let r := s.acq.recg
  r.freeze && (r.running || r.done) && decide (0 < r.endTick ∧ r.endTick < t)

/-- The ring writer may take tick t: it has passed the alignment point, and was counted (R281, R315). -/
def ringReady (s : State) (t : Nat) : Bool :=
  ringOn s && !saving s && !replaying s && !elasticOff s && nextRing s == some t && !ringFrozen s t && decide (t ≤ nowTick s) &&
  (match s.dev.pauseAt with | some p => decide (t < p) | none => true) && !(s.dev.st == .paused && decide (s.dev.tP ≤ t)) &&
  ((ringLanes s).isEmpty || (match gatherNewest s with | some n => decide (t ≤ n) | none => false))

/-- Bytes of the slot of tick t: header, then the lanes, those not in the gather buffer any more as zeros and missing (R280, R281). -/
def slotContents (s : State) (t : Nat) : List Byte :=
  let miss := (ringLanes s).filter fun l => match gatherLane s t l with | some (some _) => false | _ => true
  le 8 t ++ le 12 (bitSet miss) ++ le 12 0 ++ (ringLanes s).flatMap fun l =>
    match gatherLane s t l with
    | some (some p) => slice 0 (ringLaneBytes s l) p
    | _ => List.replicate (ringLaneBytes s l) 0#8

/-- RING_WRITE (R281). -/
def execRingWrite (t : Nat) (s : State) : Host.Outcome State Fault Refusal :=
  goes (
    if !ringReady s t then s
    else
      let late := !(ringLanes s).isEmpty && (s.fe.gather.find? fun e => e.1 == t).isNone
      let s1 := hbmWrite (slotAddr s t) (slotContents s t) s
      let s1 := if late then addCnt 18 1 s1 else s1
      { s1 with acq := { s1.acq with newest := some t } })

/- Assembly (R270, R275, R287). -/

/-- The window's last tick is in the store that serves it (R267, R282); a frozen ring gives no later tick. -/
def windowReady (s : State) (r : RecReq) : Bool :=
  let last := lastTick s r
  r.mark.isSome || (tplChans r.tpl).isEmpty ||
  (if ringServed s r then
    (match s.acq.newest with | some w => decide (last ≤ w) || ringFrozen s (w + 1) | none => false)
  else (match gatherNewest s with | some n => decide (last ≤ n) | none => false))

/-- RECORD_ASSEMBLE: the oldest request of a destination (R275) becomes a staged record once its window is there and staging has
room. -/
def execRecordAssemble (kind dest : Nat) (s : State) : Host.Outcome State Fault Refusal :=
  goes (match s.acq.reqs.find? fun r => reqDest r == (kind, dest) with
    | none => s
    | some r =>
      let b := recordBytes s r
      if !windowReady s r || elasticOff s || decide (stageSize s < stagedBytes s + b.1.length) then s
      else
        let s := if b.2.1 then addCnt 16 1 s else s
        let s := if b.2.2 then addCnt 17 1 s else s
        { s with acq := { s.acq with reqs := s.acq.reqs.erase r, staged := s.acq.staged ++ [{ req := r, bytes := b.1 }] } })

/- Streams (R277 to R279). -/

/-- MON_CFG of a stream: FIRST, channels, KEXP, BLOCK. -/
def monChans (s : State) (m : Nat) : List Nat := let v := regAt s (0xA0000 + 8 * m); rangeFrom (bits v 47 36) (bits v 35 24 + 1)
def monKexp (s : State) (m : Nat) : Nat := bits (regAt s (0xA0000 + 8 * m)) 57 54
def monBlock (s : State) (m : Nat) : Nat := bits (regAt s (0xA0000 + 8 * m)) 15 0

/-- The samples stream m carries of tick t, and whether one is missing (R277, R278). -/
def streamSamples (s : State) (m t lvl : Nat) : List Byte × Bool :=
  let per := (monChans s m).map fun c =>
    let k := chanS s c
    let ks := (List.range k).filter fun i => (t * k + i) % max (chanDec s c * 2 ^ (monKexp s m + lvl)) 1 = 0
    match chanTickOf s false c t with
    | .samples xs => (ks.flatMap fun i => sampleBytes (xs.getD i 0), false)
    | _ => (ks.flatMap fun _ => sampleBytes 0, !ks.isEmpty)
  (per.flatMap (·.1), per.any (·.2))

/-- LADDER and MARK entries of tick t (R279). -/
def streamHeads (s : State) (m t lvl : Nat) : List (List Byte) :=
  ((s.acq.ladPend.filter fun c => c.tick == t).map fun c => streamEntry m 4 0 t (c.new + 16 * c.old) lvl []) ++
  (((List.range 256).flatMap fun n => s.acq.marks.filter fun k => k.tick == t && k.line == n && bit k.streams m).map
    fun k => streamEntry m 2 (bnat k.doubt) t k.line lvl [])

/-- A tick with LADDER and MARK entries ends the open DATA entry; those of a kept tick follow the run of dropped ticks before it
(R279). -/
def putHeads (m : Nat) (hs : List (List Byte)) (x : Stream) : Stream :=
  if hs.isEmpty then x
  else
    let y := closeGap m (closeData m x)
    { y with entries := y.entries ++ hs }

/-- Tick t is dropped, its LADDER and MARK entries hs kept: those of the run's first tick stand before the GAP entry that begins
there, those of a later tick after it (R279). -/
def dropTick (m t lvl : Nat) (hs : List (List Byte)) (x : Stream) : Stream :=
  let y := closeData m x
  if y.gapCount = 0 then
    { y with entries := y.entries ++ hs, gapFirst := t, gapCount := 1, gapLevel := lvl, gaps := satAdd 32 y.gaps 1 }
  else { y with gapHeads := y.gapHeads ++ hs, gapCount := y.gapCount + 1, gaps := satAdd 32 y.gaps 1 }

/-- The tick's samples enter the open DATA entry, or begin one (R279). -/
def putData (m t lvl block : Nat) (d : List Byte × Bool) (x : Stream) : Stream :=
  let y := closeGap m x
  let z : Stream := if y.count = 0 then { y with first := t, count := 1, level := lvl, missing := d.2, body := d.1 }
    else { y with count := y.count + 1, missing := y.missing || d.2, body := y.body ++ d.1 }
  if block ≤ z.count then closeData m z else z

/-- Bytes the stream would hold with n bytes of samples and the entries hs of one more tick. -/
def streamNeed (x : Stream) (hs : List (List Byte)) (n : Nat) : Nat :=
  streamBytes x + n + sumL (hs.map (·.length)) + (if x.count = 0 ∨ hs ≠ [] then 32 else 0) + (if x.gapCount = 0 then 0 else 32)

/-- The data of tick t enter stream m, or are dropped where the buffer has no room (R279). -/
def streamTick (s : State) (m t : Nat) (x : Stream) : Stream :=
  let lvl := levelFor s t
  let d := streamSamples s m t lvl
  let hs := streamHeads s m t lvl
  if Config.streamBuf < streamNeed x hs d.1.length then dropTick m t lvl hs x else putData m t lvl (monBlock s m) d (putHeads m hs x)

/-- The tick the stream writer releases next. -/
def nextRelease (s : State) : Option Nat :=
  match s.acq.tStart, s.acq.released with
  | some a, some r => some (max a (r + 1))
  | some a, none => some a
  | none, _ => none

/-- The data of tick t go to every enabled stream (R279). -/
def releaseTick (t : Nat) (s : State) : State :=
  let s1 := ((List.range 32).filter (streamOn s)).foldl (fun u m => setStream m (streamTick s m t (streamAt u m)) u) s
  { s1 with acq := { s1.acq with
    released := some t
    marks := s1.acq.marks.filter fun k => decide (t < k.tick)
    ladPend := s1.acq.ladPend.filter fun c => decide (t < c.tick) } }

/-- Tick t is the last before a pause edge. -/
def lastBeforePause (s : State) (t : Nat) : Bool := t + 1 == s.dev.tP && (s.dev.st == .paused || s.dev.pauseAt.isSome)

/-- Tick t has been decided. -/
def isDecided (s : State) (t : Nat) : Bool := match s.comb.decided with | some d => decide (t ≤ d) | none => false

/-- STREAM_RELEASE: ticks in order, each after its decision (R279). -/
def execStreamRelease (s : State) : Host.Outcome State Fault Refusal :=
  goes (match nextRelease s with
    | none => s
    | some t =>
      if elasticOff s || !isDecided s t then s
      else if lastBeforePause s t then closeStreams (releaseTick t s) else releaseTick t s)

/- The replay log (R309, R310). -/

/-- Bytes the log takes in its area. -/
def logSize (r : Rec) : Nat := sumL (r.log.map fun e => (logEntryBytes e).length)

/-- Why a recording ends now: 0 its named tick, 1 the area is full (no room beside the STOP entry), 2 the ring would overwrite its
first tick (R309, R310). -/
def stopCause (s : State) : Option Nat :=
  let r := s.acq.recg
  if !r.running then none
  else match s.comb.decided with
    | none => none
    | some d =>
      if d < r.first then none
      else if 0 < r.endTick ∧ r.endTick ≤ d then some 0
      else if r.size < logSize r + 64 then some 1
      else if r.first + ringDepth s ≤ d + 1 then some 2
      else none

/-- REPLAY_LOG_STOP (R310): the STOP entry names the last recorded tick; INEXACT where RING_WR_LATE counted. -/
def execReplayLogStop (s : State) : Host.Outcome State Fault Refusal :=
  goes (match stopCause s, s.comb.decided with
    | some c, some d =>
      let r := s.acq.recg
      let last := if c = 0 then r.endTick else d
      let r := { r with running := false, done := true, endTick := last
                        log := r.log ++ [{ type := 11, flags := bnat (r.ringLate0 != devCnt s 18), tick := last, body := le 1 c }] }
      { s with acq := { s.acq with recg := r, recorded := r :: s.acq.recorded.filter fun x => x.area != r.area } }
    | _, _ => s)

end Sys2Proof.Machine
end

