-- ==== Sys2Proof/Machine/Deliver.lean ====
section
/-!
DEFINITION. How words move: routers, hold registers, scale buffers, the sum chain, express lanes and queues (06 R152 to R169).
-/

namespace Sys2Proof.Machine

/- Neighbours and directives (R154, R155). -/

/-- A fault that names a tile. -/
def tileFault (f : FaultRec) (q col row : Nat) (s : State) : State :=
  let t := tileAt s q col row
  fault { f with quad := q, site := 16 * col + row, phys := physOf s q col row, section_ := if f.section_ = 0xFF then t.owner else f.section_ } s

/-- Phase that a fault record names: of a fixed-path section in the tick, of another in the pass. -/
def phaseOf (s : State) (q col row x : Nat) : Nat :=
  if isFixed (secAt s (tileAt s q col row).owner) then x % max (iiOf s) 1 else x

/-- Words on an output port that overlap a run. -/
def portBusy (t : Tile) (side a b : Nat) : Bool := t.outs.any fun r => r.port == 10 + side && decide (r.a ≤ b ∧ a ≤ r.b)

/-- An output port whose directive names a source in some cycle of a run. -/
def portRouted (t : Tile) (side a b : Nat) : Bool := t.routes.any fun r =>
  decide (1 ≤ sideDir r.dirs side ∧ sideDir r.dirs side ≤ 7 ∧ r.a ≤ b ∧ a ≤ r.b)

/-- The words a hold register shows in the cycles a to b: one run for each contents. -/
def holdRuns (t : Tile) (n a b : Nat) : List Run :=
  let starts := a :: ((t.hr.filter fun r => r.port == n && decide (a < r.a ∧ r.a ≤ b)).map (·.a)).eraseDups
  (starts.map fun st =>
    let next := (starts.filter (fun y => decide (st < y))).foldl min (b + 1)
    { port := n, a := st, b := next - 1, w := holdAt t.hr n st : Run }).filter fun r => r.w.v

mutual
/-- A word reaches an input port (0 to 3) or the access point (4) for the cycles of a run; ov: it takes the place of one there. Routes in
force forward and capture it (R155). fuel bounds the hops. -/
def arrive (fuel q col row port : Nat) (ov : Bool) (r : Run) (s : State) : State :=
  match fuel with
  | 0 => s
  | k + 1 =>
    let t := tileAt s q col row
    let s := setTile q col row { t with inbox := t.inbox ++ [{ r with port := port }] } s
    t.routes.foldl (fun s u =>
      if u.a ≤ r.b ∧ r.a ≤ u.b then
        let s := passOn k q col row port ov u.dirs { r with a := max r.a u.a, b := min r.b u.b } s
        let d := sideDir u.dirs port
        if port < 4 ∧ (d = 8 ∨ d = 9) ∧ r.b < u.b ∧ !(runAt (tileAt s q col row).inbox port (r.b + 1)).v then
          holdPut k q col row (d - 8) { port := port, a := r.b + 1, b := r.b + 1, w := {} } s
        else s
      else s) s

/-- The directives act on a word at an input port (R155). -/
def passOn (fuel q col row port : Nat) (ov : Bool) (dirs : Nat) (r : Run) (s : State) : State :=
  match fuel with
  | 0 => s
  | k + 1 =>
    let s := (List.range 4).foldl (fun s side =>
      let d := sideDir dirs side
      if (port < 4 ∧ d = port + 1) ∨ (port = 4 ∧ d = 7) then drive k q col row side ov r s else s) s
    if 4 ≤ port then s else capture k q col row port (sideDir dirs port) ov r s

/-- A word is captured by the directive d of its input port; ov: it takes the place of one captured in the same cycle. -/
def capture (fuel q col row port d : Nat) (ov : Bool) (r : Run) (s : State) : State :=
  match fuel with
  | 0 => s
  | k + 1 =>
    let t := tileAt s q col row
    if d = 8 ∨ d = 9 then holdPut k q col row (d - 8) r s
    else if 10 ≤ d ∧ d ≤ 13 then
      let same (x : Run) : Bool := ov && x.port == d - 10 && x.a == r.a
      if r.w.k then setTile q col row { t with sbuf := if t.sbuf.any same then t.sbuf.map fun x => if same x then { r with port := d - 10 } else x
                                               else t.sbuf ++ [{ r with port := d - 10 }] } s
      else if r.w.v then
        tileFault { code := 0x0204, sev := 3, phase := phaseOf s q col row r.a, unit := port } q col row
          (setTile q col row (tcount cScaleSkew 1 t) s)
      else s
    else s

/-- A word captured at cycle x stands in the hold register from x + 1 (R154), and routes that forward the register drive it. -/
def holdPut (fuel q col row n : Nat) (r : Run) (s : State) : State :=
  match fuel with
  | 0 => s
  | k + 1 =>
    let t := tileAt s q col row
    let s := setTile q col row { t with hr := t.hr ++ [{ r with port := n, a := r.a + 1, b := r.a + 1 }] } s
    t.routes.foldl (fun s u => (List.range 4).foldl (fun s side =>
      if sideDir u.dirs side = 5 + n ∧ r.a + 1 ≤ u.b then drive k q col row side true { r with a := max (r.a + 1) u.a, b := u.b } s else s) s) s

/-- A word on an output port reaches the neighbour one cycle later (R154). -/
def drive (fuel q col row side : Nat) (ov : Bool) (r : Run) (s : State) : State :=
  match fuel with
  | 0 => s
  | k + 1 =>
    let t := tileAt s q col row
    let outs := if ov then t.outs.map fun o => if o.port == 10 + side && decide (o.a < r.a ∧ r.a ≤ o.b) then { o with b := r.a - 1 } else o else t.outs
    let s := setTile q col row { t with outs := outs ++ [{ r with port := 10 + side }] } s
    match neighbour col row side with
    | none => s
    | some (c2, r2) => arrive k q c2 r2 ((side + 2) % 4) ov { r with a := r.a + 1, b := r.b + 1 } s
end

/-- More hops than any word of a schedule makes. -/
def hops : Nat := 4096

/-- The pass of a tier-two section that owns a tile ends suspect (R198). -/
def suspectOwner (q col row : Nat) (s : State) : State :=
  let h := (tileAt s q col row).owner
  if (secAt s h).resident && !isFixed (secAt s h) then abandonPass h .suspect s else s

/-- Two sources drive one output port in a cycle: a poisoned word with V = 1 leaves, and a tier-two pass ends suspect (R160, R198). -/
def portCollision (q col row side x : Nat) (w : LWord) (s : State) : State :=
  let s := setTile q col row (tcount cPortColl 1 (tileAt s q col row)) s
  let s := tileFault { code := 0x0202, sev := 3, phase := phaseOf s q col row x, unit := side } q col row s
  suspectOwner q col row (drive hops q col row side true { port := 0, a := x, b := x, w := poisonWord w.tick w.btag } s)

/-- A word that emerges from the tile on an output port (R157, R158). -/
def driveOwn (q col row side x : Nat) (w : LWord) (s : State) : State :=
  let t := tileAt s q col row
  if portBusy t side x x || portRouted t side x x then portCollision q col row side x w s
  else drive hops q col row side false { port := 0, a := x, b := x, w := w } s

/-- The cycles of a span after a word, or at its start, in which an input port carries the idle word: the first cycle of each. -/
def idleStarts (t : Tile) (port a b : Nat) : List Nat :=
  (a :: ((t.inbox.filter fun r => r.port == port && decide (a ≤ r.b + 1 ∧ r.b + 1 ≤ b)).map fun r => r.b + 1)).eraseDups.filter fun x =>
    !(runAt t.inbox port x).v

/-- A hold-register directive captures what its port carries, the idle word too (R155). Of two runs of one cycle the later entry of the list
counts, so that a word arriving afterwards takes the place of the idle word. -/
def captureIdle (q col row : Nat) (u : Route) (s : State) : State :=
  (List.range 4).foldl (fun s side =>
    let d := sideDir u.dirs side
    if d = 8 ∨ d = 9 then
      (idleStarts (tileAt s q col row) side u.a u.b).foldl (fun s x => holdPut hops q col row (d - 8) { port := side, a := x, b := x, w := {} } s) s
    else s) s

/-- The directives of a word come into force for its span: words already on their way are forwarded and captured, hold registers
driven (R155). -/
def addRoute (q col row : Nat) (u : Route) (s0 : State) : State :=
  let t := tileAt s0 q col row
  let clash := (List.range 4).filter fun side => decide (1 ≤ sideDir u.dirs side ∧ sideDir u.dirs side ≤ 7) && portBusy t side u.a u.b
  let s := captureIdle q col row u <| setTile q col row { t with routes := t.routes ++ [u] } s0
  let s := t.inbox.foldl (fun s r => if r.a ≤ u.b ∧ u.a ≤ r.b then
    passOn hops q col row r.port false u.dirs { r with a := max r.a u.a, b := min r.b u.b } s else s) s
  let s := (List.range 4).foldl (fun s side =>
    let d := sideDir u.dirs side
    if d = 5 ∨ d = 6 then (holdRuns t (d - 5) u.a u.b).foldl (fun s r => drive hops q col row side false r s) s else s) s
  clash.foldl (fun s side =>
    (t.outs.filter fun r => r.port == 10 + side && decide (r.a ≤ u.b ∧ u.a ≤ r.b)).foldl (fun s o =>
      (rangeFrom (max o.a u.a) (min o.b u.b + 1 - max o.a u.a)).foldl (fun s x => portCollision q col row side x o.w s) s) s) s

/- Express lanes (R161 to R166). -/

/-- An entry of a slot table. -/
def slotAt (s : State) (q lane bank idx : Nat) : Slot := tget (fun _ => {}) s.grid.slots (((16 * q + lane) * 2 + bank) * 1024 + idx)

/-- Slot index of the fixed class: the phase mod 1,024 (R163). -/
def fixedIdx (s : State) (x : Nat) : Nat := x % max (iiOf s) 1 % 1024

/-- A crossing to another die cannot be corrected: D2D_UE of the interface, counted in its CE window too, and its record (R400, R410).
The counters of interface d stand at 64 + 2 d and 65 + 2 d (log 23). -/
def crossingBad (q : Nat) (s : State) : State :=
  let s := hwCount (65 + 2 * q) s
  fault { code := 0x0206, sev := 3, quad := q, unit := q } { s with flt := { s.flt with ce := cset s.flt.ce (1000000 + q) (cget s.flt.ce (1000000 + q) + 1) } }

/-- The readers of an entry take the word that its lane got at cycle x; a die-port reader passes it to another quadrant (R162, R164). -/
def takeWord (q lane bank x idx : Nat) (e : Slot) (ov : Bool) (w : LWord) (s0 : State) : State :=
  let give (q lane x readers : Nat) (w : LWord) (s : State) : State :=
    (setBits 24 readers).foldl (fun s a =>
      let p := accessSite lane a
      arrive hops q p.1 p.2 4 ov { port := 4, a := x + 3, b := x + 3, w := w } s) s
  let s := give q lane x e.readers w s0
  if !bit e.readers 24 then s
  else
    let d := tget (fun _ => ((0, 0) : Nat × Nat)) s.grid.switches ((16 * q + lane) * 1024 + idx)
    if d.2 = 0 then s
    else
      let y := x + 11
      let f := slotAt s d.1 (d.2 - 1) bank (fixedIdx s y)
      if !(f.valid && f.writer == 24) then s
      else if s.grid.d2dUe then give d.1 (d.2 - 1) y f.readers { w with p := true, data := 0#256 } (crossingBad q s)
      else give d.1 (d.2 - 1) y f.readers w s

/-- A lane counts a wrong put, where its slot has not counted already, and reports the tiles that put (R166). -/
def laneFault (q lane x idx : Nat) (count : Bool) (sites : List Nat) (s : State) : State :=
  let s := if count then { s with grid := { s.grid with xcoll := cadd 32 s.grid.xcoll (16 * q + lane) 1 } } else s
  sites.foldl (fun s p => tileFault { code := 0x0203, sev := 3, phase := phaseOf s q (p / 16 % 16) (p % 16) x, unit := lane, index := idx } q (p / 16 % 16) (p % 16) s) s

/-- The sections whose tiles read an entry of a lane. -/
def readerSecs (s : State) (q lane readers : Nat) : List Nat :=
  ((setBits 24 readers).map fun a => (tileAt s q (accessSite lane a).1 (accessSite lane a).2).owner).eraseDups

/-- A wrong put into an elastic slot: the pass that reads the word ends suspect (R166). -/
def elasticBad (q lane : Nat) (e : Slot) (s : State) : State :=
  if e.elastic then (readerSecs s q lane e.readers).foldl (fun s h => abandonPass h .suspect s) s else s

/-- A put of the fixed class at cycle x by the tile of a site, against the slot table of a bank (R163, R166). The slot of a collision is
counted once, its poisoned word has the side-band of the named writer's word, and each tile that put is reported. -/
def fixedPut (q col row bank x : Nat) (w : LWord) (s : State) : State :=
  let idx := fixedIdx s x
  let ls := lanesOf col row
  match (ls.find? fun l => let e := slotAt s q l.1 bank idx; e.valid && !e.elastic && e.writer == l.2).or ls.head? with
  | none => s
  | some (lane, a) =>
    let e := slotAt s q lane bank idx
    let site := 16 * col + row
    let here (p : Put) : Bool := p.lane == 16 * q + lane && p.cyc == x
    let others := s.grid.puts.filter here
    let wrong := !e.valid || !others.isEmpty || e.writer != a
    let mine : Put := { lane := 16 * q + lane, cyc := x, site := site, tick := w.tick, btag := w.btag, bad := wrong }
    let s := { s with grid := { s.grid with puts := (s.grid.puts.map fun p => if here p then { p with bad := true } else p) ++ [mine] } }
    if !e.valid then laneFault q lane x idx true [site] s
    else if !others.isEmpty then
      let named := others.find? fun p => accessSite lane e.writer == (p.site / 16 % 16, p.site % 16)
      let side := if e.writer = a then mine else named.getD mine
      elasticBad q lane e (laneFault q lane x idx (!others.any (·.bad)) (((others.filter (!·.bad)).map (·.site)) ++ [site])
        (takeWord q lane bank x idx e true (poisonWord side.tick side.btag) s))
    else if e.writer = a then takeWord q lane bank x idx e false w s
    else elasticBad q lane e (laneFault q lane x idx true [site] (takeWord q lane bank x idx e false (poisonWord w.tick w.btag) s))

/- Credit loops (R167). -/

/-- Physical quadrant of a virtual one. -/
def physQuad (x : Sec) (vq : Nat) : Nat := x.place.getD vq 0

/-- A loop's producer stands at a site. -/
def produces (x : Sec) (l : ImLoop) (q col row : Nat) : Bool := physQuad x l.pvq == q && l.pcol == col && l.prow == row
/-- A loop's consumer is a generator of a site. -/
def consumes (x : Sec) (l : ImLoop) (q col row ag : Nat) : Bool := physQuad x l.cvq == q && l.ccol == col && l.crow == row && l.ag == ag

/-- The first loop of a section, with its number, that satisfies a condition. -/
def findLoop (x : Sec) (p : ImLoop → Bool) : Option (Nat × ImLoop) := (x.img.loops.zipIdx.find? fun e => p e.1).map fun e => (e.2, e.1)

/-- Credits spent on a loop rise by n. -/
def spendCredit (h loop n : Nat) (s : State) : State :=
  let x := secAt s h
  setSec h { x with credits := cset x.credits loop (cget x.credits loop + n) } s
/-- The consumer gives a credit back: it is on its way to the producer. -/
def giveCredit (h loop : Nat) (s : State) : State :=
  let x := secAt s h
  setSec h { x with returning := cset x.returning loop (cget x.returning loop + 1) } s

/-- A fault during a pass that ends it suspect (R198, R261). -/
def passFault (h : Nat) (f : FaultRec) (q col row : Nat) (s : State) : State :=
  abandonPass h .suspect (tileFault { f with elastic := true, section_ := h } q col row s)

/-- The credits of a loop at its producer: 64 line credits of an HBM write, 32 of a fabric port, else the depth of the consumer's
buffer (R167). -/
def loopCredits (l : ImLoop) : Nat := match l.kind with | .hbmWrite => 64 | .fabric => 32 | _ => l.d

/-- A credited word reaches a queue or FIFO (R117, R121). -/
def queueArrive (h q col row ag : Nat) (l : MLine) (s : State) : State :=
  let t := tileAt s q col row
  match queuePut t ag l with
  | some t => setTile q col row t s
  | none => passFault h { code := 0x010D, sev := 3, unit := ag } q col row (setTile q col row (tcount cQueueOvf 1 t) s)

/-- An express loop that a tile of a section produces. -/
def expressLoop (x : Sec) (q col row : Nat) : Option (Nat × ImLoop) :=
  findLoop x fun l => (l.kind == .expressSame || l.kind == .expressOther) && produces x l q col row

/-- The next elastic slot of a tile from grid cycle g on: lane, and the cycles it waits (R163, R165). -/
def elasticSlot (s : State) (q col row g : Nat) : Option (Nat × Nat) :=
  (List.range 1024).findSome? fun k => ((lanesOf col row).find? fun l =>
    let e := slotAt s q l.1 s.grid.slotBank ((g + k) % 1024)
    e.valid && e.elastic && e.writer == l.2).map fun l => (l.1, k)

/-- A put of the elastic class: it waits for the next slot of its own, so it meets no other put, and goes to the reader of the slot, or
through its credit loop to the consumer's queue (R165, R167). The lines of a queue are counted in when they are sent: the wait for the slot
and the crossing change timing only (DESIGN CHOICE, log 66). -/
def elasticPut (h q col row x : Nat) (w : LWord) (s : State) : State :=
  let sec := secAt s h
  match expressLoop sec q col row with
  | some (n, l) =>
    let bad := s.grid.d2dUe && l.kind == .expressOther
    queueArrive h (physQuad sec l.cvq) l.ccol l.crow l.ag { data := if w.p || bad then 0#256 else w.data, p := w.p || bad, tick := w.tick }
      (spendCredit h n 1 (if bad then crossingBad q s else s))
  | none =>
    let p := passAt s h
    match elasticSlot s q col row (p.start + x + p.freeze) with
    | some (lane, k) =>
      let idx := (p.start + x + p.freeze + k) % 1024
      takeWord q lane s.grid.slotBank (x + k) idx (slotAt s q lane s.grid.slotBank idx) false w s
    | none => s

/- Destinations (R157). -/

/-- A word goes to the destinations of a set as it emerges at cycle x. -/
def deliver (h : Nat) (elastic : Bool) (slotBank q col row x dest : Nat) (w : LWord) (s : State) : State :=
  let t := tileAt s q col row
  let s := setTile q col row { t with outs := t.outs ++ [{ port := 0, a := x, b := x, w := w }] } s
  let s := (List.range 4).foldl (fun s side => if bit dest (15 - side) then driveOwn q col row side x w s else s) s
  let s := if bit dest 10 then holdPut hops q col row (bnat (bit dest 9)) { port := 0, a := x, b := x, w := w } s else s
  if !bit dest 11 then s
  else if elastic then elasticPut h q col row x w s
  else fixedPut q col row slotBank x w s

/-- A word on the chain output at cycle x is on the chain input to the south at x + 1 (R102). -/
def chainOut (q col row x : Nat) (c : Chain) (s : State) : State :=
  let t := tileAt s q col row
  let s := setTile q col row { t with chainOut := t.chainOut ++ [{ n := 0, cyc := x, c := c }] } s
  if siteClass col (row + 1) = some .matrix then
    let u := tileAt s q col (row + 1)
    setTile q col (row + 1) { u with chain := u.chain ++ [{ n := 0, cyc := x + 1, c := c }] } s
  else s

end Sys2Proof.Machine
end

