-- ==== Sys2Proof/Machine/Spares.lean ====
section
/-!
DEFINITION. Spares and maintenance: health, activities and their resources, shadow rotation and its decisions, held and stopped tiles, lost
quadrants, quadrant power (15 R409 to R431).
-/

namespace Sys2Proof.Machine

/- Health (R409, R410). -/

/-- Health unit of a physical tile. -/
def tileUnit (q idx : Nat) : Nat := 160 * q + idx
/-- Health unit of a position of a line. -/
def lineUnit (q k p : Nat) : Nat := tileUnit q (lineBase k + p)
/-- The unit has been declared failed. -/
def isFailed (s : State) (u : Nat) : Bool := healthAt s u / 64 == 2
/-- A confirmed fault: STATUS st and the count one higher, saturating at 15. -/
def markUnit (st u : Nat) (s : State) : State :=
  setHealth u (st * 64 + healthAt s u / 16 % 4 * 16 + min 15 (healthAt s u % 16 + 1)) s
def failUnit (u : Nat) (s : State) : State := markUnit 2 u s

/- Activities (R428, R429). -/

/-- A maintenance event (R429): handle and code of the activity. -/
def maintEv (code h act : Nat) (s : State) : State := raiseEv { code := code, sev := 0, body := le 4 h ++ le 1 act } s

/-- An activity begins; its handle is the next one. -/
def startAct (r : MaintReq) (j : Nat) (s : State) : State :=
  let h := s.flt.nextAct
  maintEv 0xA0 h r.act { s with flt := { s.flt with nextAct := h + 1, acts := s.flt.acts ++ [{ h := h, act := r.act, req := r, jseq := j }] } }

/-- An activity waits for its resources (QUEUE). -/
def queueAct (r : MaintReq) (j : Nat) (s : State) : State :=
  let h := s.flt.nextAct
  maintEv 0xA4 h r.act { s with flt := { s.flt with
    nextAct := h + 1, acts := s.flt.acts ++ [{ h := h, act := r.act, req := r, queued := true, jseq := j }] } }

/-- An activity is over: MAINT_DONE or MAINT_ABORTED. -/
def endAct (h : Nat) (aborted : Bool) (s : State) : State :=
  match s.flt.acts.find? (fun a => a.h == h) with
  | none => s
  | some a => maintEv (if aborted then 0xA2 else 0xA1) h a.act { s with flt := { s.flt with acts := s.flt.acts.filter fun x => x.h != h } }

/-- The activity with a code, for a quadrant. -/
def actOf (s : State) (code q : Nat) : Option Activity := s.flt.acts.find? fun a => a.act == code && a.req.quad == q && !a.queued
/-- A quadrant moves under QUAD_POWER. -/
def quadCycling (s : State) (q : Nat) : Bool := (actOf s 6 q).isSome
/-- A line is in rotation. -/
def rotating (s : State) (q k : Nat) : Bool := s.flt.rots.any fun r => r.q == q && r.k == k
/-- A quadrant has a line in rotation. -/
def quadRotating (s : State) (q : Nat) : Bool := s.flt.rots.any fun r => r.q == q
/-- A quadrant takes part in a takeover: it is lost, or it is the standby. -/
def inTakeover (s : State) (q : Nat) : Bool := s.flt.takeover.isSome && (s.dev.standby == some q || s.flt.takeover == some q)

/-- A resource that an activity of yours needs is held (R428, R429). -/
def claimed (s : State) (r : MaintReq) : Bool :=
  match r.act with
  | 1 => inTakeover s r.quad || quadCycling s r.quad ||
      r.lines.any fun k => rotating s r.quad k || s.flt.remaps.any fun x => x.q == r.quad && x.k == k
  | 3 => s.flt.acts.any fun a => a.act == 3 && !a.queued
  | 6 => s.flt.takeover.isSome || quadCycling s r.quad || quadRotating s r.quad || s.flt.remaps.any fun x => x.q == r.quad
  | _ => false

/- Shadow rotation (R415 to R417). -/

/-- The virtual site at a physical position of a line, none at the bypassed one. -/
def siteAtPos (s : State) (q k p : Nat) : Option (Nat × Nat) :=
  let b := skipAt s q k
  if p = b then none else some (siteOnLine k (if p < b then p else p - 1))

/-- The largest STAGE of the words at a position (R415). -/
def posStage (s : State) (q k p : Nat) : Nat :=
  match siteAtPos s q k p with
  | some c => maxL ((tileAt s q c.1 c.2).stage.map fun e => bits e.2 10 0)
  | none => 0

/-- Ticks from the next edge to the end of the warm-up. -/
def warmUntil (s : State) (q k a : Nat) : Nat := nowTick s + 1 + 16 + posStage s q k a

/-- The step of the walk that begins with the spare at b. -/
def rotStep (r : Rot) (s : State) : Rot :=
  let b := skipAt s r.q r.k
  let up := if b = 0 then true else if b = 8 then false else r.up
  let a := if up then b + 1 else b - 1
  { r with a := a, up := up, comparing := false, until_ := warmUntil s r.q r.k a, repeats := 0, mism := false, move := false }

/-- A line's rotation as it begins. -/
def newRot (s : State) (h ticks q k : Nat) : Rot := rotStep { act := h, q := q, k := k, a := 0, ticks := ticks } s

/-- The step begins again at its warm-up. -/
def rotAgain (s : State) (r : Rot) : Rot := { r with comparing := false, until_ := warmUntil s r.q r.k r.a, mism := false }

def setRot (r : Rot) (s : State) : State :=
  { s with flt := { s.flt with rots := s.flt.rots.map fun x => if x.q == r.q && x.k == r.k then r else x } }

/-- Rotation of a line is over; with its last line the activity is. -/
def dropRot (r : Rot) (aborted : Bool) (s : State) : State :=
  let s := { s with flt := { s.flt with rots := s.flt.rots.filter fun x => !(x.q == r.q && x.k == r.k) } }
  if s.flt.rots.any fun x => x.act == r.act then s else endAct r.act aborted s

/-- The rotation that compares the tile of a virtual site. -/
def rotFor (s : State) (q col row : Nat) : Option Rot :=
  match lineOfSite col row with
  | some (k, v) => s.flt.rots.find? fun r => r.q == q && r.k == k && r.comparing && r.a == physPos (skipAt s q k) v
  | none => none

/-- The record of a rotation. -/
def rotRec (s : State) (r : Rot) (confirmed : Bool) (detail : Nat) : FaultRec :=
  let c := (siteAtPos s r.q r.k r.a).getD (0, 0)
  { code := 0x0110, sev := 3, quad := r.q, site := 16 * c.1 + c.2, phys := r.a, rotation := true, confirmed := confirmed, detail := detail
    section_ := (tileAt s r.q c.1 c.2).owner }

/-- A quadrant's loss acts at the next tick edge (R419). -/
def loseQuad (q : Nat) (clean : Bool) (s : State) : State :=
  if s.flt.quadLost.contains q || quadAt s q == .failed || quadAt s q == .fused || quadAt s q == .off then s
  else { s with flt := { s.flt with quadLost := s.flt.quadLost ++ [q], takeClean := clean } }

/-- The shadowed tile has failed: SKIP moves to it at the next tick edge (R416). -/
def rotActiveBad (r : Rot) (s : State) : State := setRot { r with move := true, mism := false } (fault (rotRec s r true 0) s)

/-- The spare has failed: rotation of the line stops (R416). -/
def rotSpareBad (r : Rot) (s : State) : State :=
  let b := skipAt s r.q r.k
  dropRot r false (fault { code := 0x0705, sev := 2, quad := r.q, unit := r.k, phys := b, rotation := true } (failUnit (lineUnit r.q r.k b) s))

/-- A second undecided mismatch: a has failed if the spare passed a step, else both are suspect and a is remapped (R416). The record's
DETAIL 1 tells its handler that the tile is suspect, not failed. -/
def rotUndecided (r : Rot) (s : State) : State :=
  if 0 < r.steps then rotActiveBad r s
  else
    let s := markUnit 1 (lineUnit r.q r.k r.a) (markUnit 1 (lineUnit r.q r.k (skipAt s r.q r.k)) s)
    dropRot r true (fault (rotRec s r true 1) s)

/-- A second case of both: both have failed and the line has no spare (R413, R416). -/
def rotBothBad (r : Rot) (s : State) : State :=
  let s1 := failUnit (lineUnit r.q r.k r.a) (failUnit (lineUnit r.q r.k (skipAt s r.q r.k)) s)
  loseQuad r.q true (dropRot r true (fault (rotRec s r false 0) s1))

/-- The decision on a mismatch, by residue verdicts or by recomputation (R416, R417). -/
def rotDecide (recomputed aBad sBad : Bool) (r : Rot) (s : State) : State :=
  match aBad, sBad with
  | true, false => rotActiveBad r s
  | false, true => rotSpareBad r s
  | false, false =>
    if r.repeats = 0 then setRot { rotAgain s r with repeats := 1 } (fault (rotRec s r false 0) s)
    else if recomputed then rotSpareBad r (fault (rotRec s r false 0) s)
    else rotUndecided r s
  | true, true =>
    if r.repeats = 0 then setRot { rotAgain s r with repeats := 1 } (fault (rotRec s r false 0) s) else rotBothBad r s

/-- A mismatch found by the comparator: counted, and decided by residue or captured for recomputation (R415 to R417). -/
def rotMismatch (covered aBad sBad : Bool) (r : Rot) (s : State) : State :=
  let s := hwCount (16 * r.q + r.k) s
  if r.move then s
  else if covered then rotDecide false aBad sBad r s
  else setRot { r with mism := true } s

/-- At a tick edge SKIP moves to a tile that rotation found failed (R416). -/
def moveRots (s : State) : State :=
  (s.flt.rots.filter fun r => r.move).foldl (fun (s : State) (r : Rot) =>
    let s := setSkip r.q r.k r.a (failUnit (lineUnit r.q r.k r.a) s)
    dropRot r false (fault { code := 0x0701, sev := 2, quad := r.q, unit := r.k, phys := r.a, rotation := true } s)) s

/-- Steps that a swap of sections touches begin again (R415). -/
def rotSwapped (hs : List Nat) (s : State) : State :=
  let sites := hs.flatMap fun h => sitesOf (secAt s h)
  let again (r : Rot) : Rot :=
    match siteAtPos s r.q r.k r.a with
    | some c => if sites.contains (r.q, c.1, c.2) then rotAgain s r else r
    | none => r
  { s with flt := { s.flt with rots := s.flt.rots.map again } }

/- Held tiles (R411, R419). -/

/-- Virtual sites of a remap's segment. -/
def segment (s : State) (r : Remap) : List (Nat × Nat × Nat) :=
  let b := skipAt s r.q r.k
  ((List.range 8).filter fun v => decide (min r.f r.b ≤ physPos b v ∧ physPos b v ≤ max r.f r.b)).map fun v =>
    (r.q, (siteOnLine r.k v).1, (siteOnLine r.k v).2)

/-- Every site of a quadrant. -/
def quadSites (q : Nat) : List (Nat × Nat × Nat) := (List.range 12).flatMap fun c => (List.range 12).map fun r => (q, c, r)

def holdTiles (hold : Bool) (l : List (Nat × Nat × Nat)) (s : State) : State :=
  l.foldl (fun (s : State) (p : Nat × Nat × Nat) => setTile p.1 p.2.1 p.2.2 { tileAt s p.1 p.2.1 p.2.2 with held := hold } s) s

/-- Passes of sections with a tile at a held site end suspect (R198, R411). -/
def holdPasses (l : List (Nat × Nat × Nat)) (s : State) : State :=
  ((residents s).filter fun h => (sitesOf (secAt s h)).any fun p => l.contains p).foldl (fun s h => abandonPass h .suspect s) s

/-- Latency of an opcode's output words. -/
def latOf (op : Nat) : Nat := match declaredLatency.find? (fun e => e.1 == op) with | some e => e.2 | none => 0

/-- A tile drives poisoned words in every cycle of tick n: on its ports, its sum-chain output and its express puts (R184, R411). -/
def poisonTile (n : Nat) (p : Nat × Nat × Nat) (s : State) : State :=
  let ii := max (iiOf s) 1
  let w := poisonWord (n % 256) 0
  let t := tileAt s p.1 p.2.1 p.2.2
  let s := (List.range 4).foldl (fun s side =>
    drive hops p.1 p.2.1 p.2.2 side true { port := 0, a := n * ii, b := n * ii + ii - 1, w := w } s) s
  let s := if siteClass p.2.1 p.2.2 = some .matrix then
      (List.range ii).foldl (fun s k => chainOut p.1 p.2.1 p.2.2 (n * ii + k) (poisonChain 64 (n % 256) 0) s) s
    else s
  (List.range 1024).foldl (fun s i =>
    let x := tswAt t t.bank i
    if bit (wDest x) 11 && !isIdle (wOpcode x) then
      fixedPut p.1 p.2.1 p.2.2 s.grid.slotBank (n * ii + wStart t t.bank i + latOf (wOpcode x)) w s
    else s) s

/-- The accesses of a held memory tile for tick n: what it would have written is a poisoned line, and its generators go on (R411). -/
def heldMemory (ii n : Nat) (t : Tile) : Tile :=
  (List.range 1024).foldl (fun (t : Tile) (i : Nat) =>
    let w := tswAt t t.bank i
    let op := wOpcode w
    if 0x40 ≤ op ∧ op ≤ 0x44 then
      let k := n - wStage t t.bank i
      let o := memoryOp (op != 0x41) (op == 0x43 || op == 0x44) (op == 0x41 || op == 0x42 || op == 0x44)
        { tag := k % 256, tick := k, c := n * ii + wStart t t.bank i, w := w } { t with memNew := [] }
      { t with
        ags := o.t.ags
        memNew := t.memNew ++ o.t.memNew.map fun (m : MWrite) => { m with l := { data := 0#256, p := true, tick := k % 256 } } }
    else t) t

/-- Held tiles and tiles of stopped sections of the fixed path, in tick n (R411, R413). -/
def heldTick (n : Nat) (s : State) : State :=
  let ii := max (iiOf s) 1
  ((residents s).filter fun h => isFixed (secAt s h)).foldl (fun s h =>
    (sitesOf (secAt s h)).foldl (fun (s : State) (p : Nat × Nat × Nat) =>
      let t := tileAt s p.1 p.2.1 p.2.2
      if !t.held && !(secAt s h).stopped then s
      else
        let s := poisonTile n p s
        if t.held && siteClass p.2.1 p.2.2 == some .memory then
          setTile p.1 p.2.1 p.2.2 (heldMemory ii n (tileAt s p.1 p.2.1 p.2.2)) s
        else s) s) s

/- A tile's stores that could not be read (R411). -/

/-- Lines of a generator's region. -/
def agLines (g : AddrGen) : List Nat :=
  (List.range (if g.mode == .history then g.depth * g.stride.toNat else g.depth)).map fun k => fifoLine g k

/-- Scale points restart with FILL = 0 and stay poisoned until FILL reaches N; lines are the image's, or poisoned; generators restart. -/
def lostStores (im : ImTile) (t : Tile) : Tile :=
  let bad (n : Nat) : MLine := { data := 0#256, p := true, tick := (tget (fun _ => ({} : MLine)) t.mem n).tick }
  let lines := (t.mem.map (·.1)) ++ (t.ags.flatMap agLines)
  let mem := lines.foldl (fun m n => tset (fun _ => {}) m n (bad n)) t.mem
  { t with
    scal := im.points.foldl (fun m (p : ScalePt) =>
      let e : ScaleEntry := tget (fun _ => zeroScale) m p.entry
      tset (fun _ => zeroScale) m p.entry { e with fill := 0, hptr := 0, sCur := e.sSeed }) t.scal
    lostPts := im.points.map (·.entry)
    mem := im.mem.foldl (fun m e => tset (fun _ => {}) m e.1 e.2) mem
    memNew := []
    ags := im.ags }

/-- The placed part of a site, in the resident sections. -/
def placedAt (s : State) (p : Nat × Nat × Nat) : Option ImTile :=
  ((residents s).flatMap fun h => (secAt s h).placed).find? fun im => im.vq == p.1 && im.col == p.2.1 && im.row == p.2.2

def loseStores (p : Nat × Nat × Nat) (s : State) : State :=
  match placedAt s p with
  | some im => setTile p.1 p.2.1 p.2.2 (lostStores im (tileAt s p.1 p.2.1 p.2.2)) s
  | none => s

/- Lost quadrants (R413, R419). -/

/-- A section stops: its pass under way ends suspect and its queue expired (R413). -/
def stopSection (h : Nat) (s : State) : State :=
  setSec h { secAt s h with stopped := true } (expireAll h (abandonPass h .suspect s))

/-- Resident sections with tiles in a quadrant. -/
def sectionsOn (s : State) (q : Nat) : List Nat := (residents s).filter fun h => (secAt s h).place.contains q

/-- Every site that a quadrant's sections use has a working map in another (R193, R419). -/
def standbyFits (s : State) (q sb : Nat) : Bool :=
  (sectionsOn s q).all fun h => (sitesOf (secAt s h)).all fun p => p.1 != q || siteMay s false sb p.2.1 p.2.2

/-- Remaps of a quadrant end. -/
def endRemaps (q : Nat) (s : State) : State :=
  (s.flt.remaps.filter fun r => r.q == q).foldl (fun (s : State) (r : Remap) => endAct r.act true s)
    { s with flt := { s.flt with remaps := s.flt.remaps.filter fun r => r.q != q } }

/-- Every quadrant that holds a section of a running device has failed and none takes over: S4 (R402). -/
def allQuadsLost (s : State) : Bool :=
  inRun s && !(residents s).isEmpty && s.flt.takeover.isNone &&
  (residents s).all fun h => (secAt s h).place.all fun q => quadAt s q == .failed

/-- The loss of a quadrant at a tick edge: every tile is held, the quadrant is FAILED, and its sections move or stop (R413, R419). -/
def quadDown (q : Nat) (s : State) : State :=
  let s := setQuad q .failed (endRemaps q { s with flt := { s.flt with quadLost := s.flt.quadLost.filter (· != q) } })
  let s := (s.flt.rots.filter fun r => r.q == q).foldl (fun (s : State) (r : Rot) => dropRot r true s) s
  let s := holdPasses (quadSites q) (holdTiles true (quadSites q) s)
  let may : Bool := match s.dev.standby with | some sb => quadAt s sb == .standby && s.flt.takeover.isNone && standbyFits s q sb | none => false
  if (sectionsOn s q).isEmpty then s
  else if may then startAct { act := 0x82, quad := q } 0 { s with flt := { s.flt with takeover := some q } }
  else
    let s := (sectionsOn s q).foldl (fun s h => stopSection h s) s
    if allQuadsLost s then fault { code := 0x0806, sev := 4, quad := q } s else s

/-- Losses act: at a tick edge, or at once where no edge comes. -/
def quadLosses (s : State) : State := s.flt.quadLost.foldl (fun s q => quadDown q s) s

/- Quadrant power (R430, R431). -/

/-- The stores, slot tables and counters of a quadrant are cleared. -/
def clearQuad (q : Nat) (s : State) : State :=
  { s with grid := { s.grid with
      tiles := s.grid.tiles.filter fun e => e.1 / 256 != q
      slots := s.grid.slots.filter fun e => e.1 / 32768 != q
      switches := s.grid.switches.filter fun e => e.1 / 16384 != q
      spareCnt := s.grid.spareCnt.filter fun e => e.1 / 16 != q } }

/-- Sections with tiles in a quadrant are unloaded, staged ones too. -/
def unloadQuad (q : Nat) (s : State) : State :=
  let gone := (List.range 16).filter fun h => ((secAt s h).resident || (secAt s h).staged) && (secAt s h).place.contains q
  let s := recomputeC (gone.foldl (fun s h => if (secAt s h).resident then dropSection h s else setSec h {} s) s)
  if s.dev.st == .loaded && (residents s).isEmpty then setDev .ready s else s

/-- The result of QUAD_POWER OFF: the handles unloaded (R430). -/
def quadHandles (s : State) (q : Nat) : List Byte := le 2 (sumL ((sectionsOn s q).map fun h => 2 ^ h))

/-- The request of QUAD_POWER suits the quadrant's state (R430): 0 OFF, 1 IDLE, 2 ON. -/
def quadMoveOk (s : State) (q req : Nat) : Bool :=
  match quadAt s q, req with
  | .active, 0 | .idle, 0 => !(inRun s && !(sectionsOn s q).isEmpty)
  | .off, 2 | .failed, 2 | .idle, 2 => true
  | .active, 1 => !(inRun s && !(sectionsOn s q).isEmpty)
  | _, _ => false

/-- A quadrant wakes: cleared, and WAKING until CLEARING_DONE (R430, R431). -/
def quadWake (q j : Nat) (s : State) : State :=
  let s := if quadAt s q == .failed then { s with flt := { s.flt with fromFailed := s.flt.fromFailed.filter (· != q) ++ [q] } } else s
  startAct { act := 6, quad := q } j (setQuad q .waking (clearQuad q (unloadQuad q s)))

/-- A quadrant goes OFF: its contents are lost, and its rail is set to 0.60 V (R497). -/
def quadOff (q : Nat) (s : State) : State := avsSend q 600 (setQuad q .off (clearQuad q (unloadQuad q s)))

/-- The edge move of QUAD_POWER between ACTIVE and IDLE. -/
def quadEdge (q : Nat) (idle : Bool) (s : State) : State :=
  match quadAt s q, idle with
  | .active, true => if inRun s && !(sectionsOn s q).isEmpty then s else setQuad q .idle s
  | .idle, false => setQuad q .active s
  | _, _ => s

/- Activities that wait (R429). -/

/-- A waiting activity whose resources are free begins. -/
def runQueued (a : Activity) (s : State) : State :=
  let s := { s with flt := { s.flt with acts := s.flt.acts.filter fun x => x.h != a.h } }
  if a.act = 6 then
    if !quadMoveOk s a.req.quad a.req.core then finishLong a.jseq stState 0 [] (maintEv 0xA2 a.h a.act s)
    else if a.req.core = 0 then finishLong a.jseq 0 0 (quadHandles s a.req.quad) (quadOff a.req.quad s)
    else if a.req.core = 1 || quadAt s a.req.quad == .idle then finishLong a.jseq 0 0 [] (quadEdge a.req.quad (a.req.core == 1) s)
    else quadWake a.req.quad a.jseq s
  else
    let s := { s with flt := { s.flt with acts := s.flt.acts ++ [{ a with queued := false }] } }
    let s := maintEv 0xA0 a.h a.act s
    if a.act = 1 then
      { s with flt := { s.flt with rots := s.flt.rots ++ a.req.lines.map fun k => newRot s a.h a.req.ticks a.req.quad k } }
    else s

/-- Waiting activities begin in the order they came. fuel bounds their number. -/
def serveMaint : Nat → State → State
  | 0, s => s
  | fuel + 1, s =>
    match s.flt.acts.find? fun a => a.queued with
    | none => s
    | some a => if claimed s a.req then s else serveMaint fuel (runQueued a s)

end Sys2Proof.Machine
end

