-- ==== Sys2Proof/Machine/FabRetime.lean ====
section
/-!
DEFINITION. Re-timing of fixed routes: what a plan's entries become when links take longer than compiled (12 R335, R336).
-/

namespace Sys2Proof

/-- The other end of a link of the plan: device, link, compiled latency. -/
def otherEnd (p : Plan) (dev l : Nat) : Option (Nat × Nat × Nat) :=
  p.links.findSome? fun k => if k.a == dev && k.aLink == l then some (k.b, k.bLink, k.lam) else if k.b == dev && k.bLink == l then some (k.a, k.aLink, k.lam) else none

/-- The place in the plan of link l of a device. -/
def planLinkAt (p : Plan) (dev l : Nat) : Option Nat :=
  p.links.findIdx? fun k => (k.a == dev && k.aLink == l) || (k.b == dev && k.bLink == l)

/-- The plan with new compiled latencies: its links by place. -/
def planWith (p : Plan) (lams : List (Nat × Nat)) : Plan :=
  { p with links := p.links.zipIdx.map fun (k, i) => match lams.find? (fun e => e.1 == i) with | some (_, lam) => { k with lam := lam } | none => k }

/-- An entry under way: device, index, as it was, as moved, and whether its route has too little slack. -/
structure Moving where
  dev : Nat
  n : Nat
  old : FSlot
  now : FSlot
  late : Bool := false
  deriving DecidableEq, Repr

/-- The last entry of a route: the FAB_RX issue or the combiner delivery, whose GIVE stays. -/
def lastEntry (e : FSlot) : Bool := e.out == 0 || e.out == 2

/-- x sends to y over a link of the plan. -/
def sendsTo (p : Plan) (x y : Moving) : Option Nat :=
  if x.old.out = 1 ∧ y.old.inp = 1 ∧ x.old.next = y.n then
    match otherEnd p y.dev y.old.inLink with
    | some (d, l, lam) => if d = x.dev ∧ l = x.old.outLink then some lam else none
    | none => none
  else none

/-- x ORs into the merge register from which y takes it. -/
def orsInto (x y : Moving) : Bool :=
  x.dev == y.dev && x.old.out == 3 && y.old.inp == 3 && x.old.mreg == y.old.mreg && decide (x.old.give + 2 ≤ y.old.take)

/-- The earliest TAKE of y: its word has arrived (R328, R335), or is visible in the register (R327). -/
def earliestTake (p : Plan) (ms : List Moving) (y : Moving) : Nat :=
  ms.foldl (fun t x =>
    let t := match sendsTo p x y with | some lam => max t (x.now.give + lam) | none => t
    if orsInto x y then max t (x.now.give + 2) else t) y.now.take

/-- Every entry moves to its earliest place. -/
def moveStep (p : Plan) (ms : List Moving) : List Moving :=
  ms.map fun y =>
    let t := earliestTake p ms y
    { y with now := { y.now with take := t, give := if lastEntry y.old then y.now.give else max y.now.give t } }

/-- Entries that lead to a last one which would be too late. -/
def lateStep (p : Plan) (ms : List Moving) : List Moving :=
  ms.map fun x => { x with late := x.late || decide (x.now.give < x.now.take) || ms.any fun y => y.late && ((sendsTo p x y).isSome || orsInto x y) }

/-- n steps. -/
def stepsOf (f : List Moving → List Moving) : Nat → List Moving → List Moving
  | 0, ms => ms
  | n + 1, ms => stepsOf f n (f ms)

/-- The entries that a re-timing moves: device, index, entry. p has the new latencies; a route without enough slack keeps its entries
(R336). -/
def retimed (p : Plan) : List (Nat × Nat × FSlot) :=
  let ms : List Moving := p.devs.flatMap fun d => d.fslot.map fun e => { dev := d.id, n := e.1, old := e.2, now := e.2 }
  let moved := stepsOf (moveStep p) ms.length ms
  ((stepsOf (lateStep p) ms.length moved).filter fun x => !x.late && x.old != x.now).map fun x => (x.dev, x.n, x.now)

end Sys2Proof
end

