-- ==== Sys2Proof/Machine/FabRoute.lean ====
section
/-!
DEFINITION. Routing over the fabric's graph: breadth-first levels, up*/down* routes, paths (12 R339, R340).
-/

namespace Sys2Proof

/-- One direction of a link: from a by its link la to b. -/
structure Edge where
  a : Nat
  la : Nat
  b : Nat
  deriving DecidableEq, Repr

/-- The distance listed for a node. -/
def distOf (t : List (Nat × Nat)) (k : Nat) : Option Nat := (t.find? fun e => e.1 == k).map (·.2)

/-- A node's distance is lowered to v, or set. -/
def putMin (t : List (Nat × Nat)) (k v : Nat) : List (Nat × Nat) :=
  match distOf t k with
  | some w => if v < w then t.map fun e => if e.1 = k then (k, v) else e else t
  | none => t ++ [(k, v)]

/-- One pass over the edges: a reaches the target through b one hop further than b. -/
def relaxPass (es : List Edge) (t : List (Nat × Nat)) : List (Nat × Nat) :=
  es.foldl (fun t e => match distOf t e.b with | some d => putMin t e.a (d + 1) | none => t) t

/-- n passes. -/
def relaxN (es : List Edge) : Nat → List (Nat × Nat) → List (Nat × Nat)
  | 0, t => t
  | n + 1, t => relaxN es n (relaxPass es t)

/-- The nodes of a graph. -/
def nodesOf (es : List Edge) : List Nat := ((es.map (·.a)) ++ es.map (·.b)).eraseDups

/-- Hops from every node to a target along the edges. -/
def distTo (es : List Edge) (d : Nat) : List (Nat × Nat) := relaxN es (nodesOf es).length [(d, 0)]

/-- Breadth-first levels from the root; links go both ways. -/
def levels (es : List Edge) (root : Nat) : List (Nat × Nat) := distTo es root

/-- An edge leads down: away from the root, or to the higher number at one level (R340). -/
def leadsDown (lv : List (Nat × Nat)) (e : Edge) : Bool :=
  let x := (distOf lv e.a).getD 0
  let y := (distOf lv e.b).getD 0
  decide (x < y ∨ (x = y ∧ e.a < e.b))

/-- The better of two edges for a route: lower device, then lower link. -/
def lowerEdge (b : Option Edge) (e : Edge) : Option Edge :=
  match b with
  | none => some e
  | some x => if e.b < x.b ∨ (e.b = x.b ∧ e.la < x.la) then some e else some x

/-- The link by which node a sends to a target (R340): down along the shortest way down where there is one, else up along the shortest legal
way. A packet that has gone down always finds a way down, so no route turns up again (DEDUCED, log 43). -/
def nextLink (es : List Edge) (root a d : Nat) : Option Nat :=
  let lv := levels es root
  let down := distTo (es.filter (leadsDown lv)) d
  let all := relaxN (es.filter fun e => !leadsDown lv e && (distOf down e.a).isNone) (nodesOf es).length down
  let t := match distOf down a with | some _ => down | none => all
  match distOf t a with
  | none | some 0 => none
  | some (k + 1) =>
    ((es.filter fun e => e.a == a && distOf t e.b == some k && ((distOf down a).isNone || leadsDown lv e)).foldl lowerEdge none).map (·.la)

/-- The EROUTE entries of a device (R333, R340). -/
def routeTable (es : List Edge) (root a : Nat) : List (Nat × Nat) :=
  (nodesOf es).filterMap fun d => if d = a then none else (nextLink es root a d).map fun l => (d, 0x8000 + l)

/-- The links from a to a target, at most n of them. -/
def pathTo (es : List Edge) (root d : Nat) : Nat → Nat → List Nat
  | 0, _ => []
  | n + 1, a =>
    if a = d then [] else
    match nextLink es root a d with
    | none => []
    | some l => match es.find? (fun e => e.a == a && e.la == l) with
      | some e => l :: pathTo es root d n e.b
      | none => []

/-- A number put in its place in a rising list. -/
def insNat (x : Nat) (l : List Nat) : List Nat :=
  match l with
  | [] => [x]
  | y :: r => if x ≤ y then x :: y :: r else y :: insNat x r
/-- A rising list of the same numbers. -/
def sortNat (l : List Nat) : List Nat := l.foldl (fun a x => insNat x a) []

end Sys2Proof
end

