-- ==== Sys2Proof/Machine/Function.lean ====
section
/-!
DEFINITION. The special-function tile and the steer unit (05 R124 to R148).
-/

namespace Sys2Proof

/-- Floor of the square root, by deciding one bit after another from bit n - 1 down. -/
def isqrtBits (n x : Nat) : Nat :=
  (List.range n).foldl (fun r i => let b := r + 2 ^ (n - 1 - i); if b * b ≤ x then b else r) 0

/-- Floor of the square root. -/
def isqrt (x : Nat) : Nat := isqrtBits (bitLength x / 2 + 1) x

/-- RSQRT[u] (R140). -/
def rsqrt (u : Nat) : Nat := (isqrt (2 ^ 48 / u) + 1) / 2

/-- EXP2T[k]: the 256th root is eight square roots (R141). -/
def exp2t (k : Nat) : Nat := ((List.range 8).foldl (fun x _ => isqrt x) (2 ^ (4352 - k)) + 1) / 2

/-- LOG2T[F] (R141). -/
def log2t (f : Nat) : Nat := (Nat.log2 ((1024 + f) ^ 512) - 5120 + 1) / 2

/-- The code of value zero in a format (R133, R140). -/
def zeroCode (f : Fmt) (zp : Nat) : Nat := if f = .uint4 then zp % 16 else 0

/-- The scale-word emission of an N operation (R127, R128). -/
def scaleEmit (e : Env) (off dest : Nat) (d : ReqDesc) : Emit :=
  let tag := blockTag e.tick d.nblk d.blk
  { off := off, dest := dest
    w := { data := BitVec.ofNat 256 (scaleWord tag (fmtCode d.out.fmt) (if d.out.fmt = .uint4 then d.out.zp else 0) d.sStatic),
           v := true, k := true, tick := e.tag, btag := tag } }

/-- The output units of an operation (05, "Output units and scale words"). -/
inductive Units where
  | input (btag : Nat)
  | new (d : ReqDesc) (dest : Nat)
  | unscaled
  deriving DecidableEq, Repr

/-- The block tag of output words. -/
def unitsTag (e : Env) (u : Units) : Nat :=
  match u with
  | .input b => b
  | .new d _ => blockTag e.tick d.nblk d.blk
  | .unscaled => 0

/-- Output words of an operation of latency lat, with the scale word of a new scale (R128, R129). -/
def sfEmit (e : Env) (lat : Nat) (u : Units) (p : Bool) (tick : Nat) (ls : List Line) : List Emit :=
  emitsFrom lat (wDest e.w) (ls.map fun l =>
    { data := if p then 0#256 else l, v := true, p := p, tick := tick, btag := unitsTag e u }) ++
  (match u with | .new d dest => [scaleEmit e lat dest d] | _ => [])

/-- The input format, descriptor and scale buffers that SEL names (R129). -/
def sfFmt (e : Env) : Fmt := (fmtOf (bits (wSel e.w) 15 12)).getD .int4
def sfDesc (e : Env) (t : Tile) : ReqDesc := tget (fun _ => {}) t.rdesc (bits (wSel e.w) 11 8)
def sfSba (e : Env) : Nat := bnat (bit (wSel e.w) 7)
def sfSbb (e : Env) : Nat := bnat (bit (wSel e.w) 6)

/-- What the cases of R144 find before an operation computes. -/
inductive Pre where
  | stall (t : Tile)
  | poison (t : Tile) (fs : List TFault) (suspect : Bool)
  | ok (t : Tile) (sa sb : Nat)      -- the scale words of A and B, 0 where none is used

/-- Use of a scale buffer: its number, the tag of the data, the format codes the block may have, and whether the word is consumed. -/
structure ScaleUse where
  buf : Nat
  tag : Nat
  fmts : List Nat
  consume : Bool

/-- What a scale buffer gives under R84. -/
inductive ScaleLook where
  | wait
  | bad (consumed : Bool)
  | good (w : LWord)

/-- The words removed from a buffer at issue: the one at its head when the build began (R128). -/
def popScale (e : Env) (u : Option ScaleUse) (t : Tile) : Tile :=
  match u with
  | some u => if (sbufHeld t u.buf (e.c - 2)).isEmpty then t else sbufPop t u.buf
  | none => t

/-- CONSUME of a word (R128). -/
def consumeScale (e : Env) (u : Option ScaleUse) (t : Tile) : Tile := if u.any (·.consume) then popScale e u t else t

/-- One scale buffer looked up under R84; an old word of the elastic zone is discarded whether or not the operation goes on. -/
def lookScale (e : Env) (u : Option ScaleUse) (t0 : Tile) : ScaleLook × Tile :=
  match u with
  | none => (.good {}, t0)
  | some v =>
    let t := sbufTrim t0 v.buf (e.c - 2)
    match tagCase e.elastic (((sbufHeld t v.buf (e.c - 2)).head?).map (·.w)) v.tag v.fmts with
    | .wait => (.wait, t)
    | .discard => (.wait, tcount cScaleSkew 1 (sbufPop t v.buf))
    | .poison c => (.bad c, tcount cScaleSkew 1 t)
    | .match_ w => (.good w, t)

/-- The cases of R144 in order, for operands given as (source field, word) and the uses of scale words. An operation that issues removes
the scale words it consumes, whatever case applies (R128). -/
def sfPre (e : Env) (t : Tile) (ops : List (Nat × LWord)) (badCode extraPoison : Bool) (ua ub : Option ScaleUse)
    (table : Bool) : Pre :=
  let issue (t : Tile) : Tile := consumeScale e ub (consumeScale e ua t)
  match ops.find? (fun o => !o.2.v) with
  | some (f, _) =>
    if e.elastic then .stall t
    else .poison (tcount cInvalidRead 1 (issue t)) [{ code := 0x0101, sev := 3, unit := bits f 15 12 }] false
  | none =>
    if extraPoison || ops.any (·.2.p) then .poison (issue t) [] false
    else if badCode then .poison (tcount cInvalidCode 1 (issue t)) [] false
    else
      let a := (ops.head?.map (·.2)).getD {}
      let differ (f : LWord → Nat) : Bool := ops.any fun o => f o.2 != f a
      if bit (wTagchk e.w) 7 && differ (·.tick) then
        .poison (tcount cTagErr 1 (issue t)) [{ code := 0x0102, sev := 3, unit := ((ops.getLast?.map fun o => bits o.1 15 12).getD 0)
                                                detail := a.tick * 256 + ((ops.getLast?.map (·.2.tick)).getD 0) }]
          e.elastic
      else if bit (wTagchk e.w) 6 && differ (·.btag) then .poison (tcount cScaleSkew 1 (issue t)) [] false
      else
        let la := lookScale e ua t
        match la.1 with
        | .wait => .stall la.2
        | .bad c => .poison (consumeScale e ub (if c then popScale e ua la.2 else la.2)) [] false
        | .good wa =>
          let lb := lookScale e ub la.2
          match lb.1 with
          | .wait => .stall lb.2
          | .bad c => .poison (consumeScale e ua (if c then popScale e ub lb.2 else lb.2)) [] false
          | .good wb =>
            let t := issue lb.2
            if wa.p || wb.p then .poison t [] false
            else match (if table then e.hw.tblUe else none) with
              | some k => .poison (tcount cTblUe 1 t) [{ code := 0x0107, sev := 3, index := wImm e.w % 4096 + k }] e.elastic
              | none => .ok t (wa.data.toNat % 2 ^ 32) (wb.data.toNat % 2 ^ 32)

/-- The result of the poison and stall cases: n output words of latency lat, all poisoned. -/
def sfBad (e : Env) (lat n : Nat) (u : Units) (tick : Nat) (p : Pre) (k : Tile → Nat → Nat → TileOut) : TileOut :=
  match p with
  | .stall t => { t := t, stall := true }
  | .poison t fs sus =>
    { t := t, faults := fs, suspect := sus, emits := sfEmit e lat u true tick (List.replicate n 0#256) }
  | .ok t sa sb => k t sa sb

/-- An element that no valid code gives. -/
def badCodes (f : Fmt) (w : LWord) : Bool := (unpack f w.data).any (· == none)

/-- The element values of a word; UINT4 raw. -/
def vals (f : Fmt) (w : LWord) : List Int := (unpack f w.data).map (·.getD 0)

/-- The codes of a word. -/
def codes (f : Fmt) (w : LWord) : List Nat := (List.range (fmtCount f)).map (elem f w.data)

/-- Table unit u (R126). -/
def tblUnit (t : Tile) (u : Nat) : Nat := (tget (fun _ => 0#64) t.tbl u).toNat

/-- A corrected table unit counted (R126). -/
def tblCorr (e : Env) (o : TileOut) : TileOut :=
  if e.hw.tblCe then { o with t := tcount cTblCe 1 o.t, ces := o.ces ++ [cTblCe] } else o

/-- Units of LUT4 and LUT8: STATIC chooses; the immediate holds the table unit in [11:0] and, with STATIC, the sides of
the scale word in [15:12] (DESIGN CHOICE, log 15). -/
def lutUnits (e : Env) (t : Tile) (a : LWord) : Units :=
  if bit (wMod e.w) 7 then .new (sfDesc e t) (wImm e.w / 4096 * 4096) else .input a.btag

/-- The scale use of a table look-up: only where it consumes one (R128). -/
def lutUse (e : Env) (a : LWord) (f : Fmt) : Option ScaleUse :=
  if bit (wMod e.w) 0 then some { buf := sfSba e, tag := a.btag, fmts := [fmtCode f], consume := true } else none

/-- LUT4 (R131). -/
def lut4Op (e : Env) (t : Tile) : TileOut :=
  let a := operand t e.c (wSrcA e.w)
  let f := sfFmt e
  let u := lutUnits e t a
  sfBad e 1 1 u a.tick (sfPre e t [(wSrcA e.w, a)] (badCodes f a) false (lutUse e a f) none true) fun t _ _ =>
    let tb := tblUnit t (wImm e.w % 4096)
    tblCorr e { t := t, emits := sfEmit e 1 u false a.tick [packCodes 4 ((codes f a).map fun c => bits tb (4 * c + 3) (4 * c))] }

/-- LUT8 (R132). -/
def lut8Op (e : Env) (t : Tile) : TileOut :=
  let a := operand t e.c (wSrcA e.w)
  let f := sfFmt e
  let u := lutUnits e t a
  sfBad e 3 1 u a.tick (sfPre e t [(wSrcA e.w, a)] (f != .int8 && badCodes f a) false (lutUse e a f) none true) fun t _ _ =>
    let idx := (List.range 32).map fun i => bits a.data.toNat (8 * i + 7) (8 * i)
    let ent (i : Nat) : Nat := bits (tblUnit t (wImm e.w % 4096 + i / 8)) (8 * (i % 8) + 7) (8 * (i % 8))
    let outF := if bit (wMod e.w) 7 then (sfDesc e t).out.fmt else f
    let es := idx.map ent
    let l := if outF = .int8 then packCodes 8 es else packCodes 4 es
    tblCorr e { t := t, emits := sfEmit e 3 u false a.tick [l] }

/-- The condition of CMP and THR (R133). -/
def cmpCond (k : Nat) (x y : Int) : Bool :=
  if k = 0 then decide (y < x) else if k = 1 then decide (y ≤ x) else if k = 2 then decide (x < y)
  else if k = 3 then decide (x ≤ y) else if k = 4 then decide (x = y) else decide (x ≠ y)

/-- CMP and THR (R133). -/
def cmpThrOp (thr : Bool) (e : Env) (t : Tile) : TileOut :=
  let a := operand t e.c (wSrcA e.w)
  let b := operand t e.c (wSrcB e.w)
  let f := sfFmt e
  let bsrc := bit (wMod e.w) 7
  let ops := (wSrcA e.w, a) :: (if bsrc then [(wSrcB e.w, b)] else [])
  let u : Units := if thr then .input a.btag else .unscaled
  let use := if thr && f == .uint4 then
    some { buf := sfSba e, tag := a.btag, fmts := [fmtCode f], consume := bit (wMod e.w) 0 : ScaleUse } else none
  sfBad e 1 1 u a.tick (sfPre e t ops (badCodes f a || (bsrc && badCodes f b)) false use none false) fun t sa _ =>
    let ys := if bsrc then vals f b else (List.range (fmtCount f)).map fun _ => ofTwos 16 (wImm e.w)
    let hold := (vals f a).zipWith (fun x y => cmpCond (bits (wMod e.w) 3 1) x y) ys
    let l :=
      if thr then packCodes (fmtWidth f) ((codes f a).zipWith (fun c h => if h then c else zeroCode f (bits sa 19 16)) hold)
      else packCodes 1 (hold.map bnat)
    { t := t, emits := sfEmit e 1 u false a.tick [l] }

/-- Lane results clamped to INT16 with LANE_SAT counted (R134). -/
def laneOut (e : Env) (t : Tile) (a : LWord) (xs : List Int) : TileOut :=
  let n := (xs.filter fun x => decide (x < -32768 ∨ 32767 < x)).length
  { t := tcount cLaneSat n t
    emits := sfEmit e 1 (.input a.btag) false a.tick [packInts 16 (xs.map (clampI (-32768) 32767))] }

/-- ADD and SUB (R134). -/
def addSubOp (sub : Bool) (e : Env) (t : Tile) : TileOut :=
  let a := operand t e.c (wSrcA e.w)
  let b := operand t e.c (wSrcB e.w)
  let imm := bit (wMod e.w) 7
  let ops := (wSrcA e.w, a) :: (if imm then [] else [(wSrcB e.w, b)])
  sfBad e 1 1 (.input a.btag) a.tick (sfPre e t ops false false none none false) fun t _ _ =>
    let ys := if imm then List.replicate 16 (ofTwos 16 (wImm e.w)) else vals .int16 b
    laneOut e t a ((vals .int16 a).zipWith (fun x y => if sub then x - y else x + y) ys)

/-- SHL and SRA (R134). -/
def shiftOp (right : Bool) (e : Env) (t : Tile) : TileOut :=
  let a := operand t e.c (wSrcA e.w)
  sfBad e 1 1 (.input a.btag) a.tick (sfPre e t [(wSrcA e.w, a)] false false none none false) fun t _ _ =>
    let k := bits (wImm e.w) 3 0
    let r : Rnd := if bits (wMod e.w) 2 1 = 0 then .rne else .rtz
    laneOut e t a ((vals .int16 a).map fun x => if right then roundInt r x k 0 else x * (2 ^ k : Nat))

/-- Count SAT of a descriptor (R144). -/
def satDesc (e : Env) (n : Nat) (t : Tile) : Tile := { t with descSat := cadd 32 t.descSat (bits (wSel e.w) 11 8) n }

/-- NARROW (R135). A pass-through point, which uses no descriptor, counts its SAT under the number in SEL [27:24] all the same (DESIGN CHOICE,
log 132). -/
def narrowOp (e : Env) (t : Tile) : TileOut :=
  let a := operand t e.c (wSrcA e.w)
  let f := sfFmt e
  let stat := bit (wMod e.w) 7
  let fo := (fmtOf (bits (wMod e.w) 6 3)).getD .int8
  let d := sfDesc e t
  let u : Units := if stat then .new { d with out := { d.out with fmt := fo } } (wImm e.w) else .input a.btag
  let use := if stat then some { buf := sfSba e, tag := a.btag, fmts := [fmtCode f], consume := bit (wMod e.w) 0 : ScaleUse } else none
  sfBad e 2 1 u a.tick (sfPre e t [(wSrcA e.w, a)] false false use none false) fun t sa _ =>
    let m : Mult := if stat then buildMult fo (bits sa 15 0) 0x7C00 d.sStatic else { m := 1, s := 0 }
    let o : OutSpec := if stat then { d.out with fmt := fo } else { fmt := fo, rnd := .rne, lo := (fmtRange fo).1, hi := (fmtRange fo).2 }
    let rs := ((vals f a).zipIdx).map fun (x, i) => requant o m.m m.s (genWord e o.rnd d.pnum i) x
    { t := satDesc e (rs.filter (·.2)).length (tmult m t), emits := sfEmit e 2 u false a.tick [packCodes (fmtWidth fo) (rs.map (·.1))] }

/-- The value of an element with the zero point of its block (R136). -/
def zpVal (f : Fmt) (s : Nat) (x : Int) : Int := if f = .uint4 then x - (bits s 19 16 : Nat) else x

/-- The formats of R130 whose words have as many elements as those of f (R136). -/
def sameCount (f : Fmt) : List Nat :=
  ([Fmt.int4, .uint4, .fp4, .int3, .int8, .int16].filter fun g => fmtCount g = fmtCount f).map fmtCode

/-- RESADD (R136). The format of operand B is the FMT of its scale word; one with another element count is a mismatch (DEDUCED, log 16). -/
def resaddOp (e : Env) (t : Tile) : TileOut :=
  let a := operand t e.c (wSrcA e.w)
  let b := operand t e.c (wSrcB e.w)
  let f := sfFmt e
  let d := sfDesc e t
  let u : Units := .new d (wImm e.w)
  let ua : ScaleUse := { buf := sfSba e, tag := a.btag, fmts := [fmtCode f], consume := bit (wMod e.w) 0 }
  let ub : ScaleUse := { buf := sfSbb e, tag := b.btag, fmts := sameCount f, consume := bit (wMod e.w) 1 }
  let fbw := (((sbufHeld t (sfSbb e) (e.c - 2)).head?).map (fun r => bits r.w.data.toNat 23 20)).getD 0
  let fb := (fmtOf fbw).getD .int4
  sfBad e 2 1 u a.tick (sfPre e t [(wSrcA e.w, a), (wSrcB e.w, b)] (badCodes f a || badCodes fb b) false (some ua) (some ub) false)
    fun t sa sb =>
    let ma := buildMult d.out.fmt (bits sa 15 0) 0x7C00 d.sStatic
    let mb := buildMult d.out.fmt (bits sb 15 0) 0x7C00 d.sStatic
    let s := max ma.s mb.s
    let vs := (vals f a).zipWith (fun x y =>
      zpVal f sa x * (ma.m * 2 ^ (s - ma.s) : Nat) + zpVal fb sb y * (mb.m * 2 ^ (s - mb.s) : Nat)) (vals fb b)
    let rs := (vs.zipIdx).map fun (x, i) => requant d.out 1 s (genWord e d.out.rnd d.pnum i) x
    { t := satDesc e (rs.filter (·.2)).length (tmult mb (tmult ma t))
      emits := sfEmit e 2 u false a.tick [packCodes (fmtWidth d.out.fmt) (rs.map (·.1))] }

/-- MAXE (R137). -/
def maxeOp (e : Env) (t : Tile) : TileOut :=
  let a := operand t e.c (wSrcA e.w)
  let b := operand t e.c (wSrcB e.w)
  let f := sfFmt e
  sfBad e 1 1 (.input a.btag) a.tick
    (sfPre e t [(wSrcA e.w, a), (wSrcB e.w, b)] (badCodes f a || badCodes f b) false none none false) fun t _ _ =>
    let cs := ((codes f a).zip (codes f b)).map fun (x, y) => if (codeVal f x).getD 0 < (codeVal f y).getD 0 then y else x
    { t := t, emits := sfEmit e 1 (.input a.btag) false a.tick [packCodes (fmtWidth f) cs] }

/-- MAXR (R137). -/
def maxrOp (e : Env) (t : Tile) : TileOut :=
  let a := operand t e.c (wSrcA e.w)
  let f := sfFmt e
  sfBad e 2 1 (.input a.btag) a.tick (sfPre e t [(wSrcA e.w, a)] (badCodes f a) false none none false) fun t _ _ =>
    let vs := vals f a
    let m := vs.foldl max (vs.headD 0)
    { t := t, emits := sfEmit e 2 (.input a.btag) false a.tick [packInts 16 [m, ((vs.findIdx? (· == m)).getD 0 : Nat)]] }

/-- An entry of the ranking operations: its value and index; none is the empty entry (R138). -/
abbrev Entry := Option (Int × Nat)

def entryOf (c : Nat) : Entry := if c = 0x8000 then none else some (ofTwos 6 (c / 1024), c % 1024)
def entryCode (x : Entry) : Nat := match x with | none => 0x8000 | some (v, i) => toTwos 6 v * 1024 + i % 1024

/-- The order of R138: by value under DIR, equal values by lower index, empty entries last. -/
def entryBefore (small : Bool) (x y : Entry) : Bool :=
  match x, y with
  | none, _ => false
  | some _, none => true
  | some (v, i), some (w, j) => if v = w then decide (i ≤ j) else if small then decide (v < w) else decide (w < v)

/-- Insertion of an entry into a ranked list. -/
def entryInsert (small : Bool) (x : Entry) (l : List Entry) : List Entry :=
  match l with
  | [] => [x]
  | y :: r => if entryBefore small x y then x :: y :: r else y :: entryInsert small x r

/-- A list of entries ranked. -/
def rankEntries (small : Bool) (l : List Entry) : List Entry := l.foldr (entryInsert small) []

/-- The entries of the elements of one word (R138). -/
def entriesOf (e : Env) (f : Fmt) (a : LWord) : List Entry :=
  ((vals f a).zipIdx).map fun (v, i) => some (v, 64 * bits (wImm e.w) 3 0 + i)

/-- TOPK (R138). -/
def topkOp (e : Env) (t : Tile) : TileOut :=
  let a := operand t e.c (wSrcA e.w)
  let f := sfFmt e
  sfBad e 6 1 (.input a.btag) a.tick (sfPre e t [(wSrcA e.w, a)] (badCodes f a) false none none false) fun t _ _ =>
    let r := (rankEntries (bit (wMod e.w) 7) (entriesOf e f a)).take (bits (wMod e.w) 5 1)
    { t := t, emits := sfEmit e 6 (.input a.btag) false a.tick
        [packCodes 16 ((r ++ List.replicate (16 - r.length) none).map entryCode)] }

/-- SORT64 (R138). -/
def sort64Op (e : Env) (t : Tile) : TileOut :=
  let a := operand t e.c (wSrcA e.w)
  let f := sfFmt e
  sfBad e 12 4 (.input a.btag) a.tick (sfPre e t [(wSrcA e.w, a)] (badCodes f a) false none none false) fun t _ _ =>
    let r := (rankEntries (bit (wMod e.w) 7) (entriesOf e f a)).map entryCode
    { t := t, emits := sfEmit e 12 (.input a.btag) false a.tick
        ((List.range 4).map fun k => packCodes 16 ((r.drop (16 * k)).take 16)) }

/-- MERGE (R138). -/
def mergeOp (e : Env) (t : Tile) : TileOut :=
  let a := operand t e.c (wSrcA e.w)
  let b := operand t e.c (wSrcB e.w)
  sfBad e 3 1 (.input a.btag) a.tick (sfPre e t [(wSrcA e.w, a), (wSrcB e.w, b)] false false none none false) fun t _ _ =>
    let es (w : LWord) : List Entry := (List.range 16).map fun i => entryOf (bits w.data.toNat (16 * i + 15) (16 * i))
    let r := (rankEntries (bit (wMod e.w) 7) (es a ++ es b)).take 16
    { t := t, emits := sfEmit e 3 (.input a.btag) false a.tick [packCodes 16 (r.map entryCode)] }

/-- The scale use of a UINT4 operand whose zero point enters (R139, R140). -/
def zpUse (e : Env) (a : LWord) (f : Fmt) (consume : Bool) : Option ScaleUse :=
  if f = .uint4 then some { buf := sfSba e, tag := a.btag, fmts := [fmtCode f], consume := consume } else none

/-- MEANVAR (R139). -/
def meanvarOp (e : Env) (t : Tile) : TileOut :=
  let a := operand t e.c (wSrcA e.w)
  let f := sfFmt e
  sfBad e 8 1 .unscaled a.tick
    (sfPre e t [(wSrcA e.w, a)] (badCodes f a) false (zpUse e a f (bit (wMod e.w) 0)) none false) fun t sa _ =>
    let xs := (vals f a).map (zpVal f sa)
    let n : Int := xs.length
    let s1 := xs.foldl (· + ·) 0
    let s2 := n * (xs.foldl (fun s x => s + x * x) 0) - s1 * s1
    { t := t, emits := sfEmit e 8 .unscaled false a.tick [packInts 32 [s1, s2, n]] }

/-- NORM (R140). -/
def normOp (e : Env) (t : Tile) : TileOut :=
  let a := operand t e.c (wSrcA e.w)
  let b := operand t e.c (wSrcB e.w)
  let f := sfFmt e
  let d := sfDesc e t
  let u : Units := .new d (wImm e.w)
  let use := if bit (wMod e.w) 0 || f == .uint4 then
    some { buf := sfSba e, tag := a.btag, fmts := [fmtCode f], consume := bit (wMod e.w) 0 : ScaleUse } else none
  sfBad e 6 1 u a.tick (sfPre e t [(wSrcA e.w, a), (wSrcB e.w, b)] (badCodes f a) false use none false) fun t sa _ =>
    let mv := vals .int32 b
    let s1 := mv.getD 0 0
    let s2 := (mv.getD 1 0).toNat
    let n := mv.getD 2 0
    if s2 = 0 then
      { t := tcount cZeroVar 1 t
        emits := sfEmit e 6 u false a.tick
          [packCodes (fmtWidth d.out.fmt) ((vals f a).map fun _ => zeroCode d.out.fmt d.out.zp)] }
    else
      let ex := ((List.range 24).map (2 * ·)).find? (fun k => s2 / 2 ^ k < 4096) |>.getD 0
      let sh := 3 + ex / 2 + d.sStatic / 1024 - (if d.out.fmt = .fp4 then 1 else 0)
      let rs := ((vals f a).zipIdx).map fun (x, i) =>
        requant d.out 1 sh (genWord e d.out.rnd d.pnum i)
          ((n * zpVal f sa x - s1) * (rsqrt (s2 / 2 ^ ex) * recip (d.sStatic % 1024) : Nat))
      { t := satDesc e (rs.filter (·.2)).length t
        emits := sfEmit e 6 u false a.tick [packCodes (fmtWidth d.out.fmt) (rs.map (·.1))] }

/-- SOFTMAX (R141). -/
def softmaxOp (e : Env) (t : Tile) : TileOut :=
  let a := operand t e.c (wSrcA e.w)
  let f := sfFmt e
  let d := sfDesc e t
  let u : Units := .new d (wImm e.w)
  let use : ScaleUse := { buf := sfSba e, tag := a.btag, fmts := [fmtCode f], consume := bit (wMod e.w) 0 }
  sfBad e 8 1 u a.tick (sfPre e t [(wSrcA e.w, a)] (badCodes f a) false (some use) none false) fun t sa _ =>
    let xs := vals f a
    let xm := xs.foldl max (xs.headD 0)
    let mk := buildMult .int16 (bits sa 15 0) 0x7C00 0x5C00
    let ks := xs.map fun x => min 4095 (roundInt .rne ((xm - x) * (mk.m : Nat)) mk.s 0).toNat
    let s := sumL (ks.map exp2t)
    let b := bitLength s - 17
    let l := 256 * b + log2t (s / 2 ^ (b + 6) - 1024)
    let m := buildMult d.out.fmt 0x5C00 0x7C00 d.sStatic
    let rs := (ks.zipIdx).map fun (k, i) => requant d.out m.m m.s (genWord e d.out.rnd d.pnum i) (-((k + l : Nat) : Int))
    { t := satDesc e (rs.filter (·.2)).length (tmult m (tmult mk t))
      emits := sfEmit e 8 u false a.tick [packCodes (fmtWidth d.out.fmt) (rs.map (·.1))] }

/-- The 8-neighbours of element i of an 8 x 8 patch (R142). -/
def patchNeighbours (i : Nat) : List Nat :=
  (List.range 64).filter fun j =>
    decide (j ≠ i ∧ (i / 8) ≤ (j / 8) + 1 ∧ (j / 8) ≤ (i / 8) + 1 ∧ (i % 8) ≤ (j % 8) + 1 ∧ (j % 8) ≤ (i % 8) + 1)

/-- CLUSTER (R142). -/
def clusterOp (e : Env) (t : Tile) : TileOut :=
  let a := operand t e.c (wSrcA e.w)
  let f := sfFmt e
  sfBad e 4 1 .unscaled a.tick (sfPre e t [(wSrcA e.w, a)] (badCodes f a) false none none false) fun t _ _ =>
    let xs := vals f a
    let g (i : Nat) := xs.getD i 0
    let peak (i : Nat) : Bool :=
      decide (ofTwos 16 (wImm e.w) ≤ g i) &&
      (patchNeighbours i).all fun j => if j < i then decide (g j < g i) else decide (g j ≤ g i)
    let ps := (List.range 64).filter peak
    let ent (i : Nat) : Nat := i * 1024 + toTwos 10 (g i + ((patchNeighbours i).map g).foldl (· + ·) 0)
    let l := bitSet ps + ps.length * 2 ^ 64 + (packCodes 16 ((ps.take 8).map ent)).toNat * 2 ^ 128
    { t := t, emits := sfEmit e 4 .unscaled false a.tick [BitVec.ofNat 256 l] }

/-- HIST (R143). -/
def histOp (e : Env) (t : Tile) : TileOut :=
  let a := operand t e.c (wSrcA e.w)
  let f := sfFmt e
  let first := bit (wMod e.w) 7
  let emit := bit (wMod e.w) 6
  let base := if first then List.replicate 16 0 else (List.range 16).map fun b => t.bins.getD b 0
  let oldP := if first then false else t.binsP
  match sfPre e t [(wSrcA e.w, a)] (badCodes f a) oldP none none false with
  | .stall t => { t := t, stall := true }
  | .poison t fs sus =>
    { t := { t with bins := base, binsP := true }, faults := fs, suspect := sus
      emits := if emit then sfEmit e 2 .unscaled true a.tick [0#256] else [] }
  | .ok t _ _ =>
    let cs := codes f a
    let raw := (List.range 16).map fun b => base.getD b 0 + (cs.filter (· == b)).length
    let sat := (raw.filter fun x => decide (65535 < x)).length
    let bins := raw.map (min 65535)
    { t := tcount cHistSat sat { t with bins := bins, binsP := false }
      emits := if emit then sfEmit e 2 .unscaled false a.tick [packCodes 16 bins] else [] }

/-- TOKEN (R145). -/
def tokenOp (e : Env) (t : Tile) : TileOut :=
  let a := operand t e.c (wSrcA e.w)
  { t := { t with token :=
      { v := a.v, p := a.p, tag := a.tick, vis := e.c + 1
        choice := a.data.getLsbD (bits (wImm e.w) 7 0)
        drop := bit (wMod e.w) 7 && a.data.getLsbD (bits (wImm e.w) 15 8) } } }

/-- The outputs of a steer operation that are poisoned. -/
def steerPoison (tick : Nat) (dests : List Nat) : List Emit :=
  dests.map fun d => { off := 1, dest := d, w := poisonWord tick 0 }

/-- SELECT and ROUTE with the cases of R147 and R148: data is the word the token's tag is compared with, joined says that the tick tags of
two operands differ where they are compared. -/
def steerOp (e : Env) (t : Tile) (data : LWord) (joined : Bool) (dests : List Nat) (k : Token → List Emit) : TileOut :=
  let tok := if e.c < t.token.vis then ({ } : Token) else t.token
  if !e.elastic then
    if !tok.v then
      { t := tcount cInvalidRead 1 t, faults := [{ code := 0x0101, sev := 3 }], emits := steerPoison data.tick dests }
    else if tok.p then { t := t, emits := steerPoison data.tick dests }
    else if tok.tag != data.tick || joined then
      { t := tcount cTagErr 1 t, faults := [{ code := 0x0102, sev := 3, detail := tok.tag * 256 + data.tick }]
        emits := steerPoison data.tick dests }
    else { t := t, emits := k tok }
  else
    let d := (tok.tag + 256 - data.tick % 256) % 256
    if !tok.v || !data.v then { t := t, stall := true }
    else if d = 0 then
      if tok.p then { t := t, emits := (k tok).map fun x => { x with w := { x.w with p := true, data := 0#256 } } }
      else { t := t, emits := k tok }
    else if 128 ≤ d then { t := tcount cTagErr 1 { t with token := {} }, stall := true }
    else { t := tcount cTagErr 1 t, suspect := true, faults := [{ code := 0x0102, sev := 3, detail := tok.tag * 256 + data.tick }] }

/-- An operand of a tier-two SELECT: the oldest one of its source left unconsumed, else the word there now (R148; DESIGN CHOICE, log 133:
the queue of a moving word stands at the tile that reads it). A hold register keeps its word itself. -/
def selectArg (e : Env) (t : Tile) (f : Nat) : LWord :=
  match t.kept.find? (fun r => r.port == bits f 15 12) with
  | some r => if e.elastic then r.w else operand t e.c f
  | none => operand t e.c f

/-- The queue of a source after a SELECT that consumed its operand, or left it (R148). -/
def selectKeep (e : Env) (used : Bool) (f : Nat) (t : Tile) : Tile :=
  let p := bits f 15 12
  if p = 5 ∨ p = 6 then t
  else
    let w := operand t e.c f
    let old := t.kept.find? fun r => r.port == p
    let now : List Run := if w.v && !(used && old.isNone) then [{ port := p, a := e.c, b := e.c, w := w }] else []
    { t with kept := (if used then (match old with | some r => t.kept.erase r | none => t.kept) else t.kept) ++ now }

/-- SELECT (R146 to R148). -/
def selectOp (e : Env) (t : Tile) : TileOut :=
  let a := selectArg e t (wSrcA e.w)
  let b := selectArg e t (wSrcB e.w)
  let tok := if e.c < t.token.vis then ({ } : Token) else t.token
  let chosen := if tok.choice then b else a
  let o := steerOp e t chosen (bit (wTagchk e.w) 7 && a.tick != b.tick) [wDest e.w] fun tok =>
    if e.elastic && tok.drop then [] else [{ off := 1, dest := wDest e.w, w := chosen }]
  if e.elastic && !o.stall then { o with t := selectKeep e tok.choice (wSrcB e.w) (selectKeep e (!tok.choice) (wSrcA e.w) o.t) } else o

/-- ROUTE (R146 to R148). -/
def routeOp (e : Env) (t : Tile) : TileOut :=
  let a := operand t e.c (wSrcA e.w)
  let absent : LWord := { v := true, tick := a.tick }
  steerOp e t a false [wDest e.w, wImm e.w] fun tok =>
    let yes := if tok.choice then wImm e.w else wDest e.w
    let no := if tok.choice then wDest e.w else wImm e.w
    if e.elastic then (if tok.drop then [] else [{ off := 1, dest := yes, w := a }])
    else [{ off := 1, dest := yes, w := a }, { off := 1, dest := no, w := absent }]

end Sys2Proof
end

