-- ==== Sys2Proof/Machine/ZoneRows.lean ====
section
/-!
DEFINITION. Rows of the fixed zone and of the tier-two queue: lanes, alignment, the decision, passes, pause and drain (01, 08, 09; 11 R309
to R315; 07 R186). When each row comes is the sender's; a row that comes where the spec has none changes nothing (log 34).
-/

namespace Sys2Proof.Machine

/-- The fixed zone's clocks run. -/
def zoneOn (s : State) : Bool := match s.dev.st with | .off | .boot | .safe => false | _ => true

/-- FRAME: a complete frame whose last bit enters the lane's buffer at grid cycle x (R209, R212). Words that do not begin with SOF are
no frame (R208). -/
def execFrame (lane : Nat) (words : List (BitVec 32)) (x : Nat) (s : State) : Host.Outcome State Fault Refusal :=
  goes (
    let k := laneCfg (regAt s) lane
    if !zoneOn s || decide (96 ≤ lane) || !k.en || words.headD 0#32 != sofWord then s
    else
      let r := frameArrive k (iiOf s) (alignOf s) lane words x (laneAt s.fe lane)
      raiseEvs r.2 { s with fe := setLane s.fe lane r.1 })

/-- LANE_DOWN: the receiver loses lock (R212). -/
def execLaneDown (lane : Nat) (s : State) : Host.Outcome State Fault Refusal :=
  goes (
    if decide (96 ≤ lane) then s
    else
      let r := laneFall lane (laneAt s.fe lane)
      raiseEvs r.2 { s with fe := setLane s.fe lane r.1 })

/-- The payloads a replay takes from the ring (R311). -/
def replayLanes (s : State) (t : Nat) : List GLane :=
  ((List.range 96).filter fun l => (laneCfg (regAt s) l).en).map fun l =>
    match (if ringHolds s t then ringLane s t l else none) with
    | some p => { lane := l, missing := false, payload := p }
    | none => { lane := l, missing := true, payload := List.replicate (4 * lanePlen (laneCfg (regAt s) l)) 0#8 }

/-- A(T) (R210 to R219, R311): outside counted ticks nothing is kept and no history advances (R315). -/
def alignTick (t : Nat) (io : IoErr) (s0 : State) : State :=
  let s := ioChecks io (settleDue true t s0)
  let c := counted s t
  let rd := regFor s t
  let g := gatherDepth rd
  let rep := c && replaying s
  let r := alignPoint rd { t := t, advance := c, counted := c, g := if rep then max (g / 2) (bnat (decide (g ≠ 0))) else g
                           replay := if rep then some (replayLanes s t) else none, lost := io.gather ++ io.front } s.fe
  let s1 := { s with fe := if c then r.1 else { r.1 with gather := s.fe.gather } }
  raiseEvs r.2.1 (if rep && !ringHolds s t then addCnt 29 1 s1 else s1)

/-- ALIGNMENT_POINT (R210). -/
def execAlignmentPoint (t : TickIn) (s : State) : Host.Outcome State Fault Refusal :=
  goes (if !zoneOn s || s.time.tick.all (fun n => decide (n < t.t)) then s else alignTick t.t t.io s)

/-- TRG_IN_EDGE: an edge at pin time x, in ps from E(0), belongs to the tick whose window [A(T) - II, A(T)) holds it after the
calibrated delay (R22, R220). -/
def execTrgInEdge (k x : Nat) (s : State) : Host.Outcome State Fault Refusal :=
  goes (
    if !zoneOn s || decide (8 ≤ k) then s
    else
      let ps : Int := (x : Int) - (calEffective s 2 k).1
      let g := ps.toNat * 2 ^ 32 * iiOf s / (max (periodOf s) 1 * 1000)
      let t := if alignOf s ≤ g then (g - alignOf s) / max (iiOf s) 1 + 1 else 0
      { s with fe := { s.fe with trgIn := cset s.fe.trgIn t (cget s.fe.trgIn t ||| 2 ^ k) } })

/- The decision (R235 to R252). -/

/-- A live fire word is held against the recording in a fabric-wide replay (R311). -/
def wideCheck (t : Nat) (f : Option FireCase) (s : State) : State :=
  if !(s.acq.replay.running && s.acq.replay.wide) then s
  else match f, (replayAt s 3 t).head? with
    | some c, some e =>
      if unle (slice 0 4 e.body) = c.fire ∧ unle (slice 4 4 e.body) = c.doubt ∧ unle (slice 8 1 e.body) = c.case_ then s else addCnt 30 1 s
    | _, _ => s

/-- What the combiner is told at cycle C. -/
def combineIn (t : Nat) (f : Option FireCase) (s : State) : CombIn :=
  let rec_ := recordedFeedback s
  { t := t, lvl := levelFor s t, cond := condAt s t f, ghoTicks := bits (regFor s t 0x70010) 23 0
    reqFree := decide (s.acq.reqs.length < 4096) && !(rec_ && !(replayAt s 7 t).isEmpty)
    limit := fun c => bits (regFor s t (0x70100 + 8 * c)) 44 32
    dDecGc := gcOf s t + s.comb.dDec
    noCtx := if rec_ then (replayAt s 8 t).map fun e => unle (slice 0 1 e.body) else [] }

/-- The record request of the tick enters the queue, or its template is disabled (R245, R266). -/
def enterRequest (r : Option RecReq) (s : State) : State :=
  match r with
  | none => s
  | some r =>
    let d := templateAt s r.template
    if !d.en then addCnt 31 1 s
    else addCnt 19 1 { s with acq := { s.acq with reqs := s.acq.reqs ++
      [{ r with tpl := d, stamp := stampOf s r.tick, tStart := s.acq.tStart.getD 0 }] } }

/-- Parisons of the tick: contexts taken and counters (R33, R248, R265). -/
def enterParisons (t : Nat) (o : CombOut) (s : State) : State :=
  let s := { s with t2 := { s.t2 with ctxs := o.taken.foldl (fun cs k =>
    let x := tget (fun _ => ({} : Ctx)) cs k
    tset (fun _ => {}) cs k { x with stamp := stampOf s t, tpl := templateAt s x.template }) o.ctxs } }
  let s := { s with t2 := { s.t2 with ctxMax := max s.t2.ctxMax (ctxInUse s) } }
  let s := o.handed.foldl (fun s c => clsCount c 0 s) s
  let s := o.noCtx.foldl (fun s c => clsCount c 4 s) s
  addCnt 15 o.noCtx.length (addCnt 10 o.noCtx.length (addCnt 13 o.taken.length (addCnt 7 o.handed.length s)))

/-- The outcome of the tick, or that it is pending; answers whether it is void at once (R11, R247). -/
def tickOutcome (t : Nat) (o : CombOut) (s : State) : State × Bool :=
  let p : Pend := { v := o.clsV, h := o.clsH, s := o.clsS, left := o.taken.length, void := !o.noCtx.isEmpty, accepted := o.clsA }
  let wait (s : State) : State := { s with comb := { s.comb with pend := tins (tdel s.comb.pend t) t p } }
  if o.clsA then (addCnt 1 1 (if o.taken.isEmpty then s else wait s), false)
  else if o.clsP then
    if o.taken.isEmpty then (addCnt (outcomeCtr (pendOutcome p)) 1 s, pendOutcome p == .void) else (addCnt 6 1 (wait s), false)
  else
    let c := classOutcome o.clsV o.clsH o.clsS
    (addCnt (outcomeCtr c) 1 s, c == .void)

/-- Global hold-off started by the tick (R242). -/
def ghoStart (t : Nat) (o : CombOut) (g : Nat) (s : State) : State :=
  if o.ghoFired && decide (0 < g) then { s with comb := { s.comb with ghoFrom := t + 1, ghoTo := t + g } } else s

/-- Marks of the monitor lines that fired (R246). -/
def enterMarks (t : Nat) (i : CombIn) (o : CombOut) (ls : Tbl LineSt) (s : State) : State :=
  { s with acq := { s.acq with marks := s.acq.marks ++ o.monFired.map fun n =>
    { tick := t, line := n, streams := (lineAt ls n).d.mark, doubt := (rawResult ls i.cond (lineAt ls n).d n).isNone } } }

/-- Log entries of the decision (R310), and the divergences of a replay under RECORDED (R312). -/
def decisionLog (t : Nat) (o : CombOut) (full : Bool) (s : State) : State :=
  let s := if o.shedFull then logAdd { type := 7, tick := t } s else s
  let s := o.missed.foldl (fun s n => logAdd { type := 8, tick := t, body := le 1 n } s) s
  if !recordedFeedback s then s
  else
    let s := if o.shedFull && full && (replayAt s 7 t).isEmpty then diverge t 7 s else s
    o.missed.foldl (fun s n => if (replayAt s 8 t).any (fun e => unle (slice 0 1 e.body) == n) then s else diverge t 8 s) s

/-- Inputs of the tick that no later one reads are gone. -/
def dropInputs (t : Nat) (s : State) : State :=
  { s with
    comb := { s.comb with
      decided := some t
      scores := s.comb.scores.filter fun e => decide (64 * (t + 1) ≤ e.1)
      scoreAt := s.comb.scoreAt.filter fun e => decide (64 * (t + 1) ≤ e.1)
      fireIn := s.comb.fireIn.filter fun e => decide (t < e.1)
      oldRegs := s.comb.oldRegs.filter fun e => decide (t + 1 < e.1) }
    fe := { s.fe with orOut := s.fe.orOut.filter (fun e => decide (t < e.1)), trgIn := s.fe.trgIn.filter fun e => decide (t < e.1) }
    time := { s.time with timedBits := s.time.timedBits.filter fun e => decide (t < e.1) } }

/-- Log entries of TRG_IN conditions and timed-event bits (R310). -/
def inputLog (t : Nat) (s : State) : State :=
  let s := if trgBits s t = 0 then s else logAdd { type := 2, tick := t, body := le 1 (trgBits s t) } s
  if timedFor s t = 0 then s else logAdd { type := 4, tick := t, body := le 2 (timedFor s t) } s

/-- Digests of the fixed-path sections close with the tick (R304). -/
def closeDigests (t : Nat) (s : State) : State :=
  ((residents s).filter fun h => isFixed (secAt s h) && digestAble s h).foldl (fun s h => qblockClose h t t s) s

/-- What BUSY_OUT and the ladder take from a decision (R253, R285). -/
def afterDecision (t : Nat) (s : State) : State :=
  { s with
    comb := { s.comb with atDecision := [s.acq.reqs.length, ctxInUse s, s.acq.level, bnat (decide (t < s.comb.ghoTo))] }
    acq := { s.acq with pressure := pressureOf s } }

/-- The effects of a decision on everything but the lines' state (R245 to R252). -/
def decisionEffects (t : Nat) (i : CombIn) (o : CombOut) (ls : Tbl LineSt) (full : Bool) (s : State) : State :=
  let s := enterParisons t o (enterRequest o.request s)
  let r := tickOutcome t o (addCnt 0 1 (if o.shedFull then addCnt 14 1 s else s))
  let s := drivePins t o r.2 (ghoStart t o i.ghoTicks r.1)
  let s := enterMarks t i o ls s
  let s := { s with acq := { s.acq with ladderTicks := cadd 64 s.acq.ladderTicks i.lvl 1 } }
  afterDecision t (dropInputs t (closeDigests t (decisionLog t o full s)))

/-- SH_CNT of every line is 0 at the edge of a level change (R244, R286). -/
def shStart (t : Nat) (s : State) : State :=
  if s.acq.ladPend.any fun c => c.tick == t then
    { s with comb := { s.comb with lines := tmapV (fun _ => {}) (fun (l : LineSt) => { l with sh := 0 }) s.comb.lines } }
  else s

/-- Conditions whose tables fail their check are poisoned (R400). -/
def spoilt (io : IoErr) (i : CombIn) : CombIn := { i with cond := fun k => if io.cond.contains k then none else i.cond k }

/-- The decision of tick t, from cycle C to C + 12 (R249). -/
def decideTick (t : Nat) (io : IoErr) (s0 : State) : State :=
  let s := ioChecks io (scoreChecks t (shStart t (settleDue false t s0)))
  let f := fireFor s t
  let s := inputLog t (fireChecks t f (wideCheck t f s))
  let i := spoilt io (combineIn t f s)
  let o := combine i (ghoActs s t) s.comb.lines s.t2.ctxs
  let s1 := decisionEffects t i o s.comb.lines (decide (4095 < s.acq.reqs.length)) { s with comb := { s.comb with lines := o.lines } }
  if s1.dev.pauseAt = some (t + 1) then enterPaused (t + 1) s1 else s1

/-- COMBINE_DECISION (R249): ticks come in order, and only counted ones are decided (R31). -/
def execCombineDecision (t : TickIn) (s : State) : Host.Outcome State Fault Refusal :=
  goes (if counted s t.t && t.t == nextDecided s then decideTick t.t t.io s else s)

/-- TRG_OUT_PULSE_END (R252): the pin falls, unless its source is the hold-off level and that is active. -/
def execTrgOutPulseEnd (k : Nat) (s : State) : Host.Outcome State Fault Refusal :=
  goes (
    let v := regAt s (0x70200 + 4 * k)
    let lvl := bit v 31 && bits v 24 16 == 0x104 && (match s.comb.decided with | some t => decide (t < s.comb.ghoTo) | none => false)
    if decide (8 ≤ k) then s
    else { s with comb := { s.comb with trg := tset (fun _ => {}) s.comb.trg k { active := lvl, endFs := 0 } } })

/- Tier two (R257 to R264, R514). -/

/-- CANDIDATE_QUEUED (R257); a candidate whose section has left meanwhile ends expired (R264). -/
def execCandidateQueued (c : Nat) (s : State) : Host.Outcome State Fault Refusal :=
  goes (
    let x := ctxAt s c
    if x.st != .alloc || s.dev.st == .safe then s
    else
      let s := setCtx c { x with st := .queued } s
      if (secAt s x.handle).resident && !isFixed (secAt s x.handle) && !(secAt s x.handle).stopped then s else expireCtx c 2 s)

/-- The dispatcher may start a pass of section hd: it is not stopped for a pause, a save or SAFE_STOP, and the section stands at a
boundary with none of its tiles held (R258, R259, R264, R392, R411, R506). -/
def dispatchable (s : State) (hd : Nat) : Bool :=
  ((s.dev.st == .running && !s.dev.pauseReq && s.dev.pauseAt.isNone) || (s.dev.st == .paused && s.dev.draining)) && !saving s &&
  (secAt s hd).resident && !isFixed (secAt s hd) && !(secAt s hd).stopped &&
  (sitesOf (secAt s hd)).all (fun p => !(tileAt s p.1 p.2.1 p.2.2).held) && !running s hd && !(passAt s hd).abandoned

/-- What the dispatcher does next for a section: dispatch a candidate, or end one expired with a cause; true when the recording does
not have the case (R259, R260, R312). -/
inductive Turn where
  | none
  | start (c : Nat) (new : Bool)
  | expire (c cause : Nat)

/-- The dispatcher's choice (R259, R260), or the recording's (R312). -/
def nextTurn (s : State) (hd : Nat) : Turn :=
  let q := queuedFor s hd
  let free (new : Bool) : Turn := match bestOf q with
    | none => .none
    | some (c, x) => if ringGone s x.tick then .expire c 1 else .start c new
  if !recordedFeedback s then free false
  else
    let lineIs (x : Ctx) (e : LogEntry) : Bool := e.tick == x.tick && unle (slice 0 1 e.body) == x.line
    let out := q.filterMap fun (c, x) => (s.acq.replay.log.find? fun e => e.type == 9 && lineIs x e).map fun e => (c, unle (slice 1 1 e.body))
    match out.head? with
    | some (c, cause) => .expire c cause
    | none =>
      match s.acq.replay.log.find? fun e => e.type == 10 && unle (slice 1 1 e.body) == hd && unle (slice 4 8 e.body) == (passAt s hd).passes with
      | none => free true
      | some e => match q.find? fun y => lineIs y.2 e with
        | some (c, x) => if ringGone s x.tick then .expire c 1 else .start c false
        | none => .none

/-- The pass starts at cycle x (R259, R263, R265, R310). -/
def startPass (hd c x : Nat) (s : State) : State :=
  let y := ctxAt s c
  let p := passAt s hd
  let due := max p.boundary y.entry + 24
  let capped := match s.t2.lastStart with | some l => l + s.t2.passGap - due | none => 0
  let s := logAdd { type := 10, tick := y.tick, body := le 1 y.line ++ le 1 hd ++ le 2 0 ++ le 8 p.passes } s
  let s := setCtx c { y with st := .running, pass := p.passes } s
  let s := mapTiles hd tilePassStart (setSec hd { secAt s hd with qreq := 0 } s)
  let s := setPass hd { p with ctx := some c, start := x, freeze := 0, late := [], lateAt := 0, lateMax := 0, heldBy := 0xFF, seq := p.passes, verdict := none
                               passes := satAdd 64 p.passes 1, pcapCyc := satAdd 64 p.pcapCyc capped } s
  { s with t2 := { s.t2 with
    lastStart := some x
    cls := cset s.t2.cls (8 * y.cls + 5) (max (cget s.t2.cls (8 * y.cls + 5)) (min (x - y.entry) (2 ^ 32 - 1))) } }

/-- The earliest start of a pass on candidate c (R259, R263). -/
def earliest (s : State) (hd c : Nat) : Nat :=
  max (max (passAt s hd).boundary (ctxAt s c).entry + 24) (match s.t2.lastStart with | some l => l + s.t2.passGap | none => 0)

/-- PASS_DISPATCH at cycle x (R259). -/
def execPassDispatch (hd x : Nat) (s : State) : Host.Outcome State Fault Refusal :=
  goes (
    if !dispatchable s hd then s
    else match nextTurn s hd with
      | .none => s
      | .expire c cause => expireCtx c cause (if recordedFeedback s && cause == 1 &&
          !(s.acq.replay.log.any fun e => e.type == 9 && e.tick == (ctxAt s c).tick) then diverge (ctxAt s c).tick 9 s else s)
      | .start c new =>
        if x < earliest s hd c then s else startPass hd c x (if new then diverge (ctxAt s c).tick 10 s else s))

/-- A pass ends with a verdict code: its probes and result digest are taken first (R261, R304, R308). -/
def finishPass (hd v x : Nat) (s : State) : State :=
  let p := passAt s hd
  let tick := match p.ctx with | some c => (ctxAt s c).tick | none => 0
  let s := qblockClose hd p.seq tick (probeAll hd p.seq 0 s)
  swapBoundary hd (serveWrites hd (endPass hd v x s))

/-- PASS_END: the verdict reaches the queue at cycle x (R261). -/
def execPassEnd (hd x : Nat) (s : State) : Host.Outcome State Fault Refusal :=
  goes (match (passAt s hd).verdict with
    | none => s
    | some v => if running s hd then finishPass hd v x s else s)

/-- VERDICT_MISSING (R261): suspect, 2 gc after the last cycle of the pass. -/
def execVerdictMissing (hd x : Nat) (s : State) : Host.Outcome State Fault Refusal :=
  goes (if running s hd && (passAt s hd).verdict.isNone then finishPass hd 2 x s else s)

/-- The section's queues, FIFOs, hold registers and credits reset, and it stands at its boundary (R514). -/
def sectionBoundary (hd x : Nat) (s : State) : State :=
  let s := mapTiles hd tileReset (probeAll hd (passAt s hd).seq 0 s)
  let s := setSec hd { secAt s hd with credits := [], returning := [], qblock := [] } s
  let s := { s with grid := { s.grid with asks := s.grid.asks.filter fun a => a.h != hd } }
  swapBoundary hd (serveWrites hd (setPass hd { passAt s hd with abandoned := false, verdict := none, boundary := x } s))

/-- PASS_BOUNDARY: an abandoned pass owes no word any more (R514). -/
def execPassBoundary (hd x : Nat) (s : State) : Host.Outcome State Fault Refusal :=
  goes (if (passAt s hd).abandoned && owedWords s hd == 0 then sectionBoundary hd x s else s)

/-- CANDIDATE_EXPIRE at the counted edge E(x) (R260); a replay under RECORDED applies no deadlines (R312). -/
def execCandidateExpire (c x : Nat) (s : State) : Host.Outcome State Fault Refusal :=
  goes (
    let y := ctxAt s c
    if y.st == .queued && counted s x && !recordedFeedback s && decide (y.tick + bits (regFor s x (0x70100 + 8 * y.cls)) 31 0 < x) then expireCtx c 0 s
    else s)

/-- DELIVER_REQUEST: the record request of an accepted candidate is taken, and its context freed (R257, R261, R282). -/
def execDeliverRequest (c : Nat) (s : State) : Host.Outcome State Fault Refusal :=
  goes (
    let y := ctxAt s c
    if y.st != .deliver || decide (4096 ≤ s.acq.reqs.length) then s
    else
      let r : RecReq := { tick := y.tick, lines := 2 ^ y.line, doubt := y.doubt, template := y.template, tpl := y.tpl
                          outcome := if y.suspect then 2 else 1, handle := y.handle, pass := y.pass, stamp := y.stamp
                          tStart := s.acq.tStart.getD 0 }
      setCtx c {} (addCnt 19 1 { s with acq := { s.acq with reqs := s.acq.reqs ++ [r] } }))

/-- Freeze cycles that a pass held at one of its cycles has run up by cycle x, none where it is not held (R169, R174). -/
def frozenBy (p : Pass) (x : Nat) : Option Nat := if p.late.isEmpty then none else some (x - p.start - p.lateAt)

/-- STALL_LIMIT: the pass has run up its freeze cycles (R174, R514). -/
def execStallLimit (hd x : Nat) (s : State) : Host.Outcome State Fault Refusal :=
  goes (
    let p := passAt s hd
    match frozenBy p x with
    | none => s
    | some n =>
      if running s hd && decide ((secAt s hd).stallLimit ≤ n) then
        let s := setPass hd { p with freeze := max p.freeze n } s
        let s := fault { code := 0x0205, sev := 3, elastic := true, tick := nowTick s, section_ := hd, detail := p.heldBy } s
        sectionBoundary hd x (abandonPass hd .suspect s)
      else s)

/- Pause and drain (R264, R315, R392). -/

/-- PAUSE_EFFECT at the newest tick edge, with no pass running (R264): ticks from it on are not counted. -/
def execPauseEffect (s : State) : Host.Outcome State Fault Refusal :=
  goes (
    if s.dev.pauseReq && s.dev.st == .running && s.dev.pauseAt.isNone && noPass s then
      let p := nowTick s
      let s := { s with dev := { s.dev with tP := p, pauseAt := some p } }
      if p ≤ nextDecided s then enterPaused p s else s
    else s)

/-- DRAIN_DONE (R392): the counters close, STOP becomes final, and a replay is over (log 35). -/
def execDrainDone (s : State) : Host.Outcome State Fault Refusal :=
  goes (
    if s.dev.st == .paused && s.dev.draining && ctxInUse s == 0 && devCnt s 19 == devCnt s 20 then
      let j := s.dev.stopJ
      let s := toIdle { s with dev := { s.dev with draining := false, stopJ := none }
                               acq := { s.acq with replay := if s.acq.replay.running then {} else s.acq.replay } }
      match j with | some j => finishLong j 0 0 [] s | none => s
    else s)

/-- SWAP_END at E(T_s + sigma_out) (R186). -/
def execSwapEnd (s : State) : Host.Outcome State Fault Refusal :=
  goes (match s.grid.swap with
    | none => s
    | some w =>
      if (w.outs.isEmpty && w.ins.isEmpty) || decide (nowTick s < w.endTick) then s
      else swapSettle { w with outs := [], ins := [] } (exchangeFixed w.outs w.ins s))

end Sys2Proof.Machine
end

