-- ==== Sys2Proof/Machine/TileOps.lean ====
section
/-!
DEFINITION. What every row of a schedule word shares: which section and tick it acts for, the read of the word, its directives, and what
its result does to the rest of the machine (07 R179 to R189; 06 R169).
-/

namespace Sys2Proof.Machine

/-- What a row acts for: section, zone, bank of its slot table, the tick or pass cycle's base, the tick it acts for, its tag, the key of
its words in QBLOCK, and whether it belongs to an incoming section of a swap under way. -/
structure RowCtx where
  h : Nat
  elastic : Bool
  slotBank : Nat
  tick : Nat
  tag : Nat
  key : Nat
  inc : Bool
  deriving DecidableEq, Repr

/-- A fixed-path word may act for tick t: it is counted, or was before the pause that is being completed (R31, R315; log 36). -/
def actsFor (s : State) (t : Nat) : Bool :=
  counted s t || (s.dev.st == .paused && decide (runStart s ≤ t ∧ t < s.dev.tP))

/-- A section has a tile at a site. -/
def hasSite (x : Sec) (q col row : Nat) : Bool := x.placed.any fun t => t.vq == q && t.col == col && t.row == row

/-- The section whose word a bank of a tile holds, and whether it comes in with the swap under way (R186). -/
def bankOwner (s : State) (a : TileAt) (t : Tile) : Option (Nat × Bool) :=
  if a.bank = t.bank then (if (secAt s t.owner).resident then some (t.owner, false) else none)
  else match s.grid.swap with
    | some w => (w.ins.find? fun h => hasSite (secAt s h) a.q a.col a.row).map fun h => (h, true)
    | none => none

/-- The word is live: in a clean swap the outgoing one before T_s, the incoming one from it on (R186). -/
def isLive (s : State) (h t : Nat) : Bool :=
  match s.grid.swap with
  | none => true
  | some w => if w.outs.contains h then decide (t < w.ts) else if w.ins.contains h then decide (w.ts ≤ t) else true

/-- The row of a schedule word, where the sequencer executes that word at that cycle (R182, R186): c counts T x II + phase in a fixed-path
section, and cycles of the pass, freeze cycles left out, in a tier-two section. -/
def rowCtx (s : State) (a : TileAt) : Option RowCtx :=
  let t := tileAt s a.q a.col a.row
  if !zoneOn s || t.held || decide (a.c < t.poisonTo) then none
  else match bankOwner s a t with
    | none => none
    | some (h, inc) =>
      let x := secAt s h
      if x.stopped then none
      else if isFixed x then
        let ii := max (iiOf s) 1
        let sg := wStage t a.bank a.i
        let tk := a.c / ii - sg
        if a.c % ii = wStart t a.bank a.i ∧ sg ≤ a.c / ii ∧ actsFor s tk ∧ isLive s h tk then
          some { h := h, elastic := false, slotBank := if inc then 1 - s.grid.slotBank % 2 else s.grid.slotBank, tick := tk, tag := tk % 256, key := tk, inc := inc }
        else none
      else
        let p := passAt s h
        match p.ctx with
        | none => none
        | some c =>
          if a.c = wStart t a.bank a.i ∧ a.c < x.img.passTime then
            some { h := h, elastic := true, slotBank := s.grid.slotBank, tick := (ctxAt s c).tick, tag := p.seq % 256, key := p.seq, inc := false }
          else none

/-- The fault record of a row's fault (R403). -/
def rowFault (s : State) (a : TileAt) (r : RowCtx) (f : TFault) : FaultRec :=
  { code := f.code, sev := f.sev, tick := r.tick, elastic := r.elastic, quad := a.q, site := 16 * a.col + a.row
    phase := if r.elastic then a.c else a.c % max (iiOf s) 1, unit := f.unit, index := f.index, detail := f.detail
    phys := physOf s a.q a.col a.row, section_ := r.h }

/-- Corrected-error unit of a tile's store: 64 x physical tile + counter (R408). -/
def ceUnit (s : State) (a : TileAt) (k : Nat) : Nat := 64 * (160 * a.q + physIndex s a.q a.col a.row) + k

/-- The lane and slot by which a word taken at the access point of a site at cycle x came (R162, R163). -/
def takenBy (s : State) (q col row bank x : Nat) : Nat × Nat :=
  let idx := fixedIdx s (x - 3)
  match (lanesOf col row).find? fun l => let e := slotAt s q l.1 bank idx; e.valid && bit e.readers l.2 with
  | some l => (l.1, idx)
  | none => (0xFF, 0xFFFF)

/-- Words whose bits changed on the way reach the input ports and the access point: the receiver checks parity, and what it delivers takes
the place of the word sent, for its routes too (R153). The record of an access point names the lane and the slot. -/
def receivePorts (a : TileAt) (r : RowCtx) (s : State) : State :=
  a.hw.parity.foldl (fun s pm =>
    let x := receive (runAt (tileAt s a.q a.col a.row).inbox pm.1 a.c) pm.2
    let s := arrive hops a.q a.col a.row pm.1 true { port := pm.1, a := a.c, b := a.c, w := x.1 } s
    if !x.2 then s
    else
      let s := setTile a.q a.col a.row (tcount cLinkPar 1 (tileAt s a.q a.col a.row)) s
      let at_ := takenBy s a.q a.col a.row r.slotBank a.c
      let s := fault (rowFault s a r (if pm.1 = 4 then { code := 0x0201, sev := 3, unit := at_.1, index := at_.2 }
        else { code := 0x0201, sev := 3, unit := pm.1 })) s
      if r.elastic then abandonPass r.h .suspect s else s) s

/-- A schedule word that cannot be corrected: the tile drives poison on all four ports, to the tick edge or the end of the pass (R184). -/
def schedBad (a : TileAt) (r : RowCtx) (s : State) : State :=
  let t := tileAt s a.q a.col a.row
  let ii := max (iiOf s) 1
  let last := if r.elastic then (secAt s r.h).img.passTime else (a.c / ii + 1) * ii
  let s := setTile a.q a.col a.row (tcount cSchedUe 1 { t with poisonTo := last }) s
  let s := fault (rowFault s a r { code := 0x0109, sev := 3, unit := a.bank, index := a.i }) s
  let s := (List.range 4).foldl (fun s side =>
    drive hops a.q a.col a.row side true { port := 0, a := a.c, b := last - 1, w := poisonWord r.tag 0 } s) s
  if r.elastic then abandonPass r.h .suspect s else s

/-- The generators, group members and group-scale registers of an incoming section stand beside those in use until its swap ends, and its
points take over their entries as its words reach them (R93, R107). -/
def turnSide (inc : Bool) (t : Tile) : Tile :=
  if !inc then t
  else { t with
    ags := t.ags2, ags2 := t.ags, member := t.member2, member2 := t.member, greg := t.greg2, greg2 := t.greg
    starts := t.starts2, starts2 := t.starts }

/-- A pass is held at cycle c of a tile. -/
def heldAt (p : Pass) (site c : Nat) : Bool := p.lateAt == c && p.late.any (·.1 == site)

/-- The cycles in which a tile of a pass could not proceed at cycle c, with one more. -/
def lateMore (p : Pass) (site c : Nat) : Pass :=
  let p := if p.lateAt = c then p else { p with lateAt := c, late := [], lateMax := 0 }
  let n := cget p.late site + 1
  { p with late := cset p.late site n, lateMax := max p.lateMax n, freeze := if p.lateMax < n then p.freeze + 1 else p.freeze }

/-- A frozen row: a freeze cycle of the section, one for all tiles that cannot proceed in it (R169), and a word of a loop that is late: one
that its consumer finds missing, or one that its producer has no credit for (R171). -/
def freezeRow (a : TileAt) (r : RowCtx) (waitAg waits : Option Nat) (s : State) : State :=
  let p := passAt s r.h
  let site := siteNo a.q a.col a.row
  let loop := waits.or (waitAg.bind fun ag => (findLoop (secAt s r.h) fun l => consumes (secAt s r.h) l a.q a.col a.row ag).map (·.1))
  let s := if heldAt p site a.c then s
    else match loop with
      | some n => { s with t2 := { s.t2 with loopLate := cadd 32 s.t2.loopLate (64 * r.h + n) 1 } }
      | none => s
  setPass r.h { lateMore p site a.c with heldBy := loop.getD p.heldBy } s

/-- A tile that was held proceeds. -/
def proceed (a : TileAt) (r : RowCtx) (s : State) : State :=
  let p := passAt s r.h
  let site := siteNo a.q a.col a.row
  if heldAt p site a.c then setPass r.h { p with late := p.late.filter fun e => e.1 != site } s else s

/-- A tier-two word whose express put finds no credit waits for the credits of a loop (R151, R167). -/
def noCredit (s : State) (a : TileAt) (r : RowCtx) (w : BitVec 128) : Option Nat :=
  if r.elastic && bit (wDest w) 11 then
    match expressLoop (secAt s r.h) a.q a.col a.row with
    | some (n, l) => if loopCredits l ≤ cget (secAt s r.h).credits n then some n else none
    | none => none
  else none

/-- SCALE_DRIFT or FLAT_EVENT of a point: section, tile and phase, then the tick of a drift, and the count (R88, R90; log 23). -/
def pointEvent (s : State) (a : TileAt) (r : RowCtx) (e : Nat × Nat × Nat) : Ev :=
  let place := le 1 (16 * a.col + a.row) ++ le 1 a.q ++ le 4 (if r.elastic then a.c else a.c % max (iiOf s) 1)
  { code := e.1, sev := 0, origin := r.h, body := place ++ (if e.1 = 0x0010 then le 8 r.tick else []) ++ le 2 e.2.2 }

/-- What an operation gives to the rest of the machine. -/
def spread (a : TileAt) (r : RowCtx) (chainOff : Nat) (o : TileOut) (s : State) : State :=
  let s := match o.chain with | some c => chainOut a.q a.col a.row (a.c + chainOff) c s | none => s
  let s := { s with grid := { s.grid with d2dUe := a.hw.d2dUe } }
  let s := o.emits.foldl (fun s e => deliver r.h r.elastic r.slotBank a.q a.col a.row (a.c + e.off) e.dest e.w s) s
  let s := { s with grid := { s.grid with d2dUe := false } }
  let s := if a.hw.d2dCe then corrected (2000000 + a.q) { code := 0x0111, sev := 1, quad := a.q, unit := a.q } (hwCount (64 + 2 * a.q) s) else s
  let s := o.ces.foldl (fun s k => corrected (ceUnit s a k) (rowFault s a r { code := 0x0111, sev := 1 }) s) s
  let s := o.events.foldl (fun s e => raiseEv (pointEvent s a r e) s) s
  let s := o.credits.foldl (fun s ag =>
    match findLoop (secAt s r.h) (fun l => consumes (secAt s r.h) l a.q a.col a.row ag) with
    | some (n, _) => giveCredit r.h n s
    | none => s) s
  let s := o.faults.foldl (fun s f => fault (rowFault s a r f) s) s
  if o.suspect && r.elastic then abandonPass r.h .suspect s else s

/-- The free values of a row: 128 of 64 bits. -/
def rowFree (s : State) : Nat → Nat :=
  let v := (Config.freeBits 8192 s.free).toNat
  fun k => bits v (64 * (k % 128) + 63) (64 * (k % 128))

/-- An operation as a row sees it: its result, and what it does to the rest of the machine itself. -/
abbrev RowOp := RowCtx → Env → Tile → State → TileOut × (State → State)

/-- An operation that acts on the tile alone. -/
def pureOp (f : Env → Tile → TileOut) : RowOp := fun _ e t _ => (f e t, fun s => s)

/-- The word of a row as read. -/
def readWord (a : TileAt) (t : Tile) : SchedRead := schedRead (tswAt t a.bank a.i ^^^ a.hw.flip)

/-- Points restarted by a remap whose entry a word changed before FILL reached N: its results are poisoned (R411). -/
def lostTouched (before after : Tile) : Bool :=
  before.lostPts.any fun n =>
    let x : ScaleEntry := tget (fun _ => zeroScale) before.scal n
    x != tget (fun _ => zeroScale) after.scal n && decide (x.fill < winN x)

/-- Restarted points whose FILL has reached N are whole again. -/
def lostDone (t : Tile) : Tile :=
  { t with lostPts := t.lostPts.filter fun n =>
      let x : ScaleEntry := tget (fun _ => zeroScale) t.scal n
      decide (x.fill < winN x) }

/-- Every word that leaves is poisoned, its value bits zero (R59). -/
def poisonOuts (o : TileOut) : TileOut :=
  { o with
    emits := o.emits.map fun (e : Emit) => { e with w := { e.w with p := true, data := 0#256 } }
    chain := o.chain.map fun (c : Chain) => { c with p := true, sums := c.sums.map fun _ => 0, row := 0 } }

/-- What the operation gave, with the poison of a mismatch in rotation or of a point restarted by a remap (R411, R415). -/
def checkedOut (mism : Bool) (before : Tile) (o : TileOut) : TileOut :=
  let o := if mism || lostTouched before o.t then poisonOuts o else o
  { o with t := lostDone o.t }

/-- A mismatch with the spare is decided: by residue where one of the checks covers the word, else by recomputation (R416, R417). -/
def rotFound (op : Nat) (a : TileAt) (o : TileOut) (rot : Option Rot) (s : State) : State :=
  match rot with
  | none => s
  | some r =>
    let aBad := o.faults.any fun f => f.code == 0x0103 || f.code == 0x0104
    rotMismatch (op == 0 || op == 1 || (op == 8 && (aBad || a.hw.spareRes))) aBad a.hw.spareRes r s

/-- One row of the tile table: a word of opcode op executes (R182 to R186). -/
def runRow (op chainOff : Nat) (f : RowOp) (a : TileAt) (s0 : State) : State :=
  let t0 := tileAt s0 a.q a.col a.row
  match rowCtx s0 a with
  | none => s0
  | some r =>
    if wOpcode (tswAt t0 a.bank a.i) ≠ op then s0
    else match readWord a t0 with
      | .bad => schedBad a r s0
      | .good w => go r w false
      | .corrected w => go r w true
where
  /-- The word executes, or its section freezes. -/
  go (r : RowCtx) (w : BitVec 128) (ce : Bool) : State :=
    let s := receivePorts a r s0
    if r.elastic && (passAt s r.h).ctx.isNone then s
    else match noCredit s a r w with
    | some n => freezeRow a r none (some n) s
    | none =>
      let t := turnSide r.inc (tileAt s a.q a.col a.row)
      let rot := if a.hw.rotation then rotFor s a.q a.col a.row else none
      let hw := { a.hw with rotation := rot.isSome }
      let e : Env := { elastic := r.elastic, tag := r.tag, tick := r.tick, seed := (secAt s r.h).seed, c := a.c, w := w, hw := hw, free := rowFree s }
      let y := f r e t s
      let x := if y.1.stall then y else (checkedOut rot.isSome t y.1, y.2)
      if x.1.stall then freezeRow a r x.1.waitAg x.1.waits (setTile a.q a.col a.row (turnSide r.inc x.1.t) s)
      else
        let s := proceed a r (setTile a.q a.col a.row (turnSide r.inc x.1.t) { s with free := s.free + 1 })
        let s := if ce then
            corrected (ceUnit s a cSchedCe) (rowFault s a r { code := 0x0111, sev := 1, unit := a.bank, index := a.i })
              (setTile a.q a.col a.row (tcount cSchedCe 1 (tileAt s a.q a.col a.row)) s)
          else s
        let s := addRoute a.q a.col a.row { a := a.c, b := a.c + wSpan w - 1, dirs := wRoute w } s
        rotFound op a x.1 rot (x.2 (spread a r chainOff x.1 s))

/-- A row of an operation that acts on the tile alone. -/
def tileRow (op chainOff : Nat) (f : Env → Tile → TileOut) (a : TileAt) (s : State) : State := runRow op chainOff (pureOp f) a s

/- The end of a tick for a tile. -/

/-- Words that no later cycle from x on reads are gone. -/
def tilePrune (x : Nat) (t : Tile) : Tile :=
  { t with
    inbox := t.inbox.filter fun r => decide (x ≤ r.b)
    outs := t.outs.filter fun r => decide (x ≤ r.b)
    chain := t.chain.filter fun r => decide (x ≤ r.cyc)
    chainOut := t.chainOut.filter fun r => decide (x ≤ r.cyc)
    routes := t.routes.filter fun r => decide (x ≤ r.b)
    hr := (t.hr.filter fun r => decide (r.a < x)).foldl (fun l r => l.filter (fun y => y.port != r.port) ++ [r]) [] ++ t.hr.filter fun r => decide (x ≤ r.a) }

/-- The tick edge E(n) for the fixed-path sections: probes of tick n - 1, then the generators (R114, R115), and slot puts long past. -/
def sectionEdge (n : Nat) (s : State) : State :=
  let ii := max (iiOf s) 1
  let s := { s with grid := { s.grid with puts := s.grid.puts.filter fun p => decide ((n - 1) * ii ≤ p.cyc) } }
  ((residents s).filter fun h => isFixed (secAt s h)).foldl (fun s h =>
    let s := if n = 0 then s else probeAll h (n - 1) ((n - 1) * ii) s
    mapTiles h (fun t =>
      let t := tilePrune ((n - 1) * ii) t
      { t with ags := t.ags.map (agTickEdge (counted s n)), ags2 := t.ags2.map (agTickEdge (counted s n)) }) s) s

end Sys2Proof.Machine
end

