-- ==== Sys2Proof/Machine/IoRows.lean ====
section
/-!
DEFINITION. The rows of I/O words but for the fabric port's, and of credits and lines that return (05 R149 to R151; 06 R167).
-/

namespace Sys2Proof.Machine

/-- A poisoned or idle operand of an I/O operation in the fixed zone counts as any undriven operand (R144, R160). -/
def ioInvalid (e : Env) (t : Tile) (f : Nat) (out : List Emit) : TileOut :=
  if e.elastic then { t := t, stall := true }
  else { t := tcount cInvalidRead 1 t, faults := [{ code := 0x0101, sev := 3, unit := bits f 15 12 }], emits := out }

/- Ingest (R150, R219). -/

/-- The FEEDS entry of an ingest tile. -/
def feedOf (x : Sec) (q col row : Nat) : Option ImFeed := x.img.feeds.find? fun f => physQuad x f.vq == q && f.col == col && f.row == row

/-- Place of a word in QBLOCK: by cycle of delivery, virtual quadrant, corner, then data before scale word (R305; log 23). -/
def fixedOrd (s : State) (h q col row c : Nat) (scale : Bool) : Nat :=
  let vq := ((secAt s h).place.idxOf? q).getD 0
  let corner := (if row < 6 then 0 else 2) + (if col < 6 then 0 else 1)
  ((c * 4 + vq) * 4 + corner) * 2 + bnat scale

/-- The word of a group that a delivery list names, for tick t (R219); a group that gave no such word gives poison. -/
def feedWord (s : State) (nb : Nat) (blk : Nat) (t g k : Nat) (scale : Bool) : LWord :=
  let f : FeatOut := tget (fun _ => {}) s.fe.feat (t * 1024 + g)
  let bt := blockTag t nb blk
  if scale then
    { data := BitVec.ofNat 256 (scaleWord bt f.fmt f.zp f.scale), v := true, k := true, tick := t % 256, btag := bt }
  else match f.words[k]? with
    | some (d, p) => { data := if p then 0#256 else d, v := true, p := p, tick := t % 256, btag := bt }
    | none => poisonWord (t % 256) bt

/-- The word that the delivery list gives an IN_RD, and whether it is a scale word; one word of a tile in a cycle. A word issued before the
front end has sent its own is poisoned (R150, R219). -/
def listedWord (s : State) (a : TileAt) (r : RowCtx) : Option (LWord × Bool) :=
  match feedOf (secAt s r.h) a.q a.col a.row with
  | none => none
  | some f => ((deliveryList s.fe (secAt s r.h).img f).find? fun d => d.1 == a.i).map fun (_, g, k, scale) =>
      let blk := ((f.groups.find? fun y => y.1 == g).map (·.2)).getD 0
      (if a.c < gcOf s r.tick + alignOf s + 28 then poisonWord (r.tick % 256) (blockTag r.tick f.nb blk)
        else feedWord s f.nb blk r.tick g k scale, scale)

/-- IN_RD (R150); without a listed word it sends poison (check 0x0208 refuses such an image). -/
def inRdOp (a : TileAt) : RowOp := fun r e t s =>
  let x := (listedWord s a r).getD (poisonWord r.tag 0, bit (wMod e.w) 7)
  ({ t := t, emits := [{ off := 2, dest := if x.2 then wImm e.w else wDest e.w, w := x.1 }] },
   fun s => if digestAble s r.h then qblockAdd r.h r.key (fixedOrd s r.h a.q a.col a.row a.c x.2) x.1 s else s)

/-- IN_RD (R150, R219). -/
def execInRd (a : TileAt) (s : State) : Host.Outcome State Fault Refusal := goes (runRow 0xE0 0 (inRdOp a) a s)

/-- The context word of a pass (R150). -/
def ctxWord (tag c : Nat) (x : Ctx) : LWord :=
  { data := BitVec.ofNat 256 (x.tick % 2 ^ 64 + x.line % 256 * 2 ^ 64 + x.cls % 4 * 2 ^ 72 + c % 65536 * 2 ^ 80), v := true, tick := tag }

/-- IN_CTX (R150). -/
def inCtxOp : RowOp := fun r e t s =>
  let c := ((passAt s r.h).ctx).getD 0
  let w := ctxWord r.tag c (ctxAt s c)
  ({ t := t, emits := [{ off := 2, dest := wDest e.w, w := w }] }, qblockAdd r.h r.key 0 w)

/-- IN_CTX (R150). -/
def execInCtx (a : TileAt) (s : State) : Host.Outcome State Fault Refusal := goes (runRow 0xE1 0 inCtxOp a s)

/- Egress (R150, R151). -/

/-- OUT_SCORE: the word reaches its score block, for the tick it acts for, 6 gc after issue. -/
def outScoreOp : RowOp := fun r e t _ =>
  let x := operand t e.c (wSrcA e.w)
  let b := bits (wImm e.w) 5 0
  let w := if x.v then x else poisonWord r.tag 0
  (if x.v then { t := t } else ioInvalid e t (wSrcA e.w) [],
   fun s => { s with comb := { s.comb with scores := tset (fun _ => {}) s.comb.scores (64 * r.tick + b) w
                                           scoreAt := cset s.comb.scoreAt (64 * r.tick + b) (e.c + 6) } })

/-- OUT_SCORE (R150). -/
def execOutScore (a : TileAt) (s : State) : Host.Outcome State Fault Refusal := goes (runRow 0xE8 0 outScoreOp a s)

/-- OUT_VERDICT: the first of a pass counts, a second records a fault, whose code the spec does not name (log 23); a poisoned verdict ends the pass suspect (R150; DEDUCED, log 37). -/
def outVerdictOp : RowOp := fun r e t s =>
  let x := operand t e.c (wSrcA e.w)
  if !x.v then ({ t := t, stall := true }, fun s => s)
  else if (passAt s r.h).verdict.isSome then ({ t := t, faults := [{ code := 0x0101, sev := 3, unit := 0xEA }] }, fun s => s)
  else ({ t := t }, fun s =>
    setPass r.h { passAt s r.h with verdict := some (if x.p then 2 else bits x.data.toNat 1 0) } s)

/-- OUT_VERDICT (R150). -/
def execOutVerdict (a : TileAt) (s : State) : Host.Outcome State Fault Refusal := goes (runRow 0xEA 0 outVerdictOp a s)

/- HBM port (R150, R151, R167). -/

/-- The read loop of an HBM-port tile, with the queue its lines go to. -/
def readLoop (x : Sec) (q col row : Nat) : Option (Nat × ImLoop) :=
  findLoop x fun l => (l.kind == .hbmRead || l.kind == .hbmReadOther) && produces x l q col row
/-- The write loop of an HBM-port tile. -/
def writeLoop (x : Sec) (q col row : Nat) : Option (Nat × ImLoop) := findLoop x fun l => l.kind == .hbmWrite && produces x l q col row

/-- A section's window takes an access of n bytes at an offset: the HBM address, or that it faults (R150, R151, R289). -/
def sectionWindow (s : State) (h n off len : Nat) (write : Bool) : Option Nat :=
  let w := windowAt s n
  if w.valid && w.target == 1 && w.owner == h && (if write then w.wr else w.rd) && off % 32 == 0 && decide (0 < len ∧ off + len ≤ 2 ^ w.size) then
    some (w.base + off) else none

/-- A request whose loop has not credits for all its lines waits (R151, R169). -/
def loopFull (x : Sec) (l : Nat × ImLoop) (n : Nat) : Bool := decide (loopCredits l.2 < cget x.credits l.1 + n)

/-- A request goes out: its lines will return to the loop's queue, and take their places in QBLOCK. -/
def request (h : Nat) (l : Nat × ImLoop) (lines : List MLine) (s : State) : State :=
  let x := secAt s h
  let s := spendCredit h l.1 lines.length s
  let s := setSec h { secAt s h with qreq := x.qreq + lines.length } s
  { s with grid := { s.grid with asks := s.grid.asks ++
    [{ h := h, q := physQuad x l.2.cvq, col := l.2.ccol, row := l.2.crow, ag := l.2.ag, loop := l.1, lines := lines, ord := x.qreq + 1 }] } }

/-- Lines of HBM from a local address. -/
def hbmLines (s : State) (tag adr n : Nat) : List MLine :=
  (List.range n).map fun k => { data := lineOf (hbmRead s (adr + 32 * k) 32), tick := tag }

/-- A request that fails: no access, and the pass ends suspect (R151). -/
def badRequest (t : Tile) (unit : Nat) : TileOut := { t := t, faults := [{ code := 0x0304, sev := 3, unit := unit }], suspect := true }

/-- HBM_RD (R150, R151); a poisoned address word makes no access (DEDUCED, log 37). -/
def hbmRdOp (a : TileAt) : RowOp := fun r e t s =>
  let x := operand t e.c (wSrcA e.w)
  let v := x.data.toNat
  let win := bits (wImm e.w) 9 0
  let n := bits v 79 64
  if !x.v then ({ t := t, stall := true }, fun s => s)
  else if x.p then ({ t := t, suspect := true }, fun s => s)
  else match sectionWindow s r.h win (bits v 63 0) (32 * n) false, readLoop (secAt s r.h) a.q a.col a.row with
    | some adr, some l =>
      if 4096 < n then (badRequest t win, fun s => s)
      else if loopFull (secAt s r.h) l n then ({ t := t, stall := true, waits := some l.1 }, fun s => s)
      else ({ t := t }, fun s => request r.h l (hbmLines s r.tag adr n) s)
    | _, _ => (badRequest t win, fun s => s)

/-- HBM_RD (R150). -/
def execHbmRd (a : TileAt) (s : State) : Host.Outcome State Fault Refusal := goes (runRow 0xF0 0 (hbmRdOp a) a s)

/-- HBM_WR (R150, R151): poisoned data are written as their zero bits (DEDUCED, log 37); it writes its one operand line whatever line count
the address word holds (DESIGN CHOICE, log 135). No HBM write goes on in a save (R506). -/
def hbmWrOp (a : TileAt) : RowOp := fun r e t s =>
  let d := operand t e.c (wSrcA e.w)
  let x := operand t e.c (wSrcB e.w)
  let win := bits (wImm e.w) 9 0
  if !x.v || !d.v || saving s then ({ t := t, stall := true }, fun s => s)
  else if x.p then ({ t := t, suspect := true }, fun s => s)
  else match sectionWindow s r.h win (bits x.data.toNat 63 0) 32 true, writeLoop (secAt s r.h) a.q a.col a.row with
    | some adr, some l =>
      if loopFull (secAt s r.h) l 1 then ({ t := t, stall := true, waits := some l.1 }, fun s => s)
      else ({ t := t }, fun s => hbmWrite adr (lineBytes d.data) (giveCredit r.h l.1 (spendCredit r.h l.1 1 s)))
    | _, _ => (badRequest t win, fun s => s)

/-- HBM_WR (R150). -/
def execHbmWr (a : TileAt) (s : State) : Host.Outcome State Fault Refusal := goes (runRow 0xF1 0 (hbmWrOp a) a s)

/-- RING_RATE: whether n more lines may issue in the 1,024 gc window of an absolute cycle (R263). -/
def ringMay (s : State) (g n : Nat) : Bool :=
  let used := if s.t2.ringWin = g / 1024 then s.t2.ringIssued else 0
  used == 0 || decide (used + n ≤ s.t2.ringRate)

/-- Lines of a lane of one tick: from the deep ring, or the gather buffer in C1 timing mode (R302). A missing lane's lines are zeros. -/
def ringLines (s : State) (tag t lane first n : Nat) : List MLine :=
  let b := if c1Mode s then (match gatherLane s t lane with | some (some p) => p | _ => [])
    else hbmRead s (slotAddr s t + laneOfs s lane) (ringLaneBytes s lane)
  (List.range n).map fun k => { data := lineOf (slice (32 * (first + k)) 32 b), tick := tag }

/-- The newest tick that RING_RD can read. -/
def ringNewest (s : State) : Option Nat := if c1Mode s then gatherNewest s else s.acq.newest

/-- RING_RD (R150, R151, R263). -/
def ringRdOp (a : TileAt) : RowOp := fun r e t s =>
  let x := operand t e.c (wSrcA e.w)
  let v := x.data.toNat
  let tk := bits v 63 0
  let lane := bits v 71 64
  let first := bits v 95 80
  let n := bits v 111 96
  let p := passAt s r.h
  let g := p.start + a.c + p.freeze
  let k := laneCfg (regAt s) lane
  if !x.v then ({ t := t, stall := true }, fun s => s)
  else if x.p then ({ t := t, suspect := true }, fun s => s)
  else if decide (96 ≤ lane) || !k.en || (!k.ringEn && !c1Mode s) || n == 0 || decide (ringLaneBytes s lane < 32 * (first + n)) then (badRequest t lane, fun s => s)
  else if ringGone s tk then ({ t := t }, abandonPass r.h .expired)
  else match readLoop (secAt s r.h) a.q a.col a.row, ringNewest s with
    | some l, some w =>
      if decide (w < tk) || loopFull (secAt s r.h) l n then ({ t := t, stall := true, waits := if w < tk then none else some l.1 }, fun s => s)
      else if !ringMay s g n then ({ t := t, stall := true }, fun s => s)
      else ({ t := t }, fun s =>
        let used := if s.t2.ringWin = g / 1024 then s.t2.ringIssued else 0
        request r.h l (ringLines s r.tag tk lane first n) { s with t2 := { s.t2 with ringWin := g / 1024, ringIssued := used + n } })
    | some _, none => ({ t := t, stall := true }, fun s => s)
    | none, _ => (badRequest t lane, fun s => s)

/-- RING_RD lines that RING_RATE delays count in PCAP_LINES, once for each request (R263). -/
def pcapLines (a : TileAt) (s : State) : State :=
  match rowCtx s a with
  | none => s
  | some r =>
    let p := passAt s r.h
    let t := tileAt s a.q a.col a.row
    let x := operand t a.c (wSrcA (tswAt t a.bank a.i))
    if r.elastic && x.v && !x.p && wOpcode (tswAt t a.bank a.i) == 0xF2 && !heldAt p (siteNo a.q a.col a.row) a.c &&
      !ringMay s (p.start + a.c + p.freeze) (bits x.data.toNat 111 96) then addCnt 24 (bits x.data.toNat 111 96) s
    else s

/-- RING_RD (R150, R263). -/
def execRingRd (a : TileAt) (s : State) : Host.Outcome State Fault Refusal := goes (runRow 0xF2 0 (ringRdOp a) a (pcapLines a s))

/- Returns (R167, R514). -/

/-- CREDIT_RETURN: a credit given back by its consumer reaches the producer. -/
def execCreditReturn (hd loop : Nat) (s : State) : Host.Outcome State Fault Refusal :=
  goes (
    let x := secAt s hd
    if cget x.returning loop = 0 then s
    else setSec hd { x with returning := cset x.returning loop (cget x.returning loop - 1), credits := cset x.credits loop (cget x.credits loop - 1) } s)

/-- The oldest line owed to a section leaves the list of requests. -/
def takeLine (hd : Nat) (s : State) : Option (Ask × MLine × State) :=
  match s.grid.asks.find? (fun a => a.h == hd) with
  | none => none
  | some a => match a.lines with
    | [] => none
    | l :: r =>
      let rest := s.grid.asks.erase a
      let asks := if r.isEmpty then rest else
        (s.grid.asks.map fun b => if b == a then { a with lines := r, ord := a.ord + 1 } else b)
      some (a, l, { s with grid := { s.grid with asks := asks } })

/-- HBM_LINE_RETURN: the line goes to its queue, or is discarded where the pass was abandoned and its credit returns; ue and ce are what
the controller found (R151, R167, R514). -/
def execHbmLineReturn (hd : Nat) (ue ce : Bool) (s : State) : Host.Outcome State Fault Refusal :=
  goes (match takeLine hd s with
    | none => s
    | some (a, l, s) =>
      let p := passAt s hd
      let s := if ce then corrected (2 ^ 20) { code := 0x0111, sev := 1, elastic := true, section_ := hd } s else s
      if p.ctx.isNone then giveCredit hd a.loop s
      else
        let l : MLine := if ue then { l with data := 0#256, p := true } else l
        let s := qblockAdd hd p.seq a.ord { data := l.data, v := true, p := l.p, tick := l.tick } s
        let s := queueArrive hd a.q a.col a.row a.ag l s
        if ue then passFault hd { code := 0x0302, sev := 3 } a.q a.col a.row s else s)

end Sys2Proof.Machine
end

