-- ==== Sys2Proof/Machine/FabSlots.lean ====
section
/-!
DEFINITION. The fixed class of the fabric and the words of fabric-port tiles: FSLOT, merge registers, the fire word, FAB_TX, FAB_RX,
FAB_ETX and FAB_ERX (12 R326 to R330; 09 R254; 05 R149 to R151).
-/

namespace Sys2Proof.Machine

/- Tables (R326, R333). A tick's words use the tables of its own tick: ticks before the last exchange the former bank (DEDUCED, log 38). -/

/-- The bank in force for tick t. -/
def fbankFor (s : State) (t : Nat) : FBank := if t < s.fab.flipAt then s.fab.prev else s.fab.act
/-- A VALID entry of FSLOT. -/
def fslotAt (b : FBank) (n : Nat) : Option FSlot := (b.fslot.find? fun e => e.1 == n).map (·.2)
/-- An entry of FMASK. -/
def fmaskAt (b : FBank) (n : Nat) : Nat := cget b.fmask n
/-- A VALID entry of EPOINT: DEST and DPORT. -/
def epointAt (b : FBank) (n : Nat) : Option (Nat × Nat) := (b.epoint.find? fun e => e.1 == n).map (·.2)

/-- Key of a word of entry n for tick t. -/
def slotKey (t n : Nat) : Nat := 4096 * t + n

/-- f_grid in kHz as GRID_CFG shows it. -/
def gridKHz (s : State) : Nat := fGridKHz (iiOf s) (periodOf s)
/-- A time of n units of 1 / per ns in gc, rounded up (R325, R332, R335). -/
def nsToGc (s : State) (n per : Nat) : Nat := ceilDiv (n * gridKHz s) (per * 1000000)
/-- FLIT_GC, WAIT_GC and CW_GC (R325). -/
def flitGc (s : State) : Nat := nsToGc s 1505882 1000000
def waitGc (s : State) : Nat := nsToGc s 2494118 1000000
def cwGc (s : State) : Nat := nsToGc s 256 10

/-- A counter of a link: 0 CW_CORR, 1 CW_UNCORR, 2 E_RETRY, 3 FIXED_LOST, 4 FIXED_DUP, 5 FIXED_STRAY, 6 RETRAIN, 7 DRIFT_COUNT. -/
def linkCount (k : Nat) (x : Link) : Link := { x with cnt := cadd (if k = 0 then 64 else 32) x.cnt k 1 }

/- Fire words (R254). -/

/-- A fire word as a link word. -/
def fireToWord (t : Nat) (f : FireWord) : LWord :=
  { data := if f.p then 0#256 else BitVec.ofNat 256 (f.tick % 2 ^ 64 + f.fire % 2 ^ 32 * 2 ^ 64 + f.doubt % 2 ^ 32 * 2 ^ 96), v := f.v, p := f.p
    tick := if f.v then t % 256 else 0 }

/-- A link word as a fire word. -/
def wordToFire (w : LWord) : FireWord :=
  { v := w.v, p := w.p, tick := bits w.data.toNat 63 0, fire := bits w.data.toNat 95 64, doubt := bits w.data.toNat 127 96 }

/-- A fire source's condition for a tick: bit of FIRE, bit of DOUBT. -/
def fireSource (s : State) (t b : Nat) : Nat × Nat :=
  let v := regFor s t (0x70300 + 2 * b)
  if !bit v 15 then (0, 0)
  else match condAt s t none (bits v 11 0) with
    | some x => (bnat x * 2 ^ b, 0)
    | none => (0, 2 ^ b)

/-- The fire word this device builds for tick t. -/
def fireBuilt (s : State) (t : Nat) : FireWord :=
  let xs := (List.range 32).map (fireSource s t)
  { v := true, tick := t, fire := sumL (xs.map (·.1)), doubt := sumL (xs.map (·.2)) }

/-- A QUIET replay keeps the FIRE messages silent, but not a fabric-wide one (R311). -/
def fireQuiet (s : State) : Bool := s.acq.replay.running && s.acq.replay.quiet && !s.acq.replay.wide

/-- FIRE_WORD_BUILD (R254). -/
def execFireWordBuild (t : Nat) (s : State) : Host.Outcome State Fault Refusal :=
  goes (if !actsFor s t || fireQuiet s then s else { s with comb := { s.comb with fireOut := some (fireBuilt s t) } })

/- Merge registers (R327). -/

/-- The cycle of the last clear of a register before cycle x. -/
def clearedAt (s : State) (m x : Nat) : Option Nat :=
  (s.fab.mregClr.filter fun c => c.1 == m && decide (c.2 < x)).foldl (fun b c => match b with | none => some c.2 | some y => some (max y c.2)) none

/-- The words a take at cycle x sees in register m: visible by then, and not cleared before. -/
def mregWords (s : State) (m x : Nat) : List FireWord :=
  (s.fab.mreg.filter fun e => e.1 == m && decide (e.2.1 ≤ x) && (match clearedAt s m x with | some y => decide (y < e.2.1) | none => true)).map (·.2.2)

/-- The register's value as tick t takes it: V = 0 where nothing was ORed; TICK is the tick of the entry (DEDUCED, log 38). -/
def mregValue (s : State) (m x t : Nat) : FireWord :=
  let ws := mregWords s m x
  if ws.isEmpty then {}
  else { v := true, tick := t, fire := ws.foldl (fun a w => a ||| w.fire) 0, doubt := ws.foldl (fun a w => a ||| w.doubt) 0 }

/-- The OR of an entry's word into a register: FIRE and DOUBT, or the entry's FMASK into DOUBT for a poisoned or absent word. -/
def mregOr (b : FBank) (n m x : Nat) (w : LWord) (s : State) : State :=
  let f := wordToFire w
  let f : FireWord := if w.v && !w.p then { v := true, fire := f.fire, doubt := f.doubt } else { v := true, doubt := fmaskAt b n }
  let old := match clearedAt s m x with | some y => y | none => 0
  { s with fab := { s.fab with mreg := (s.fab.mreg.filter fun e => e.1 != m || decide (old < e.2.1)) ++ [(m, x + 2, f)] } }

/-- A CLR of a take at cycle x. -/
def mregClear (m x : Nat) (s : State) : State :=
  { s with fab := { s.fab with mregClr := (s.fab.mregClr.filter fun c => c.1 != m || decide (x ≤ c.2 + 4 * iiOf s)) ++ [(m, x)] } }

/- FSLOT entries (R327, R329). -/

/-- The absent word of a tick. -/
def absentWord (t : Nat) : LWord := poisonWord (t % 256) 0

/-- A word of the slot buffer is tagged with a tick after t. -/
def tagAhead (w : LWord) (t : Nat) : Bool := decide (0 < (w.tick + 256 - t % 256) % 256 ∧ (w.tick + 256 - t % 256) % 256 < 128)

/-- An IN = 1 entry takes its word (R329). A word tagged with a later tick stays for that tick (DEDUCED, log 38). -/
def takeLink (t n : Nat) (e : FSlot) (s : State) : LWord × State :=
  let x := linkAt s e.inLink
  let lost (x : Link) : LWord × State := (absentWord t, setLink e.inLink (linkCount 3 x) s)
  let mine := x.slots.filter fun w => w.1 == n
  match mine.find? (fun w => w.2.tick == t % 256) with
  | some w =>
    let x := { x with slots := x.slots.erase w, fresh := slotKey t n :: x.fresh.filter fun k => decide (t < k / 4096 + 128) }
    if x.drift || x.st != .up then lost x else (w.2, setLink e.inLink x s)
  | none =>
    match mine.find? (fun w => !tagAhead w.2 t) with
    | some w =>
      let x := { x with slots := x.slots.erase w }
      if x.drift || x.st != .up then lost x
      else (absentWord t, fault { code := 0x0401, sev := 3, tick := t, unit := e.inLink, index := n, detail := t % 256 * 256 + w.2.tick } (setLink e.inLink x s))
    | none => lost x

/-- The word an entry takes (R327). A tile or the fire builder that gave none counts as an absent word (DESIGN CHOICE, log 38). -/
def fslotWord (t n : Nat) (e : FSlot) (s : State) : LWord × State :=
  match e.inp with
  | 0 =>
    match s.fab.tx.find? (fun w => w.1 == slotKey t n) with
    | some w => (w.2, { s with fab := { s.fab with tx := s.fab.tx.filter fun w => w.1 != slotKey t n } })
    | none => (absentWord t, s)
  | 1 => takeLink t n e s
  | 2 => (match s.comb.fireOut with | some f => if f.tick = t then fireToWord t f else absentWord t | none => absentWord t, s)
  | _ => (fireToWord t (mregValue s e.mreg (gcOf s t + e.take) t), s)

/-- FSLOT_TAKE (R327): the word waits in the switch. -/
def execFslotTake (t n : Nat) (s : State) : Host.Outcome State Fault Refusal :=
  goes (match fslotAt (fbankFor s t) n with
    | none => s
    | some e =>
      if !actsFor s t || s.fab.sw.any (fun w => w.1 == slotKey t n) then s
      else
        let (w, s) := fslotWord t n e s
        let s := if e.clr && e.inp == 3 then mregClear e.mreg (gcOf s t + e.take) s else s
        { s with fab := { s.fab with sw := s.fab.sw ++ [(slotKey t n, w)] } })

/-- A fixed word is launched; one on a link that is not UP is lost (R329). -/
def launch (l next : Nat) (w : LWord) (s : State) : State :=
  let x := linkAt s l
  if x.st = .up then setLink l { x with fixed := x.fixed ++ [(next, w)] } s else s

/-- FSLOT_GIVE (R327): the word leaves the switch for its link, the tile, the combiner or a merge register. -/
def execFslotGive (t n : Nat) (s : State) : Host.Outcome State Fault Refusal :=
  goes (match fslotAt (fbankFor s t) n, s.fab.sw.find? (fun w => w.1 == slotKey t n) with
    | some e, some (_, w) =>
      let s := { s with fab := { s.fab with sw := s.fab.sw.filter fun w => w.1 != slotKey t n } }
      match e.out with
      | 0 => { s with fab := { s.fab with given := (s.fab.given.filter fun w => w.1 != slotKey t n) ++ [(slotKey t n, w)] } }
      | 1 => launch e.outLink e.next w s
      | 2 => { s with comb := { s.comb with fireIn := tset (fun _ => {}) s.comb.fireIn t (wordToFire w) } }
      | _ => mregOr (fbankFor s t) n e.mreg (gcOf s t + e.give) w s
    | _, _ => s)

/- Fabric-port tiles (R149 to R151). -/

/-- FSLOT index of a slot immediate (R326). -/
def fslotImm (w : BitVec 128) : Nat := bits (wImm w) 11 0

/-- FAB_TX: an operand that is not valid leaves as a poisoned word (R160), and so does the word of a slot into which another tile has sent
for the tick already, with a fault that names the port (R151). -/
def fabTxOp : RowOp := fun r e t s =>
  let x := operand t e.c (wSrcA e.w)
  let k := slotKey r.tick (fslotImm e.w)
  let clash := s.fab.tx.any fun w => w.1 == k
  let w := if x.v && !clash then x else poisonWord r.tag x.btag
  let o := if x.v then { t := t } else ioInvalid e t (wSrcA e.w) []
  (if clash then { o with faults := o.faults ++ [{ code := 0x0402, sev := 3, unit := bits (wSrcA e.w) 15 12, index := fslotImm e.w }] } else o,
   fun s => { s with fab := { s.fab with tx := (s.fab.tx.filter fun w => w.1 != k) ++ [(k, w)] } })

/-- FAB_TX (R149, R327). -/
def execFabTx (a : TileAt) (s : State) : Host.Outcome State Fault Refusal := goes (runRow 0xF8 0 fabTxOp a s)

/-- FAB_RX: the word its entry gave, or a poisoned one (R150, R151). -/
def fabRxOp (a : TileAt) : RowOp := fun r e t s =>
  let k := slotKey r.tick (fslotImm e.w)
  let w := match s.fab.given.find? (fun w => w.1 == k) with | some w => w.2 | none => poisonWord r.tag 0
  ({ t := t, emits := [{ off := 2, dest := wDest e.w, w := w }] },
   fun s =>
     let s := { s with fab := { s.fab with given := s.fab.given.filter fun w => w.1 != k } }
     if digestAble s r.h then qblockAdd r.h r.key (fixedOrd s r.h a.q a.col a.row a.c false) w s else s)

/-- FAB_RX (R149, R150). -/
def execFabRx (a : TileAt) (s : State) : Host.Outcome State Fault Refusal := goes (runRow 0xF9 0 (fabRxOp a) a s)

/- Elastic packets at their source (R330, R333). -/

/-- The EROUTE entry of a destination: 64 + link where it is another device's, 128 where LOCAL. -/
def erouteOf (s : State) (dest : Nat) : Nat :=
  let r := cget s.fab.eroute dest
  if dest = s.fab.id then 128 else if !bit r 15 then 0 else if bit r 14 then 128 else 64 + bits r 5 0

/-- The next PSEQ of a destination and VC. -/
def takePseq (dest vc : Nat) (s : State) : Nat × State :=
  let p := cget s.fab.pseq (4 * dest + vc)
  (p, { s with fab := { s.fab with pseq := cset s.fab.pseq (4 * dest + vc) ((p + 1) % 65536) } })

/-- A word reaches an endpoint. -/
def erxAdd (dport : Nat) (w : LWord) (s : State) : State :=
  { s with fab := { s.fab with erx := tset (fun _ => []) s.fab.erx dport ((tget (fun _ => []) s.fab.erx dport) ++ [w]) } }

/-- A packet leaves its source: onto the queue of its link, to this device itself, or to wait for a route (R333). -/
def sendPacket (p : Packet) (s : State) : State :=
  let r := erouteOf s p.dest
  if r = 128 then
    let s := if p.vc = 0 then p.pay.foldl (fun s w => erxAdd p.dport w s) s else s
    match p.loop with | some (h, n) => giveCredit h n s | none => s
  else if 64 ≤ r then
    let x := linkAt s (r - 64)
    setLink (r - 64) { x with queue := x.queue ++ [p] } s
  else { s with fab := { s.fab with wait := s.fab.wait ++ [p] } }

/-- The fabric loop that a tile of a section produces. -/
def fabricLoop (x : Sec) (q col row : Nat) : Option (Nat × ImLoop) := findLoop x fun l => l.kind == .fabric && produces x l q col row

/-- FAB_ETX (R150, R333): no credit, or no endpoint, holds the section. -/
def fabEtxOp (a : TileAt) : RowOp := fun r e t s =>
  let x := operand t e.c (wSrcA e.w)
  let l := fabricLoop (secAt s r.h) a.q a.col a.row
  let full := match l with | some (n, y) => decide (loopCredits y ≤ cget (secAt s r.h).credits n) | none => false
  match epointAt s.fab.act (bits (wImm e.w) 9 0) with
  | none => ({ t := t, stall := true }, fun s => s)
  | some (dest, dport) =>
    if !x.v || full then ({ t := t, stall := true, waits := if full then l.map (·.1) else none }, fun s => s)
    else ({ t := t }, fun s =>
      let s := match l with | some (n, _) => spendCredit r.h n 1 s | none => s
      let (p, s) := takePseq dest 0 s
      sendPacket { vc := 0, dest := dest, src := s.fab.id, dport := dport, pseq := p, pay := [x], loop := l.map fun y => (r.h, y.1) } s)

/-- FAB_ETX (R149, R333). -/
def execFabEtx (a : TileAt) (s : State) : Host.Outcome State Fault Refusal := goes (runRow 0xFA 0 (fabEtxOp a) a s)

/-- The receive endpoint bound to a fabric-port tile: 4 x quadrant + corner (DESIGN CHOICE, log 39). -/
def endpointOf (q col row : Nat) : Nat := 4 * q + (if row < 6 then 0 else 2) + (if col < 6 then 0 else 1)

/-- FAB_ERX (R150): the oldest word of its endpoint, with the pass tag of the pass that reads it; none there holds the section. -/
def fabErxOp (a : TileAt) : RowOp := fun r e t s =>
  let k := endpointOf a.q a.col a.row
  match tget (fun _ => []) s.fab.erx k with
  | [] => ({ t := t, stall := true }, fun s => s)
  | w :: rest =>
    let w := { w with tick := r.tag }
    ({ t := t, emits := [{ off := 2, dest := wDest e.w, w := w }], suspect := w.p },
     fun s => qblockAdd r.h r.key (2 ^ 40 + s.fab.ercnt) w
       { s with fab := { s.fab with erx := tset (fun _ => []) s.fab.erx k rest, ercnt := s.fab.ercnt + 1 } })

/-- FAB_ERX (R149, R150). -/
def execFabErx (a : TileAt) (s : State) : Host.Outcome State Fault Refusal := goes (runRow 0xFB 0 (fabErxOp a) a s)

end Sys2Proof.Machine
end

