-- ==== Sys2Proof/Machine/FabTopo.lean ====
section
/-!
DEFINITION. What the master keeps of its fabric and does about it: messages, the update token, routes, barriers, links that fall and
return, lost devices (12 R336, R340, R344 to R348; 16 R455).
-/

namespace Sys2Proof.Machine

/-- A VC3 message goes out on a link. -/
def sendMsg (l : Nat) (m : Msg) (s : State) : State := { s with fab := { s.fab with out := s.fab.out ++ [(l, m)] } }
/-- A VC2 message goes to a device. -/
def sendMsg2 (d : Nat) (m : Msg2) (s : State) : State := { s with fab := { s.fab with out2 := (d, m) :: s.fab.out2 } }

/- The fabric update token (R455). -/

/-- The device takes part in a fabric under a plan. -/
def inFabric (s : State) : Bool := s.fab.member && s.fab.plan.isSome
def planMaster (s : State) : Nat := match s.fab.plan with | some p => p.master | none => 0

/-- The master grants the token to a device, or to itself. -/
def grantTo (d : Nat) (s : State) : State :=
  let s := { s with fab := { s.fab with token := some d } }
  if d = s.fab.id then { s with fab := { s.fab with tokenHeld := true } } else sendMsg2 d .tokenGrant s

/-- The master takes a request. -/
def tokenAsked (d : Nat) (s : State) : State :=
  if s.fab.token.isNone then grantTo d s
  else if s.fab.token = some d || s.fab.tokenQ.contains d then s
  else { s with fab := { s.fab with tokenQ := s.fab.tokenQ ++ [d] } }

/-- The master takes the token back, and grants it to the next device that waits. -/
def tokenBack (d : Nat) (s : State) : State :=
  let s := { s with fab := { s.fab with tokenQ := s.fab.tokenQ.filter (· != d) } }
  if s.fab.token ≠ some d then s
  else match s.fab.tokenQ with
    | e :: r => grantTo e { s with fab := { s.fab with tokenQ := r } }
    | [] => { s with fab := { s.fab with token := none } }

/- Routes (R340). -/

/-- The links of this device that are UP. -/
def upLinks (s : State) : List Nat := (List.range 36).filter fun l => (linkAt s l).st == .up

/-- The fabric's links by UID, as reported. -/
def uidEdges (s : State) : List Edge := s.fab.topo.flatMap fun d => d.2.map fun k => { a := d.1, la := k.link, b := k.peer }
/-- The device ID of a UID. -/
def idOfUid (s : State) (u : Nat) : Option Nat := (s.fab.given_ids.find? fun e => e.1 == u).map (·.2)
/-- The links of the plan, both ways. A deputy that has become master knows no others (R349). -/
def planEdges (s : State) : List Edge :=
  match s.fab.plan with
  | some p => p.links.flatMap fun k => [{ a := k.a, la := k.aLink, b := k.b }, { a := k.b, la := k.bLink, b := k.a }]
  | none => []
/-- The fabric's links by device ID, as reported. -/
def allEdges (s : State) : List Edge :=
  if s.fab.topo.isEmpty then planEdges s
  else (uidEdges s).filterMap fun e => match idOfUid s e.a, idOfUid s e.b with
    | some a, some b => some { a := a, la := e.la, b := b }
    | _, _ => none
/-- Those in service: neither known to be DOWN nor of a lost device. -/
def idEdges (s : State) : List Edge :=
  (allEdges s).filter fun e => !s.fab.lost.contains e.a && !s.fab.lost.contains e.b && !s.fab.downLinks.contains (e.a, e.la)
/-- The far end of a link: device and link. -/
def farEnd (s : State) (dev l : Nat) : Option (Nat × Nat) :=
  match s.fab.plan.bind fun p => otherEnd p dev l with
  | some (d, k, _) => some (d, k)
  | none => s.fab.topo.findSome? fun x => if idOfUid s x.1 == some dev then
      (x.2.find? fun k => k.link == l).bind fun k => (idOfUid s k.peer).map fun d => (d, k.peerLink) else none

/-- A table of EROUTE entries takes effect as a whole, between two packets: those not begun, and those that waited, follow it (R333, R340). -/
def erouteApply (t : List (Nat × Nat)) (s : State) : State :=
  let s := { s with fab := { s.fab with eroute := t.foldl (fun (r : Tbl Nat) (e : Nat × Nat) => cset r e.1 e.2) [] } }
  let moved := s.fab.links.flatMap fun (x : Nat × Link) => x.2.queue.filter fun p => p.vc != 3 && erouteOf s p.dest != 64 + x.1
  let waited := s.fab.wait
  let s := { s with fab := { s.fab with
    wait := []
    links := s.fab.links.map fun (x : Nat × Link) => (x.1, { x.2 with queue := x.2.queue.filter fun p => p.vc == 3 || erouteOf s p.dest == 64 + x.1 }) } }
  (waited ++ moved).foldl (fun s p => sendPacket p s) s

/-- The master computes every device's EROUTE and sends it (R340). -/
def routesOut (s : State) : State :=
  let es := idEdges s
  let s := ((s.fab.given_ids.map (·.2)).filter fun d => d != s.fab.id && !s.fab.lost.contains d).foldl (fun s d =>
    sendMsg2 d (.eroute (routeTable es s.fab.id d)) s) s
  erouteApply (routeTable es s.fab.id s.fab.id) s

/- Barriers (R344, R345). -/

/-- BARRIER_LEAD in ticks: 2 ms, the default (R344; log 41). -/
def barrierLead (s : State) : Nat := ceilDiv (2000000 * 65536) (max (tickTu s) 1)

/-- The master names a barrier, to itself and to every other device (R344). -/
def nameBarrier (b : BarrierDesc) (s : State) : State :=
  let b := { b with tick := nowTick s + barrierLead s + 1 }
  toMembers (.barrier b) { s with fab := { s.fab with barriers := s.fab.barriers ++ [b] } }

/-- The tables of a loss variant exchange. -/
def lossBarrier : BarrierDesc := { fslot := true, fmask := true, epoint := true }

/- Lost devices (R348). -/

/-- The first free standby that protects a device (R346, R348). -/
def freeStandby (s : State) (p : Plan) (dev : Nat) : Option Nat :=
  (p.devs.find? fun d => d.standby && d.group.contains dev && !s.fab.usedStandby.contains d.id && !s.fab.lost.contains d.id).map (·.id)

/-- The standby is sent the lost device's configuration: the packets the master has kept of it, its SECTION_LOADs among them (R348). -/
def sendKept (dev sb : Nat) (s : State) : State :=
  (s.fab.kept.filter fun e => e.1 == dev).foldl (fun s e => sendMsg2 sb (.command e.2) s) s

/-- A device is lost (R340, R348). -/
def loseDevice (dev : Nat) (p : Plan) (s : State) : State :=
  let s := tokenBack dev { s with fab := { s.fab with lost := dev :: s.fab.lost } }
  let s := routesOut s
  match freeStandby s p dev with
  | some sb =>
    nameBarrier { lossBarrier with takeover := some (dev, sb) }
      (sendKept dev sb { s with fab := { s.fab with usedStandby := sb :: s.fab.usedStandby } })
  | none => s

/-- Devices of the plan that every link has left (R348). -/
def cutOff (s : State) : List Nat :=
  match s.fab.plan with
  | some p => ((p.devs.map (·.id)).filter fun d => d != s.fab.id && !s.fab.lost.contains d &&
      (allEdges s).any (fun e => e.a == d || e.b == d) && !(idEdges s).any fun e => e.a == d || e.b == d)
  | none => []

/- Links that fall and return (R336, R340, R347). -/

/-- The master learns that a link is DOWN, its own or one a device has reported: new routes at once, the link's variant at a barrier it
names at once, and devices that no link reaches any more are lost (R340, R347, R348; log 41). -/
def linkLostAt (dev l : Nat) (s : State) : State :=
  if !(s.fab.member && s.fab.isMaster) || s.fab.downLinks.contains (dev, l) then s
  else
    let ends := (dev, l) :: (farEnd s dev l).toList
    let s := routesOut { s with fab := { s.fab with downLinks := ends ++ s.fab.downLinks } }
    match s.fab.plan with
    | none => s
    | some p =>
      let s := match planLinkAt p dev l with
        | some k => if inRun s && !s.fab.linksLost.contains k then
            nameBarrier { lossBarrier with loss := some k } { s with fab := { s.fab with linksLost := k :: s.fab.linksLost } }
          else s
        | none => s
      (cutOff s).foldl (fun s d => loseDevice d p s) s

/-- The master learns the latency of a link that is UP, its own or one a device has reported: new routes where it was DOWN; a drifted link
is re-timed at the next barrier, and with REVERT one that is back within its latency gets its entries again (R336, R340, R347). need is
ceil(lambda x f_grid + 0.5) + WAIT_GC + 3. -/
def linkBackAt (dev l need : Nat) (s : State) : State :=
  if !(s.fab.member && s.fab.isMaster) then s
  else
    let s := if s.fab.downLinks.contains (dev, l) then
        let ends := (dev, l) :: (farEnd s dev l).toList
        routesOut { s with fab := { s.fab with downLinks := s.fab.downLinks.filter fun e => !ends.contains e } }
      else s
    match s.fab.plan with
    | none => s
    | some p =>
      match planLinkAt p dev l with
      | none => s
      | some k =>
        let lam := ((p.links[k]?).map (·.lam)).getD 0
        if !inRun s then s
        else if lam < need then
          nameBarrier { fslot := true, retime := true, lams := [(k, need)], moved := retimed (planWith p [(k, need)]) } s
        else if p.revert && s.fab.linksLost.contains k then
          nameBarrier { lossBarrier with back := some k } { s with fab := { s.fab with linksLost := s.fab.linksLost.filter (· != k) } }
        else s

end Sys2Proof.Machine
end

