-- ==== Sys2Proof/Machine/FabLink.lean ====
section
/-!
DEFINITION. Fabric links: codewords and their fields, flits, elastic groups and their replay, virtual channels, latency measurement (12 R320
to R337). Line coding below the message bits (RS parity, PAM4) is the standard's (log 6).
-/

namespace Sys2Proof.Machine

/- Fields of a codeword (R322 to R324). -/

/-- A flit from its 290 bits. -/
def parseFlit (f : Nat) : Flit :=
  let d := f % 2 ^ 256
  let w : LWord := { data := BitVec.ofNat 256 d, v := bit f 287, p := bit f 286, k := bit f 285, tick := bits f 284 277, btag := bits f 276 271 }
  match bits f 289 288 with
  | 1 => .fixed (bits f 267 256) w
  | 2 => .pay (bits f 270 269) (bit f 268) w
  | 3 => .head { vc := bits f 270 269, dest := bits d 9 0, src := bits d 25 16, dport := bits d 41 32, len := bits d 47 44, pseq := bits d 63 48,
                 recseq := bits d 95 64, unit := bits d 127 96, type := bits d 71 64 }
  | _ => .idle

/-- The side-band of R152 as 17 bits. -/
def sideBand (w : LWord) : Nat := bnat w.v * 65536 + bnat w.p * 32768 + bnat w.k * 16384 + w.tick % 256 * 64 + w.btag % 64

/-- Header data bits of a packet (R330, R337). -/
def headBits (p : Packet) : Nat :=
  p.dest % 1024 + p.src % 1024 * 2 ^ 16 + p.dport % 1024 * 2 ^ 32 + p.len % 16 * 2 ^ 44 + p.pseq % 65536 * 2 ^ 48 +
  (if p.vc = 1 then p.recseq % 2 ^ 32 * 2 ^ 64 + p.unit % 2 ^ 32 * 2 ^ 96 else if p.vc = 3 then p.type % 256 * 2 ^ 64 else 0)

/-- The 290 bits of a flit. -/
def flitBits (f : Flit) : Nat :=
  match f with
  | .idle => 0
  | .fixed n w => 2 ^ 288 + sideBand w * 2 ^ 271 + n % 4096 * 2 ^ 256 + w.data.toNat
  | .pay vc last w => 2 * 2 ^ 288 + sideBand w * 2 ^ 271 + vc % 4 * 2 ^ 269 + bnat last * 2 ^ 268 + w.data.toNat
  | .head p => 3 * 2 ^ 288 + p.vc % 4 * 2 ^ 269 + headBits p

/-- The BEACON field (R364). -/
def parseBeacon (b : Nat) : Beacon :=
  match bits b 95 94 with
  | 1 => .time (bits b 93 90) (bits b 89 80) (bits b 79 0)
  | 2 => .echo (bits b 87 80) (bits b 79 0)
  | _ => .none
def beaconBits (b : Beacon) : Nat :=
  match b with
  | .none => 0
  | .time h r l => 2 ^ 94 + h % 16 * 2 ^ 90 + r % 1024 * 2 ^ 80 + l % 2 ^ 80
  | .echo c l => 2 * 2 ^ 94 + c % 256 * 2 ^ 80 + l % 2 ^ 80

/-- A codeword from its message bits. -/
def parseCw (m : Nat) : Codeword :=
  let c := m >>> 4930
  { cnt := bits c 209 202, eseq := bits c 201 195, ack := bits c 194 188, nak := bit c 187, egrp := bit c 186
    credits := (List.range 4).map fun (v : Nat) => bits c (161 + 8 * v) (154 + 8 * v)
    beacon := parseBeacon (bits c 153 58), lcType := bits c 57 54, lcBody := bits c 53 0
    flits := (List.range 17).map fun (k : Nat) => parseFlit (bits m (4929 - 290 * k) (4640 - 290 * k)) }

/-- The message bits of a codeword. -/
def cwBits (w : Codeword) : Nat :=
  let c := w.cnt % 256 * 2 ^ 202 + w.eseq % 128 * 2 ^ 195 + w.ack % 128 * 2 ^ 188 + bnat w.nak * 2 ^ 187 + bnat w.egrp * 2 ^ 186 +
    sumL ((List.range 4).map fun v => w.credits.getD v 0 % 256 * 2 ^ (154 + 8 * v)) + beaconBits w.beacon * 2 ^ 58 +
    w.lcType % 16 * 2 ^ 54 + w.lcBody % 2 ^ 54
  c * 2 ^ 4930 + sumL ((List.range 17).map fun k => flitBits (w.flits.getD k .idle) * 2 ^ (4640 - 290 * k))

/-- The virtual channel of an elastic flit. -/
def flitVc (f : Flit) : Option Nat := match f with | .head p => some p.vc | .pay vc _ _ => some vc | _ => none
/-- The elastic flits of a codeword. -/
def groupOfCw (w : Codeword) : List Flit := w.flits.filter fun f => (flitVc f).isSome

/- Messages as packets. R337 and R330 name the contents of VC3 and VC2 packets; fields stand in the order listed, each in whole bytes
(DESIGN CHOICE, log 23). -/

/-- 32-byte words of a byte string, at most 16 a packet. -/
def bytesToWords (b : List Byte) : List LWord :=
  (List.range (max 1 (ceilDiv b.length 32))).map fun k => { data := lineOf (slice (32 * k) 32 b), v := true }

/-- TYPE and body of a VC3 message. -/
def msgBody (m : Msg) : Nat × List Byte :=
  match m with
  | .hello uid prio link st plan => (1, le 8 uid ++ le 1 prio ++ le 1 link ++ le 1 st ++ slice 0 16 plan)
  | .elect best prio hops epoch => (2, le 8 best ++ le 1 prio ++ le 2 hops ++ le 2 epoch)
  | .topo uid links => (3, le 8 uid ++ links.flatMap fun k => le 1 k.link ++ le 8 k.peer ++ le 1 k.peerLink ++ le 4 k.lambda)
  | .assign uid id master epoch path => (4, le 8 uid ++ le 2 id ++ le 8 master ++ le 2 epoch ++ le 1 path.length ++ path.flatMap fun k => le 1 k)
  | .assignAck uid id epoch => (5, le 8 uid ++ le 2 id ++ le 2 epoch)
  | .heartbeat id epoch count => (6, le 2 id ++ le 2 epoch ++ le 4 count)

/-- The bytes of a VC2 message. -/
def msg2Bytes (m : Msg2) : List Byte :=
  match m with
  | .command b | .reply b | .event b => b
  | .plan p => le 1 1 ++ le 64 p.digest.toNat
  | .eroute t => le 1 2 ++ t.flatMap fun e => le 2 e.1 ++ le 2 e.2
  | .barrier b => le 1 3 ++ le 8 b.tick ++ le 1 (bnat b.start + 2 * bnat b.fslot + 4 * bnat b.fmask + 8 * bnat b.epoint + 16 * bnat b.retime)
  | .barrierAck ok t => le 1 4 ++ le 1 (bnat ok) ++ le 8 t
  | .tokenAsk => le 1 5
  | .tokenGrant => le 1 6
  | .tokenReturn => le 1 7
  | .lambda l ps => le 1 8 ++ le 1 l ++ le 4 ps
  | .idmap u i => le 1 9 ++ le 8 u ++ le 2 i

/-- Packets of at most 16 words (R330). fuel bounds their number. -/
def cutWords : Nat → List LWord → List (List LWord)
  | 0, _ => []
  | k + 1, ws => if ws.length ≤ 16 then [ws] else ws.take 16 :: cutWords k (ws.drop 16)

/-- The packets of the messages that leave by link l. -/
def packMsgs (l : Nat) (s : State) : State :=
  let mine := s.fab.out.filter fun e => e.1 == l
  let x := linkAt s l
  let q3 : List Packet := mine.flatMap fun e =>
    let b := msgBody e.2
    (cutWords 64 (bytesToWords b.2)).map fun ws => { vc := 3, type := b.1, pay := ws }
  let s := setLink l { x with queue := x.queue ++ q3 } { s with fab := { s.fab with out := s.fab.out.filter fun e => e.1 != l } }
  let mine2 := (s.fab.out2.filter fun e => erouteOf s e.1 == 64 + l).reverse
  let s := { s with fab := { s.fab with out2 := s.fab.out2.filter fun e => erouteOf s e.1 != 64 + l } }
  mine2.foldl (fun s e => (cutWords 256 (bytesToWords (msg2Bytes e.2))).foldl (fun s ws =>
    let (p, s) := takePseq e.1 2 s
    sendPacket { vc := 2, dest := e.1, src := s.fab.id, pseq := p, pay := ws } s) s) s

/- Sending (R322 to R324, R331, R332). -/

/-- The link's flit source: the link and the packets whose headers left, newest first. -/
structure FlitSrc where
  x : Link
  done : List Packet := []

/-- The next elastic flit that has credit: VC3 first, then VC2, VC1, VC0; a packet once begun goes on before the next of its VC (DESIGN
CHOICE, log 40). -/
def nextFlit (y : FlitSrc) : Option (Flit × FlitSrc) :=
  [3, 2, 1, 0].findSome? fun vc =>
    let room := y.x.room.getD vc 0
    let spend (x : Link) : Link := { x with room := x.room.set vc (room - 1) }
    if room = 0 then none
    else match y.x.cut.getD vc [] with
      | w :: rest => some (.pay vc rest.isEmpty w, { y with x := spend { y.x with cut := y.x.cut.set vc rest } })
      | [] =>
        match y.x.queue.find? (fun p => p.vc == vc) with
        | none => none
        | some p => some (.head { p with len := p.pay.length - 1, pay := [], loop := none },
            { y with x := spend { y.x with cut := y.x.cut.set vc p.pay, queue := y.x.queue.erase p }, done := p :: y.done })

/-- Up to n elastic flits. -/
def takeFlits : Nat → FlitSrc → List Flit × FlitSrc
  | 0, y => ([], y)
  | n + 1, y =>
    match nextFlit y with
    | none => ([], y)
    | some (f, z) => let r := takeFlits n z; (f :: r.1, r.2)

/-- The elastic group of the codeword: the oldest to send again where one waits and fits, else a new one (R331). -/
def nextGroup (n : Nat) (y : FlitSrc) : Option (Nat × List Flit) × FlitSrc :=
  match y.x.resend with
  | g :: rest => if g.2.length ≤ n then (some g, { y with x := { y.x with resend := rest } }) else (none, y)
  | [] =>
    if 64 ≤ y.x.unacked.length then (none, y)
    else
      let r := takeFlits n y
      if r.1.isEmpty then (none, y)
      else
        let q := r.2.x.txSeq
        (some (q, r.1), { r.2 with x := { r.2.x with txSeq := (q + 1) % 128, unacked := r.2.x.unacked ++ [(q, r.1)] } })

/-- This device takes part in fabric time and may hand it on (R364). -/
def beaconOn (s : State) : Bool := s.fab.member && s.fab.timeRoot.isSome && !s.fab.timeDeep

/-- The beacon of a codeword that leaves at time l: TIME on even counts, ECHO on odd ones. -/
def beaconFor (s : State) (x : Link) (l : Nat) : Beacon :=
  if x.txCnt % 2 = 0 then (if beaconOn s then .time s.fab.timeHops (s.fab.timeRoot.getD 0) (l % 2 ^ 80) else .none)
  else match x.beaconRx with | some (c, _, a) => .echo c (a % 2 ^ 80) | none => .none

/-- The codeword that link l sends, its first bit leaving at raw stamp raw. -/
def sendCw (l raw : Nat) (s : State) : State :=
  let x := linkAt s l
  let up := x.st == .up
  let t := linear s.time raw
  let fx := if up then x.fixed.take 17 else []
  let y : FlitSrc := { x := { x with fixed := x.fixed.drop fx.length } }
  let g := if up then nextGroup (17 - fx.length) y else (none, y)
  let fl : List Flit := fx.map (fun e => Flit.fixed e.1 e.2) ++ (match g.1 with | some e => e.2 | none => [])
  let lc := x.lc.headD (0, 0)
  let cr := (List.range 4).map fun v => if up then min (x.owe.getD v 0) 255 else 0
  let b := beaconFor s x t
  let w : Codeword := { cnt := x.txCnt, eseq := (match g.1 with | some e => e.1 | none => x.txSeq), ack := x.rxSeq, nak := x.nak && up, egrp := g.1.isSome
                        credits := cr, beacon := b, lcType := lc.1, lcBody := lc.2, flits := fl }
  let z := g.2.x
  let z := { z with txCnt := (x.txCnt + 1) % 256, nak := if up then false else z.nak
                    owe := (List.range 4).map fun (v : Nat) => x.owe.getD v 0 - cr.getD v 0 }
  let z := { z with lc := if x.st == .train then x.lc else x.lc.drop 1 }
  let z := if lc.1 = 2 then { z with probeT := cset z.probeT (lc.2 / 2 ^ 50 % 16) (raw / 4096 % 2 ^ 48) } else z
  let z := match b with | .time _ _ a => { z with beaconT := cset z.beaconT x.txCnt a } | _ => z
  let s := g.2.done.foldl (fun s p => match p.loop with | some (h, n) => giveCredit h n s | none => s) (setLink l z s)
  send (.codeword l (BitVec.ofNat 5140 (cwBits w))) s

/-- CODEWORD_SEND (R322): a link that is not DOWN sends continuously. -/
def execCodewordSend (l raw : Nat) (s : State) : Host.Outcome State Fault Refusal :=
  goes (if s.dev.st = .off || decide (36 ≤ l) || (linkAt s l).st == .down then s
    else
      let s := seeRaw raw s
      sendCw l raw (if (linkAt s l).st = .up then packMsgs l s else s))

/- Falling (R321, R347). -/

/-- A link falls to DOWN. -/
def fall (l : Nat) (s : State) : State := linkLostAt s.fab.id l (linkFall l s)

/-- LINK_DOWN (R321): lock is lost, or a limit is reached. -/
def execLinkDown (l : Nat) (s : State) : Host.Outcome State Fault Refusal :=
  goes (if s.dev.st = .off || decide (36 ≤ l) || (linkAt s l).st == .down then s else fall l s)

/-- LINK_TRAIN_TIMEOUT (R321). -/
def execLinkTrainTimeout (l : Nat) (s : State) : Host.Outcome State Fault Refusal :=
  goes (if s.dev.st != .off && ((linkAt s l).st == .train || (linkAt s l).st == .cal) then fall l s else s)

/- Receiving. -/

/-- The tick a fixed word's tag names: the one nearest to the newest tick edge. -/
def tickOfTag (s : State) (tag : Nat) : Nat :=
  let n := nowTick s
  let d := (tag + 256 - n % 256) % 256
  if d < 128 then n + d else n + d - 256

/-- A fixed word that arrives (R329). -/
def fixedIn (l n : Nat) (w : LWord) (s : State) : State :=
  let x := linkAt s l
  let t := tickOfTag s w.tick
  let mine := match fslotAt (fbankFor s t) n with | some e => e.inp == 1 && e.inLink == l | none => false
  let f (code : Nat) : FaultRec := { code := code, sev := 3, unit := l, index := n, detail := w.tick }
  if !mine then fault (f 0x0403) (setLink l (linkCount 5 x) s)
  else if x.slots.any (fun e => e.1 == n && e.2.tick == w.tick) || x.fresh.any (fun k => k % 4096 == n && k / 4096 % 256 == w.tick) then
    fault (f 0x0402) (setLink l (linkCount 4 x) s)
  else setLink l { x with slots := x.slots ++ [(n, w)] } s

/-- Groups acknowledged leave the replay buffer; progress ends a run of replays (R331). -/
def ackIn (ack : Nat) (x : Link) : Link :=
  match x.unacked with
  | [] => x
  | g :: _ =>
    let n := (ack + 128 - g.1) % 128
    if n = 0 || decide (x.unacked.length < n) then x
    else
      let gone := (x.unacked.take n).map (·.1)
      { x with unacked := x.unacked.drop n, resend := x.resend.filter fun e => !gone.contains e.1, replays := 0 }

/-- A NAK: every group from ACK goes again (R331). -/
def nakIn (x : Link) : Link :=
  if x.unacked.isEmpty then x else linkCount 2 { x with resend := x.unacked, replays := x.replays + 1 }

/-- Flits of a VC's last packet still to come, where one is under way. -/
def openFlits (b : List Flit) : Nat :=
  match b.reverse.findIdx? (fun f => match f with | .head _ => true | _ => false) with
  | some k => (match b.getD (b.length - 1 - k) .idle with | .head p => p.len + 1 - k | _ => 0)
  | none => 0

/-- In C1 timing mode the flits of a packet under way that were lost arrive poisoned (R331). -/
def padBuf (vc : Nat) (b : List Flit) : List Flit :=
  let n := openFlits b
  b ++ (List.range n).map fun k => Flit.pay vc (k + 1 == n) (poisonWord 0 0)

/-- Flits reach the receive buffers. -/
def bufAdd (fs : List Flit) (x : Link) : Link :=
  fs.foldl (fun x f => match flitVc f with
    | some vc => { x with buf := x.buf.set vc (x.buf.getD vc [] ++ [f]) }
    | none => x) x

/-- An elastic group arrives (R331). -/
def groupIn (c1 : Bool) (seq : Nat) (fs : List Flit) (x : Link) : Link :=
  let d := (seq + 128 - x.rxSeq) % 128
  if d = 0 then bufAdd fs { x with rxSeq := (seq + 1) % 128, nak := false }
  else if 64 ≤ d then x
  else if c1 then
    bufAdd fs { x with rxSeq := (seq + 1) % 128, buf := (List.range 4).map fun (vc : Nat) => padBuf vc (x.buf.getD vc []) }
  else { x with nak := true }

/-- The offset that an ECHO gives with the newest TIME beacon, in 2^-17 ns (R364). -/
def thetaOf (x : Link) (c t2 : Nat) : Option Int :=
  match x.beaconT.find? (fun e => e.1 == c), x.beaconRx with
  | some (_, t1), some (_, t3, t4) => some (ofTwos 80 ((t2 + 2 ^ 80 - t1 % 2 ^ 80) % 2 ^ 80) - ofTwos 80 ((t4 + 2 ^ 80 - t3 % 2 ^ 80) % 2 ^ 80))
  | _, _ => none

/-- A beacon arrives at time a. -/
def beaconIn (cnt a : Nat) (b : Beacon) (x : Link) : Link :=
  match b with
  | .none => x
  | .time h r l => { x with beaconRx := some (cnt, l, a % 2 ^ 80), hops := h, rootId := r }
  | .echo c l => (match thetaOf x c l with | some v => { x with thetaSum := x.thetaSum + v, thetaN := x.thetaN + 1 } | none => x)

/-- The fields of a good codeword on a link that is UP. -/
def cwIn (l raw : Nat) (w : Codeword) (s : State) : State :=
  let x := linkAt s l
  let a := linear s.time raw
  let x := { x with room := (List.range 4).map fun (v : Nat) => min 512 (x.room.getD v 0 + w.credits.getD v 0) }
  let x := ackIn w.ack x
  let x := if w.nak && !c1Mode s then nakIn x else x
  let x := beaconIn w.cnt a w.beacon x
  let x := if w.egrp then groupIn (c1Mode s) w.eseq (groupOfCw w) x else x
  let s := setLink l x s
  let s := w.flits.foldl (fun s f => match f with | .fixed n d => fixedIn l n d s | _ => s) s
  if bits (regAt s (0xB0000 + 16 * l)) 15 8 ≤ x.replays && decide (0 < x.replays) then fall l s else s

/-- CODEWORD (R322): errs is the number of symbol errors found, more than 15 where decoding fails; m are the bits after decoding and
descrambling. Decoding counts as without error where it succeeds (DEDUCED, log 42). -/
def execCodeword (l errs : Nat) (m : BitVec 5140) (raw : Nat) (s0 : State) : Host.Outcome State Fault Refusal :=
  goes (
    let s := seeRaw raw s0
    let x := linkAt s l
    if s0.dev.st = .off || decide (36 ≤ l) || x.st == .down then s0
    else if 15 < errs then
      let x := linkCount 1 { x with good := 0, bad := x.bad + 1, nak := x.nak || (x.st == .up && !c1Mode s) }
      let s := setLink l x s
      if x.lock && decide (bits (regAt s (0xB0000 + 16 * l)) 7 0 ≤ x.bad) then fall l s else s
    else
      let w := parseCw m.toNat
      let x := if errs = 0 then x else linkCount 0 x
      let x := { x with good := x.good + 1, bad := 0, lock := x.lock || decide (8 ≤ x.good + 1), rxCnt := some w.cnt }
      let s := setLink l x s
      if x.st = .up then cwIn l raw w s else s)

/-- NAK_TIMEOUT (R331): nothing is replayed in C1 timing mode. -/
def execNakTimeout (l : Nat) (s : State) : Host.Outcome State Fault Refusal :=
  goes (if (linkAt s l).st == .up && !c1Mode s then setLink l { linkAt s l with nak := true } s else s)

/- Training and latency (R321, R334 to R336). -/

/-- The 64 PROBE messages of a measurement. -/
def probeMsgs : List (Nat × Nat) := (List.range 64).map fun k => (2, k % 16 * 2 ^ 50)

/-- LINK_TRAIN_DONE (R321): equalisation is adapted and lock acquired; the link measures its latency. -/
def execLinkTrainDone (l peer peerUid : Nat) (s : State) : Host.Outcome State Fault Refusal :=
  goes (
    let x := linkAt s l
    if x.st != .train then s
    else setLink l { x with st := .cal, lock := true, good := 8, bad := 0, peerLink := peer % 64, peerUid := peerUid, probes := [], lc := probeMsgs } s)

/-- PROBE (R334): t2 and t3 in 2^-4 ns. -/
def execProbe (l id t2 t3 : Nat) (s : State) : Host.Outcome State Fault Refusal :=
  goes (
    let x := linkAt s l
    if x.st == .cal || x.st == .up then
      setLink l { x with lc := x.lc ++ [(3, id % 16 * 2 ^ 50 + (t3 + 2 ^ 48 - t2 % 2 ^ 48) % 2 ^ 48)] } s
    else s)

/-- ECHO (R334): one probe value, held in 2^-5 ns. -/
def execEcho (l id turn t4 : Nat) (s : State) : Host.Outcome State Fault Refusal :=
  goes (
    let x := linkAt s l
    match x.probeT.find? (fun e => e.1 == id % 16) with
    | some (_, t1) =>
      if x.st == .cal then setLink l { x with probes := x.probes ++ [ofTwos 48 ((t4 + 2 ^ 49 - t1 % 2 ^ 48 - turn % 2 ^ 48) % 2 ^ 48)] } s else s
    | none => s)

/-- The sum of the 64 probe values, in 2^-5 ns. -/
def probeSum (x : Link) : Int := (x.probes.take 64).foldl (· + ·) 0
/-- Some probe value lies more than 400 ps from the mean. -/
def probeSpread (x : Link) : Bool := (x.probes.take 64).any fun p => decide (64 * 40000 < (64 * p - probeSum x).natAbs * 3125)
/-- LAMBDA_PS, the mean with 6.0 ns and 40.0 ns, in whole ps (rounding down: DESIGN CHOICE, log 42). -/
def lambdaPs (x : Link) : Nat := (probeSum x * 3125 / 6400 + 46000).toNat % 2 ^ 32

/-- ceil(lambda x f_grid + 0.5) (R332, R335). -/
def lambdaGc (s : State) (ps : Nat) : Nat := ceilDiv (ps * gridKHz s + 500000000) 1000000000

/-- What a link's latency asks of its compiled one, with no margin (R335, R336). -/
def latencyNeed (s : State) (ps : Nat) : Nat := lambdaGc s ps + waitGc s + 3

/-- The link has drifted (R336): its plan gives it a compiled latency, which the new lambda exceeds. -/
def drifted (s : State) (x : Link) (ps : Nat) : Bool := x.lam != 0 && decide (x.lam < latencyNeed s ps)

/-- The master hears of a lambda measured: of a drift, and of a link that is UP again (R336; DEDUCED from R347, log 146). -/
def reportLambda (l ps : Nat) (s : State) : State :=
  if s.fab.isMaster then linkBackAt s.fab.id l (latencyNeed s ps) s
  else match s.fab.plan with
    | some p => if s.fab.member then sendMsg2 p.master (.lambda l ps) s else s
    | none => s

/-- LINK_CAL_DONE (R334, R336): the measurement is repeated where its probes spread; else lambda is set, drift judged, and the link is UP.
Groups not acknowledged before a fall go again. -/
def execLinkCalDone (l : Nat) (s : State) : Host.Outcome State Fault Refusal :=
  goes (
    let x := linkAt s l
    if x.st != .cal || decide (x.probes.length < 64) then s
    else if probeSpread x then setLink l { x with probes := [], lc := probeMsgs } s
    else
      let ps := lambdaPs x
      let d := drifted s x ps
      let x := { x with st := .up, lambda := ps, drift := d, resend := x.unacked, replays := 0, nak := false, rxCnt := none, thetaSum := 0, thetaN := 0 }
      let x := if d then linkCount 7 x else x
      let s := setLink l x s
      reportLambda l ps s)

end Sys2Proof.Machine
end

