-- ==== Sys2Proof/Machine/UpdateOps.lean ====
section
/-!
DEFINITION. Updates: the lock, the fabric token, and the steps of a part (16 R443 to R455).
-/

namespace Sys2Proof.Machine

/- The fabric update token (R455). -/

/-- This device asks for the token, unless it holds it. -/
def askToken (s : State) : State :=
  if !inFabric s || s.fab.tokenHeld then s
  else if s.fab.isMaster then tokenAsked s.fab.id s
  else sendMsg2 (planMaster s) .tokenAsk s

/-- This device returns the token. -/
def returnToken (s : State) : State :=
  if !s.fab.tokenHeld then s
  else
    let s := { s with fab := { s.fab with tokenHeld := false } }
    if s.fab.isMaster then tokenBack s.fab.id s else sendMsg2 (planMaster s) .tokenReturn s

/- The lock (R445, R446). -/

/-- DIGEST8 of the lock holder's manifest. -/
def digest8 (m : Manifest) : List Byte := slice 0 8 (le 64 m.digest.toNat)

/-- A part is between DEMOTING and FALLING_BACK. -/
def midPart (p : UpPart) : Bool := match p.st with | .demoting | .writing | .activating | .trial | .fallingBack => true | _ => false
def midUpdate (s : State) : Bool := s.upd.parts.any midPart

/-- A part whose session is over. -/
def idlePart (p : UpPart) : UpPart :=
  let q := if p.st == .staged then { p with st := .idle } else p
  if midPart q then q else { q with selected := false, entry := none }

/-- The lock is released (R446): cause 0 apply ended, 1 abort, 2 idle, 3 BOOT (log 23). -/
def releaseLock (cause : Nat) (s : State) : State :=
  if s.upd.holder.isNone then s
  else
    let s := returnToken s
    let s := { s with upd := { s.upd with
      holder := none, overlay := false, keepLock := false, man := {}, staged := [], stagedLen := 0
      parts := s.upd.parts.map idlePart } }
    let s := (s.flt.acts.filter fun a => a.act == 8).foldl (fun (s : State) (a : Activity) => endAct a.h false s) s
    serveMaint 16 (raiseEv { code := 0x96, sev := 0, body := le 1 cause } s)

/- Steps of a part (R447 to R453). -/

/-- The record is written before a step begins (R448). -/
def stepTo (t : Nat) (st : PartSt) (s : State) : State :=
  setPart t { partAt s t with st := st } { s with upd := { s.upd with rseq := s.upd.rseq + 1 } }

/-- Outcome bytes of the parts (R447). -/
def outcomes (s : State) : List Byte := s.upd.parts.flatMap fun p => le 1 (if p.selected then p.outcome else 0xFF)

/-- The apply ends with its final reply; without KEEP_LOCK the lock is released (R446, R447). -/
def applyEnd (s : State) : State :=
  match s.upd.applyJ with
  | none => s
  | some j =>
    let s := finishLong j 0 0 (outcomes s) s
    let s := { s with upd := { s.upd with applyJ := none, order := [] } }
    let s := { s with upd := { s.upd with parts := s.upd.parts.map fun p => { p with selected := false } } }
    if s.upd.keepLock then s else releaseLock 0 s

/-- The next selected part starts, once this device holds the token (R447, R455). -/
def nextPart (s : State) : State :=
  match s.upd.order with
  | [] => applyEnd s
  | t :: _ => if inFabric s && !s.fab.tokenHeld then askToken s else stepTo t .demoting s

/-- A part has ended CONFIRMED or FALLEN_BACK, or waits for the BOOT; with ok the next one starts. -/
def partEnded (ok : Bool) (t : Nat) (s : State) : State :=
  if s.upd.applyJ.isNone || !s.upd.order.contains t then s
  else
    let s := { s with upd := { s.upd with order := s.upd.order.filter (· != t) } }
    if ok then nextPart s else applyEnd s

/-- A part's installed copy becomes its fallback copy (R448). -/
def demoted (p : UpPart) : UpPart :=
  { p with fbVersion := p.version, fbSvn := p.svn, fbCompat := p.compat, fbDigest := p.digest, fbValid := true }
/-- A part's entry is written over its operational area (R448). -/
def written (e : PartEntry) (p : UpPart) : UpPart :=
  { p with version := e.version, svn := e.svn, lehr := e.lehr, compat := e.compat, digest := some e.digest, confirmedOk := false }
/-- The fallback copy stands in the operational area again (R452). -/
def restored (p : UpPart) : UpPart := { p with version := p.fbVersion, svn := p.fbSvn, compat := p.fbCompat, digest := p.fbDigest }

/-- The lehr window of a part opens (R451). -/
def openLehr (t : Nat) (s : State) : State :=
  let p := partAt s t
  raiseEv { code := 0x93, sev := 0, body := le 1 t ++ le 4 (if p.lehr = 0 then 600 else p.lehr) }
    (setPart t { partAt s t with lehrFrom := s.time.raw } (stepTo t .trial s))

/-- Every core runs the new control firmware, or none does. -/
def coresNew (new : Bool) (s : State) : State :=
  { s with flt := { s.flt with cores := s.flt.cores.map fun c => { c with newFw := new } } }

/-- A fallback is complete (R452). -/
def fallenBack (t : Nat) (s : State) : State :=
  let p := partAt s t
  let s := setPart t { restored p with st := .fallenBack, outcome := 1 } { s with upd := { s.upd with rseq := s.upd.rseq + 1 } }
  let s := if t = 1 then coresNew false s else if t = 5 then { s with grid := { s.grid with runtime := (partAt s 5).version } } else s
  let s := journalInternal 0 0x09F4 (le 1 t ++ le 1 p.cause) s
  let s := raiseEv { code := 0x95, sev := 1, body := le 1 t ++ le 1 p.cause ++ le 8 (partAt s t).version } s
  partEnded false t (returnToken s)

/-- A cause sends a part back; its operational area is restored by the next step (R451, R452). -/
def fallBack (t c : Nat) (s : State) : State :=
  let p := partAt s t
  stepTo t .fallingBack (setPart t { p with cause := if p.cause = 0 then c else p.cause } s)

/- The rolling restart (R450). -/

def coreAt (s : State) (k : Nat) : Core := s.flt.cores.getD k {}
/-- Changes a core. -/
def setCore (k : Nat) (c : Core) (s : State) : State := { s with flt := { s.flt with cores := s.flt.cores.set k c } }

/-- The spare takes the roles of core k, which restarts; core 7 itself holds none. -/
def rollBegin (k : Nat) (s : State) : State :=
  let c := coreAt s k
  let s := setCore k { c with roles := [], restarting := true } s
  let s := if k = 7 then s else setCore 7 { coreAt s 7 with roles := c.roles } s
  { s with upd := { s.upd with roll := some k } }

/-- A restarting core takes its roles back from the spare. -/
def rollBack (k : Nat) (new : Bool) (s : State) : State :=
  let rs := if k = 7 then [] else (coreAt s 7).roles
  let s := if k = 7 then s else setCore 7 { coreAt s 7 with roles := [] } s
  setCore k { coreAt s k with roles := rs, restarting := false, newFw := (coreAt s k).newFw || new } { s with upd := { s.upd with roll := none } }

/-- The arrival of CORE_TAKEOVER ends an update's rolling restart: the restarting core resumes its own role (R429, R453). -/
def rollAborts (s : State) : State :=
  let s := match s.upd.roll with | some k => rollBack k false s | none => s
  markCause 7 s

/-- Activation of a part begins (R449). -/
def activate (t : Nat) (s : State) : State :=
  let s := stepTo t .activating s
  match t with
  | 1 => if (match (partAt s 1).entry with | some e => e.rolling | none => false) then rollBegin 0 s else s
  | 2 => { s with upd := { s.upd with spdmBusy := true } }
  | 5 => { s with grid := { s.grid with runtime := (partAt s 5).version } }
  | _ => s

/-- A part that takes effect at the next BOOT (R447, R449). -/
def deferPart (t : Nat) (s : State) : State :=
  let s := stepTo t .pendingBoot s
  let s := setPart t { partAt s t with outcome := 3 } s
  partEnded false t (raiseEv { code := 0x97, sev := 0, body := le 1 t } s)

end Sys2Proof.Machine
end

