-- ==== Sys2Proof/Machine/CareRows.lean ====
section
/-!
DEFINITION. Commands of class 0x07 and the rows of faults, handlers, maintenance and repairs (15 R401 to R431).
-/

namespace Sys2Proof.Machine

/-- What waited for an activity's resources goes on (R196, R429). -/
def resourcesFree (s : State) : State := serveMaint 16 (serveLoads s)

/- Commands (R409, R418, R428 to R430). -/

/-- An activity's scope and parameters are as R415, R425 and R428 ask. -/
def maintOk (s : State) (r : MaintReq) : Bool :=
  match r.act with
  | 1 => decide (r.quad < 4) && !r.lines.isEmpty && r.lines.all (fun k => decide (k < 8 ∨ (12 ≤ k ∧ k < 16))) &&
      decide (r.lines.length = r.lines.eraseDups.length) && decide (2 ^ 10 ≤ r.ticks ∧ r.ticks ≤ 2 ^ 24)
  | 2 | 4 => true
  | 3 => decide (1 ≤ r.share ∧ r.share ≤ 20)
  | 5 => decide (r.core < 8) && (s.flt.cores.getD r.core {}).alive
  | _ => false

/-- The quadrant and its spares can be rotated: in service, each spare good (R415). -/
def rotFit (s : State) (r : MaintReq) : Bool :=
  r.act != 1 || (quadAt s r.quad == .active && r.lines.all fun k => !isFailed s (lineUnit r.quad k (skipAt s r.quad k)))

/-- An activity of yours begins. -/
def beginMaint (r : MaintReq) (s : State) : State :=
  let h := s.flt.nextAct
  let s := startAct r 0 s
  if r.act = 1 then
    { s with flt := { s.flt with rots := s.flt.rots ++ r.lines.map fun k => newRot s h r.ticks r.quad k } }
  else if r.act = 3 then { s with flt := { s.flt with hbmShare := r.share } }
  else s

/-- MAINT_START (R428, R429): its result is the activity handle. -/
def execMaintStart (h : Hdr) (r : MaintReq) (s : State) : Host.Outcome State Fault Refusal :=
  goes (control { op := 0x701, states := anySt } h (fun _ s =>
    if !maintOk s r then fails s stParam
    else if !rotFit s r then fails s stState
    else if claimed s r then
      if !h.queue then fails s stMaint
      else if 16 ≤ (s.flt.acts.filter fun a => a.queued).length then fails s stBusy
      else { s := queueAct r 0 s, result := le 4 s.flt.nextAct }
    else { s := beginMaint r s, result := le 4 s.flt.nextAct }) s)

/-- An activity ends at its next step boundary (R428): a rotation at its swap, the others between two rows. Activities that a fault or
another command started are not stopped (log 50). -/
def stopAct' (a : Activity) (s : State) : State :=
  if a.queued then endAct a.h true s
  else if a.act = 1 then
    { s with flt := { s.flt with acts := s.flt.acts.map fun (x : Activity) => if x.h = a.h then { x with stopping := true } else x } }
  else resourcesFree (endAct a.h false s)

/-- MAINT_STOP (R428). -/
def execMaintStop (h : Hdr) (act : Nat) (s : State) : Host.Outcome State Fault Refusal :=
  goes (control { op := 0x702, states := anySt } h (fun _ s =>
    match s.flt.acts.find? fun a => a.h == act with
    | none => fails s stParam
    | some a => if a.queued && a.jseq = 0 then { s := stopAct' a s }
      else if decide (5 < a.act) then fails s stState
      else { s := stopAct' a s }) s)

/-- One activity as MAINT_STATUS and HEALTH_READ report it (log 23). -/
def actBytes (a : Activity) : List Byte :=
  le 4 a.h ++ le 1 a.act ++ le 1 (bnat a.queued + 2 * bnat a.stopping) ++ le 1 a.req.quad ++ le 1 a.req.core ++
  le 2 (sumL (a.req.lines.map fun k => 2 ^ k)) ++ le 2 a.req.share ++ le 4 a.req.ticks

/-- A line in rotation: activity, quadrant, line, shadowed position, comparing, completed steps (R415; log 23). -/
def rotBytes (r : Rot) : List Byte :=
  le 4 r.act ++ le 1 r.q ++ le 1 r.k ++ le 1 r.a ++ le 1 (bnat r.comparing) ++ le 4 r.steps ++ le 4 r.repeats

/-- MAINT_STATUS (R428). -/
def execMaintStatus (h : Hdr) (s : State) : Host.Outcome State Fault Refusal :=
  goes (observe { op := 0x703, states := anySt } h (fun s =>
    { s := s, result := (le 2 s.flt.acts.length ++ le 2 s.flt.rots.length ++ le 4 s.flt.hbmShare ++
        s.flt.acts.flatMap actBytes ++ s.flt.rots.flatMap rotBytes).take 4064 }) s)

/-- QUAD_POWER (R430): OFF at once, a wake until CLEARING_DONE, a move between ACTIVE and IDLE at its tick edge. -/
def quadAct (h : Hdr) (q req j : Nat) (s : State) : Act :=
  let r : MaintReq := { act := 6, quad := q, core := req }
  if decide (4 ≤ q) || decide (3 ≤ req) then fails s stParam
  else if !quadMoveOk s q req then fails s stState
  else if claimed s r then
    if !h.queue then fails s stMaint
    else if 16 ≤ (s.flt.acts.filter fun a => a.queued).length then fails s stBusy
    else { s := longCmd h 0x704 j (queueAct r j s), wait := true }
  else if req = 0 then { s := quadOff q s, result := quadHandles s q }
  else if req = 1 || quadAt s q == .idle then
    tickCmd h 0x704 j (.quad q (req == 1)) (fun _ => none) (quadEdge q (req == 1)) s
  else { s := longCmd h 0x704 j (quadWake q j s), wait := true }

/-- QUAD_POWER (R430). -/
def execQuadPower (h : Hdr) (q req : Nat) (s : State) : Host.Outcome State Fault Refusal :=
  goes (control { op := 0x704, states := stRLAUP } h (quadAct h q req) s)

/-- The standby quadrant so far is ACTIVE again. -/
def releaseStandby (s : State) : State :=
  match s.dev.standby with
  | some b => if quadAt s b == .standby then setQuad b .active s else s
  | none => s
/-- The standby quadrant, or none. -/
def nameStandby (q : Option Nat) (s : State) : State := { s with dev := { s.dev with standby := q } }

/-- STANDBY_SET (R418): a quadrant in service with no sections becomes the standby, cleared; the one before it is ACTIVE again. -/
def standbyAct (q : Option Nat) (s : State) : Act :=
  match q with
  | none => if s.flt.takeover.isSome then fails s stMaint else { s := nameStandby none (releaseStandby s) }
  | some b =>
    if 4 ≤ b then fails s stParam
    else if s.flt.takeover.isSome || quadRotating s b || s.flt.remaps.any (fun r => r.q == b) then fails s stMaint
    else if s.dev.standby = some b then { s := s }
    else if !(quadAt s b == .active || quadAt s b == .idle) || !(sectionsOn s b).isEmpty then fails s stState
    else { s := nameStandby (some b) (setQuad b .standby (clearQuad b (releaseStandby s))) }

/-- STANDBY_SET (R418). -/
def execStandbySet (h : Hdr) (q : Option Nat) (s : State) : Host.Outcome State Fault Refusal :=
  goes (control { op := 0x705, states := stRL } h (fun _ => standbyAct q) s)

/-- A tile's byte of the health map with its SPARE bit (R409). -/
def healthShown (s : State) (q idx : Nat) : Nat :=
  let h := healthAt s (tileUnit q idx)
  let spare := decide (idx < 144) && skipAt s q (idx / 9) == idx % 9
  h / 32 * 32 + bnat spare * 16 + h % 16

/-- The health map: tiles, die-to-die interfaces, stacks, cores, scratch windows; SKIP of every line; the activities (R409; log 23). -/
def healthBytes (s : State) : List Byte :=
  (List.range 4).flatMap (fun q => (List.range 160).flatMap fun i => le 1 (healthShown s q i)) ++
  (List.range 4).flatMap (fun q => le 1 (healthAt s (1000 + q))) ++ (List.range 4).flatMap (fun k => le 1 (healthAt s (1010 + k))) ++
  (List.range 8).flatMap (fun k => le 1 (healthAt s (1020 + k))) ++ (List.range 2048).flatMap (fun k => le 1 (healthAt s (1100 + k))) ++
  (List.range 4).flatMap (fun q => (List.range 16).flatMap fun k => le 1 (skipAt s q k)) ++ s.flt.acts.flatMap actBytes

/-- HEALTH_READ (R409). -/
def execHealthRead (h : Hdr) (s : State) : Host.Outcome State Fault Refusal :=
  goes (observe { op := 0x706, states := anySt, bc := true } h (fun s => { s := s, result := (healthBytes s).take 4064 }) s)

/- Handlers (R405, R406, R410 to R414). -/

/-- The role that handles a record (R405); control and queue records go to host and commands (DESIGN CHOICE, log 51). -/
def roleOf (f : FaultRec) : Nat :=
  match f.code / 256 with
  | 1 | 2 => if f.quad < 4 then f.quad else 4
  | 3 => 4
  | 4 => 6
  | 6 => if f.quad < 4 then f.quad else 5
  | _ => 5

/-- A record has a step to make: it waits for none of confirmation or switch. An S4 record acts in hardware, and is left to the next
BOOT (R406). -/
def hasStep (s : State) (x : QRec) : Bool :=
  (decide (x.f.sev < 4) || s.dev.st != .safe) &&
  (match x.stage with | 2 => decide (x.rep0 < x.f.rep) | 6 => false | _ => true)

/-- The order a core takes records in: severity, then those begun, then FID (R405, R406). -/
def before (a b : QRec) : Bool :=
  if a.f.sev ≠ b.f.sev then decide (b.f.sev < a.f.sev)
  else if (a.st == 0) ≠ (b.st == 0) then a.st != 0
  else decide (a.f.fid ≤ b.f.fid)

def firstOf (l : List QRec) : Option QRec := l.foldl (fun (b : Option QRec) x => match b with
  | none => some x
  | some y => if before y x then some y else some x) none

/-- Changes the record of an FID. -/
def setRec (x : QRec) (s : State) : State :=
  { s with flt := { s.flt with errq := s.flt.errq.map fun y => if y.f.fid = x.f.fid then x else y } }

/-- A record is done: it leaves the queue for the 64 handled most recently (R408). -/
def doneRec (x : QRec) (s : State) : State :=
  { s with flt := { s.flt with errq := s.flt.errq.filter (fun y => y.f.fid != x.f.fid), handled := (x.f :: s.flt.handled).take 64 } }

/-- The core takes a record in hand; one of lower severity is pre-empted (R406). -/
def takeInHand (roles : List Nat) (x : QRec) (s : State) : State :=
  let mark (y : QRec) : QRec :=
    if y.f.fid = x.f.fid then { y with st := 1 }
    else if roles.contains (roleOf y.f) && y.st == 1 && decide (y.f.sev < x.f.sev) then { y with st := 2 } else y
  { s with flt := { s.flt with errq := s.flt.errq.map mark } }

/-- Codes confirmed by a rewrite, and codes of a port, which are watched without one (R410). -/
def rewriteCode (c : Nat) : Bool := [0x0103, 0x0104, 0x0106, 0x0107, 0x0108, 0x0109, 0x010E, 0x010F, 0x0601].contains c
def portCode (c : Nat) : Bool := c == 0x0201 || c == 0x0202

/-- The site whose tile a record declares failed: for a port's parity the neighbour that drives it (R410). -/
def blamed (f : FaultRec) : Nat × Nat :=
  let c := f.site / 16
  let r := f.site % 16
  if f.code == 0x0201 && decide (f.unit < 4) then (neighbour c r f.unit).getD (c, r) else (c, r)

/-- The loader writes the unit's stores again from its copy (R184, R410). -/
def rewriteStores (f : FaultRec) (s : State) : State :=
  let c := f.site / 16
  let r := f.site % 16
  match placedAt s (f.quad, c, r) with
  | none => s
  | some im =>
    let t := tileAt s f.quad c r
    let u := storeTile im t
    setTile f.quad c r { t with
      ws := u.ws, cc := u.cc, rdesc := u.rdesc, tbl := u.tbl
      tsw := tsetAll (fun _ => 0#128) t.tsw (wordNo t.bank 0) im.words
      scal := if f.code = 0x010F then (im.points.foldl (fun m (p : ScalePt) =>
        let e : ScaleEntry := tget (fun _ => zeroScale) m p.entry
        if p.entry = f.index then tset (fun _ => zeroScale) m p.entry { e with fill := 0, hptr := 0, sCur := e.sSeed } else m) t.scal) else t.scal } s

/-- The unit comes under confirmation (R410). -/
def beginConfirm (f : FaultRec) (s : State) : State :=
  { s with flt := { s.flt with confirms :=
      (s.flt.confirms.filter fun c => !(c.unit == unitOf f && c.code == f.code)) ++
      [{ unit := unitOf f, code := f.code, until_ := nowTick s + s.flt.confirmTicks }] } }

def endConfirm (f : FaultRec) (s : State) : State :=
  { s with flt := { s.flt with confirms := s.flt.confirms.filter fun c => !(c.unit == unitOf f && c.code == f.code) } }

/-- A line of a quadrant is being remapped. -/
def remapping (s : State) (q : Nat) : Bool := s.flt.remaps.any fun r => r.q == q

/-- A tile declared failed: an I/O tile, a tile of a line with no spare, or one to remap (R410, R411, R413, R414). A second remap of a
quadrant waits for the first. -/
def declareTile (x : QRec) (s0 : State) : State :=
  let q := x.f.quad
  let c := blamed x.f
  let u := tileUnit q (physIndex s0 q c.1 c.2)
  let s := endConfirm x.f (if x.f.code = 0x0110 then s0 else if isFailed s0 u then s0 else failUnit u s0)
  let x := { x with f := { x.f with confirmed := true } }
  match lineOfSite c.1 c.2 with
  | none =>
    if (placedAt s (q, c.1, c.2)).isSome then setRec { x with stage := 7 } (loseQuad q true s)
    else doneRec x (fault { code := 0x0705, sev := 2, quad := q, site := 16 * c.1 + c.2 } s)
  | some (k, v) =>
    let b := skipAt s q k
    if isFailed s (lineUnit q k b) then
      (if (sectionsOn s q).isEmpty then doneRec x s else setRec { x with stage := 7 } (loseQuad q true s))
    else if remapping s q then setRec x s
    else
      let act := s.flt.nextAct
      let s := startAct { act := 0x81, quad := q, lines := [k] } 0 (setRec { x with stage := 4 } s)
      { s with flt := { s.flt with remaps := s.flt.remaps ++ [{ q := q, k := k, f := physPos b v, b := b, act := act }] } }

/-- A rotation of the line ends at once, and the remap uses the spare where it stands (R429). -/
def stopRotation (q k : Nat) (s : State) : State :=
  (s.flt.rots.filter fun r => r.q == q && r.k == k).foldl (fun (s : State) (r : Rot) => dropRot r true s) s

/-- A unit declared failed (R410). -/
def declareFailed (x : QRec) (s : State) : State :=
  if x.f.quad < 4 && x.f.site != 0xFF then
    let c := blamed x.f
    declareTile x (match lineOfSite c.1 c.2 with | some (k, _) => stopRotation x.f.quad k s | none => s)
  else doneRec { x with f := { x.f with confirmed := true } } (endConfirm x.f (failUnit (healthUnit s x.f) s))

/-- The first step on a record (R410). -/
def firstStep (x : QRec) (s : State) : State :=
  let u := healthUnit s x.f
  let watch (s : State) : State := beginConfirm x.f (setRec { x with stage := 2, st := 1, rep0 := x.f.rep } s)
  if x.f.sev ≠ 3 then doneRec x s
  else if x.f.code = 0x0206 then
    if 16 ≤ cget s.flt.ce (1000000 + x.f.quad) && quadAt s x.f.quad != .failed then
      setRec { x with stage := 7, st := 1, f := { x.f with confirmed := true } } (loseQuad x.f.quad true (failUnit u s))
    else doneRec x s
  else if x.f.code = 0x0105 then doneRec x (rewriteStores x.f s)
  else if x.f.code = 0x0110 && x.f.detail ≠ 1 then doneRec x s
  else if x.f.confirmed || x.f.code = 0x0111 || ((rewriteCode x.f.code || portCode x.f.code) && decide (3 ≤ healthAt s u % 16)) then
    declareFailed x s
  else if rewriteCode x.f.code && x.f.site != 0xFF then watch (rewriteStores x.f s)
  else if portCode x.f.code then watch s
  else doneRec x s

/-- The remap of a record's tile. -/
def remapOf (s : State) (x : QRec) : Option Remap :=
  let c := blamed x.f
  match lineOfSite c.1 c.2 with
  | some (k, _) => s.flt.remaps.find? fun r => r.q == x.f.quad && r.k == k
  | none => none

/-- Changes one remap. -/
def setRemap (r : Remap) (s : State) : State :=
  { s with flt := { s.flt with remaps := s.flt.remaps.map fun y => if y.act = r.act then r else y } }

/-- One step of a record (R406, R411). Writing tells whether the failed tile's stores read; the check sets the switch edge, or finds no
working map, and the quadrant is lost (DEDUCED from R419, log 52). -/
def recStep (r : StepIn) (x : QRec) (s : State) : State :=
  match x.stage with
  | 0 => firstStep x s
  | 2 => declareFailed x s
  | 4 => match remapOf s x with
    | none => doneRec x s
    | some m =>
      let s := if r.readOk then s
        else match siteAtPos s m.q m.k m.f with | some c => loseStores (m.q, c.1, c.2) s | none => s
      setRec { x with stage := 5 } s
  | 5 => match remapOf s x with
    | none => doneRec x s
    | some m =>
      if r.checkOk then setRec { x with stage := 6 } (setRemap { m with switch_ := some (if ticking s then firstLead s else nowTick s) } s)
      else setRec { x with stage := 7 } (loseQuad m.q true s)
  | 7 => doneRec x { s with flt := { s.flt with takeClean := s.flt.takeClean && r.readOk } }
  | _ => s

/-- HANDLER_STEP (R406): the core makes one step on the first record of its roles. -/
def execHandlerStep (core : Nat) (r : StepIn) (s : State) : Host.Outcome State Fault Refusal :=
  goes (
    let c := s.flt.cores.getD core {}
    if s.dev.st == .off || s.dev.st == .boot || !c.alive || c.restarting || decide (8 ≤ core) then s
    else
      let s := ctlChecks core r s
      match firstOf (s.flt.errq.filter fun x => c.roles.contains (roleOf x.f) && hasStep s x) with
      | none => s
      | some x =>
        let t := recStep r { x with st := 1 } (takeInHand c.roles x s)
        if ticking t then t else quadLosses t)

/-- A role's core looks after a unit of the health map. -/
def unitRole (u : Nat) : Nat × FaultRec :=
  if u < 640 then (u / 160, { code := 0x0601, sev := 3, quad := u / 160, phys := u % 160 % 9, unit := u % 160, pendScan := true })
  else if u < 1010 then ((u - 1000) % 4, { code := 0x0206, sev := 3, quad := (u - 1000) % 4, unit := (u - 1000) % 4, pendScan := true })
  else if u < 1020 then (4, { code := 0x0303, sev := 3, unit := u - 1010, pendScan := true })
  else if u < 2000 then (5, { code := 0x0502, sev := 3, unit := u - 1020, pendScan := true })
  else
    let f : FaultRec := { code := u - 2000, sev := 3, pendScan := true }
    (roleOf f, f)

/-- The record of one unit, with the tile's site where it serves one. -/
def scanRec (s : State) (u : Nat) : FaultRec :=
  let f := (unitRole u).2
  if u < 640 then
    match siteOfPhys s (u / 160) (u % 160) with
    | some (c, r) => { f with site := 16 * c + r, section_ := (tileAt s (u / 160) c r).owner }
    | none => f
  else f

/-- ERRQ_SCAN (R407): below 128 entries, each unit of the core's roles with FAULT_PEND gives a record. -/
def execErrqScan (core : Nat) (s : State) : Host.Outcome State Fault Refusal :=
  goes (
    let c := s.flt.cores.getD core {}
    if 128 ≤ s.flt.errq.length || !c.alive then s
    else ((s.flt.health.map (·.1)).filter fun u => bit (healthAt s u) 5 && c.roles.contains (unitRole u).1).foldl (fun s u =>
      fault (scanRec s u) (setHealth u (healthAt s u - 32) s)) s)

/-- CE_WINDOW_END (R408). -/
def execCeWindowEnd (s : State) : Host.Outcome State Fault Refusal := goes { s with flt := { s.flt with ce := [] } }

/-- CONFIRM_EXPIRE (R410): a fault that has not recurred leaves its unit suspect, with its count raised. -/
def execConfirmExpire (unit : Nat) (s : State) : Host.Outcome State Fault Refusal :=
  goes (
    let due := s.flt.confirms.filter fun c => c.unit == unit && decide (c.until_ ≤ nowTick s)
    due.foldl (fun (s : State) (c : Confirm) =>
      match s.flt.errq.find? fun x => x.stage == 2 && unitOf x.f == c.unit && x.f.code == c.code with
      | none => { s with flt := { s.flt with confirms := s.flt.confirms.filter fun y => y != c } }
      | some x =>
        if x.rep0 < x.f.rep then s
        else doneRec x (endConfirm x.f (markUnit (if isFailed s (healthUnit s x.f) then 2 else 1) (healthUnit s x.f) s))) s)

/-- One remap takes effect at its edge: SKIP becomes f, the hold ends, REMAP_DONE is recorded (R411, R412). -/
def switchRemap (m : Remap) (s : State) : State :=
  let s := holdTiles false (segment s m) s
  let s := setSkip m.q m.k m.f { s with flt := { s.flt with remaps := s.flt.remaps.filter fun y => y.act != m.act } }
  let mine (x : QRec) : Bool :=
    let c := blamed x.f
    x.stage == 6 && x.f.quad == m.q && (match lineOfSite c.1 c.2 with | some (k, _) => k == m.k | none => false)
  let s := (s.flt.errq.filter mine).foldl (fun s x => doneRec x s) s
  fault { code := 0x0701, sev := 2, quad := m.q, unit := m.k, phys := m.f } (endAct m.act false s)

/-- REMAP_SWITCH (R411): the remaps whose edge has come. -/
def execRemapSwitch (s : State) : Host.Outcome State Fault Refusal :=
  goes (
    let due := s.flt.remaps.filter fun m => match m.switch_ with | some e => decide (e ≤ nowTick s) | none => false
    if due.isEmpty then s else resourcesFree (due.foldl (fun (s : State) (m : Remap) => switchRemap m s) s))

/- Rotation (R415 to R417). -/

def rotOf (s : State) (act k : Nat) : Option Rot := s.flt.rots.find? fun r => r.act == act && r.k == k

/-- ROTATION_WARMUP_END (R415). -/
def execRotationWarmupEnd (act k : Nat) (s : State) : Host.Outcome State Fault Refusal :=
  goes (match rotOf s act k with
    | some r => if r.comparing || decide (nowTick s < r.until_) then s else setRot { r with comparing := true, until_ := nowTick s + r.ticks } s
    | none => s)

/-- RECOMPUTE_DECISION (R417): active and spare say whether each output equals the computed one. -/
def execRecomputeDecision (act k : Nat) (active spare : Bool) (s : State) : Host.Outcome State Fault Refusal :=
  goes (match rotOf s act k with
    | some r => if r.mism then rotDecide true (!active) (!spare) r s else s
    | none => s)

/-- ROTATION_SWAP (R415): SKIP moves to the shadowed tile, and the walk goes on, or ends where MAINT_STOP asked it to. -/
def execRotationSwap (act k : Nat) (s : State) : Host.Outcome State Fault Refusal :=
  goes (match rotOf s act k with
    | some r =>
      if !r.comparing || r.mism || r.move || decide (nowTick s < r.until_) then s
      else
        let s := maintEv 0xA3 act 1 (setSkip r.q r.k r.a s)
        let stop := s.flt.acts.any fun a => a.h == act && a.stopping
        if stop then resourcesFree (dropRot r false s) else setRot { rotStep r s with steps := r.steps + 1 } s
    | none => s)

/- Quadrants (R419, R430, R431). -/

/-- A site of the lost quadrant moves to the standby. -/
def movedQ (q sb x : Nat) : Nat := if x = q then sb else x

/-- A section's place moves. -/
def moveSec (q sb : Nat) (x : Sec) : Sec :=
  { x with place := x.place.map (movedQ q sb), placed := x.placed.map fun (im : ImTile) => { im with vq := movedQ q sb im.vq } }

/-- The work of the lost quadrant moves to the standby. Stores that do not read restart as after a remap (R419). -/
def moveQuadWork (q sb : Nat) (s : State) : State :=
  let s := if s.flt.takeClean then s
    else ((sectionsOn s q).flatMap fun h => (sitesOf (secAt s h)).filter fun p => p.1 == q).foldl (fun s p => loseStores p s) s
  let s := (quadSites q).foldl (fun (s : State) (p : Nat × Nat × Nat) =>
    setTile q p.2.1 p.2.2 {} (setTile sb p.2.1 p.2.2 { tileAt s q p.2.1 p.2.2 with held := false } s)) s
  (List.range 16).foldl (fun s h => setSec h (moveSec q sb (secAt s h)) s) s

/-- Asks move, and no takeover is left to do. -/
def quadMoved (q sb : Nat) (s : State) : State :=
  { s with
    grid := { s.grid with asks := s.grid.asks.map fun (a : Ask) => { a with q := movedQ q sb a.q } }
    dev := { s.dev with standby := none }
    flt := { s.flt with takeover := none, takeClean := true } }

/-- The standby takes over the lost quadrant's sections (R419). -/
def takeQuad (q sb : Nat) (s : State) : State := rebuildSlots (setQuad sb .active (quadMoved q sb (moveQuadWork q sb s)))

/-- QUAD_TAKEOVER (R419). -/
def execQuadTakeover (s : State) : Host.Outcome State Fault Refusal :=
  goes (match s.flt.takeover, s.dev.standby with
    | some q, some sb =>
      let act := match actOf s 0x82 q with | some a => a.h | none => 0
      resourcesFree (fault { code := 0x0702, sev := 2, quad := sb, unit := q } (endAct act false (takeQuad q sb s)))
    | _, _ => s)

/-- The activity of a quadrant's wake is over, and its command final with a status. -/
def wakeOver (q status : Nat) (s : State) : State :=
  match actOf s 6 q with
  | some a => resourcesFree (finishLong a.jseq status 0 [] (endAct a.h false s))
  | none => resourcesFree s

/-- CLEARING_DONE (R430, R431): the quadrant is ACTIVE, unless its self-test is still to come. -/
def execClearingDone (q : Nat) (s : State) : Host.Outcome State Fault Refusal :=
  goes (if quadAt s q != .waking || s.flt.fromFailed.contains q then s else wakeOver q 0 (setQuad q .active s))

/-- QUAD_SELF_TEST_DONE (R430). A FAILED quadrant that fails again ends its command with ST_STATE (DESIGN CHOICE, log 53). -/
def execQuadSelfTestDone (q : Nat) (ok : Bool) (s : State) : Host.Outcome State Fault Refusal :=
  goes (
    if quadAt s q != .waking || !s.flt.fromFailed.contains q then s
    else
      let s := { s with flt := { s.flt with fromFailed := s.flt.fromFailed.filter (· != q) } }
      if ok then wakeOver q 0 (setQuad q .active s) else wakeOver q stState (setQuad q .failed s))

/- HBM (R423). -/

/-- The highest place for an area, a multiple of 2 MiB, below a limit and clear of another area (R483). -/
def areaBelow (top size other otherSize : Nat) : Nat :=
  let down (x : Nat) : Nat := x / 2 ^ 21 * 2 ^ 21
  let a := down (top - size)
  if size = 0 || decide (a + size ≤ other ∨ other + otherSize ≤ a) then a else down (min a (other - size))

/-- Staging and record store move below the new loader area where they no longer fit (R483). -/
def moveAreas (s : State) : State :=
  let top := loaderBase s
  let s := if stageBase s + stageSize s ≤ top then s else setReg 0x1018 (areaBelow top (stageSize s) 0 0) s
  let rb := regAt s 0x1028
  let rs := regAt s 0x1030
  if decide (rb + rs ≤ top) && decide (rb + rs ≤ stageBase s ∨ stageBase s + stageSize s ≤ rb) then s
  else setReg 0x1028 (areaBelow top rs (stageBase s) (stageSize s)) s

/-- A window at or above HBM_SIZE is no longer valid (R483). -/
def dropWindows (s : State) : State :=
  (List.range 1024).foldl (fun s n =>
    let w := windowAt s n
    if w.valid && w.target == 1 && decide (hbmSize s < w.base + 2 ^ w.size) then
      setReg (0x40008 + 16 * n) (regAt s (0x40008 + 16 * n) - 2 ^ 15) s else s) s

/-- The largest RING_SIZE that fits beside the other areas, and no larger than before (R423). -/
def ringFit (s : State) : Nat :=
  let wins := ((List.range 1024).filterMap fun n => let w := windowAt s n; if w.valid && w.target == 1 then some w.base else none)
  let store := if regAt s 0x1030 = 0 then [] else [regAt s 0x1028]
  let areas := s.acq.recorded.map (·.area)
  min (bits (regAt s 0x1010) 8 0) ((stageBase s :: wins ++ store ++ areas).foldl min (loaderBase s) / gib)

/-- A staged record whose 256-byte unit j with j + p a multiple of n lay in the lost stack: those units are zero and DATA_ERR is set
(R271, R423). -/
def struckRecord (p n : Nat) (x : Staged) : Staged :=
  let lost (i : Nat) : Bool := decide ((i / 256 + p) % max n 1 = 0)
  if (List.range x.bytes.length).any lost then
    let bs := (x.bytes.zipIdx).map fun (b, i) => if lost i then 0#8 else b
    { x with bytes := modAt 62 (fun b => b ||| 16#8) bs }
  else x

/-- What the loss of stack k takes with it at once: local memory, staged bytes, records in its share, the ring's history. -/
def stackWipe (k : Nat) (s0 : State) : State :=
  let n := 4 - s0.flt.stacksLost.length
  let (v, s) := drawFree 8 s0
  { s with
    hbm := []
    upd := { s.upd with staged := [], stagedLen := 0 }
    flt := { s.flt with stacksLost := s.flt.stacksLost ++ [k], stackEdge := s.flt.stackEdge.filter (· != k) }
    acq := { s.acq with
      staged := s.acq.staged.map (struckRecord v.toNat n)
      tStart := s.acq.tStart.map fun _ => nowTick s } }

/-- The ring's slots and their ladder depths shrink to what is left of HBM. -/
def ringShrink (s : State) : State :=
  let ring := regAt s 0x1010
  let s := setReg 0x1010 (ring - bits ring 8 0 + ringFit s) s
  if !ringOn s then s
  else (List.range 4).foldl (fun s c =>
    let v := regAt s (0x70100 + 8 * c)
    if ringDepth s < bits v 31 0 then setReg (0x70100 + 8 * c) (v - bits v 31 0 + ringDepth s) s else s) s

/-- The relayout of HBM is over (R428). -/
def relayoutEnd (s : State) : State :=
  match s.flt.acts.find? fun a => a.act == 0x84 with
  | some a => endAct a.h false s
  | none => s

/-- The loss of a stack at a tick edge E(T_h) (R423). Where the staged records lie is a free value (log 54). -/
def stackDown (k : Nat) (s : State) : State := relayoutEnd (ringShrink (dropWindows (moveAreas (stackWipe k s))))

/-- HBM_STACK_LOSS (R423): recorded at detection; its effect comes at the next tick edge. -/
def execHbmStackLoss (stack : Nat) (s : State) : Host.Outcome State Fault Refusal :=
  goes (
    if decide (4 ≤ stack) || s.flt.stacksLost.contains stack || s.flt.stackEdge.contains stack || s.dev.st == .off || s.dev.st == .boot then s
    else
      let s := fault { code := 0x0303, sev := 3, unit := stack } (failUnit (1010 + stack) s)
      let s := startAct { act := 0x84 } 0 (setPart 4 (causePart 3 (partAt s 4)) s)
      if ticking s then { s with flt := { s.flt with stackEdge := s.flt.stackEdge ++ [stack] } } else stackDown stack s)

/- Scrubs and tests (R425 to R427). -/

/-- A line with an uncorrectable error is written again: from the image that initialises it, or poisoned (R425). -/
def scrubbedLine (s : State) (q col row line : Nat) (l : MLine) : MLine :=
  match placedAt s (q, col, row) with
  | some im => match im.mem.find? fun e => e.1 == line with
    | some e => e.2
    | none => { l with data := 0#256, p := true }
  | none => { l with data := 0#256, p := true }

/-- PATROL_SCRUB of one line (R425). A line that fails again declares its tile failed (R410). -/
def execPatrolScrub (q col row line : Nat) (ce ue again : Bool) (s : State) : Host.Outcome State Fault Refusal :=
  goes (
    let running := s.flt.acts.any fun a => a.act == 2 && !a.queued
    if !running || !quadReads s q || siteClass col row != some .memory || decide (65536 ≤ line) then s
    else
      let t := tileAt s q col row
      let u := tileUnit q (physIndex s q col row)
      let f : FaultRec := { code := 0x0108, sev := 3, quad := q, site := 16 * col + row, unit := line % 8, index := line / 8
                            phys := physOf s q col row, section_ := t.owner }
      if ue then
        let l : MLine := tget (fun _ => {}) t.mem line
        let t := tcount cMemUe 1 { t with mem := tset (fun _ => {}) t.mem line (scrubbedLine s q col row line l) }
        fault { f with confirmed := again } (setTile q col row t s)
      else if ce then
        corrected (64 * u + cMemCe) { f with code := 0x0111, sev := 1 } (setTile q col row (tcount cMemCe 1 t) s)
      else s)

/-- LINK_TEST (R426): a test word in a slot index that is invalid in both banks. -/
def execLinkTest (q lane idx : Nat) (err : Bool) (s : State) : Host.Outcome State Fault Refusal :=
  goes (
    let running := s.flt.acts.any fun a => a.act == 4 && !a.queued
    if !running || !quadReads s q || decide (16 ≤ lane ∨ 1024 ≤ idx) || (slotAt s q lane 0 idx).valid || (slotAt s q lane 1 idx).valid || !err then s
    else { s with grid := { s.grid with laneTestErr := cadd 32 s.grid.laneTestErr (16 * q + lane) 1 } })

/- Control cores (R420 to R422, R427, R429). -/

/-- A core is lost: fenced, recorded, its roles wait for the spare or a partner; a third loss is S4 (R402, R421, R422). -/
def loseCore (core code : Nat) (s : State) : State :=
  let c := s.flt.cores.getD core {}
  if decide (8 ≤ core) || !c.alive then s
  else
    let n := s.flt.coresLost + 1
    let s := failUnit (1020 + core) (setCore core { c with alive := false, roles := [], restarting := false } s)
    let s := { s with flt := { s.flt with coresLost := n, roleWait := s.flt.roleWait ++ c.roles } }
    let s := (s.flt.acts.filter fun a => a.act == 5 && a.req.core == core).foldl (fun (s : State) (a : Activity) => endAct a.h true s) s
    let s := if c.newFw then markCause 3 s else s
    let s := fault { code := code, sev := 3, unit := core } (rollAborts s)
    if n = 3 then fault { code := 0x0803, sev := 4, unit := core } s
    else if c.roles.isEmpty then s
    else startAct { act := 0x83, core := core } 0 s

/-- CORE_WATCHDOG (R420, R421): ue says that the core's scratch met an uncorrectable error. -/
def execCoreWatchdog (core : Nat) (ue : Bool) (s : State) : Host.Outcome State Fault Refusal :=
  goes (if s.dev.st == .off then s else loseCore core (if ue then 0x0502 else 0x0501) s)

/-- The role whose core takes a role over when the spare is in use (R422). -/
def partner (role : Nat) : Nat := match role with | 0 => 1 | 1 => 0 | 2 => 3 | 3 => 2 | 4 => 5 | 5 => 4 | _ => 4

/-- The core that takes waiting roles: the spare while it holds none, else the partner's core. -/
def takerOf (s : State) (role : Nat) : Option Nat :=
  let spare := s.flt.cores.getD 7 {}
  if spare.alive && !spare.restarting && spare.roles.all (fun r => s.flt.roleWait.contains r) then some 7
  else (List.range 8).find? fun k => (s.flt.cores.getD k {}).alive && (s.flt.cores.getD k {}).roles.contains (partner role)

/-- Accepted commands whose tick has passed meanwhile end with ST_EXPIRED (R384, R421). -/
def expirePassed (s : State) : State :=
  (s.ctl.waiting.filter fun w => match w.tick with | some t => decide (t ≤ nowTick s) && w.eff != .none | none => false).foldl
    (fun (s : State) (w : Waiting) => finishWait w stExpired s) s

/-- A waiting role is resumed: journaled, and recorded with severity S2 (R421). -/
def resumeRole (role : Nat) (s : State) : State :=
  match takerOf s role with
  | none => s
  | some k =>
    let c := s.flt.cores.getD k {}
    let s := setCore k { c with roles := c.roles ++ [role] } s
    let s := journalInternal role 0x09F2 (le 1 role ++ le 1 k) s
    let s := fault { code := 0x0703, sev := 2, unit := k, index := role } s
    if role = 5 then expirePassed s else s

/-- CORE_TAKEOVER (R421, R422): every waiting role is resumed. -/
def execCoreTakeover (s : State) : Host.Outcome State Fault Refusal :=
  goes (
    if s.flt.roleWait.isEmpty || s.dev.st == .off then s
    else
      let s := s.flt.roleWait.foldl (fun s r => resumeRole r s) s
      let s := { s with flt := { s.flt with roleWait := [] } }
      (s.flt.acts.filter fun a => a.act == 0x83).foldl (fun (s : State) (a : Activity) => endAct a.h false s) s)

/-- SCRATCH_WINDOW_TEST (R427): an access abandons the test; a window that fails is mapped onto a reserve window, and with none left the
core is lost. -/
def execScratchWindowTest (core w : Nat) (ok access : Bool) (s : State) : Host.Outcome State Fault Refusal :=
  goes (
    let c := s.flt.cores.getD core {}
    let running := s.flt.acts.any fun a => a.act == 5 && a.req.core == core && !a.queued
    let u := 1100 + 256 * core + w
    if !running || decide (8 ≤ core ∨ 256 ≤ w) || !c.alive || access then s
    else if ok then (if healthAt s u / 64 = 3 then setStatus u 0 s else s)
    else if c.windows < 16 then
      fault { code := 0x0704, sev := 2, unit := core, index := w } (failUnit u (setCore core { c with windows := c.windows + 1 } s))
    else loseCore core 0x0503 (failUnit u s))

end Sys2Proof.Machine
end

