-- ==== Sys2Proof/Machine/DmaRows.lean ====
section
/-!
DEFINITION. Rows of the DMA engines (10 R288 to R292). One DMA_TRANSFER moves one chunk of R289. Bytes that come from host memory, and
errors of their reads, are operands (log 9).
-/

namespace Sys2Proof.Machine

/-- A transfer of engine e may go on. -/
def dmaReady (s : State) (e : Nat) : Bool :=
  let x := engAt s e
  decide (e < 40) && engLive s e && x.park.isNone && x.owed.isNone && decide (x.ci < x.pi) && !saving s && !elasticOff s

/-- A descriptor of 32 bytes (R290). -/
def descOf (b : List Byte) : DmaDesc :=
  let f := unle (slice 12 2 b)
  { addr := unle (slice 0 8 b), len := unle (slice 8 4 b), irq := bit f 0, resv := decide (2 ≤ f) || decide (unle (slice 14 2 b) ≠ 0)
    user := unle (slice 16 8 b), addr2 := unle (slice 24 8 b) }

/-- The fetch of the descriptor at CI (R290, R291). -/
def dmaFetch (e : Nat) (d : DmaDesc) (fetchErr : Bool) (s : State) : State :=
  let a := descAddr s e
  let take (d : DmaDesc) : State :=
    let s := setEng e { engAt s e with cur := some d, done := 0 } s
    if d.resv || decide (d.len % 32 ≠ 0 ∨ d.len < 32 ∨ 2 ^ 31 < d.len) then parkHere e 5 0 d.addr 0 s else s
  match translate s false true a with
  | .bad c => parkHere e c 0 a 1 s
  | .host _ => if fetchErr then parkHere e 4 0 a 1 s else take d
  | .hbm h => take (descOf (hbmRead s h 32))

/-- Bytes put at the place a device address leads to. -/
def placeWrite (p : Place) (bs : List Byte) (s : State) : State :=
  match p with | .host a => send (.mem a bs) s | .hbm a => hbmWrite a bs s | .bad _ => s

/-- A completion owed for the descriptor under way. -/
def oweFor (e : Nat) (d : DmaDesc) (bytes : Nat) (split : Bool) (s : State) : State :=
  setEng e { engAt s e with owed := some { user := d.user, bytes := bytes, split := split, irq := d.irq } } s

/-- One chunk of a copy or H2D engine (R288 to R291). -/
def dmaCopy (e : Nat) (d : DmaDesc) (data : List Byte) (err : Option Nat) (s : State) : State :=
  let x := engAt s e
  let src := (if e < 32 then d.addr2 else d.addr) + x.done
  let dst := (if e < 32 then d.addr else d.addr2) + x.done
  let from_ := translate s false true src
  let to_ := translate s true true dst
  match from_, to_ with
  | .bad c, _ => parkHere e c x.done src 0 s
  | _, .bad c => parkHere e c x.done dst 0 s
  | _, _ =>
    let n := min (d.len - x.done) (min (chunkLeft s src) (chunkLeft s dst))
    let bad := match from_ with | .host _ => err.map (fun k => min k n) | _ => none
    let m := bad.getD n
    let bs := match from_ with | .hbm a => hbmRead s a m | _ => slice 0 m data
    let s := setEng e { x with done := x.done + m } (placeWrite to_ bs s)
    if bad.isSome then parkHere e 4 (x.done + m) (src + m) 0 s
    else if x.done + m = d.len then oweFor e d d.len false s else s

/-- One chunk of a records or stream engine goes to its buffer. rest is what the source has of the record or entry, begun says that part
of it has gone before, took what the source does as n bytes leave it (R290). Bytes a lost link may not have delivered go again first. -/
def dmaFill (e : Nat) (d : DmaDesc) (rest : List Byte) (begun : Bool) (took : Nat → State → State) (s : State) : State :=
  let x := engAt s e
  let dst := d.addr + x.done
  let again := x.moved.drop x.done
  let src := if again.isEmpty then rest else again
  if src.isEmpty then s
  else if again.isEmpty && !begun && decide (0 < x.done ∧ d.len - x.done < rest.length) then oweFor e d x.done false s
  else match translate s true true dst with
    | .bad c => parkHere e c x.done dst 0 s
    | p =>
      let n := min (min src.length (d.len - x.done)) (chunkLeft s dst)
      let s := placeWrite p (src.take n) s
      let s := setEng e { x with done := x.done + n, moved := if again.isEmpty then x.moved ++ src.take n else x.moved } s
      let s := if again.isEmpty then took n s else s
      if x.done + n = d.len then oweFor e d d.len (if again.isEmpty then decide (n < rest.length) else begun) s else s

/-- The record a records engine sends from: the first of its destination not wholly sent (R275). -/
def sending (s : State) (e : Nat) : Option Staged :=
  s.acq.staged.find? fun r => reqDest r.req == (0, e) && decide (r.sent < r.bytes.length)

/-- n bytes of a staged record have left. -/
def recordSent (e n : Nat) (s : State) : State :=
  match sending s e with
  | none => s
  | some r => { s with acq := { s.acq with staged := s.acq.staged.map fun y => if y == r then { y with sent := y.sent + n } else y } }

/-- n bytes of the first entry of a stream have left. -/
def entrySent (m n : Nat) (s : State) : State :=
  let x := streamAt s m
  let len := match x.entries.head? with | some b => b.length | none => 0
  setStream m (if len ≤ x.sent + n then { x with entries := x.entries.drop 1, sent := 0 } else { x with sent := x.sent + n }) s

/-- One chunk of whatever the engine moves. -/
def dmaMove (e : Nat) (d : DmaDesc) (data : List Byte) (err : Option Nat) (s : State) : State :=
  match engSrc s e with
  | 0 =>
    (match sending s e with
     | some r => dmaFill e d (r.bytes.drop r.sent) (decide (0 < r.sent)) (recordSent e) s
     | none => dmaFill e d [] false (fun _ s => s) s)
  | 1 =>
    let m := engStream s e
    let x := streamAt s m
    if bits (regAt s (0xA0000 + 8 * m)) 62 58 ≠ e then s
    else dmaFill e d ((x.entries.headD []).drop x.sent) (decide (0 < x.sent)) (entrySent m) s
  | _ => dmaCopy e d data err s

/-- DMA_TRANSFER (R290): d is the descriptor as read from a host ring, data the bytes at a host source, err where its read failed. -/
def execDmaTransfer (e : Nat) (d : DmaDesc) (fetchErr : Bool) (data : List Byte) (err : Option Nat) (s : State) : Host.Outcome State Fault Refusal :=
  goes (
    if !dmaReady s e then s
    else
      let s := if (engAt s e).cur.isNone && !(engAt s e).stopping then dmaFetch e d fetchErr s else s
      match (engAt s e).cur, (engAt s e).park with
      | some c, none => dmaMove e c data err s
      | _, _ => s)

/-- The record or stream entry under way continues in the next buffer. -/
def sourceBegun (s : State) (e : Nat) : Bool :=
  if engSrc s e = 0 then (match sending s e with | some r => decide (0 < r.sent) | none => false) else decide (0 < (streamAt s (engStream s e)).sent)

/-- A stopping records or stream engine completes its buffer as it stands (R288). -/
def oweStopped (e : Nat) (s : State) : State :=
  let x := engAt s e
  match x.cur with
  | some d => if x.stopping && x.owed.isNone && x.park.isNone && engSrc s e != 2 then oweFor e d x.done (sourceBegun s e) s else s
  | none => s

/-- The completion entry (R290): PHASE is 1 on even passes of the ring. -/
def cplBytes (s : State) (e : Nat) (c : DmaCpl) : List Byte :=
  le 8 c.user ++ le 4 c.bytes ++ le 2 c.status ++ le 2 (bnat ((engAt s e).ci / engSize s e % 2 == 0) + 2 * bnat c.split)

/-- DMA_COMPLETION (R290, R291). -/
def execDmaCompletion (e : Nat) (err : Bool) (s0 : State) : Host.Outcome State Fault Refusal :=
  goes (
    if decide (40 ≤ e) || saving s0 || elasticOff s0 then s0
    else
      let s := oweStopped e s0
      match (engAt s e).owed, (engAt s e).park with
      | some c, none =>
        (match translate s true true (cplAddr s e) with
         | .bad k => parkHere e k (engAt s e).done (cplAddr s e) 2 s
         | p =>
           if err then parkHere e 4 (engAt s e).done (cplAddr s e) 2 s
           else
             let s := engNext e (placeWrite p (cplBytes s e c) s)
             if c.irq then engTrigger e s else s)
      | _, _ => s)

/-- COMPLETION_TIMEOUT: the access under way at where_ (0 data, 1 descriptor fetch, 2 completion) gets no answer (R291). -/
def execCompletionTimeout (e where_ : Nat) (s : State) : Host.Outcome State Fault Refusal :=
  goes (
    let x := engAt s e
    if decide (40 ≤ e) || !engLive s e || x.park.isSome || decide (x.pi ≤ x.ci) then s
    else match where_, x.cur, x.owed with
      | 0, some d, none => parkHere e 4 x.done ((if e < 32 then d.addr2 else d.addr) + x.done) 0 s
      | 1, none, none => parkHere e 4 0 (descAddr s e) 1 s
      | 2, _, some _ => parkHere e 4 x.done (cplAddr s e) 2 s
      | _, _, _ => s)

end Sys2Proof.Machine
end

