-- ==== Sys2Proof/Machine/FabRows.lean ====
section
/-!
DEFINITION. Rows of the fabric above the links: elastic packets, records to a collector, discovery, routing, barriers, membership (12 R330 to
R349; 10 R287).
-/

namespace Sys2Proof.Machine

/- Elastic packets at their destination (R330, R333). -/

/-- The oldest packet of a receive buffer, once whole, and the rest of the buffer. -/
def wholePacket (b : List Flit) : Option (Packet × List Flit) :=
  match b with
  | .head p :: r =>
    match r.findIdx? (fun f => match f with | .pay _ last _ => last | _ => false) with
    | some k => some ({ p with pay := (r.take (k + 1)).filterMap fun f => match f with | .pay _ _ w => some w | _ => none }, r.drop (k + 1))
    | none => none
  | _ => none

def prxAt (s : State) (k : Nat) : PRx := tget (fun _ => {}) s.fab.rx k
def setPrx (k : Nat) (x : PRx) (s : State) : State := { s with fab := { s.fab with rx := tset (fun _ => {}) s.fab.rx k x } }
/-- Early packets held in the device. -/
def heldPackets (s : State) : Nat := sumL (s.fab.rx.map fun e => e.2.held.length)

/-- Bytes of a record that a collector has received join it (R343). -/
def collIn (p : Packet) (s : State) : State :=
  let bs := p.pay.flatMap fun w => lineBytes w.data
  let cs := if s.fab.coll.any fun c => c.src == p.src && c.recseq == p.recseq then
      s.fab.coll.map fun c => if c.src == p.src && c.recseq == p.recseq then { c with bytes := c.bytes ++ bs } else c
    else s.fab.coll ++ [{ src := p.src, recseq := p.recseq, bytes := bs }]
  { s with fab := { s.fab with coll := cs } }

/-- The master keeps the configuration of its devices: the packets of SECTION_LOAD and the rest of class 0x02, of classes 0x03 and 0x04, and of
CFG_WRITE that a device has accepted (R348; that it keeps the packets is a DESIGN CHOICE, log 145). -/
def keepConfig (dev : Nat) (b : List Byte) (s : State) : State :=
  let op := unle (slice 2 2 b)
  if (2 ≤ op / 256 ∧ op / 256 ≤ 4 ∨ op = 0x105) ∧ s.fab.isMaster then { s with fab := { s.fab with kept := s.fab.kept ++ [(dev, b)] } } else s

/-- A reply from a device ends the FABRIC_FORWARD that waits for it: same device, same SEQ (R381). -/
def replyFrom (src : Nat) (b : List Byte) (s : State) : State :=
  match s.ctl.forwards.find? (fun f => f.tick == some src && unle (slice 6 4 f.h.raw) == unle (slice 4 4 b)) with
  | none => s
  | some f =>
    if unle (slice 1 1 b) % 2 = 0 then s
    else
      let s := { s with ctl := { s.ctl with forwards := s.ctl.forwards.filter fun g => g != f } }
      let s := if unle (slice 14 2 b) = 0 then keepConfig src (f.h.raw.drop 2) s else s
      if f.jseq = 0 then sendReply (mkReply f.opcode f.h none 0 0 b) s
      else finish f.opcode f.h f.jseq 0 0 b b s

/-- The bytes of a reply: VERSION, its length and its CRC hold (R373). -/
def replyWhole (b : List Byte) : Option (List Byte) :=
  let n := 32 + unle (slice 12 2 b)
  if unle (slice 0 1 b) = 2 ∧ n ≤ b.length ∧ unle (slice 28 4 b) = (crc32c (slice 0 28 b ++ le 4 0 ++ slice 32 (n - 32) b)).toNat then
    some (b.take n) else none

/-- A start barrier is off: what waits for its tick does not start, and the command that named it fails with ST_STATE (R319, R344). -/
def cancelStart (t : Nat) (s : State) : State :=
  let ws := s.ctl.waiting.filter fun w => w.eff == .none && w.tick == some t && (w.opcode == 0x107 || w.opcode == 0x604)
  let s := ws.foldl (fun s w => finishWait w stState s) { s with fab := { s.fab with barriers := s.fab.barriers.filter fun b => b.tick != t || !b.start } }
  if s.dev.st = .paused then { s with dev := { s.dev with resumeAt := s.dev.resumeAt.filter (· != t) } }
  else if s.dev.st = .armed && s.dev.armAt.all (· == t) then toIdle { s with dev := { s.dev with armAt := none, tA := 0 } } else s

/-- A device has failed a barrier (R344): a start barrier starts no device; after a repair barrier it counts as lost. -/
def barrierFailed (dev t : Nat) (s : State) : State :=
  match s.fab.barriers.find? (fun b => b.tick == t), s.fab.plan with
  | some b, some p =>
    if b.start then cancelStart t (toMembers (.barrier { tick := t, start := true, cancel := true }) s)
    else if s.fab.lost.contains dev then s else loseDevice dev p s
  | _, _ => s

/-- What a device of the fabric tells the master on VC2, in the layouts of `msg2Bytes` and R394: a barrier it has failed, a latency, a link
that has fallen (FABRIC_LINK_DOWN); or what the master tells its deputy of the ID map (R344, R336, R347, R349; log 146). -/
def toldBy (src : Nat) (b : List Byte) (s : State) : State :=
  if b.length = 32 then
    match unle (slice 0 1 b) with
    | 4 => if s.fab.isMaster && unle (slice 1 1 b) == 0 then barrierFailed src (unle (slice 2 8 b)) s else s
    | 8 => if s.fab.isMaster then linkBackAt src (unle (slice 1 1 b)) (latencyNeed s (unle (slice 2 4 b))) s else s
    | 9 =>
      if s.fab.isMaster then s
      else { s with fab := { s.fab with given_ids := (s.fab.given_ids.filter fun e => e.1 != unle (slice 1 8 b)) ++ [(unle (slice 1 8 b), unle (slice 9 2 b))] } }
    | _ => s
  else if s.fab.isMaster && unle (slice 24 2 b) == 0x40 then linkLostAt src (unle (slice 30 2 b)) s
  else s

/-- Bytes of VC2 from a device: a reply may take several packets. Messages from the master have rows of their own. -/
def vc2In (p : Packet) (s : State) : State :=
  let b := tget (fun _ => []) s.fab.vc2 p.src ++ p.pay.flatMap fun w => lineBytes w.data
  let put (b : List Byte) : State := { s with fab := { s.fab with vc2 := tset (fun _ => []) s.fab.vc2 p.src b } }
  match replyWhole b with
  | some r => replyFrom p.src r (put [])
  | none => if p.pay.length = 16 ∧ b.length < 4128 then put b else toldBy p.src b (put [])

/-- A packet is delivered. -/
def takePacket (p : Packet) (s : State) : State :=
  match p.vc with
  | 0 => p.pay.foldl (fun s w => erxAdd p.dport w s) s
  | 1 => collIn p s
  | _ => vc2In p s

/-- The packets held that now follow. fuel bounds their number. -/
def takeHeld : Nat → Nat → State → State
  | 0, _, s => s
  | n + 1, k, s =>
    let x := prxAt s k
    match x.held.find? (fun p => p.pseq == x.next) with
    | none => s
    | some p => takeHeld n k (takePacket p (setPrx k { x with next := (x.next + 1) % 65536, held := x.held.erase p } s))

/-- The words of packets that C1 timing mode lost are delivered poisoned, to the endpoint of the packet that shows the loss (R331; log 44). -/
def poisonLost (p : Packet) (n : Nat) (s : State) : State :=
  (List.range n).foldl (fun s _ => erxAdd p.dport (poisonWord 0 0) s) s

/-- A packet for this device, in PSEQ order (R333); none: it must stay in its buffer. -/
def packetHere (p : Packet) (s : State) : Option State :=
  let k := 4 * p.src + p.vc
  let x := prxAt s k
  let d := (p.pseq + 65536 - x.next) % 65536
  let dup : State := { s with fab := { s.fab with edup := cadd 32 s.fab.edup p.vc 1 } }
  if d = 0 then some (takeHeld 4096 k (takePacket p (setPrx k { x with next := (x.next + 1) % 65536 } s)))
  else if 32768 ≤ d || x.held.any (fun h => h.pseq == p.pseq) then some dup
  else if c1Mode s && p.vc == 0 then
    some (takePacket p (poisonLost p d (setPrx k { x with next := (p.pseq + 1) % 65536 } s)))
  else if heldPackets s < 4096 then some (setPrx k { x with held := x.held ++ [p] } s)
  else none

/-- A collector's staging has room for a packet's bytes (R343). -/
def collRoom (s : State) (p : Packet) : Bool :=
  decide (stagedBytes s + sumL (s.fab.coll.map fun c => c.bytes.length) + 32 * p.pay.length ≤ stageSize s)

/-- The packet leaves its receive buffer; its flits' credits return (R332). -/
def unbuffer (l vc n : Nat) (rest : List Flit) (s : State) : State :=
  let x := linkAt s l
  setLink l { x with buf := x.buf.set vc rest, owe := x.owe.set vc (x.owe.getD vc 0 + n) } s

/-- ELASTIC_PACKET (R333): delivered, held, passed on, or left where it is. A VC3 packet crosses one link only; its message has a row. -/
def execElasticPacket (l vc : Nat) (s : State) : Host.Outcome State Fault Refusal :=
  goes (
    if s.dev.st = .off || decide (36 ≤ l ∨ 4 ≤ vc) then s
    else match wholePacket ((linkAt s l).buf.getD vc []) with
      | none => s
      | some (p, rest) =>
        let free := unbuffer l vc (p.pay.length + 1) rest
        let r := erouteOf s p.dest
        if vc = 3 then free s
        else if r = 0 then s
        else if r ≠ 128 then free (sendPacket p s)
        else if vc = 1 && !collRoom s p then s
        else match packetHere p s with | some t => free t | none => s)

/-- COLLECTOR_RECORD (R343): a record wholly received goes into staging unchanged, in RECSEQ order, for the COLLECT_ENGINE. -/
def execCollectorRecord (src recseq : Nat) (s : State) : Host.Outcome State Fault Refusal :=
  goes (match s.fab.coll.find? (fun c => c.src == src), s.acq.collect with
    | some c, some e =>
      if c.recseq ≠ recseq || decide (c.bytes.length < 64) || c.bytes.length != 32 * unle (slice 20 4 c.bytes) || elasticOff s then s
      else
        let r : RecReq := { tick := unle (slice 0 8 c.bytes), template := 0, dest := some (0, e) }
        { s with fab := { s.fab with coll := s.fab.coll.erase c }
                 acq := { s.acq with staged := s.acq.staged ++ [{ req := r, bytes := c.bytes, foreign := true }] } }
    | _, _ => s)

/- Delivery of staged records (R275, R287). -/

/-- A delivered record leaves staging and counts, unless it is another device's. -/
def delivered (r : Staged) (s : State) : State :=
  let s := { s with acq := { s.acq with staged := s.acq.staged.erase r } }
  if r.foreign then s else addCnt 20 1 s

/-- Bytes put in the record store, wrapping at its end. -/
def storeBytes (base size wp : Nat) (bs : List Byte) (s : State) : State :=
  let n := min bs.length (size - wp)
  hbmWrite base (bs.drop n) (hbmWrite (base + wp) (bs.take n) s)

/-- Bytes of the record store that wait to be read. -/
def storeUsed (s : State) : Nat :=
  let size := max (regAt s 0x1030) 1
  (s.acq.rstoreWp + size - regAt s 0x1040 % size) % size

/-- A record goes into the store where it fits (R287); RSTORE_WP and RSTORE_RP are byte offsets in the region (DESIGN CHOICE, log 45). -/
def storeRecord (r : Staged) (s : State) : State :=
  let size := regAt s 0x1030
  if size = 0 || decide (size ≤ storeUsed s + r.bytes.length) then s
  else
    let wp := s.acq.rstoreWp % size
    let s := storeBytes (regAt s 0x1028) size wp r.bytes s
    delivered r { s with acq := { s.acq with rstoreWp := (wp + r.bytes.length) % size } }

/-- The packets of a record to a collector (R330, R343). -/
def recordPackets (dest src seq : Nat) (bs : List Byte) : List Packet :=
  (cutWords 65536 (bytesToWords bs)).zipIdx.map fun e =>
    { vc := 1, dest := dest, src := src, recseq := seq % 2 ^ 32, unit := 16 * e.2, pay := e.1 }

/-- Packets go out in order, each with its PSEQ. -/
def sendAll (ps : List Packet) (s : State) : State :=
  ps.foldl (fun s p => let r := takePseq p.dest p.vc s; sendPacket { p with pseq := r.1 } r.2) s

/-- VC1 packets of this device that have not left yet. -/
def recordsUnderWay (s : State) : Bool :=
  (s.fab.links.any fun x => !(x.2.cut.getD 1 []).isEmpty || x.2.queue.any fun p => p.vc == 1 && p.src == s.fab.id) ||
  s.fab.wait.any fun p => p.vc == 1 && p.src == s.fab.id

/-- A staged record has left, all of it. -/
def markSent (r : Staged) (s : State) : State :=
  { s with acq := { s.acq with staged := s.acq.staged.map fun y => if y == r then { y with sent := y.bytes.length } else y } }

/-- A record goes to its collector on VC1, once a route is there and the one before has left; it is delivered when its packets have left
(R287, R343). -/
def fabricRecord (dest : Nat) (r : Staged) (s : State) : State :=
  if recordsUnderWay s then s
  else if r.bytes.length ≤ r.sent then delivered r s
  else if !s.fab.member || erouteOf s dest == 0 then s
  else if erouteOf s dest = 128 then
    (match s.acq.collect with
     | some e => { s with acq := { s.acq with staged := s.acq.staged.map fun y => if y == r then { y with req := { y.req with dest := some (0, e) } } else y } }
     | none => s)
  else
    markSent r (sendAll (recordPackets dest s.fab.id s.fab.recseq r.bytes) { s with fab := { s.fab with recseq := (s.fab.recseq + 1) % 2 ^ 32 } })

/-- RECORD_DELIVER (R287): the oldest staged record of a destination; one for the host is delivered when its engine has moved every byte. -/
def execRecordDeliver (kind dest : Nat) (s : State) : Host.Outcome State Fault Refusal :=
  goes (
    if elasticOff s || saving s then s
    else match s.acq.staged.find? (fun r => reqDest r.req == (kind, dest)) with
      | none => s
      | some r =>
        match kind with
        | 0 => if r.bytes.length ≤ r.sent then delivered r s else s
        | 1 => storeRecord r s
        | _ => fabricRecord dest r s)

/- Discovery (R338, R339). -/

def ownPrio (s : State) : Nat := bits (regAt s 0xB1000) 7 0
/-- A candidate is better: higher MASTER_PRIO, then lower UID, then fewer hops. -/
def betterThan (a b : Nat × Nat × Nat) : Bool :=
  decide (b.2.1 < a.2.1) || (a.2.1 == b.2.1 && (decide (a.1 < b.1) || (a.1 == b.1 && decide (a.2.2 < b.2.2))))
/-- A message on every link that is UP. -/
def flood (m : Msg) (s : State) : State := (upLinks s).foldl (fun s l => sendMsg l m s) s

/-- ELECT of the best candidate known. -/
def floodBest (s : State) : State :=
  match s.fab.best with | some (u, p, h) => flood (.elect u p h s.fab.epoch) s | none => s

/-- HELLO on a link. -/
def helloOn (l : Nat) (s : State) : State :=
  sendMsg l (.hello s.part.uid (ownPrio s) l (stCode s.dev.st) (slice 0 16 (le 64 (planDigest s).toNat))) s

/-- Discovery begins on this device in an EPOCH. -/
def startDiscovery (epoch : Nat) (s : State) : State :=
  let s := { s with fab := { s.fab with
    discovering := true, best := some (s.part.uid, ownPrio s, 0), uplink := none, epoch := epoch % 65536, isMaster := false, member := false
    topo := [], downLinks := [], kept := [], given_ids := [], acks := [], overflow := false, masterUid := 0 } }
  floodBest ((upLinks s).foldl (fun s l => helloOn l s) s)

/-- The TOPO report of this device. -/
def ownTopo (s : State) : List TopoLink :=
  (upLinks s).map fun l => let x := linkAt s l; { link := l, peer := x.peerUid, peerLink := x.peerLink, lambda := x.lambda }

/-- Discovery ends on the master. -/
def endDiscovery (s : State) : State :=
  routesOut { s with fab := { s.fab with discovering := false, member := true, timeRoot := s.fab.timeRoot.or (some 0), timeHops := 0, timeDeep := false } }

/-- Every device that a report names has reported. -/
def topoClosed (s : State) : Bool := s.fab.topo.all fun d => d.2.all fun k => s.fab.topo.any fun e => e.1 == k.peer

/-- IDs for the UIDs other than the master's, those beyond 1,023 left out (R339). -/
def newIds (s : State) : List (Nat × Nat) :=
  let us := sortNat ((s.fab.topo.map (·.1)).filter (· != s.part.uid))
  match s.fab.idMap with
  | some m => us.filterMap fun u => (m.find? fun e => e.1 == u)
  | none => us.zipIdx.filterMap fun e => if e.2 + 1 < 1024 then some (e.1, e.2 + 1) else none

/-- The master assigns IDs once it knows the whole fabric (R339). -/
def tryAssign (s : State) : State :=
  if !topoClosed s || !s.fab.given_ids.isEmpty then s
  else
    let ids := newIds s
    let us := s.fab.topo.map (·.1)
    let s := { s with fab := { s.fab with
      given_ids := (s.part.uid, 0) :: ids, acks := ids.map (·.1), overflow := s.fab.idMap.isNone && decide (1024 < us.length) } }
    let es := uidEdges s
    let s := ids.foldl (fun s e =>
      match pathTo es s.part.uid e.1 15 s.part.uid with
      | l :: r => sendMsg l (.assign e.1 e.2 s.part.uid s.fab.epoch r) s
      | [] => s) s
    if ids.isEmpty then endDiscovery s else s

/-- A message row is heard on a link that is UP. -/
def hears (s : State) (l : Nat) : Bool := s.dev.st != .off && (linkAt s l).st == .up

/-- HELLO (R338). -/
def execHello (l : Nat) (m : Msg) (s : State) : Host.Outcome State Fault Refusal :=
  goes (match m with
    | .hello uid _ link _ _ => if hears s l then setLink l { linkAt s l with peerUid := uid, peerLink := link % 64 } s else s
    | _ => s)

/-- ELECT (R338): a better candidate is adopted and flooded again; the first of a discovery begins it here too (log 46). -/
def execElect (l : Nat) (m : Msg) (s : State) : Host.Outcome State Fault Refusal :=
  goes (match m with
    | .elect uid prio h epoch =>
      let cand := (uid, prio, h + 1)
      let newer := decide (s.fab.epoch < epoch)
      let beats (s : State) : Bool := match s.fab.best with | some b => betterThan cand b | none => true
      if !hears s l || decide (epoch < s.fab.epoch) || !(inReady s) then s
      else
        let s := if newer || (!s.fab.discovering && beats s) then startDiscovery epoch s else s
        if s.fab.discovering && beats s then floodBest { s with fab := { s.fab with best := some cand, uplink := some l } } else s
    | _ => s)

/-- DISC_QUIET (R338): the best device declares itself master; every other sends its TOPO up its uplink. -/
def execDiscQuiet (s : State) : Host.Outcome State Fault Refusal :=
  goes (
    if s.dev.st = .off || !s.fab.discovering then s
    else match s.fab.best with
      | none => s
      | some (u, p, _) =>
        if u = s.part.uid then
          (if p = 0 || s.fab.isMaster then s
           else tryAssign { s with fab := { s.fab with isMaster := true, masterUid := u, id := 0, topo := [(u, ownTopo s)] } })
        else match s.fab.uplink with
          | some l => sendMsg l (.topo s.part.uid (ownTopo s)) s
          | none => s)

/-- TOPO (R338). -/
def execTopo (l : Nat) (m : Msg) (s : State) : Host.Outcome State Fault Refusal :=
  goes (match m with
    | .topo uid ks =>
      if !hears s l then s
      else if s.fab.isMaster then
        tryAssign { s with fab := { s.fab with topo := (s.fab.topo.filter fun e => e.1 != uid) ++ [(uid, ks)] } }
      else match s.fab.uplink with | some u => sendMsg u m s | none => s
    | _ => s)

/-- ASSIGN (R338, R339). Two masters of one EPOCH start discovery again. -/
def execAssign (l : Nat) (m : Msg) (s : State) : Host.Outcome State Fault Refusal :=
  goes (match m with
    | .assign uid id master epoch path =>
      if !hears s l then s
      else if s.fab.masterUid ≠ 0 && s.fab.masterUid != master && s.fab.epoch == epoch then startDiscovery (epoch + 1) s
      else
        let s := { s with fab := { s.fab with masterUid := master } }
        if uid = s.part.uid then
          sendMsg l (.assignAck uid id epoch)
            { s with fab := { s.fab with id := id, member := true, discovering := false, epoch := epoch, timeRoot := some 0 } }
        else match path with
          | k :: r => sendMsg k (.assign uid id master epoch r) s
          | [] => s
    | _ => s)

/-- ASSIGN_ACK (R339). -/
def execAssignAck (l : Nat) (m : Msg) (s : State) : Host.Outcome State Fault Refusal :=
  goes (match m with
    | .assignAck uid _ epoch =>
      if !hears s l then s
      else if s.fab.isMaster then
        (if epoch ≠ s.fab.epoch || !s.fab.acks.contains uid then s
         else
           let s := { s with fab := { s.fab with acks := s.fab.acks.filter (· != uid) } }
           if s.fab.acks.isEmpty then endDiscovery s else s)
      else match s.fab.uplink with | some u => sendMsg u m s | none => s
    | _ => s)

/-- EROUTE_UPDATE (R340): the 16-bit entries of the table by DEST. -/
def execErouteUpdate (table : List (Nat × Nat)) (s : State) : Host.Outcome State Fault Refusal :=
  goes (if s.dev.st = .off || !s.fab.member then s else erouteApply table s)

/- Barriers and variants (R344 to R347). -/

/-- Tables of a device from lists. -/
def bankOf (f : List (Nat × FSlot)) (m : List (Nat × Nat)) (e : List (Nat × Nat × Nat)) : FBank :=
  { fslot := f, fmask := m.foldl (fun t x => cset t x.1 x.2) [], epoint := e }

/-- This device's entry of the plan. -/
def planDev (s : State) : Option PlanDev := match s.fab.plan with | some p => p.devs.find? fun d => d.id == s.fab.id | none => none

/-- The variant of this device for a loss (R341). -/
def variantOf (s : State) (kind which : Nat) : Option FBank :=
  match s.fab.plan with
  | none => none
  | some p => (p.vars.find? fun v => v.dev == s.fab.id && v.kind == kind && (kind == 2 || v.which == which)).map fun v => bankOf v.fslot v.fmask v.epoint

/-- Table contents of a device with the entries that a re-timing moves (R336). -/
def withMoved (dev : Nat) (moved : List (Nat × Nat × FSlot)) (es : List (Nat × FSlot)) : List (Nat × FSlot) :=
  es.map fun e => match moved.find? (fun m => m.1 == dev && m.2.1 == e.1) with | some (_, _, f) => (e.1, f) | none => e

/-- The contents a barrier puts in the shadow bank (R336, R347 to R349). -/
def shadowFor (b : BarrierDesc) (s : State) : FBank :=
  let own := match planDev s with | some d => bankOf d.fslot d.fmask d.epoint | none => s.fab.act
  match b.loss, b.takeover, b.handover, b.back with
  | some k, _, _, _ => (variantOf s 0 k).getD s.fab.act
  | none, some (d, _), _, _ => (variantOf s 1 d).getD s.fab.act
  | none, none, some _, _ => (variantOf s 2 0).getD s.fab.act
  | none, none, none, some _ => own
  | none, none, none, none => if b.retime then { s.fab.act with fslot := withMoved s.fab.id b.moved s.fab.act.fslot } else s.fab.shadow

/-- The plan after a re-timing: its links' new latencies, its moved entries (R336). -/
def planMoved (b : BarrierDesc) (p : Plan) : Plan :=
  let p := planWith p b.lams
  { p with devs := p.devs.map fun d => { d with fslot := withMoved d.id b.moved d.fslot } }

/-- At a re-timing barrier the links it names take their new compiled latency, and their drift clears (R336). -/
def clearDrift (b : BarrierDesc) (s : State) : State :=
  match s.fab.plan with
  | none => s
  | some p =>
    let s := { s with fab := { s.fab with plan := some (planMoved b p) } }
    (List.range 36).foldl (fun s l =>
      match (planLinkAt p s.fab.id l).bind fun k => b.lams.find? (fun e => e.1 == k) with
      | some (_, lam) => setLink l { linkAt s l with drift := false, lam := lam } s
      | none => s) s

/-- The banks that a barrier names exchange at E(n) (R344, R345). -/
def exchange (n : Nat) (b : BarrierDesc) (s : State) : State :=
  let f := s.fab
  if !(b.fslot || b.fmask || b.epoint) then s
  else
    let sh := shadowFor b s
    let act : FBank := { fslot := if b.fslot then sh.fslot else f.act.fslot, fmask := if b.fmask then sh.fmask else f.act.fmask
                         epoint := if b.epoint then sh.epoint else f.act.epoint }
    let old : FBank := { fslot := if b.fslot then f.act.fslot else sh.fslot, fmask := if b.fmask then f.act.fmask else sh.fmask
                         epoint := if b.epoint then f.act.epoint else sh.epoint }
    { s with fab := { f with act := act, shadow := old, prev := f.act, flipAt := n } }

/-- A standby takes a lost device's role: it counts from this edge, without history (R348). -/
def takeRole (n : Nat) (b : BarrierDesc) (s : State) : State :=
  match b.takeover with
  | some (_, sb) => if sb = s.fab.id && s.dev.st == .armed && s.dev.armAt.isNone then
      { s with dev := { s.dev with armAt := some n, tA := n, noHist := true } } else s
  | none => s

/-- A new master is in force (R349). -/
def newMaster (b : BarrierDesc) (s : State) : State :=
  match b.handover, s.fab.plan with
  | some m, some p => { s with fab := { s.fab with plan := some { p with master := m } } }
  | _, _ => s

/-- What a barrier does at its edge. -/
def barrierEffect (n : Nat) (b : BarrierDesc) (s : State) : State :=
  let s := newMaster b (takeRole n b (exchange n b s))
  if b.retime then clearDrift b s else s

/-- The barriers of tick edge n. -/
def barrierEdge (n : Nat) (s : State) : State :=
  let now := s.fab.barriers.filter fun b => b.tick == n
  now.foldl (fun s b => barrierEffect n b s) { s with fab := { s.fab with barriers := s.fab.barriers.filter fun b => decide (n < b.tick) } }

/-- This device is a standby of the plan. -/
def isStandby (s : State) : Bool := match planDev s with | some d => d.standby | none => false

/-- What a start barrier does on a device (R256, R319, R346): a status, 0 where it is acknowledged. -/
def startStatus (b : BarrierDesc) (s : State) : Nat :=
  if !leadOk s b.tick then stExpired
  else if s.dev.st == .paused then (if startFit s && s.dev.resumeAt.isNone then 0 else stState)
  else if !inReady s || !placesActive s || !ticking s || !startFit s then stState else 0

/-- A start barrier acknowledged: the run, or the RESUME, starts at its tick; a standby is armed and waits for its takeover. -/
def startSet (b : BarrierDesc) (s : State) : State :=
  if s.dev.st = .paused then { s with dev := { s.dev with resumeAt := some b.tick } }
  else if isStandby s then setDev .armed s
  else armSet b.tick s

/-- BARRIER (R319, R344): from the master; acknowledged or failed to it. -/
def execBarrier (b : BarrierDesc) (s : State) : Host.Outcome State Fault Refusal :=
  goes (match s.fab.plan with
    | none => s
    | some p =>
      if s.dev.st = .off || !s.fab.member || s.fab.isMaster then s
      else if b.cancel then cancelStart b.tick s
      else
        let st := if b.start then startStatus b s else if nowTick s < b.tick then 0 else stExpired
        let s := sendMsg2 p.master (.barrierAck (st == 0) b.tick) s
        if st ≠ 0 then s
        else
          let s := { s with fab := { s.fab with barriers := s.fab.barriers ++ [b] } }
          if b.start then startSet b s else s)

/- Membership (R348, R349). -/

/-- HEARTBEAT_SEND: a member's goes toward the master, the master's to every device (R348, R349). -/
def execHeartbeatSend (s : State) : Host.Outcome State Fault Refusal :=
  goes (
    if s.dev.st = .off || !s.fab.member then s
    else
      let s := { s with fab := { s.fab with hbCount := (s.fab.hbCount + 1) % 2 ^ 32 } }
      let m := Msg.heartbeat s.fab.id s.fab.epoch s.fab.hbCount
      if s.fab.isMaster then flood m s else match s.fab.uplink with | some l => sendMsg l m s | none => s)

/-- HEARTBEAT (R348): a newer count of a device; members pass it toward the master, the master's on to every other link. -/
def execHeartbeat (l : Nat) (m : Msg) (s : State) : Host.Outcome State Fault Refusal :=
  goes (match m with
    | .heartbeat id epoch count =>
      let seen := s.fab.heard.find? fun e => e.1 == id
      let newer := match seen with | some (_, c) => decide (c < count) | none => true
      if !hears s l || !s.fab.member || epoch ≠ s.fab.epoch || id == s.fab.id || !newer then s
      else
        let s := { s with fab := { s.fab with heard := cset s.fab.heard id count } }
        if s.fab.isMaster then s
        else if (match s.fab.plan with | some p => p.master == id | none => id == 0) then
          ((upLinks s).filter (· != l)).foldl (fun s k => sendMsg k m s) s
        else match s.fab.uplink with | some u => sendMsg u m s | none => s
    | _ => s)

/-- HB_TIMEOUT (R348): the master has not heard from a device of the plan. -/
def execHbTimeout (dev : Nat) (s : State) : Host.Outcome State Fault Refusal :=
  goes (match s.fab.plan with
    | some p => if s.dev.st != .off && s.fab.member && s.fab.isMaster && dev != s.fab.id && p.devs.any (fun d => d.id == dev) &&
        !s.fab.lost.contains dev then loseDevice dev p s else s
    | none => s)

/-- The lowest active ID that can be deputy. -/
def newDeputy (s : State) (p : Plan) : Nat :=
  ((sortNat ((p.devs.filter fun d => !d.standby && d.id != s.fab.id && !s.fab.lost.contains d.id).map (·.id))).head?).getD s.fab.id

/-- The deputy is sent the ID map (R349). -/
def toDeputy (d : Nat) (s : State) : State :=
  if d = s.fab.id then s else s.fab.given_ids.foldl (fun s e => sendMsg2 d (.idmap e.1 e.2) s) s

/-- MASTER_LOSS (R349): the deputy becomes master, names the barrier of the master-loss variant, and a new deputy. -/
def execMasterLoss (s : State) : Host.Outcome State Fault Refusal :=
  goes (match s.fab.plan with
    | some p =>
      if s.dev.st = .off || !s.fab.member || s.fab.isMaster || p.deputy ≠ s.fab.id then s
      else
        let s := { s with fab := { s.fab with isMaster := true, masterUid := s.part.uid, lost := p.master :: s.fab.lost } }
        let p2 := { p with master := s.fab.id, deputy := newDeputy s p }
        let s := { s with fab := { s.fab with plan := some p2, deputy := p2.deputy } }
        let s := toDeputy p2.deputy (routesOut (sendMsg2 p2.deputy (.plan p2) s))
        nameBarrier { lossBarrier with handover := some s.fab.id } s
    | none => s)

end Sys2Proof.Machine
end

