-- ==== Sys2Proof/Machine/TimeRows.lean ====
section
/-!
DEFINITION. The time base, its disciplines, the tick generator's inputs, PTP and timed events (13).
-/

namespace Sys2Proof.Machine

/- The time base (R352 to R359). -/

/-- 200 ppm in units of 2^-40 (R354). -/
def rateMax : Nat := 219902325
/-- Tu in a second and in a millisecond. -/
def tuSec : Nat := 10 ^ 9 * 65536
def tuMs : Nat := 10 ^ 6 * 65536

/-- SRC of TIME_CFG (R355). -/
def timeSrc (s : State) : Nat := bits (regAt s 0x60000) 2 0

/-- What the slew has corrected since r0 (R358). -/
def slewed (t : TimeBase) (r : Nat) : Int := ((r : Int) - (t.r0 : Int)) * t.slew / (2 ^ 40 : Int)

/-- The time base rebased at raw stamp r, with the slew's remainder (R354, R358). -/
def rebaseSlew (t : TimeBase) (r : Nat) : TimeBase := { rebase t r with rem := t.rem - slewed t r }

/-- SLEW for a remainder under a RATE (R358). -/
def slewFor (rem rate : Int) : Int :=
  let m : Int := (rateMax : Int) - (rate.natAbs : Int)
  if rem = 0 then 0 else if 0 < rem then m else -m

/-- Any slew ends and its remainder is dropped (R357, R358). -/
def endSlew (t : TimeBase) : TimeBase := { t with slew := 0, rem := 0, slewing := false }

/-- A slew by d begins at raw stamp r; it replaces the remainder of one under way (R358). -/
def slewBy (d : Int) (r : Nat) (t : TimeBase) : TimeBase :=
  let t := endSlew (rebaseSlew t r)
  if d = 0 then t else { t with rem := d, slew := slewFor d t.rate, slewing := true }

/-- RATE changes at raw stamp r; a slew under way goes on with the margin it leaves (R357, R358). -/
def setRate (rate : Int) (r : Nat) (t : TimeBase) : TimeBase :=
  let t := rebaseSlew t r
  { t with rate := rate, slew := if t.slewing then slewFor t.rem rate else 0 }

/-- An event waits for a time of the time base. -/
def timeArmed (e : TimedEv) : Bool := e.d.en && !e.d.tickBase && e.next.isSome

/-- Armed time-based events are cancelled: EN is cleared and TIMED_CANCELLED raised for each (R370). -/
def cancelTimed (s : State) : State :=
  let es := (List.range 16).filter fun e => timeArmed (tget (fun _ => {}) s.time.timed e)
  es.foldl (fun s e =>
    let x : TimedEv := tget (fun _ => {}) s.time.timed e
    raiseEv { code := 0x54, sev := 0, origin := e, body := le 4 e }
      { s with time := { s.time with timed := tset (fun _ => {}) s.time.timed e { x with d := { x.d with en := false }, next := none } } }) s

/-- The time becomes l at the newest raw stamp (R357): slews end, time-based events are cancelled, and the generator of INTERNAL and FABRIC
starts again (R366). -/
def timeBecomes (l : Nat) (s : State) : State :=
  let s := cancelTimed { s with time := { endSlew s.time with r0 := s.time.raw, l0 := l, timeSet := true, stamps := [] } }
  if bits (regAt s 0x60010) 1 0 = 1 then s else startTicks s

/-- The time may be steered by command (R357). -/
def steerable (s : State) : Bool := timeSrc s == 0 || timeSrc s == 4

/-- TIME_SET (R357). -/
def execTimeSet (h : Hdr) (t : Tod) (s : State) : Host.Outcome State Fault Refusal :=
  goes (control { op := 0x501, states := stRL } h
    (fun _ s =>
      if decide (10 ^ 9 ≤ t.ns ∨ 65536 ≤ t.frac ∨ 2 ^ 64 ≤ t.sec) then fails s stParam
      else if !steerable s then fails s stState
      else { s := timeBecomes (linOf t) s }) s)

/-- TIME_RATE (R357). -/
def execTimeRate (h : Hdr) (rate : Int) (s : State) : Host.Outcome State Fault Refusal :=
  goes (control { op := 0x502, states := anySt } h
    (fun _ s =>
      if rateMax < rate.natAbs then fails s stParam
      else if !steerable s then fails s stState
      else { s := { s with time := setRate rate s.time.raw s.time } }) s)

/-- TIME_ADJ (R357, R358). -/
def execTimeAdj (h : Hdr) (d : Int) (s : State) : Host.Outcome State Fault Refusal :=
  goes (control { op := 0x503, states := anySt } h
    (fun _ s =>
      if decide (tuSec < d.natAbs) || (s.time.rate.natAbs == rateMax && d != 0) then fails s stParam
      else if !steerable s then fails s stState
      else { s := { s with time := slewBy d s.time.raw s.time } }) s)

/-- TIME_GET (R357): the time, in the layout of R363's entry, and the raw stamp (log 23). -/
def execTimeGet (h : Hdr) (s : State) : Host.Outcome State Fault Refusal :=
  goes (observe { op := 0x504, states := anySt } h
    (fun s => { s := s, result := todBytes (todOf (nowL s)) ++ le 8 s.time.raw }) s)

/-- SLEW_END (R358): the accumulated correction is the remainder, exactly. -/
def execSlewEnd (raw : Nat) (s : State) : Host.Outcome State Fault Refusal :=
  goes (
    let t := s.time
    let d : Int := (raw : Int) - (t.r0 : Int)
    if !t.slewing || t.slew == 0 || decide ((slewed t raw).natAbs < t.rem.natAbs) || decide (raw < t.raw) then s
    else
      let l := ((t.l0 : Int) + d + d * t.rate / (2 ^ 40 : Int) + t.rem).toNat
      { s with time := { endSlew t with raw := raw, r0 := raw, l0 := l } })

/- Disciplines (R358, R359). -/

/-- An offset in tu, source less own time, in ps. -/
def offsetPs (d : Int) : Int := d * 1000 / 65536

/-- A discipline steers by an offset measured at the newest raw stamp: a step in READY and LOADED above 1 ms, else a slew; limit is the lock
limit in tu (R356, R358, R359). -/
def steer (d : Int) (locked : Bool) (s : State) : State :=
  let big := decide (tuMs < d.natAbs)
  let s := { s with time := { s.time with offsetPs := offsetPs d, locked := locked, holdover := false } }
  if big && inReady s then timeBecomes ((nowL s : Int) + d).toNat { s with time := { s.time with offsetLarge := false } }
  else
    let s := { s with time := slewBy d s.time.raw { s.time with offsetLarge := big } }
    if big then raiseEv { code := 0x50, sev := 3, body := le 8 (toTwos 64 d) } s else s

/-- The lock limit of PPS and PTP, 1 us (R356). -/
def lockedWide (d : Int) : Bool := decide (d.natAbs ≤ 1000 * 65536)

/-- A discipline has lost its source: K stays at RATE, any slew stops (R359). -/
def loseSource (s : State) : State :=
  if s.time.holdover then s
  else raiseEv { code := 0x51, sev := 1 } { s with time := { endSlew (rebaseSlew s.time s.time.raw) with holdover := true, locked := false } }

/-- TIME_HOLDOVER (R359). -/
def execTimeHoldover (s : State) : Host.Outcome State Fault Refusal :=
  goes (if s.dev.st != .off && decide (1 ≤ timeSrc s ∧ timeSrc s ≤ 3) then loseSource s else s)

/-- The offset from a time to the nearest whole second. -/
def toSecond (l : Nat) : Int :=
  let f := l % tuSec
  if 2 * f ≤ tuSec then -(f : Int) else ((tuSec - f : Nat) : Int)

/-- PPS_IN_EDGE (R360, R361). -/
def execPpsInEdge (raw : Nat) (s : State) : Host.Outcome State Fault Refusal :=
  goes (
    if s.dev.st = .off then s
    else
      let s := seeRaw raw s
      let l := linear s.time raw
      let s := { s with time := { s.time with ppsTs := l, ppsMiss := 0 } }
      if timeSrc s = 2 then steer (toSecond l) (lockedWide (toSecond l)) s else s)

/-- PPS_OUT_PULSE (R361). -/
def execPpsOutPulse (raw : Nat) (s : State) : Host.Outcome State Fault Refusal :=
  goes (if s.dev.st != .off && bit (regAt s 0x60000) 7 then let s := seeRaw raw s; { s with time := { s.time with ppsOut := true } } else s)

/-- PPS_OUT_PULSE_END (R361). -/
def execPpsOutPulseEnd (s : State) : Host.Outcome State Fault Refusal :=
  goes { s with time := { s.time with ppsOut := false } }

/- Fabric time (R364). -/

/-- FABRIC_TIME_STEER: the mean offset of the span toward the parent on link l; beacons give the depth. -/
def execFabricTimeSteer (l : Nat) (s : State) : Host.Outcome State Fault Refusal :=
  goes (
    let x := linkAt s l
    if s.dev.st = .off || timeSrc s != 3 || x.st != .up || x.thetaN == 0 || s.fab.timeRoot == some s.fab.id then s
    else
      let deep := decide (15 < x.hops + 1)
      let s := { s with fab := { s.fab with timeRoot := some x.rootId, timeHops := x.hops + 1, timeDeep := deep } }
      let s := setLink l { x with thetaSum := 0, thetaN := 0 } s
      if deep then s
      else steer (x.thetaSum / (2 * x.thetaN)) (decide (x.thetaSum.natAbs * 10 < x.thetaN * 131072)) s)

/-- TICK_HOLDOVER: edges continue from the time base (R367). a and b are the expected and the actual edge. -/
def tickHold (a b : Nat) (s : State) : State :=
  if s.time.tickSt = .holdover then s
  else raiseEv { code := 0x52, sev := 3, body := le 8 a ++ le 8 b } { s with time := { s.time with tickSt := .holdover } }

/-- The tick source is lost (R367). -/
def tickLost (a b : Nat) (s : State) : State :=
  if inRun s then tickHold a b s else { s with time := { s.time with tickSt := .unlocked, next := none } }

/-- FABRIC_TIME_LOSS (R359, R364, R367). -/
def execFabricTimeLoss (s : State) : Host.Outcome State Fault Refusal :=
  goes (
    if s.dev.st = .off || timeSrc s != 3 then s
    else
      let s := loseSource s
      if bits (regAt s 0x60010) 1 0 = 2 then tickLost (edgeL s (nowTick s + 1)) 0 s else s)

/- TICK_IN (R366, R367). -/

/-- TICK_ALIGN (R366). -/
def execTickAlign (h : Hdr) (tick : Nat) (t : Tod) (s : State) : Host.Outcome State Fault Refusal :=
  goes (control { op := 0x506, states := stRL } h
    (fun _ s =>
      let c := regAt s 0x60010
      if decide (10 ^ 9 ≤ t.ns ∨ 65536 ≤ t.frac) || tick % max (bits c 47 32) 1 != bits c 31 16 then fails s stParam
      else { s := { s with time := { s.time with align_ := some (tick, linOf t) } } }) s)

/-- An edge while the generator has no numbering: the first at or after the time of TICK_ALIGN gets its number. -/
def alignEdge (l : Nat) (s : State) : State :=
  match s.time.align_ with
  | some (t, at_) => if at_ ≤ l then
      { s with time := { s.time with next := some t, startL := l, tickSt := .acquire, align_ := none, devRun := 0 } } else s
  | none => s

/-- An edge on a tick that TICK_IN does not mark (R367). -/
def slipEdge (l : Nat) (s : State) : State :=
  if inRun s then
    raiseEv { code := 0x53, sev := 3, body := le 8 (edgeL s (nowTick s + 1)) ++ le 8 l } { s with time := { s.time with slip := satAdd 16 s.time.slip 1 } }
  else { s with time := { s.time with tickSt := .unlocked, next := none } }

/-- An edge that deviates by more than TICK_WIN. After a holdover it starts a relock outside a run, and in PAUSED (R367, whose table and
text differ on PAUSED; DEDUCED, log 147). -/
def deviantEdge (l : Nat) (s : State) : State :=
  let s := { s with time := { s.time with phaseErr := satAdd 32 s.time.phaseErr 1, devRun := s.time.devRun + 1 } }
  if 16 ≤ s.time.devRun then tickLost (edgeL s (nowTick s + 1)) l s
  else if s.time.tickSt = .holdover && (!inRun s || s.dev.st == .paused) then { s with time := { s.time with tickSt := .acquire } } else s

/-- TICK_IN_EDGE (R366, R367): tick is the number of the tick the edge marks, dev its deviation from the expected instant in ps. -/
def execTickInEdge (raw tick : Nat) (dev : Int) (s : State) : Host.Outcome State Fault Refusal :=
  goes (
    let c := regAt s 0x60010
    if s.dev.st = .off || bits c 1 0 != 1 then s
    else
      let s := seeRaw raw s
      let l := linear s.time raw + (calEffective s 1 0).1.toNat * 65536 / 1000
      let s := { s with time := { s.time with lastIn := some raw, missRun := 0 } }
      if s.time.next.isNone then alignEdge l s
      else if tick % max (bits c 47 32) 1 ≠ bits c 31 16 then slipEdge l s
      else if s.time.tickWin < dev.natAbs then deviantEdge l s
      else { s with time := { s.time with devRun := 0, tickSt := .locked } })

/-- TICK_HOLDOVER (R367): 16 deviations, or 3 missing edges. -/
def execTickHoldover (missing : Bool) (s : State) : Host.Outcome State Fault Refusal :=
  goes (
    if s.dev.st = .off || bits (regAt s 0x60010) 1 0 != 1 || s.time.next.isNone then s
    else
      let s := { s with time := { s.time with missRun := if missing then 3 else s.time.missRun } }
      tickLost (edgeL s (nowTick s + 1)) 0 s)

/- PTP (R362) and transmit stamps (R363). Kinds of message: 0 two-step Sync, 1 Follow_Up, 2 one-step Sync, 3 Delay_Resp, 4 Delay_Req,
5 Announce, 6 Pdelay_Req, 7 Pdelay_Resp, 8 Pdelay_Resp_Follow_Up; others are discarded. -/

/-- Settings that R362 supports. -/
def ptpOk (c : PtpCfg) : Bool :=
  decide (c.prio1 ≤ 255 ∧ c.prio2 ≤ 255 ∧ c.domain ≤ 127 ∧ c.transport ≤ 2 ∧ -7 ≤ c.syncLog ∧ c.syncLog ≤ 4 ∧ -7 ≤ c.delayLog ∧ c.delayLog ≤ 6 ∧
    -3 ≤ c.annLog ∧ c.annLog ≤ 4)

/-- PTP_CONFIG (R362). -/
def execPtpConfig (h : Hdr) (cfg : PtpCfg) (s : State) : Host.Outcome State Fault Refusal :=
  goes (control { op := 0x507, states := stRL } h
    (fun _ s => if ptpOk cfg then { s := { s with time := { s.time with ptp := cfg, ptpMaster := s.time.ptpMaster && !cfg.slaveOnly, ptpT := [] } } }
      else fails s stParam) s)

/-- An effective asymmetry in tu: item 4 ingress, 5 egress (R220). -/
def asymTu (s : State) (item : Nat) : Int := (calEffective s item 0).1 * 65536 / 1000
/-- The corrected receive and transmit stamps (R360). -/
def rxStamp (s : State) (raw : Nat) : Nat := ((linear s.time raw : Int) - asymTu s 4).toNat
def txStamp (s : State) (raw : Nat) : Nat := ((linear s.time raw : Int) + asymTu s 5).toNat

/-- A stamp gathered by the client. -/
def ptpPut (k v : Nat) (s : State) : State := { s with time := { s.time with ptpT := cset s.time.ptpT k (v + 1) } }
/-- The stamps listed, where all are there. -/
def ptpGet (s : State) (ks : List Nat) : Option (List Int) :=
  if ks.all fun k => cget s.time.ptpT k != 0 then some (ks.map fun (k : Nat) => ((cget s.time.ptpT k - 1 : Nat) : Int)) else none

/-- The offset to the master, once its stamps are there: master's time less own. -/
def ptpOffset (s : State) : Option Int :=
  if s.time.ptp.p2p then
    match ptpGet s [0, 1, 4, 5, 6, 7] with
    | some [t1, t2, p1, p2, p3, p4] => some (t1 + ((p4 - p1) - (p3 - p2)) / 2 - t2)
    | _ => none
  else match ptpGet s [0, 1, 2, 3] with
    | some [t1, t2, t3, t4] => some (((t4 - t3) - (t2 - t1)) / 2)
    | _ => none

/-- The client steers once a set of stamps is whole. -/
def ptpSteer (s : State) : State :=
  match ptpOffset s with
  | some d => steer d (lockedWide d) { s with time := { s.time with ptpT := s.time.ptpT.filter fun e => s.time.ptp.p2p && decide (4 ≤ e.1) } }
  | none => s

/-- The internal instance takes a message; t is the time that it carries. What the master clock algorithm of the standard finds is a free
value (log 48). -/
def ptpClient (raw kind t : Nat) (s : State) : State :=
  match kind with
  | 0 => ptpPut 1 (rxStamp s raw) s
  | 1 => ptpSteer (ptpPut 0 t s)
  | 2 => ptpSteer (ptpPut 0 t (ptpPut 1 (rxStamp s raw) s))
  | 3 => ptpSteer (ptpPut 3 t s)
  | 4 => if s.time.ptpMaster then send (.ptp 3) s else s
  | 5 =>
    let r := drawFree 1 s
    { r.2 with time := { r.2.time with ptpMaster := !r.2.time.ptp.slaveOnly && r.1 == 1#1 } }
  | 6 => if s.time.ptp.p2p then send (.ptp 8) (send (.ptp 7) s) else s
  | 7 => ptpPut 7 (rxStamp s raw) (ptpPut 5 t s)
  | 8 => ptpPut 6 t s
  | _ => s

/-- A PTP event message, which is stamped. -/
def ptpEvent (kind : Nat) : Bool := [0, 2, 4, 6, 7].contains kind

/-- PTP_FRAME_RX (R360, R362). -/
def execPtpFrameRx (raw kind t : Nat) (bytes : List Byte) (s : State) : Host.Outcome State Fault Refusal :=
  goes (
    if s.dev.st = .off || decide (8 < kind) then s
    else
      let s := seeRaw raw s
      match timeSrc s with
      | 1 => ptpClient raw kind t s
      | 4 => if ptpEvent kind then raiseEv { code := 0x55, sev := 0, body := todBytes (todOf (rxStamp s raw)) ++ bytes.take 2000 } s else s
      | _ => s)

/-- PTP_MESSAGE_SEND (R362): what the internal instance may send in its role. -/
def execPtpMessageSend (kind : Nat) (s : State) : Host.Outcome State Fault Refusal :=
  goes (
    let p := s.time.ptp
    let ok := match kind with
      | 0 | 1 | 5 => s.time.ptpMaster && !p.slaveOnly
      | 4 => !p.p2p && !s.time.ptpMaster
      | 6 => p.p2p
      | _ => false
    if s.dev.st = .off || timeSrc s != 1 || !ok then s
    else
      let s := send (.ptp kind) s
      match kind with
      | 4 => ptpPut 2 (txStamp s s.time.raw) s
      | 6 => ptpPut 4 (txStamp s s.time.raw) s
      | _ => s)

/-- MGMT_TX (R363): ST_BUSY while 16 frames wait for their stamps (DESIGN CHOICE, log 49). -/
def execMgmtTx (h : Hdr) (tsReq : Bool) (tsId : Nat) (bytes : List Byte) (s : State) : Host.Outcome State Fault Refusal :=
  goes (control { op := 0x508, states := anySt } h
    (fun _ s =>
      if bytes.isEmpty || decide (65536 ≤ tsId) then fails s stParam
      else if tsReq && decide (16 ≤ s.time.tsWait.length) then fails s stBusy
      else
        let s := send (.frame bytes) s
        { s := if tsReq then { s with time := { s.time with tsWait := s.time.tsWait ++ [tsId] } } else s }) s)

/-- TX_TIMESTAMP (R363). -/
def execTxTimestamp (id raw : Nat) (s : State) : Host.Outcome State Fault Refusal :=
  goes (
    if s.dev.st = .off || !s.time.tsWait.contains id then s
    else
      let s := seeRaw raw s
      let s := { s with time := { s.time with tsWait := s.time.tsWait.erase id } }
      if 16 ≤ s.time.txq.length then { s with time := { s.time with txOvf := true, txLost := satAdd 32 s.time.txLost 1 } }
      else { s with time := { s.time with txq := s.time.txq ++ [(id, todOf (txStamp s raw))] } })

/- Timed events (R369 to R371). -/

/-- The first repetition of a periodic event not before a bound. -/
def firstFrom (start period bound : Nat) : Nat := if bound ≤ start then start else start + ceilDiv (bound - start) (max period 1) * period

/-- Earliest firing, in tu or as a tick number, for a TIMED_SET that takes effect at E(w), at time lw. -/
def timedBound (s : State) (d : TimedDesc) (w lw : Nat) : Nat := if d.tickBase then w + 1 else lw + tickTu s
/-- START as a tick number or in tu. -/
def timedStart (d : TimedDesc) : Nat := if d.tickBase then d.start.sec else linOf d.start

/-- The checks of TIMED_SET (R369 to R371) for its tick w. -/
def timedCheck (s : State) (e : Nat) (d : TimedDesc) (w lw : Nat) : Option (Nat × Nat) :=
  if 16 ≤ e then some (stParam, 0)
  else if !d.en then none
  else if decide (d.width < 1 ∨ 65535 < d.width ∨ iiOf s ≤ d.phase ∨ (!d.tickBase ∧ (10 ^ 9 ≤ d.start.ns ∨ 65536 ≤ d.start.frac))) ||
      (d.periodic && d.period == 0) || (d.tickStart && (e != 0 || d.tickBase || d.pinEn || bits (regAt s 0x60010) 1 0 != 0)) then some (stParam, 0)
  else if !d.periodic && decide (timedStart d < timedBound s d w lw) then some (stExpired, 0)
  else none

/-- A TIMED_SET takes effect at E(w), at time lw. -/
def timedApply (e : Nat) (d : TimedDesc) (w lw : Nat) (s : State) : State :=
  let old : TimedEv := tget (fun _ => {}) s.time.timed e
  let b := timedBound s d w lw
  let next := if !d.en then none else if d.periodic then some (firstFrom (timedStart d) d.period b) else some (timedStart d)
  let x : TimedEv := { old with d := d, next := next, active := old.active && d.en && d.pinEn }
  { s with time := { s.time with timed := tset (fun _ => {}) s.time.timed e x } }

/-- The tick and time at which a TIMED_SET would take effect. -/
def timedAt (h : Hdr) (s : State) : Nat × Nat :=
  if inReady s && h.at_.isNone then (nowTick s, nowL s) else let t := h.at_.getD (firstLead s); (t, edgeL s t)

/-- TIMED_SET (R369, R370). -/
def execTimedSet (h : Hdr) (e : Nat) (d : TimedDesc) (s : State) : Host.Outcome State Fault Refusal :=
  goes (control { op := 0x505, states := anySt } h
    (fun j s => tickCmd h 0x505 j (.timed e d) (fun s => timedCheck s e d (timedAt h s).1 (timedAt h s).2)
      (timedApply e d (nowTick s) (nowL s)) s) s)

/-- TICK_START (R371): TIMED_START becomes TICK_EPOCH_TIME, and tick T0 begins at once. -/
def tickStart (d : TimedDesc) (s : State) : State :=
  let s := setReg 0x60030 d.start.sec (setReg 0x60028 (unle (slice 0 8 (todBytes d.start))) s)
  { s with time := { s.time with next := some (regAt s 0x60020), startL := linOf d.start, tickSt := .locked, stamps := [] } }

/-- The grid cycle that contains a time, where the time base places the edges (R370). -/
def fireCycle (s : State) (l : Nat) : Nat :=
  let t := genFrom s (l + 1) - 1
  gcOf s t + (l - genL s t) * 65536 * iiOf s / max (periodOf s) 1

/-- x may be the firing cycle of an event: of BASE = TICK exactly E(T) + TIMED_PHASE, of BASE = TIME the cycle that contains its time, which
TICK_IN leaves to within 400 ppm; the timed start makes its own edge (R370, R371). -/
def firesAt (s : State) (d : TimedDesc) (n x : Nat) : Bool :=
  if d.tickBase then x == gcOf s n + d.phase else !ownEdges s || d.tickStart || x == fireCycle s n

/-- TIMED_EVENT_FIRE (R370, R371; none in SAFE_STOP, R492): x is the firing cycle, counted from E(0). -/
def execTimedEventFire (e x : Nat) (s : State) : Host.Outcome State Fault Refusal :=
  goes (
    let v : TimedEv := tget (fun _ => {}) s.time.timed e
    match v.next with
    | none => s
    | some n =>
      if s.dev.st = .off || s.dev.st = .safe || !v.d.en || !firesAt s v.d n x then s
      else
        let next := if v.d.periodic then some (n + v.d.period) else none
        let v := { v with next := next, active := v.active || v.d.pinEn, endGc := if v.d.pinEn then max v.endGc (x + v.d.width) else v.endGc }
        let t := x / max (iiOf s) 1
        let s := { s with time := { s.time with
          timed := tset (fun _ => {}) s.time.timed e v
          timedBits := cset s.time.timedBits t (cget s.time.timedBits t ||| 2 ^ e) } }
        if v.d.tickStart && bits (regAt s 0x60010) 1 0 = 0 then tickStart v.d s else s)

/-- TIMED_OUT_PULSE_END (R370). -/
def execTimedOutPulseEnd (e : Nat) (s : State) : Host.Outcome State Fault Refusal :=
  goes (
    let v : TimedEv := tget (fun _ => {}) s.time.timed e
    if v.active then { s with time := { s.time with timed := tset (fun _ => {}) s.time.timed e { v with active := false, endGc := 0 } } } else s)

end Sys2Proof.Machine
end

