-- ==== Sys2Proof/Machine/Edge.lean ====
section
/-!
DEFINITION. The tick edge: named ticks, the start and the resumption of a run, the shedding ladder, snapshots (01 R14, R26, R34; 10 R285,
R286; 11 R309 to R318; 14 R382, R383, R392).
-/

namespace Sys2Proof.Machine

/- Named ticks (R26, R250, R382, R383). -/

/-- A change of the fixed zone: while the device runs, ticks before the edge still use what they were given. -/
def zoneChange (n : Nat) (e : Eff) (s : State) : State :=
  if s.dev.st = .running then { s with comb := { s.comb with due := s.comb.due ++ [(n, e)] } } else zoneEff e s

/-- A register write takes effect at edge n: ticks in flight keep the old values of registers tied to an edge (R250). -/
def cfgAt (n : Nat) (es : List CfgEntry) (s : State) : State :=
  let t := cfgApply es s
  let old := es.filterMap fun e => match regKind e.off with
    | some (k, _) => if tickBound k && regAt s e.off != regAt t e.off then some (n, e.off, regAt s e.off) else none
    | none => none
  if s.dev.st = .running then { t with comb := { t.comb with oldRegs := t.comb.oldRegs ++ old } } else t

/-- The effect of a command at edge n (R26), live or in a replay. -/
def applyEff (n : Nat) (e : Eff) (s : State) : State :=
  match e with
  | .none => s
  | .cfg es => cfgAt n es s
  | .prims first ds => zoneChange n (.prims first ds) s
  | .line k d => zoneChange n (.line k d) s
  | .template k d => zoneChange n (.template k d) s
  | .cal es => zoneChange n (.cal es) s
  | .tables es => switchTables es s
  | .timed k d => timedApply k d n (edgeL s n) s
  | .swap outs ins => rotSwapped (outs ++ ins) (beginSwap n outs ins s)
  | .quad q idle => quadEdge q idle s
  | .load r => (loadNow r s).s
  | .tile hd vq col row line data _ => writeTileLine hd vq col row line data .ok s
  | .probe k p => setProbe k p s
  | .meas k d => setMeas k d s
  | .commit v => commitCal v s
  | .window k w => setWindow k w s
  | .extract t k => extract t k s
  | .resumeDma k mode => resumeEng k mode s

/-- Waiting commands whose edge has come, in journal order (R383). -/
def dueNow (s : State) : List Waiting :=
  s.ctl.waiting.filter fun w => w.eff != .none && (match w.tick with | some t => decide (t ≤ nowTick s) | none => false)

/-- A register write that waited for its tick and breaks a register's state rule by then: status and index (R15, R389). -/
def stateFail (s : State) (w : Waiting) : Option (Nat × Nat) := match w.eff with | .cfg es => cfgStateFail s es | _ => none

/-- One of them takes effect and becomes final with the tick of its edge. A register write whose registers may no longer be
written in the state the device has reached fails with the status of their rule (R15). -/
def applyOne (s : State) (w : Waiting) : State :=
  let n := nowTick s
  match stateFail s w with
  | some (st, k) => finishEff w.eff w.opcode w.h w.jseq st k (waitResult w st) (waitResult w st) (waitOver w.jseq s)
  | none => finishWait { w with tick := some n } 0 (applyEff n w.eff s)

/-- Commands due take effect: not while the device is PAUSED (R383), nor while the commands' role waits for its core (R421). -/
def applyDue (s : State) : State :=
  if s.dev.st = .paused || s.flt.roleWait.contains 5 then s else (dueNow s).foldl applyOne s

/-- NAMED_TICK_APPLY (R382). -/
def execNamedTickApply (s : State) : Host.Outcome State Fault Refusal := goes (applyDue s)

/-- CMD entries of a replay that are applied again: classes 0x02 to 0x04, and the bit-affecting part of CFG_WRITE (R311). -/
def replayEff (e : LogEntry) : Eff :=
  let op := unle (slice 4 2 e.body)
  match e.eff with
  | .cfg es => .cfg (es.filter fun x => bitAffecting x.off)
  | x => if 2 ≤ op / 256 ∧ op / 256 ≤ 4 then x else .none

/-- The recorded commands of tick n (R311). -/
def replayCmds (n : Nat) (s : State) : State :=
  if !replaying s then s else (replayAt s 5 n).foldl (fun s e => applyEff n (replayEff e) s) s

/- The start of a run (R31, R34, R73, R91, R115, R178, R226, R234, R251, R257, R265, R285, R294, R351). -/

/-- The front end at ARM: frames already held for the run stay. -/
def feArm (n : Nat) (f : Fe) : Fe :=
  { f with
    lanes := tmapV (fun _ => {}) (fun (l : LaneSt) => { l with cnt := [] }) f.lanes
    groups := tmapV (fun _ => {}) (fun (g : GroupSt) => { g with missTicks := 0 }) f.groups
    scale := tmapV (fun _ => zeroScale) clearScale f.scale
    units := tmapV (fun _ => {}) (fun (u : PrimUnit) => { d := u.d }) f.units
    hold := [], gather := [], feat := [], orOut := [], orCount := [], orPoison := []
    trgIn := f.trgIn.filter fun e => decide (n ≤ e.1) }

/-- The combiner at ARM. -/
def combArm (n : Nat) (c : Comb) : Comb :=
  { c with
    lines := tmapV (fun _ => {}) (fun (l : LineSt) => { d := l.d }) c.lines
    scores := [], scorePoison := [], noScore := [], ghoFrom := 0, ghoTo := 0
    fireIn := c.fireIn.filter fun e => decide (n ≤ e.1)
    fireOut := none, cnt := [], pend := [], decided := none, atDecision := [0, 0, 0, 0] }

/-- The tier-two queue at ARM: every context FREE; sections stand at their boundaries. -/
def t2Arm (g : Nat) (t : T2) : T2 :=
  { t with
    ctxs := [], passes := t.passes.map fun e => (e.1, { boundary := g }), cls := [], loopLate := [], ctxMax := 0, lastStart := none
    ringWin := 0, ringIssued := 0 }

/-- The acquisition engine at ARM; a replay keeps the ring. -/
def acqArm (n : Nat) (a : Acq) : Acq :=
  { a with
    level := 0, levels := [(n, 0)], lastChange := none, lowRun := 0, pressure := 0, ladderTicks := [], ladPend := [], marks := []
    streams := tmapV (fun _ => {}) (fun (x : Stream) => { x with gaps := 0 }) a.streams
    tStart := some n, released := none
    newest := if a.replay.set then a.newest else none }

/-- Links and packets at ARM (R351). -/
def fabArm (f : Fab) : Fab :=
  { f with links := tmapV (fun _ => {}) (fun (l : Link) => { l with cnt := [] }) f.links, edup := [] }

/-- The clears of ARM at edge n. -/
def armClear (n : Nat) (s : State) : State :=
  let s := armSections (flushDue s)
  { s with
    fe := feArm n s.fe
    comb := combArm n s.comb
    t2 := t2Arm (gcOf s n) s.t2
    acq := acqArm n s.acq
    eng := tmapV (fun _ => {}) (fun (e : Eng) => { e with parks := 0 }) s.eng
    fab := fabArm s.fab
    grid := { s.grid with
      tiles := tmapV (fun _ => {}) (fun (t : Tile) => { t with cnt := hwCounts t.cnt }) s.grid.tiles
      spareCnt := tmapV (fun _ => []) hwCounts s.grid.spareCnt
      xcoll := [], puts := [], asks := [] } }

/-- A recording set starts with the run at edge n: kind 0 ARM, 1 RESUME (R309, R310). -/
def recordStart (n kind : Nat) (restored : Option StateImage) (s : State) : State :=
  if !s.acq.recg.armed then s
  else
    let d := match restored with | some i => i.digest.toNat | none => 0
    let e : LogEntry := { type := 1, flags := bnat s.acq.recg.wide, tick := n, body := le 4 kind ++ le 4 (iiOf s)
                          more := le 64 (configDigest s).toNat ++ le 64 d }
    { s with acq := { s.acq with recg := { s.acq.recg with
        armed := false, running := true, done := false, first := n, log := [e], ringLate0 := devCnt s 18 } } }

/-- A replay set starts with the run (R311). -/
def replayStart (s : State) : State :=
  if s.acq.replay.set then { s with acq := { s.acq with replay := { s.acq.replay with set := false, running := true } } } else s

/-- The restored state replaces the clears (R317); a standby that takes a role starts without history (R348). -/
def restoreAt (n : Nat) (s : State) : State :=
  match s.restoring with
  | some i => applyRestore i s.dev.noHist n s
  | none => s

/-- What starts with a run at edge n, by ARM or RESUME. -/
def runBegins (n kind : Nat) (s : State) : State := replayStart (recordStart n kind s.restoring (restoreAt n s))

/-- The commands of an opcode that wait for the edge become final (R382). -/
def finishAt (op n : Nat) (s : State) : State :=
  (s.ctl.waiting.filter fun w => w.opcode == op && w.eff == .none && (match w.tick with | some t => decide (t ≤ n) | none => false)).foldl (fun (s : State) (w : Waiting) =>
    finishWait { w with tick := some n } 0 s) s

/-- SCRUB_TILES runs from ARM on (R428). -/
def scrubStart (s : State) : State := if s.flt.acts.any fun a => a.act == 2 then s else startAct { act := 2 } 0 s

/-- E(T_a) (R392). -/
def armEdge (n : Nat) (s : State) : State :=
  if s.dev.st = .armed && (match s.dev.armAt with | some t => decide (t ≤ n) | none => false) then
    let s := armClear n { s with dev := { s.dev with armAt := none, tA := n, tR := 0, tP := 0, pauseAt := none } }
    let s := setDev .running (runBegins n 0 s)
    finishAt 0x107 n (scrubStart { s with dev := { s.dev with noHist := false } })
  else s

/-- A tick at or after the pause edge as the resumed run numbers it (R318). -/
def movedTick (p n k : Nat) : Nat := if p ≤ k then k + (n - p) else k

/-- The counts in ticks go on over the gap of a pause (R318). -/
def resumeShift (p n : Nat) (s : State) : State :=
  { s with
    comb := { s.comb with
      lines := tmapV (fun _ => {}) (fun (l : LineSt) => { l with armedFrom := if p < l.armedFrom then l.armedFrom + (n - p) else l.armedFrom }) s.comb.lines
      ghoFrom := movedTick p n s.comb.ghoFrom, ghoTo := movedTick p n s.comb.ghoTo }
    acq := { s.acq with
      lastChange := s.acq.lastChange.map (· + (n - p))
      levels := s.acq.levels.map fun e => (movedTick p n e.1, e.2)
      ladPend := s.acq.ladPend.map fun (c : LadChange) => { c with tick := movedTick p n c.tick } } }

/-- E(T_r) (R318, R392). -/
def resumeEdge (n : Nat) (s : State) : State :=
  if s.dev.st = .paused && (match s.dev.resumeAt with | some t => decide (t ≤ n) | none => false) then
    let s := resumeShift s.dev.tP n { s with dev := { s.dev with resumeAt := none, tR := n } }
    let s := { s with acq := { s.acq with tStart := some n } }
    finishAt 0x109 n (setDev .running (runBegins n 1 s))
  else s

/- The ladder (R284 to R286). -/

/-- EN, MAX_LEVEL, HI, LO, RISE_HOLD and FALL_HOLD of LADDER_CFG. -/
def ladEn (s : State) : Bool := bit (regAt s 0x70000) 63
def ladMax (s : State) : Nat := if ladEn s then bits (regAt s 0x70000) 62 59 else 0
def ladHi (s : State) : Nat := bits (regAt s 0x70000) 55 48
def ladLo (s : State) : Nat := bits (regAt s 0x70000) 47 40
def ladRise (s : State) : Nat := bits (regAt s 0x70000) 39 20
def ladFall (s : State) : Nat := bits (regAt s 0x70000) 19 0

/-- Destinations that enabled templates name. -/
def markDests (s : State) : List (Nat × Nat) :=
  (((List.range 64).filter fun k => (templateAt s k).en).map fun k => ((templateAt s k).dest, (templateAt s k).destId)).eraseDups

/-- The ladder mark records of a change, one for each destination (R272, R286). -/
def ladderMarks (n old new : Nat) (s : State) : State :=
  (markDests s).foldl (fun s d =>
    addCnt 19 1 { s with acq := { s.acq with reqs := s.acq.reqs ++
      [{ tick := n, template := 0, stamp := stampOf s n, tStart := s.acq.tStart.getD 0, mark := some (old, new), dest := some d }] } }) s

/-- The level changes at edge n: one LADDER entry in each stream, one mark in each destination, one count (R286). -/
def changeLevel (n new : Nat) (s : State) : State :=
  let old := s.acq.level
  if new = old then s
  else
    let s := { s with acq := { s.acq with
      level := new, levels := ((n, new) :: s.acq.levels).take 4096, lastChange := some n, lowRun := 0
      ladPend := s.acq.ladPend ++ [{ tick := n, old := old, new := new }] } }
    ladderMarks n old new (logAdd { type := 6, tick := n, body := le 1 new } (addCnt (if old < new then 21 else 22) 1 s))

/-- The ladder at counted edge n: the pressure shown, the run of low edges, and the moves that a write of LADDER_CFG forces. A save
freezes it (R285, R506). -/
def ladderEdge (n : Nat) (s : State) : State :=
  if !counted s n || saving s then s
  else
    let s := { s with acq := { s.acq with
      shownPressure := s.acq.pressure, lowRun := if s.acq.pressure ≤ ladLo s then s.acq.lowRun + 1 else 0 } }
    if recordedFeedback s then s else if ladMax s < s.acq.level then changeLevel n (ladMax s) s else s

/-- RISE_HOLD ticks have passed since the last change. -/
def riseFree (n : Nat) (s : State) : Bool := match s.acq.lastChange with | some c => decide (c + ladRise s ≤ n ∧ c < n) | none => true

/-- The step of the ladder at the newest edge (R285). -/
def ladderStep (n : Nat) (s : State) : State :=
  if decide (ladHi s ≤ s.acq.shownPressure ∧ s.acq.level < ladMax s) && riseFree n s then changeLevel n (s.acq.level + 1) s
  else if decide (0 < s.acq.level ∧ ladFall s ≤ s.acq.lowRun ∧ s.acq.shownPressure ≤ ladLo s) && s.acq.lastChange != some n then
    changeLevel n (s.acq.level - 1) s
  else s

/-- LADDER_CHANGE at the newest tick edge (R285); in a replay under RECORDED the recording has the changes (R312). -/
def execLadderChange (s : State) : Host.Outcome State Fault Refusal :=
  goes (
    let n := nowTick s
    if !counted s n || saving s then s
    else if recordedFeedback s then
      match (replayAt s 6 n).head? with
      | some e => changeLevel n (unle (slice 0 1 e.body)) s
      | none => s
    else ladderStep n s)

/- Faults that act at an edge (R411, R413, R416, R419, R423). -/

/-- Segments of remaps that have not switched are held; the passes on them end suspect. -/
def holdSegments (n : Nat) (s : State) : State :=
  (s.flt.remaps.filter fun m => match m.switch_ with | some e => decide (n < e) | none => true).foldl (fun (s : State) (m : Remap) =>
    holdPasses (segment s m) (holdTiles true (segment s m) s)) s

/-- Losses and moves that wait for an edge. -/
def faultEdge (n : Nat) (s : State) : State :=
  let s := quadLosses (moveRots s)
  holdSegments n (s.flt.stackEdge.foldl (fun s k => stackDown k s) s)

/- The edge (R14). -/

/-- TICK_OUT marks the tick once the generator is locked or in holdover; low in SAFE_STOP under THERMAL and SUPPLY (R368, R492). -/
def tickOutFor (s : State) (n : Nat) : Bool :=
  n % max (bits (regAt s 0x60010) 63 48) 1 == 0 && (s.time.tickSt == .locked || s.time.tickSt == .holdover) &&
  !(s.dev.st == .safe && (s.dev.safeCause == 0x20 || s.dev.safeCause == 0x21))

/-- Tick n begins at raw stamp raw: it is stamped (R360), and the generator goes on to the next. -/
def edgeTime (n raw : Nat) (s : State) : State :=
  let s := seeRaw raw s
  { s with time := { s.time with
      tick := some n, next := some (n + 1), stamps := ((n, nowL s) :: s.time.stamps).take 2048, tickOut := tickOutFor s n } }

/-- A snapshot asked for before the edge is answered (R34, R293, R393). -/
def answerSnap (s : State) (x : Hdr × Nat) : State :=
  if x.2 = 0 then sendReply (mkReply 0x102 x.1 none 0 0 (deviceStateBytes (flushDue s))) s
  else
    let snap := culletSnap s
    sendReply (mkReply 0x405 x.1 none 0 0 (snap.getD 0 [])) { s with acq := { s.acq with snap := snap } }

/-- Every snapshot that waits. -/
def serveSnaps (s : State) : State := s.ctl.snapWait.foldl answerSnap { s with ctl := { s.ctl with snapWait := [] } }

/-- A counted tick passes over what is held. -/
def heldCounted (n : Nat) (s : State) : State := if counted s n then heldTick n s else s

/-- Changes that are due apply at once while no decision comes. -/
def flushIdle (s : State) : State := if s.dev.st = .running then s else flushDue s

/-- What the tick edge E(n) does once its time is known. -/
def edgeWork (n : Nat) (s : State) : State :=
  serveSnaps (driveBusy (flushIdle (ladderEdge n (heldCounted n (sectionEdge n (faultEdge n (replayCmds n (applyDue
    (finishAt 0x604 n (resumeEdge n (armEdge n (barrierEdge n s))))))))))))

/-- TICK_EDGE (R14): the next edge of a generator that gives edges. -/
def execTickEdge (raw : Nat) (s : State) : Host.Outcome State Fault Refusal :=
  goes (match s.time.next with
    | none => s
    | some n => if s.dev.st = .off || s.dev.st = .boot || s.time.tickSt = .unlocked then s else edgeWork n (edgeTime n raw s))

end Sys2Proof.Machine
end

