-- ==== Sys2Proof/Machine/FabCmd.lean ====
section
/-!
DEFINITION. Commands of class 0x06 (12 R338 to R349; 14 R381, R387).
-/

namespace Sys2Proof.Machine

/-- FABRIC_DISCOVER (R338). -/
def execFabricDiscover (h : Hdr) (s : State) : Host.Outcome State Fault Refusal :=
  goes (control { op := 0x601, states := stRL } h (fun _ s => { s := startDiscovery s.fab.epoch s }) s)

/-- A map of UIDs to IDs 1 to 1,023, each once (R339). -/
def idMapOk (ids : List (Nat × Nat)) : Bool :=
  ids.all (fun e => decide (1 ≤ e.2 ∧ e.2 ≤ 1023)) && (ids.map (·.1)).eraseDups.length == ids.length && (ids.map (·.2)).eraseDups.length == ids.length

/-- FABRIC_IDMAP (R339). -/
def execFabricIdmap (h : Hdr) (ids : List (Nat × Nat)) (s : State) : Host.Outcome State Fault Refusal :=
  goes (control { op := 0x602, states := stRL } h
    (fun _ s => if idMapOk ids then { s := { s with fab := { s.fab with idMap := some ids } } } else fails s stParam) s)

/- The rules of a plan (R328, R341, R342, R346). -/

/-- The FSLOT contents of a device under a variant, or as planned. -/
def planSlots (p : Plan) (var : Option (Nat × Nat)) (dev : Nat) : List (Nat × FSlot) :=
  let base := ((p.devs.find? fun d => d.id == dev).map (·.fslot)).getD []
  match var with
  | none => base
  | some (k, w) => ((p.vars.find? fun v => v.dev == dev && v.kind == k && v.which == w).map (·.fslot)).getD base

/-- The distance of two cycles on the circle of a tick. -/
def circDist (a b ii : Nat) : Nat := min ((a + ii - b % ii) % ii) ((b + ii - a % ii) % ii)

/-- An IN = 1 entry has a sender that names it, whose word is there by TAKE (R328). -/
def senderOk (p : Plan) (var : Option (Nat × Nat)) (dev n : Nat) (e : FSlot) : Bool :=
  match otherEnd p dev e.inLink with
  | none => false
  | some (d, l, lam) => (planSlots p var d).any fun x => x.2.out == 1 && x.2.outLink == l && x.2.next == n && decide (x.2.give + lam ≤ e.take)

/-- A word launched near another on its link (R328). -/
def launchClash (s : State) (es : List (Nat × FSlot)) (e : Nat × FSlot) : Bool :=
  e.2.out == 1 && es.any fun x => x.1 != e.1 && x.2.out == 1 && x.2.outLink == e.2.outLink && decide (circDist x.2.give e.2.give (iiOf s) < flitGc s)

/-- A merge register's first OR and its CLR take lie II or more apart (R328). -/
def clearFar (s : State) (es : List (Nat × FSlot)) (e : FSlot) : Bool :=
  e.inp == 3 && e.clr && es.any fun x => x.2.out == 3 && x.2.mreg == e.mreg && decide (x.2.give + iiOf s ≤ e.take)

/-- A field of an entry is out of range (R326). -/
def slotFields (n : Nat) (e : FSlot) : Bool :=
  decide (n < 4096 ∧ e.inp ≤ 3 ∧ e.inLink < 36 ∧ e.out ≤ 3 ∧ e.outLink < 36 ∧ e.mreg < 8 ∧ e.next < 4096 ∧ e.take < 16384 ∧ e.give < 16384)

/-- The first entry of a device that breaks R328. -/
def slotsBad (s : State) (p : Plan) (var : Option (Nat × Nat)) (dev : Nat) : Option Nat :=
  let es := planSlots p var dev
  let ii := max (iiOf s) 1
  match es.find? (fun e => decide (e.2.give < e.2.take) || launchClash s es e || clearFar s es e.2 || !slotFields e.1 e.2 ||
      (e.2.inp == 1 && !senderOk p var dev e.1 e.2)) with
  | some e => some e.1
  | none =>
    if (List.range 36).any (fun l => decide (ii / max (flitGc s) 1 < (es.filter fun e => e.2.out == 1 && e.2.outLink == l).length)) ||
        decide (16384 < sumL (es.map fun e => ceilDiv (e.2.give - e.2.take + 1) ii)) then some 0 else none

/-- The first entry of any device, in the plan's own contents or a variant, that breaks R328. -/
def planBad (s : State) (p : Plan) : Option Nat :=
  (none :: ((p.vars.map fun v => some (v.kind, v.which)).eraseDups)).findSome? fun var =>
    p.devs.findSome? fun d => slotsBad s p var d.id

/-- Standby devices a plan needs (R346). -/
def standbyNeed (n : Nat) : Nat := if n ≤ 64 then ceilDiv n 16 else if n ≤ 256 then ceilDiv n 12 else ceilDiv n 8

/-- Active devices of a plan, and whether it names standbys enough. -/
def activeCount (p : Plan) : Nat := (p.devs.filter fun d => !d.standby).length
def standbyOk (p : Plan) : Bool := decide (activeCount p ≤ 910 ∧ standbyNeed (activeCount p) ≤ p.devs.length - activeCount p)

/-- F is the GIVE of the OUT = 2 entry of every device, of none where the fabric does not fire, and C is at least F (R342). -/
def fireOk (p : Plan) : Bool :=
  let one (d : PlanDev) : Bool := (d.fslot.filter fun e => e.2.out == 2).map (fun e => e.2.give) == [p.f]
  (p.devs.all one || (p.f == 0 && p.devs.all fun d => d.fslot.all fun e => e.2.out != 2)) && decide (p.f ≤ p.c)

/-- The local terms of R23. -/
def localC (s : State) : Nat := combineC { s with fab := { s.fab with plan := none } }

/-- The UIDs of a plan are those assigned: on the master all of them, on another device its own (R341). -/
def planUids (s : State) (p : Plan) : Bool :=
  if s.fab.isMaster then p.devs.all fun d => s.fab.given_ids.contains (d.uid, d.id)
  else p.devs.any fun d => d.id == s.fab.id && d.uid == s.part.uid

/-- The checks of FABRIC_PLAN: the DETAIL of a refusal (R328, R341, R342, R346). -/
def planCheck (s : State) (p : Plan) : Option Nat :=
  match planBad s p with
  | some n => some n
  | none =>
    if p.fKHz ≠ gridKHz s || p.ii ≠ iiOf s || !planUids s p || !fireOk p || decide (910 < activeCount p) || (!p.waive && !standbyOk p) ||
        decide (p.c < localC s) then some 0 else none

/-- What a plan gives a link of this device: compiled latency and the far end's ID. -/
def planLinks (p : Plan) (s : State) : State :=
  (List.range 36).foldl (fun s l =>
    match otherEnd p s.fab.id l with
    | some (d, _, lam) => setLink l { linkAt s l with lam := lam, peerId := d } s
    | none => setLink l { linkAt s l with lam := 0 } s) s

/-- A plan is in force on this device (R341, R342, R346, R387). -/
def planSet (h : Hdr) (p : Plan) (s : State) : State :=
  let s := { s with fab := { s.fab with plan := some p, deputy := p.deputy, redLow := p.waive, lost := [], usedStandby := [], linksLost := [], downLinks := [] } }
  let b := match planDev s with | some d => bankOf d.fslot d.fmask d.epoint | none => {}
  let s := planLinks p { s with fab := { s.fab with act := b, shadow := b, prev := b, flipAt := 0 } }
  let s := recomputeC s
  if s.fab.isMaster then toDeputy p.deputy (toMembers (.plan p) s)
  else if s.ctl.holder = some (srcOf h) then s else changeHolder (some (srcOf h)) 4 s

/-- The command comes from the master of the fabric this device belongs to, which assigned its ID (R339, R387). -/
def fromMaster (h : Hdr) (s : State) : Bool :=
  h.transport == 2 && s.fab.member && !s.fab.isMaster && (match s.fab.plan with | some p => h.inst == p.master | none => h.inst == 0)

/-- FABRIC_PLAN (R341): from the holder on the master, which distributes it, or from the master; ST_BUSY while discovery runs (DESIGN CHOICE,
log 47). -/
def execFabricPlan (h : Hdr) (p : Plan) (s : State) : Host.Outcome State Fault Refusal :=
  goes (control { op := 0x603, states := stRL, anyone := true } h
    (fun _ s =>
      if !fromMaster h s && !owns h s then fails s stNotOwner
      else if s.fab.discovering then fails s stBusy
      else if !s.fab.member || (!s.fab.isMaster && !fromMaster h s) then fails s stState
      else match planCheck s p with
        | some n => fails s stParam n
        | none => { s := planSet h p s }) s)

/-- FABRIC_BARRIER_START (R319, R344): the master names T_b to every device, at least BARRIER_LEAD ahead, and counts from it too. -/
def execFabricBarrierStart (h : Hdr) (tb : Nat) (s : State) : Host.Outcome State Fault Refusal :=
  goes (control { op := 0x604, states := stRL } h
    (fun j s =>
      if !(s.fab.member && s.fab.isMaster) then fails s stState
      else if !leadOk s tb || decide (edgeL s tb < nowL s + 2000000 * 65536) then fails s stExpired
      else if !startFit s || !placesActive s || !ticking s then fails s stState
      else
        let b : BarrierDesc := { tick := tb, start := true }
        let s := toMembers (.barrier b) { s with fab := { s.fab with barriers := s.fab.barriers ++ [b] } }
        { s := waitTick 0x604 h j tb (if isStandby s then setDev .armed s else armSet tb s), wait := true }) s)

/-- The bytes of FABRIC_STATE; the spec gives their contents without a layout (log 23): master, member, REDUNDANCY_LOW, overflow, depth, own ID, EPOCH, master
UID, deputy, devices with IDs, lost devices, plan digest. -/
def fabricStateBytes (s : State) : List Byte :=
  le 1 (bnat s.fab.member + 2 * bnat s.fab.isMaster + 4 * bnat s.fab.discovering + 8 * bnat s.fab.redLow + 16 * bnat s.fab.overflow + 32 * bnat s.fab.timeDeep) ++
  le 1 s.fab.timeHops ++ le 2 s.fab.id ++ le 2 s.fab.epoch ++ le 2 s.fab.deputy ++ le 8 s.fab.masterUid ++ le 2 s.fab.given_ids.length ++
  le 2 s.fab.lost.length ++ le 64 (planDigest s).toNat ++ s.fab.lost.flatMap (fun d => le 2 d) ++
  s.fab.given_ids.flatMap fun e => le 8 e.1 ++ le 2 e.2

/-- FABRIC_STATE (R339, R346, R364). -/
def execFabricState (h : Hdr) (s : State) : Host.Outcome State Fault Refusal :=
  goes (observe { op := 0x605, states := anySt } h (fun s => { s := s, result := (fabricStateBytes s).take 4064 }) s)

/-- The depth of this device under a fabric time root (R340, R364). -/
def timeDepth (s : State) (root : Nat) : Option Nat := distOf (levels (idEdges s) root) s.fab.id

/-- FABRIC_TIME_ROOT (R364): on the master; the device must be one of the fabric. -/
def execFabricTimeRoot (h : Hdr) (dev : Nat) (s : State) : Host.Outcome State Fault Refusal :=
  goes (control { op := 0x606, states := stRL } h
    (fun _ s =>
      if !(s.fab.member && s.fab.isMaster) then fails s stState
      else if !(s.fab.given_ids.any fun e => e.2 == dev) then fails s stParam
      else
        let d := if dev = s.fab.id then 0 else (timeDepth s dev).getD 16
        { s := { s with fab := { s.fab with timeRoot := some dev, timeHops := d, timeDeep := decide (15 < d) } } }) s)

/-- COLLECT_CFG (R343): a D2H engine of SRC records. -/
def execCollectCfg (h : Hdr) (e : Nat) (s : State) : Host.Outcome State Fault Refusal :=
  goes (control { op := 0x607, states := stRLP } h
    (fun _ s => if decide (e < 32) && engSrc s e == 0 then { s := { s with acq := { s.acq with collect := some e } } } else fails s stParam) s)

/-- Commands of R391 that only observe. -/
def observeOps : List Nat :=
  [0x101, 0x102, 0x106, 0x10D, 0x10F, 0x204, 0x209, 0x20B, 0x20C, 0x20D, 0x307, 0x405, 0x504, 0x605, 0x703, 0x706, 0x804, 0x901, 0x903]

/-- FABRIC_FORWARD to a device: it waits for the reply, or its target cannot be reached (R381). j is 0 for an observe command. -/
def forwardAct (h : Hdr) (dest : Nat) (bytes : List Byte) (j : Nat) (s : State) : Act :=
  let r := erouteOf s dest
  if !s.fab.member || r == 0 || r == 128 || s.fab.lost.contains dest then fails s stUnreach
  else if bytes.length < 32 then fails s stParam
  else
    let w : Waiting := { jseq := j, h := { h with raw := le 2 dest ++ bytes }, opcode := 0x608, tick := some dest }
    { s := sendMsg2 dest (.command bytes) { s with ctl := { s.ctl with forwards := s.ctl.forwards ++ [w] } }, wait := true }

/-- FABRIC_FORWARD (R381): an enclosed observe command is forwarded as one. -/
def execFabricForward (h : Hdr) (dest : Nat) (bytes : List Byte) (s : State) : Host.Outcome State Fault Refusal :=
  goes (
    if observeOps.contains (unle (slice 2 2 bytes)) then observe { op := 0x608, states := anySt } h (forwardAct h dest bytes 0) s
    else control { op := 0x608, states := anySt } h (forwardAct h dest bytes) s)

/-- FABRIC_FORWARD_TIMEOUT (R381): the oldest forward has had no reply for 100 ms. -/
def execFabricForwardTimeout (s : State) : Host.Outcome State Fault Refusal :=
  goes (match s.ctl.forwards with
    | [] => s
    | f :: r =>
      let s := { s with ctl := { s.ctl with forwards := r } }
      if f.jseq = 0 then sendReply (mkReply f.opcode f.h none stUnreach 0 []) s
      else finish f.opcode f.h f.jseq stUnreach 0 [] [] s)

end Sys2Proof.Machine
end

