-- ==== Sys2Proof/Machine/HostRows.lean ====
section
/-!
DEFINITION. Rows of the host interface: register writes, doorbells, queues, events, BAR0 and BAR2 accesses, resets of the link
(17, 14 R380, R394, 10 R288).
-/

namespace Sys2Proof.Machine

/-- The registers a host writes directly: SQ_BASE, Q_CQ_BASE and SQ_CFG (R380, R470). -/
def directWrite (e : CfgEntry) (s : State) : State :=
  match regKind e.off with
  | some (.sqBase, i) | some (.qcqBase, i) =>
    if bit (regAt s (0x10010 + 0x40 * i)) 63 then s else cfgApply [e] s
  | some (.sqCfg, i) =>
    if valueOk .sqCfg (writeRw .sqCfg i (regAt s (0x10010 + 0x40 * i)) e.mask e.value) then cfgApply [e] s else mmioDenied s
  | _ => mmioDenied s

/-- REGISTER_WRITE: through CFG_WRITE, or directly by the host where R470 allows it (R389, R470). -/
def execRegisterWrite (via : Option Hdr) (e : CfgEntry) (s : State) : Host.Outcome State Fault Refusal :=
  goes (match via with
    | some h => cfgCmd h [e] s
    | none => if s.dev.st = .off then s else directWrite e s)

/-- MMIO_DENIED (R470): in the doorbell region DB_BAD counts instead (R480). -/
def execMmioDenied (off _size : Nat) (s : State) : Host.Outcome State Fault Refusal :=
  goes (if s.dev.st = .off then s
    else if 0x2000000 ≤ off && decide (off < 0x2100000) then dbBad ((off - 0x2000000) / 4096) s else mmioDenied s)

/-- RC_READ (R469). -/
def execRcRead (off size : Nat) (s : State) : Host.Outcome State Fault Refusal := goes (bar0Read off size s)

/-- TXTS_HEAD_READ (R363). -/
def execTxtsHeadRead (off size : Nat) (s : State) : Host.Outcome State Fault Refusal :=
  goes (if 0x60050 ≤ off && decide (off < 0x60060) then bar0Read off size s else s)

/-- ERRQ_OVF_CLEAR (R408). -/
def execErrqOvfClear (h : Hdr) (s : State) : Host.Outcome State Fault Refusal :=
  goes (cfgCmd h (one 0x50000 (2 ^ 63) (2 ^ 63)) s)

/-- TXTS_OVF_CLEAR (R363). -/
def execTxtsOvfClear (h : Hdr) (s : State) : Host.Outcome State Fault Refusal :=
  goes (cfgCmd h (one 0x60060 (2 ^ 31) (2 ^ 31)) s)

/-- QUEUE_ENABLE: a direct write of SQ_CFG with EN = 1 (R380, R470). -/
def execQueueEnable (q size vector : Nat) (s : State) : Host.Outcome State Fault Refusal :=
  goes (if s.dev.st = .off || decide (64 ≤ q) then s
    else directWrite { off := 0x10010 + 0x40 * q, mask := 2 ^ 64 - 1, value := 2 ^ 63 + size % 16 * 2 ^ 59 + vector % 256 * 2 ^ 48 } s)

/-- QUEUE_DISABLE: a direct write that clears EN (R380). -/
def execQueueDisable (q : Nat) (s : State) : Host.Outcome State Fault Refusal :=
  goes (if s.dev.st = .off || decide (64 ≤ q) then s else directWrite { off := 0x10010 + 0x40 * q, mask := 2 ^ 63, value := 0 } s)

/-- EVENT_RING_ENABLE (R394). -/
def execEventRingEnable (h : Hdr) (en : Bool) (size minSev vector : Nat) (s : State) : Host.Outcome State Fault Refusal :=
  goes (cfgCmd h (one 0x20008 (ones 63 48) (bnat en * 2 ^ 63 + size % 16 * 2 ^ 59 + minSev % 8 * 2 ^ 56 + vector % 256 * 2 ^ 48)) s)

/-- DMA_ENGINE_ENABLE (R288). -/
def execDmaEngineEnable (h : Hdr) (e src stream rsize : Nat) (s : State) : Host.Outcome State Fault Refusal :=
  goes (cfgCmd h (one (0x30000 + 0x40 * e) (ones 63 52)
    (2 ^ 63 + src % 4 * 2 ^ 61 + stream % 32 * 2 ^ 56 + rsize % 16 * 2 ^ 52)) s)

/-- DMA_ENGINE_DISABLE (R288). -/
def execDmaEngineDisable (h : Hdr) (e : Nat) (s : State) : Host.Outcome State Fault Refusal :=
  goes (cfgCmd h (one (0x30000 + 0x40 * e) (2 ^ 63) 0) s)

/-- DMA_ENGINE_STOPPED (R288): the engine has no descriptor under way and owes no completion; the CFG_WRITE is final when every engine it
stops has stopped. -/
def execDmaEngineStopped (e : Nat) (s : State) : Host.Outcome State Fault Refusal :=
  goes (
    let x := engAt s e
    if x.stopping && x.cur.isNone && x.owed.isNone then
      let s := setEng e { x with stopping := false, stopReply := none } s
      match x.stopReply with
      | some j => if s.eng.any (fun y => y.2.stopReply == some j) then s else finishLong j 0 0 [] s
      | none => s
    else s)

/-- DMA_RING_BASE_WRITE (R288). -/
def execDmaRingBaseWrite (h : Hdr) (e : Nat) (cq : Bool) (addr : Nat) (s : State) : Host.Outcome State Fault Refusal :=
  goes (cfgCmd h (one ((if cq then 0x30010 else 0x30008) + 0x40 * e) (2 ^ 64 - 1) addr) s)

/-- LINK_ENABLE (R320, R321). -/
def execLinkEnable (h : Hdr) (l : Nat) (s : State) : Host.Outcome State Fault Refusal :=
  goes (cfgCmd h (one (0xB0000 + 16 * l) (2 ^ 31) (2 ^ 31)) s)

/-- LADDER_DISABLE (R284, R285): the level falls at the next tick edge. -/
def execLadderDisable (h : Hdr) (s : State) : Host.Outcome State Fault Refusal :=
  goes (cfgCmd h (one 0x70000 (2 ^ 63) 0) s)

/-- LADDER_MAX_LOWER (R284, R285). -/
def execLadderMaxLower (h : Hdr) (max : Nat) (s : State) : Host.Outcome State Fault Refusal :=
  goes (cfgCmd h (one 0x70000 (ones 62 59) (max % 16 * 2 ^ 59)) s)

/-- TICK_SOURCE_WRITE: entries over TICK_CFG, TICK_PERIOD, TICK_EPOCH and TICK_EPOCH_TIME (R366). -/
def execTickSourceWrite (h : Hdr) (es : List CfgEntry) (s : State) : Host.Outcome State Fault Refusal :=
  goes (cfgCmd h (es.filter fun e => [0x60010, 0x60018, 0x60020, 0x60028, 0x60030].contains e.off) s)

/-- TIMING_MODE_WRITE (R302). -/
def execTimingModeWrite (h : Hdr) (c1 : Bool) (s : State) : Host.Outcome State Fault Refusal :=
  goes (cfgCmd h (one 0x40 (2 ^ 48) (bnat c1 * 2 ^ 48)) s)

/-- ALIGN_DEPTH_WRITE (R471). -/
def execAlignDepthWrite (h : Hdr) (depth : Nat) (s : State) : Host.Outcome State Fault Refusal :=
  goes (cfgCmd h (one 0x48 (ones 47 32) (depth % 65536 * 2 ^ 32)) s)

/-- BAR2_CFG_WRITE (R484): requests before it use the old offset, those after it the new one. ofs is a local address. -/
def execBar2CfgWrite (h : Hdr) (wrEn : Bool) (ofs : Nat) (s : State) : Host.Outcome State Fault Refusal :=
  goes (cfgCmd h (one 0x58 (ones 63 63 + ones 38 28) (bnat wrEn * 2 ^ 63 + ofs % 2 ^ 39)) s)

/-- BAR2_RESIZE (R466, R484): a power of two from 256 MiB to 512 GiB; an OFS left unaligned becomes 0. -/
def execBar2Resize (size : Nat) (s : State) : Host.Outcome State Fault Refusal :=
  goes (if s.dev.st != .off && (rangeFrom 28 12).any (fun k => size == 2 ^ k) then
      let s := { s with host := { s.host with bar2Size := size } }
      if regAt s 0x58 % 2 ^ 63 % size = 0 then s else setReg 0x58 (regAt s 0x58 / 2 ^ 63 * 2 ^ 63) s
    else s)

/-- MSIX_TABLE_WRITE (R470, R479): unmasking sends a pending message. -/
def execMsixTableWrite (vec addr data : Nat) (masked : Bool) (s : State) : Host.Outcome State Fault Refusal :=
  goes (if s.dev.st = .off || decide (256 ≤ vec) then s
    else
      let s := setMsix vec { addr := addr, data := data, masked := masked } s
      if !masked && s.host.pba.contains vec then
        trigger vec { s with host := { s.host with pba := s.host.pba.filter (· != vec) } }
      else s)

/- Doorbells (R480). A value of 32 bits and 4 bytes is tested; anything else counts DB_BAD. -/

/-- SQ_DOORBELL. -/
def execSqDoorbell (q v size : Nat) (s : State) : Host.Outcome State Fault Refusal :=
  goes (
    let cfg := regAt s (0x10010 + 0x40 * q)
    let x := queueAt s q
    let n := 2 ^ (bits cfg 62 59 + 4)
    if s.dev.st = .off then s
    else if dbOpen s && size == 4 && decide (v < 65536 ∧ q < 64) && bit cfg 63 &&
        decide (dist16 v x.head ≤ n ∧ dist16 v x.tail ≤ n - (x.tail - x.head)) then
      setQueue q { x with tail := x.tail + dist16 v x.tail } s
    else dbBad (2 * q) s)

/-- CQ_DOORBELL. -/
def execCqDoorbell (q v size : Nat) (s : State) : Host.Outcome State Fault Refusal :=
  goes (
    let x := queueAt s q
    if s.dev.st = .off then s
    else if dbOpen s && size == 4 && decide (v < 65536 ∧ q < 64) && bit (regAt s (0x10010 + 0x40 * q)) 63 &&
        decide (dist16 v x.ci ≤ x.wr - x.ci) then
      setQueue q { x with ci := x.ci + dist16 v x.ci } s
    else dbBad (2 * q + 1) s)

/-- DMA_DOORBELL. -/
def execDmaDoorbell (e v size : Nat) (s : State) : Host.Outcome State Fault Refusal :=
  goes (
    let x := engAt s e
    if s.dev.st = .off then s
    else if dbOpen s && size == 4 && decide (v < 65536 ∧ e < 40) && engEn s e &&
        decide (dist16 v x.ci ≤ engSize s e ∧ x.pi - x.ci ≤ dist16 v x.ci) then
      setEng e { x with pi := x.ci + dist16 v x.ci } s
    else dbBad (128 + e) s)

/-- EVQ_DOORBELL. -/
def execEvqDoorbell (v size : Nat) (s : State) : Host.Outcome State Fault Refusal :=
  goes (
    if s.dev.st = .off then s
    else if dbOpen s && size == 4 && decide (v < 65536) && evqEn s && decide (dist16 v s.host.evTail ≤ s.host.evHead - s.host.evTail) then
      let tail := s.host.evTail + dist16 v s.host.evTail
      { s with host := { s.host with evTail := tail, unread := s.host.unread.filter fun p => decide (tail < p) } }
    else dbBad 168 s)

/- Queues (R380, R384, R481). -/

/-- Queue n has an entry to take and its completion ring does not hold it up. -/
def canTake (s : State) (q : Nat) : Bool :=
  let x := queueAt s q
  let n := 2 ^ (bits (regAt s (0x10010 + 0x40 * q)) 62 59 + 4)
  bit (regAt s (0x10010 + 0x40 * q)) 63 && decide (x.head < x.tail) && decide (x.wr - x.ci < n)

/-- SUBMISSION_TAKE: one entry of each queue with work in each round (R380, R384). bytes are the entry as read. -/
def execSubmissionTake (q : Nat) (bytes : List Byte) (s : State) : Host.Outcome State Fault Refusal :=
  goes (
    if s.dev.st = .off || !s.pwr.saveOk || decide (64 ≤ q) || !canTake s q then s
    else
      let again := s.ctl.served.contains q
      if again && (List.range 64).any (fun p => canTake s p && !s.ctl.served.contains p) then s
      else
        let x := queueAt s q
        let s := setQueue q { x with head := x.head + 1 } s
        { s with ctl := { s.ctl with
            served := if again then [q] else q :: s.ctl.served
            taken := s.ctl.taken.filter (fun t => t.queue != q) ++ [{ queue := q, bytes := slice 0 64 bytes }] } })

/-- A completion entry and what goes to RADDR (R373, R380): entry, address and bytes of the longer result. -/
def completionOf (r : Reply) (phase : Bool) : List Byte × Option (Nat × List Byte) :=
  let n := r.result.length
  if n ≤ 32 then
    let b := replyBytes r phase false n
    (b ++ List.replicate (64 - b.length) 0#8, none)
  else
    let room := if r.indirect && r.raddr != 0 then r.rsize else 0
    let k := min n room
    let b := replyBytes r phase (decide (room < n)) k
    (b.take 32 ++ le 4 k ++ List.replicate 28 0#8, if k = 0 then none else some (r.raddr, r.result.take k))

/-- COMPLETION_WRITE: the oldest reply of a queue, once the host has freed an entry (R380, R481). -/
def execCompletionWrite (q : Nat) (s : State) : Host.Outcome State Fault Refusal :=
  goes (
    match s.ctl.replies.find? (fun r => r.source / 65536 % 4096 == q) with
    | none => s
    | some r =>
      let cfg := regAt s (0x10010 + 0x40 * q)
      let x := queueAt s q
      let n := 2 ^ (bits cfg 62 59 + 4)
      if !bit cfg 63 || decide (n ≤ x.wr - x.ci) then s
      else
        let (e, far) := completionOf r (x.wr / n % 2 == 0)
        let s := { s with ctl := { s.ctl with replies := s.ctl.replies.erase r } }
        let s := match far with | some (a, b) => send (.mem a b) s | none => s
        let s := send (.mem (regAt s (0x10008 + 0x40 * q) + 64 * (x.wr % n)) e) s
        trigger (bits cfg 55 48) (setQueue q { x with wr := x.wr + 1 } s))

/-- EVENT_WRITE: the oldest raised event goes to its destinations (R394). -/
def execEventWrite (s : State) : Host.Outcome State Fault Refusal :=
  goes (match s.host.raised with
    | [] => if evqEn s then lostMark s else s
    | r :: l => eventElse r (eventRing r { s with host := { s.host with raised := l } }))

/-- IRQ_HOLDOFF_END (R479). -/
def execIrqHoldoffEnd (vec : Nat) (s : State) : Host.Outcome State Fault Refusal :=
  goes (
    let m := s.host.merged.contains vec
    let s := { s with host := { s.host with holding := s.host.holding.filter (· != vec), merged := s.host.merged.filter (· != vec) } }
    if m then trigger vec s else s)

/- BAR2 (R484, R485). -/

/-- Areas of R485. -/
inductive Area where
  | ring | staging | store | replay | loader | free
  deriving DecidableEq, Repr

/-- The area of a local address. -/
def areaOf (s : State) (a : Nat) : Area :=
  if loaderBase s ≤ a then .loader
  else if ringOn s && decide (a < ringSize s) then .ring
  else if stageBase s ≤ a && decide (a < stageBase s + stageSize s) then .staging
  else if regAt s 0x1028 ≤ a && decide (a < regAt s 0x1028 + regAt s 0x1030) then .store
  else if s.acq.recg.area ≤ a && decide (a < s.acq.recg.area + s.acq.recg.size) then .replay
  else .free

/-- A write may go to an area (R485). -/
def bar2May (s : State) : Area → Bool
  | .store | .free => bit (regAt s 0x58) 63
  | .replay => bit (regAt s 0x58) 63 && !s.acq.recg.running && !s.acq.replay.running
  | _ => false

/-- Local address of a BAR2 offset. -/
def bar2Local (s : State) (off : Nat) : Nat := regAt s 0x58 % 2 ^ 63 + off

/-- BAR2_READ: Unsupported Request in the loader area and above HBM_SIZE (R485). -/
def execBar2Read (off len : Nat) (s : State) : Host.Outcome State Fault Refusal :=
  goes (
    if s.dev.st = .off || decide (s.host.bar2Size < off + len) then s
    else
      let a := bar2Local s off
      if (List.range len).all (fun k => areaOf s (a + k) != .loader) then send (.completion true (hbmRead s a len)) s
      else send (.completion false []) s)

/-- BAR2_WRITE: one that touches an area it may not write is dropped whole and counted (R485; DESIGN CHOICE, log 29). -/
def execBar2Write (off : Nat) (bytes : List Byte) (s : State) : Host.Outcome State Fault Refusal :=
  goes (
    if s.dev.st = .off || decide (s.host.bar2Size < off + bytes.length) then s
    else
      let a := bar2Local s off
      if (List.range bytes.length).all (fun k => bar2May s (areaOf s (a + k))) && !saving s then hbmWrite a bytes s
      else { s with host := { s.host with bar2Denied := satAdd 32 s.host.bar2Denied 1 } })

/- Resets of the link (R467). -/

/-- PERST: falling, host-facing state is reset; rising, PCIE_CFG and SUBSYS take effect (R465, R467, R471). -/
def execPerst (level : Bool) (s : State) : Host.Outcome State Fault Refusal :=
  goes (
    let s := { s with dev := { s.dev with perstN := level } }
    if s.dev.st = .off then s
    else if level then { s with host := { s.host with pcieCfg := regAt s 0x28, subsysShown := regAt s 0x30 } }
    else configReset (hostLost { s with host := { s.host with linkUp := false } }))

/-- HOT_RESET (R467). -/
def execHotReset (s : State) : Host.Outcome State Fault Refusal :=
  goes (if s.dev.st = .off then s else configReset (hostLost s))

/-- FLR (R467). -/
def execFlr (s : State) : Host.Outcome State Fault Refusal :=
  goes (if s.dev.st = .off then s else configReset (hostLost s))

/-- PCIE_LINK_DOWN (R465, R467). -/
def execPcieLinkDown (s : State) : Host.Outcome State Fault Refusal :=
  goes (if s.dev.st = .off then s
    else hostLost { s with host := { s.host with linkUp := false, linkDowns := satAdd 32 s.host.linkDowns 1 } })

/-- D3HOT_ENTRY (R467): as a link-down event, with the link itself up. -/
def execD3hotEntry (s : State) : Host.Outcome State Fault Refusal :=
  goes (if s.dev.st = .off then s else hostLost { s with host := { s.host with d3 := true } })

/-- PCIE_LINK_TRAIN (R463, R465, R512): the link comes up at a rate and width PCIE_CFG offers; at 64.0 and 128.0 GT/s, SPEED 6 and 7, always in
flit mode. -/
def execPcieLinkTrain (speed width : Nat) (flit : Bool) (s : State) : Host.Outcome State Fault Refusal :=
  goes (
    let cfg := regAt s 0x28
    if s.dev.st = .off || !s.dev.perstN || speed == 0 || decide (bits cfg 2 0 < speed ∨ bits cfg 7 3 < width) ||
        !([1, 2, 4, 8, 16] : List Nat).contains width then s
    else { s with host := { s.host with linkUp := true, speed := speed, width := width, flit := flit || decide (6 ≤ speed), pcieCfg := cfg, d3 := false } })

end Sys2Proof.Machine
end

