-- ==== Sys2Proof/Machine/PowerRows.lean ====
section
/-!
DEFINITION. Package, power and start-up: the power manager, rails, the power-fail save, reset and the start-up sequence, the TAP
(18 R490 to R512).
-/

namespace Sys2Proof.Machine

/-- The part answers events of its supplies and pins: it is neither OFF nor between the steps of start-up. -/
def awake (s : State) : Bool := s.dev.st != .off && s.dev.st != .boot

/- The TAP (R462, R510). -/

/-- Instructions that take the pins. -/
def takesPins : Jtag → Bool
  | .extest | .clamp | .highz | .intest | .extestPulse | .extestTrain => true
  | _ => false

/-- The code by which State holds the instruction in force. -/
def jtagCode : Jtag → Nat
  | .bypass => 0 | .idcode => 1 | .sample => 2 | .preload => 3 | .extest => 4 | .clamp => 5 | .highz => 6 | .intest => 7
  | .extestPulse => 8 | .extestTrain => 9 | .scan => 10 | .halt _ => 11

/-- The core to be halted first hands its roles on (R421, R462); one core at a time. -/
def haltCore (k : Nat) (s : State) : State :=
  let c := coreAt s k
  if decide (8 ≤ k) || !c.alive || s.flt.cores.any (fun x => x.restarting) then s
  else
    let s := setCore k { c with roles := [], restarting := true } { s with flt := { s.flt with roleWait := s.flt.roleWait ++ c.roles } }
    if c.roles.isEmpty then s else startAct { act := 0x83, core := k } 0 s

/-- The debug level opens an instruction. -/
def jtagOpen (s : State) : Jtag → Bool
  | .scan => decide (1 ≤ s.upd.level)
  | .halt _ => decide (2 ≤ s.upd.level)
  | _ => true

/-- IDCODE (R510): stepping 1 for A1 and 2 for B0, the part 0xC200, Titrira's manufacturer code. No row of the table shifts it out. -/
def idcode (s : State) : Nat := (if s.part.b0 then 2 else 1) * 2 ^ 28 + 0xC2005CB

/-- JTAG_INSTRUCTION (R462, R510): one that takes the pins of a device that runs first puts it into SAFE_STOP. -/
def execJtagInstruction (i : Jtag) (s : State) : Host.Outcome State Fault Refusal :=
  goes (
    if !jtagOpen s i then s
    else
      let s := if takesPins i && inRun s then enterSafe 0x40 s else s
      let s := match i with | .halt k => haltCore k s | _ => s
      { s with dev := { s.dev with jtag := jtagCode i } })

/- The power manager (R499 to R501). -/

/-- A sample with the effective sensor offsets of R220: temperatures in 1/16 degree C, voltages in mV, VAUX_IN in 10 mV. -/
def corrected' (s : State) (m : Sample) : Sample :=
  let off (item i : Nat) : Int := (calEffective s item i).1
  let volt (i : Nat) (v : Nat) : Nat := ((v : Int) + (if i = 14 then off 7 i / 10 else off 7 i)).toNat
  { m with
    grid := m.grid.zipIdx.map fun (t, i) => t + off 6 i
    iod := m.iod.zipIdx.map fun (t, i) => t + off 6 (16 + i)
    hbm := m.hbm.zipIdx.map fun (t, i) => t + off 6 (20 + i)
    volts := m.volts.zipIdx.map fun (v, i) => volt i v }

/-- Sensors of the dies that are powered. -/
def dieSensors (s : State) (m : Sample) : List Int :=
  ((m.grid.zipIdx.filter fun (_, i) => powered s (i / 4)).map (·.1)) ++ m.iod

/-- A threshold in degrees C is reached, and releases 3 degrees below (R501). -/
def reached (was : Bool) (deg : Int) (l : List Int) : Bool :=
  l.any fun t => decide (16 * deg ≤ t) || (was && decide (16 * (deg - 3) ≤ t))

/-- The levels of one kind of sensor. -/
def thermLevels (warn cap trip : Int) (l : List Int) (t : Therm) : Therm :=
  { warn := reached t.warn warn l, cap := reached t.cap cap l, trip := reached t.trip trip l }

def capLevel (s : State) : Bool := s.pwr.dieT.cap || s.pwr.hbmT.cap

/-- PASS_GAP and RING_RATE of a step of the cap (R499). -/
def capGap (step : Nat) : Nat := if step = 0 then 0 else min (2 ^ 24) (1024 * 2 ^ (step - 1))
def capRate (step : Nat) : Nat := max 16 (1024 / 2 ^ step)
/-- The last step, at which PASS_GAP is 2^24. -/
def capLast : Nat := 15

/-- The cap stands at a step. In C1 timing mode it has no effect (R302, R499). -/
def capAt (step : Nat) (s : State) : State :=
  let k := if c1Mode s then 0 else step
  { s with pwr := { s.pwr with step := step }, t2 := { s.t2 with passGap := capGap k, ringRate := capRate k } }

/-- The cap engages or releases: POWER_CAP. -/
def setCap (on : Bool) (s : State) : State :=
  if s.pwr.cap = on then s
  else raiseEv { code := 0xB2, sev := 0, body := le 1 (bnat on) } { s with pwr := { s.pwr with cap := on, lowMs := 0 } }

/-- The 1 ms average closes with its tenth sample. -/
def addPower (p : Nat) (s : State) : State :=
  let l := s.pwr.sum ++ [p]
  if l.length < 10 then { s with pwr := { s.pwr with sum := l } }
  else
    let a := sumL l / l.length
    { s with pwr := { s.pwr with sum := [], avg := a, maxAvg := max s.pwr.maxAvg a } }

/-- One kind of sensor: its levels, THERMAL_WARN and THERMAL_CAP where they are newly reached. -/
def thermEvents (old new : Therm) (kind : Nat) (s : State) : State :=
  let s := if new.warn && !old.warn then raiseEv { code := 0xB0, sev := 1, body := le 1 kind } s else s
  if new.cap && !old.cap then raiseEv { code := 0xB1, sev := 1, body := le 1 kind } s else s

/-- T_TRIP: SAFE_STOP with cause THERMAL, and the S4 record (R402, R501). -/
def tripped (kind : Nat) (s : State) : State := fault { code := 0x0805, sev := 4, unit := kind } (enterSafe 0x20 s)

/-- POWER_SAMPLE (R499 to R501). -/
def execPowerSample (m : Sample) (s0 : State) : Host.Outcome State Fault Refusal :=
  goes (
    if !awake s0 then s0
    else
      let m := corrected' s0 m
      let d := thermLevels 95 100 110 (dieSensors s0 m) s0.pwr.dieT
      let h := thermLevels 85 90 100 m.hbm s0.pwr.hbmT
      let s := addPower m.power { s0 with pwr := { s0.pwr with temps := m, dieT := d, hbmT := h } }
      let s := thermEvents s0.pwr.hbmT h 1 (thermEvents s0.pwr.dieT d 0 s)
      let s := if !c1Mode s && (decide (7600 ≤ s.pwr.avg) || capLevel s) then setCap true s else s
      let s := if m.clockBad then fault { code := 0x0804, sev := 4 } s else s
      if d.trip && !s0.pwr.dieT.trip then tripped 0 s
      else if h.trip && !s0.pwr.hbmT.trip then tripped 1 s else s)

/-- Every sensor lies below T_CAP - 3 degrees C and the average below 720 W. -/
def capLow (s : State) : Bool :=
  decide (s.pwr.avg < 7200) && (dieSensors s s.pwr.temps).all (fun t => decide (t < 16 * 97)) && s.pwr.temps.hbm.all fun t => decide (t < 16 * 87)

/-- The average has stayed above 780 W for 10 ms at the last step or in C1 timing mode: POWER_OVER, once for each such spell. -/
def powerOver (s : State) : State :=
  if decide (7800 < s.pwr.avg) && (c1Mode s || (s.pwr.cap && s.pwr.step == capLast)) then
    let n := min (s.pwr.overMs + 1) 10
    let s := { s with pwr := { s.pwr with overMs := n } }
    if n = 10 && !s.pwr.above then raiseEv { code := 0xB3, sev := 1, body := le 2 s.pwr.avg } { s with pwr := { s.pwr with above := true } } else s
  else { s with pwr := { s.pwr with overMs := 0, above := false } }

/-- CAP_STEP, each 1 ms (R499). -/
def execCapStep (s : State) : Host.Outcome State Fault Refusal :=
  goes (
    if !awake s then s
    else if c1Mode s then powerOver (capAt 0 (setCap false s))
    else if !s.pwr.cap then powerOver s
    else
      let n := if capLow s then s.pwr.lowMs + 1 else 0
      let s := { s with pwr := { s.pwr with lowMs := n } }
      powerOver (
        if n < 10 then capAt (min capLast (s.pwr.step + 1)) s
        else
          let s := capAt (s.pwr.step - 1) s
          if s.pwr.step = 0 then setCap false s else s))

/- Rails (R497, R498). -/

/-- The quadrant of a failed grid rail is lost (R419): at the next tick edge, or at once where none comes. -/
def loseRail (rail : Nat) (s : State) : State :=
  let s := loseQuad rail false s
  if ticking s then s else quadLosses s

/-- AVS_TRANSACTION (R497). The C2 asks for no setpoint but one of 5 mV steps within 0.60 to 0.80 V. -/
def execAvsTransaction (rail mv : Nat) (ok : Bool) (s : State) : Host.Outcome State Fault Refusal :=
  goes (
    if !awake s || decide (4 ≤ rail ∨ mv < 600 ∨ 800 < mv ∨ mv % 5 ≠ 0) then s
    else if ok then avsSend rail mv { s with pwr := { s.pwr with avsFail := s.pwr.avsFail.set rail 0 } }
    else
      let n := s.pwr.avsFail.getD rail 0 + 1
      let s := send (.avs rail mv) { s with pwr := { s.pwr with avsFail := s.pwr.avsFail.set rail n } }
      if n = 3 then loseRail rail s else s)

/-- The items of the save whose source is on the I/O die may be lost with its supply: their VALID bits are free (R506; log 64). -/
def saveDoubt (s : State) : State :=
  let (v, s) := drawFree 16 s
  { s with pwr := { s.pwr with save := { s.pwr.save with valid := s.pwr.save.valid &&& (0x62 ||| v.toNat) } } }

/-- A rail beyond the limits: SAFE_STOP with cause SUPPLY and the S4 record (R402, R498). -/
def supplyFault (rail : Nat) (s : State) : State := fault { code := 0x0805, sev := 4, unit := 2, index := rail } (enterSafe 0x21 s)

/-- RAIL_FAULT: rails in the order of V_RAIL (R498, R500, R505). A grid rail both loses its quadrant and starts the save (log 61). -/
def execRailFault (rail : Nat) (s : State) : Host.Outcome State Fault Refusal :=
  goes (
    if !awake s || decide (15 ≤ rail) then s
    else if rail < 4 then startSave 2 (loseRail rail s)
    else if rail = 14 then startSave 1 s
    else if rail = 4 then supplyFault rail (saveDoubt (startSave 2 s))
    else if rail = 8 then saveDoubt (supplyFault rail s)
    else supplyFault rail s)

/- The power-fail save (R505 to R507). -/

/-- PWRFAIL (R505): PWRFAIL_N has been low for 1 us. -/
def execPwrfail (s : State) : Host.Outcome State Fault Refusal :=
  goes (
    let s := { s with dev := { s.dev with pwrfailN := false } }
    if s.dev.st == .off then s else startSave 0 s)

/-- The error queue with S4 records first (R507). -/
def savedErrq (s : State) : List FaultRec :=
  let l := s.flt.errq.map (·.f)
  (l.filter fun f => f.sev == 4) ++ l.filter fun f => f.sev != 4

/-- Digest of the combiner's configuration: line descriptors, SCMP registers, GHO (R507). -/
def combinerDigest (s : State) : BitVec 512 :=
  sha3Num ((List.range 256).flatMap (fun n => lineDescBytes (lineSt s n).d) ++
    (List.range 1024).flatMap (fun i => le 8 (regAt s (0x72000 + 8 * i))) ++ le 8 (regAt s 0x70010))

/-- The record of the state as it stands when the copy is made (R506, R507). -/
def saveNow (s : State) : Save :=
  let t := rebase s.time s.time.raw
  { s.pwr.save with
    lastJ := s.ctl.jnext - 1
    cullet := (culletSnap s).headD []
    r0 := t.r0, l0 := t.l0, rate := t.rate, slew := t.slew, rem := t.rem
    timeCfg := bit' (regAt s 0x60000) 7 + 2 * bits (regAt s 0x60000) 2 0
    sections := (List.range 16).map fun h => if (secAt s h).resident then (secAt s h).img.digest else 0#512
    combiner := combinerDigest s, config := configDigest s, update := updateRecord s, errq := savedErrq s }
where
  /-- A bit as a number. -/
  bit' (w k : Nat) : Nat := bnat (bit w k)

/-- What an item with its VALID bit clear holds is a free value (R506; log 64). -/
def saveFree (v : Save) (s : State) : Save × State :=
  let (a, s) := if bit v.valid 0 then (v.cullet, s) else (fun (x : BitVec 2560 × State) => (le 320 x.1.toNat, x.2)) (drawFree 2560 s)
  let (b, s) := if bit v.valid 2 then (v.sections, s)
    else (List.range 16).foldl (fun (x : List (BitVec 512) × State) (_ : Nat) => (x.1 ++ [(drawFree 512 x.2).1], (drawFree 512 x.2).2)) ([], s)
  let (c, s) := if bit v.valid 3 then (v.combiner, s) else drawFree 512 s
  let (d, s) := if bit v.valid 4 then (v.config, s) else drawFree 512 s
  ({ v with cullet := a, sections := b, combiner := c, config := d }, s)

/-- The saved record to use: the highest SSEQ of those whose DIGEST is correct (R508). -/
def newestSave (s : State) : Option Save :=
  match s.pwr.slotA.filter (·.ok), s.pwr.slotB.filter (·.ok) with
  | some a, some b => if b.sseq < a.sseq then some a else some b
  | some a, none => some a
  | none, b => b

/-- Saves alternate between the slots, SSEQ rising (R507). -/
def storeSave (v : Save) (s : State) : State :=
  let n := match newestSave s with | some o => o.sseq + 1 | none => 1
  let v := { v with sseq := n }
  let aNewest : Bool := match s.pwr.slotA with | some a => a.ok && a.sseq + 1 == n | none => false
  if aNewest then { s with pwr := { s.pwr with slotB := some v } } else { s with pwr := { s.pwr with slotA := some v } }

/-- What lasts without the supplies and through reset: OTP, flash (boot settings, calibration, health map, parts and their record), MRAM
(journal mirror, save slots), and the pins the board drives. Everything else is as after reset (R435 to R438, R476, R507; log 2). -/
def persist (s : State) : State :=
  { State.reset with
    part := s.part, free := s.free, pending := s.pending
    dev := { State.reset.dev with quads := (List.range 4).map fun q => if bit s.part.fused q then .fused else .off, resetN := s.dev.resetN, perstN := s.dev.perstN, pwrfailN := s.dev.pwrfailN, jtag := s.dev.jtag }
    host := { out := s.host.out, boot := s.host.boot }
    ctl := { mirror := s.ctl.mirror, jnext := s.ctl.jnext }
    fe := { cal := { flash := s.fe.cal.flash } }
    flt := { State.reset.flt with healthFlash := s.flt.healthFlash }
    upd := { parts := s.upd.parts, rseq := s.upd.rseq, mirror := s.upd.mirror, holder := s.upd.holder, man := s.upd.man }
    pwr := { slotA := s.pwr.slotA, slotB := s.pwr.slotB } }

/-- The save has written and read back its record: with any CAUSE but 4, or where a reset waits, the C2 holds itself in reset; in SAFE_STOP it
stays (R392, R505). -/
def saveOver (cause : Nat) (s : State) : State :=
  let (v, s) := saveFree (saveNow s) s
  let s := storeSave v s
  if cause ≠ 4 || s.dev.resetReq || !s.dev.resetN then persist s
  else { s with pwr := { s.pwr with saving := none, save := {} } }

/-- SAVE_END (R506). A reset asked for before step 4 of start-up has ended makes no save. -/
def execSaveEnd (s : State) : Host.Outcome State Fault Refusal :=
  goes (match s.pwr.saving with
    | some c => saveOver c s
    | none => if s.dev.st != .off && (s.dev.resetReq || !s.dev.resetN) then persist s else s)

/- Start-up (R511). -/

/-- Bytes 0 to 1,823 of a save record (R507). -/
def saveBytes (v : Save) : List Byte :=
  le 4 0x53465750 ++ le 4 v.sseq ++ le 2 v.cause ++ le 2 v.valid ++ le 4 0 ++ le 8 v.detTick ++ le 8 v.lastJ ++ slice 0 320 v.cullet ++
  le 16 v.l0 ++ le 16 v.r0 ++ le 8 (toTwos 64 v.rate) ++ le 8 (toTwos 64 v.slew) ++ le 8 (toTwos 64 v.rem) ++ le 8 v.timeCfg ++
  (List.range 16).flatMap (fun h => le 64 (v.sections.getD h 0#512).toNat) ++ le 64 v.combiner.toNat ++ le 64 v.config.toNat ++
  slice 0 224 v.update ++ le 2 v.errq.length ++ List.replicate 30 0#8

/-- A part's copies as start-up finds them. -/
inductive Choice where
  | operational | fallback | none_
  deriving DecidableEq, Repr

/-- Selection of one part (R435, R454). -/
def choose (b : BootIn) (s : State) (t : Nat) : Choice :=
  let p := partAt s t
  let fb : Choice := if b.fbOk.getD (t - 1) true && p.fbValid && decide (s.part.svn.getD (t - 1) 0 ≤ p.fbSvn) then .fallback else .none_
  match p.st with
  | .writing | .activating | .trial | .fallingBack => fb
  | _ => if b.opOk.getD (t - 1) true then .operational else fb

/-- A part of start-up goes on from the state its record holds (R454): cause 4 where SAFE_STOP came first, 5 in an update, 8 where the
operational copy does not verify (DESIGN CHOICE, log 23). -/
def bootPart (b : BootIn) (s : State) (t : Nat) : State :=
  let p := partAt s t
  match choose b s t, p.st with
  | .fallback, .writing | .fallback, .activating | .fallback, .trial | .fallback, .fallingBack =>
    fallenBack t (setPart t { p with cause := if p.cause = 4 then 4 else 5 } s)
  | .fallback, _ => fallenBack t (setPart t { p with cause := 8 } s)
  | .operational, .demoting => setPart t { p with st := .idle, fbValid := false } s
  | .operational, .pendingBoot => openLehr t (if t = 1 then coresNew true s else s)
  | _, _ => s

/-- SAFE_STOP before the journal, the save and the control cores are up (R433, R435, R511). -/
def bootFail (cause : Nat) (s : State) : State := setDev .safe { s with dev := { s.dev with safeCause := cause } }

/-- Steps 1 to 3: always-on power, the punty loader, the five parts (R433, R435, R511). -/
def bootLoad (b : BootIn) (s : State) : State :=
  if !b.otpOk then bootFail 0x12 s
  else if !b.loaderOk then bootFail 0x10 s
  else if [1, 2, 3, 4, 5].any (fun t => choose b s t == .none_) then bootFail 0x11 s
  else s

/-- The save record is read: its error records come back ahead of new ones, the time base is restored, and its slew leads the time to its
source (R508). The raw counter starts at 0 (log 62), and new FIDs follow the restored ones (log 63). -/
def restoreSave (s : State) : State :=
  match newestSave s with
  | none => s
  | some v =>
    let errs := if bit v.valid 6 then v.errq else []
    let s := { s with flt := { s.flt with
      errq := errs.map (fun f => { f := f }) ++ s.flt.errq
      fid := max s.flt.fid (maxL (errs.map fun f => f.fid + 1)) } }
    if bit v.valid 1 then
      { s with time := { s.time with r0 := 0, l0 := v.l0, rate := v.rate, slew := v.slew, rem := v.rem, slewing := v.rem != 0, timeSet := true } }
    else s

/-- The registers, map, calibration and journal that step 4 reads back (R222, R397, R409, R476). -/
def bootRead (b : BootIn) (s : State) : State :=
  let s := { s with
    regs := s.host.boot.getD []
    ctl := { s.ctl with journal := s.ctl.mirror }
    time := { s.time with raw := b.stamp }
    flt := { s.flt with health := s.flt.healthFlash }
    grid := { s.grid with runtime := (partAt s 5).version } }
  let s := { s with host := { s.host with pcieCfg := regAt s 0x28, subsysShown := regAt s 0x30 } }
  calLoad (recomputeC (restoreSave s))

/-- Step 4: parts settle, the lock is released, control cores start (R421, R446, R454, R511). -/
def bootCores (b : BootIn) (s : State) : State :=
  let s := [1, 2, 3, 4, 5].foldl (fun s t => bootPart b s t) (bootRead b s)
  let s := releaseLock 3 s
  let s := { s with upd := { s.upd with parts := s.upd.parts.map idlePart } }
  let s := (List.range 8).foldl (fun s k => if b.coresOk.getD k true then s else loseCore k 0x0501 s) s
  { s with pwr := { s.pwr with saveOk := true } }

/-- Step 5: stacks trained and zeroed; one that fails is lost, with all four start-up fails (R423, R511). -/
def bootStacks (b : BootIn) (s : State) : State :=
  let bad := (List.range 4).filter fun k => !b.stacksOk.getD k true
  let s := bad.foldl (fun (s : State) (k : Nat) =>
    fault { code := 0x0303, sev := 3, unit := k } (failUnit (1010 + k) { s with flt := { s.flt with stacksLost := s.flt.stacksLost ++ [k] } })) s
  if bad.length = 4 then enterSafe 0x12 s else setReg 0x1018 (loaderBase s - gib) s

/-- The state a quadrant wakes to. -/
def bootQuad (b : BootIn) (fused q : Nat) : QuadSt :=
  if bit fused q then .fused else if b.quadsOk.getD q true then .active else .failed

/-- The health of physical tile u after its self-test: a failed one is marked, an untested one that passes is good (R409, R511). -/
def tested (b : BootIn) (s : State) (u : Nat) : Nat :=
  let h := healthAt s u
  if bit s.part.fused (u / 160) then h
  else if b.badTiles.contains (u / 160, u % 160) then 128 + h % 64
  else if h / 64 = 3 then h % 64 else h

/-- The map of the 640 tiles after the self-test, and the other units as they were. -/
def testedMap (b : BootIn) (s : State) : Tbl Nat :=
  ((List.range 640).map fun u => (u, tested b s u)).filter (fun e => e.2 != 0xC0) ++ s.flt.health.filter fun e => decide (640 ≤ e.1)

/-- SKIP of a line: its failed position, else the spare's (R194). -/
def bootSkip (health : Tbl Nat) (q k : Nat) : Nat :=
  ((List.range 9).find? fun p => tget (fun _ => 0xC0) health (lineUnit q k p) / 64 == 2).getD 8

/-- Step 6: grid rails confirmed, quadrants woken, tiles self-tested, SKIP set (R194, R431, R511). -/
def bootGrid (b : BootIn) (s : State) : State :=
  let s := (List.range 4).foldl (fun s q => avsSend q 750 s) s
  let s := (List.range 4).foldl (fun s q => if bit s.part.fused q then s else setQuad q (bootQuad b s.part.fused q) (setQuad q .waking s)) s
  let m := testedMap b s
  let lines := (List.range 64).map fun n => (n, bootSkip m (n / 16) (n % 16))
  { s with
    flt := { s.flt with health := m, healthFlash := m }
    grid := { s.grid with skip := lines.filter fun e => e.2 != 8 } }

/-- Activities that start at BOOT (R428). -/
def bootActs (s : State) : State :=
  let s := startAct { act := 4 } 0 (startAct { act := 3 } 0 s)
  (List.range 8).foldl (fun s k => if (coreAt s k).alive then startAct { act := 5, core := k } 0 s else s) s

/-- Step 8: BOOT_MARK, READY, the saved record reported (R392, R508, R511). -/
def bootReady (s : State) : State :=
  let s := setDev .ready (journalInternal 0 0x09F0 [] s)
  let s := bootActs s
  match newestSave s with
  | some v => raiseEv { code := 0xB4, sev := 0, body := saveBytes v } s
  | none => s

/-- A step of start-up runs unless one before it has failed. -/
def unlessSafe (f : State → State) (s : State) : State := if s.dev.st == .safe then s else f s

/-- The start-up sequence (R511). -/
def bootUp (b : BootIn) (s : State) : State :=
  let s := persist s
  let s := bootLoad b { s with dev := { s.dev with st := .boot } }
  unlessSafe bootReady (unlessSafe startTicks (unlessSafe (bootGrid b) (unlessSafe (bootStacks b) (unlessSafe (bootCores b) s))))

/-- POWER_RESTART (R505): VAUX_IN and PWRFAIL_N have been good for 10 ms. -/
def execPowerRestart (b : BootIn) (s : State) : Host.Outcome State Fault Refusal :=
  goes (if s.dev.st == .off && s.dev.resetN then bootUp b { s with dev := { s.dev with pwrfailN := true } } else s)

/-- The outputs stop driving (R490, R493). -/
def outputsOff (s : State) : State :=
  { s with
    comb := { s.comb with trg := [], busy := 0 }
    time := { s.time with
      ppsOut := false, tickOut := false
      timed := s.time.timed.map fun (e : Nat × TimedEv) => (e.1, { e.2 with active := false }) } }

/-- RESET_FALL (R493, R505). -/
def execResetFall (s : State) : Host.Outcome State Fault Refusal :=
  goes (
    let s := { s with dev := { s.dev with resetN := false } }
    if s.dev.st == .off then s else startSave 3 (outputsOff s))

/-- RESET_RISE (R493, R511): BOOT begins, unless a save still runs or the power is not good. -/
def execResetRise (b : BootIn) (s : State) : Host.Outcome State Fault Refusal :=
  goes (
    if s.dev.resetN then s
    else
      let s := { s with dev := { s.dev with resetN := true } }
      if s.dev.st == .off && s.dev.pwrfailN then bootUp b s else s)

end Sys2Proof.Machine
end

