-- ==== Sys2Proof/Machine/SpdmRows.lean ====
section
/-!
DEFINITION. The SPDM requests of the security-core firmware (16 R458, R459). The spec names the requests, the algorithms and what the blocks
measure; codes and layouts of the messages are those of the SPDM standard it cites (PRESUMED, log 60).
-/

namespace Sys2Proof.Machine

/-- A response: version, code and two parameters, then its body. -/
def spdmMsg (v code p1 p2 : Nat) (body : List Byte) : List Byte := le 1 v ++ le 1 code ++ le 1 p1 ++ le 1 p2 ++ body
/-- The version agreed, 1.2 before one is. -/
def spdmV (s : State) : Nat := if s.upd.spdmVer = 0 then 0x12 else s.upd.spdmVer
/-- An ERROR response. -/
def spdmError (s : State) (code data : Nat) : List Byte := spdmMsg (spdmV s) 0x7F code data []

/-- The certificate chain's digest. -/
def chainHash : List Byte := sha3 Config.certChain
/-- The identity key signs the digest of a message (R434, R458). -/
def spdmSign (m : List Byte) : List Byte := Config.sigMake 0 (sha3Num m)

/-- Measurement block i (R459). -/
def measured (s : State) (i : Nat) : BitVec 512 :=
  match i with
  | 1 => Config.firmwareDigest 0
  | 2 | 3 | 4 | 5 | 6 => ((partAt s (i - 1)).digest).getD (Config.firmwareDigest (i - 1))
  | 7 => sha3Num (le 1 s.part.rootRevoke ++ s.part.svn.flatMap (fun v => le 1 v) ++ s.part.fleet.flatMap (fun v => le 8 v) ++
      le 1 s.upd.level ++ le 1 (bnat (s.part.debugHash.getD 1 0#512 != 0#512)))
  | 8 => configDigest s
  | 9 => sha3Num ((residents s).flatMap fun h => le 64 (secAt s h).img.digest.toNat)
  | 10 => match s.fab.plan with | some p => p.digest | none => 0#512
  | _ => sha3Num (s.upd.parts.flatMap fun p => le 1 (partCode p.st))

/-- A block in the DMTF format: index, specification, size, type, size, digest. -/
def measureBlock (s : State) (i : Nat) : List Byte :=
  le 1 i ++ le 1 1 ++ le 2 67 ++ le 1 (if i = 1 then 0x00 else if i ≤ 6 then 0x01 else 0x03) ++ le 2 64 ++ le 64 (measured s i).toNat

/-- What a request asks, once the security-core firmware serves it: its response and the state after. -/
def spdmServe (code : Nat) (r : Spdm) (s : State) : List Byte × State :=
  let v := spdmV s
  let ready := s.upd.spdmVer != 0 && s.upd.spdmCaps && s.upd.spdmAlgo
  match code with
  | 0x84 =>
    (spdmMsg 0x10 0x04 0 0 (le 1 0 ++ le 1 2 ++ le 2 0x1200 ++ le 2 0x1300),
     { s with upd := { s.upd with spdmVer := 0, spdmCaps := false, spdmAlgo := false, chunk := [] } })
  | 0xE1 =>
    if r.version = 0x12 ∨ r.version = 0x13 then
      let s := { s with upd := { s.upd with spdmVer := r.version, spdmCaps := true } }
      (spdmMsg r.version 0x61 0 0 (le 1 0 ++ le 1 20 ++ le 2 0 ++ le 4 (0x02 + 0x04 + 0x10 + 0x20000) ++ le 4 4096 ++ le 4 65536), s)
    else (spdmError s 0x41 0, s)
  | 0xE3 =>
    if s.upd.spdmVer = 0 || !s.upd.spdmCaps then (spdmError s 0x04 0, s)
    else if !bit r.hashes 5 || !r.asym.contains (3, 1) then (spdmError s 0x01 0, s)
    else (spdmMsg v 0x63 0 0 (le 2 36 ++ le 1 1 ++ le 1 0 ++ le 4 0x10 ++ le 4 0 ++ le 4 0x20 ++ le 12 0 ++ le 1 1 ++ le 1 0 ++ le 2 3 ++ le 4 1),
          { s with upd := { s.upd with spdmAlgo := true } })
  | 0x81 => if !ready then (spdmError s 0x04 0, s) else (spdmMsg v 0x01 0 1 chainHash, s)
  | 0x82 =>
    if !ready then (spdmError s 0x04 0, s)
    else if r.slot ≠ 0 ∨ Config.certChain.length ≤ r.offset then (spdmError s 0x01 0, s)
    else
      let part := (Config.certChain.drop r.offset).take (min r.length 65535)
      (spdmMsg v 0x02 0 0 (le 2 part.length ++ le 2 (Config.certChain.length - r.offset - part.length) ++ part), s)
  | 0x83 =>
    if !ready then (spdmError s 0x04 0, s)
    else if r.slot ≠ 0 then (spdmError s 0x01 0, s)
    else
      let (n, s) := drawFree 256 s
      let sum := sha3 ((List.range 11).flatMap fun i => measureBlock s (i + 1))
      let body := chainHash ++ le 32 n.toNat ++ sum ++ le 2 0
      (spdmMsg v 0x03 0 1 (body ++ spdmSign (r.nonce ++ body)), s)
  | 0xE0 =>
    if !ready then (spdmError s 0x04 0, s)
    else if r.index = 0 then (spdmMsg v 0x60 11 0 (le 1 0 ++ le 3 0), s)
    else if decide (11 < r.index ∧ r.index ≠ 255) || !r.signed then (spdmError s 0x01 0, s)
    else
      let (n, s) := drawFree 256 s
      let is := if r.index = 255 then (List.range 11).map (· + 1) else [r.index]
      let recs := is.flatMap (measureBlock s)
      let body := le 1 is.length ++ le 3 recs.length ++ recs ++ le 32 n.toNat ++ le 2 0
      (spdmMsg v 0x60 0 0 (body ++ spdmSign (r.nonce ++ body)), s)
  | _ => (spdmError s 0x07 0, s)

/-- A response leaves, or is kept for CHUNK_GET where it is larger than the transport's data transfer size (R458). -/
def spdmReply (r : Spdm) (m : List Byte) (s : State) : State :=
  if r.max ≠ 0 && decide (r.max < m.length) then
    send (.spdm (spdmError s 0x0F 0 ++ le 1 0)) { s with upd := { s.upd with chunk := m } }
  else send (.spdm m) s

/-- The security-core firmware runs (R511). -/
def spdmUp (s : State) : Bool := s.dev.st != .off && s.dev.st != .boot

/-- A request: ResponseNotReady while the security-core firmware restarts (R449). -/
def spdmRequest (code : Nat) (r : Spdm) (s : State) : State :=
  if !spdmUp s then s
  else if s.upd.spdmBusy then send (.spdm (spdmError s 0x42 0)) { s with upd := { s.upd with deferred := some (code, r) } }
  else
    let x := spdmServe code r s
    spdmReply r x.1 x.2

/-- GET_VERSION (R458). -/
def execGetVersion (r : Spdm) (s : State) : Host.Outcome State Fault Refusal := goes (spdmRequest 0x84 r s)
/-- GET_CAPABILITIES (R458). -/
def execGetCapabilities (r : Spdm) (s : State) : Host.Outcome State Fault Refusal := goes (spdmRequest 0xE1 r s)
/-- NEGOTIATE_ALGORITHMS (R458). -/
def execNegotiateAlgorithms (r : Spdm) (s : State) : Host.Outcome State Fault Refusal := goes (spdmRequest 0xE3 r s)
/-- GET_DIGESTS (R458). -/
def execGetDigests (r : Spdm) (s : State) : Host.Outcome State Fault Refusal := goes (spdmRequest 0x81 r s)
/-- GET_CERTIFICATE (R458). -/
def execGetCertificate (r : Spdm) (s : State) : Host.Outcome State Fault Refusal := goes (spdmRequest 0x82 r s)
/-- CHALLENGE (R458). -/
def execChallenge (r : Spdm) (s : State) : Host.Outcome State Fault Refusal := goes (spdmRequest 0x83 r s)
/-- GET_MEASUREMENTS (R459). -/
def execGetMeasurements (r : Spdm) (s : State) : Host.Outcome State Fault Refusal := goes (spdmRequest 0xE0 r s)

/-- RESPOND_IF_READY (R458): the request that was put off is served, or put off again. -/
def execRespondIfReady (r : Spdm) (s : State) : Host.Outcome State Fault Refusal :=
  goes (
    if !spdmUp s then s
    else match s.upd.deferred with
      | none => send (.spdm (spdmError s 0x04 0)) s
      | some (c, q) =>
        if s.upd.spdmBusy then send (.spdm (spdmError s 0x42 0)) s
        else spdmRequest c { q with max := r.max } { s with upd := { s.upd with deferred := none } })

/-- CHUNK_GET (R458): chunk r.index of a large response, of the transport's size. -/
def execChunkGet (r : Spdm) (s : State) : Host.Outcome State Fault Refusal :=
  goes (
    if !spdmUp s then s
    else if s.upd.spdmBusy then send (.spdm (spdmError s 0x42 0)) s
    else
      let n := max r.max 1
      let part := (s.upd.chunk.drop (r.index * n)).take n
      if s.upd.chunk.isEmpty || part.isEmpty then send (.spdm (spdmError s 0x01 0)) s
      else
        let last := decide (s.upd.chunk.length ≤ (r.index + 1) * n)
        send (.spdm (spdmMsg (spdmV s) 0x06 (bnat last) r.handle (le 2 r.index ++ le 2 0 ++ le 4 part.length ++ part)))
          (if last then { s with upd := { s.upd with chunk := [] } } else s))

end Sys2Proof.Machine
end

