-- ==== Sys2Proof/Machine/TileRows.lean ====
section
/-!
DEFINITION. The rows of matrix, memory and special-function words (04, 05): each is its operation run as a row of the schedule.
-/

namespace Sys2Proof.Machine

/-- MVM (R102, R105). -/
def execMvm (a : TileAt) (s : State) : Host.Outcome State Fault Refusal := goes (tileRow 0x00 4 mvmOp a s)

/-- MVM_ACC (R101, R105). -/
def execMvmAcc (a : TileAt) (s : State) : Host.Outcome State Fault Refusal := goes (tileRow 0x01 0 mvmAccOp a s)

/-- CHAIN_PASS (R102). -/
def execChainPass (a : TileAt) (s : State) : Host.Outcome State Fault Refusal := goes (tileRow 0x02 1 chainPassOp a s)

/-- REQ (R108, R109). -/
def execReq (a : TileAt) (s : State) : Host.Outcome State Fault Refusal := goes (tileRow 0x08 0 reqOp a s)

/-- The IDLE opcode of a site's class (R181). -/
def idleOp (col row : Nat) : Nat :=
  match siteClass col row with | some .matrix => 0x3F | some .memory => 0x7F | some .function => 0xDF | _ => 0xFF

/-- IDLE: no operation; the directives act in every cycle of the span (R182). -/
def execIdle (a : TileAt) (s : State) : Host.Outcome State Fault Refusal := goes (tileRow (idleOp a.col a.row) 0 (fun _ t => { t := t }) a s)

/-- RD (R118 to R121). -/
def execRd (a : TileAt) (s : State) : Host.Outcome State Fault Refusal := goes (tileRow 0x40 0 (memoryOp true false false) a s)

/-- WR (R118 to R121). -/
def execWr (a : TileAt) (s : State) : Host.Outcome State Fault Refusal := goes (tileRow 0x41 0 (memoryOp false false true) a s)

/-- RD_WR (R118 to R121). -/
def execRdWr (a : TileAt) (s : State) : Host.Outcome State Fault Refusal := goes (tileRow 0x42 0 (memoryOp true false true) a s)

/-- RD2 (R118 to R121). -/
def execRd2 (a : TileAt) (s : State) : Host.Outcome State Fault Refusal := goes (tileRow 0x43 0 (memoryOp true true false) a s)

/-- RD2_WR (R118 to R121). -/
def execRd2Wr (a : TileAt) (s : State) : Host.Outcome State Fault Refusal := goes (tileRow 0x44 0 (memoryOp true true true) a s)

/-- LUT4 (R131). -/
def execLut4 (a : TileAt) (s : State) : Host.Outcome State Fault Refusal := goes (tileRow 0x80 0 lut4Op a s)

/-- LUT8 (R132). -/
def execLut8 (a : TileAt) (s : State) : Host.Outcome State Fault Refusal := goes (tileRow 0x81 0 lut8Op a s)

/-- CMP (R133). -/
def execCmp (a : TileAt) (s : State) : Host.Outcome State Fault Refusal := goes (tileRow 0x88 0 (cmpThrOp false) a s)

/-- THR (R133). -/
def execThr (a : TileAt) (s : State) : Host.Outcome State Fault Refusal := goes (tileRow 0x89 0 (cmpThrOp true) a s)

/-- ADD (R134). -/
def execAdd (a : TileAt) (s : State) : Host.Outcome State Fault Refusal := goes (tileRow 0x90 0 (addSubOp false) a s)

/-- SUB (R134). -/
def execSub (a : TileAt) (s : State) : Host.Outcome State Fault Refusal := goes (tileRow 0x91 0 (addSubOp true) a s)

/-- SHL (R134). -/
def execShl (a : TileAt) (s : State) : Host.Outcome State Fault Refusal := goes (tileRow 0x92 0 (shiftOp false) a s)

/-- SRA (R134). -/
def execSra (a : TileAt) (s : State) : Host.Outcome State Fault Refusal := goes (tileRow 0x93 0 (shiftOp true) a s)

/-- NARROW (R135). -/
def execNarrow (a : TileAt) (s : State) : Host.Outcome State Fault Refusal := goes (tileRow 0x94 0 narrowOp a s)

/-- RESADD (R136). -/
def execResadd (a : TileAt) (s : State) : Host.Outcome State Fault Refusal := goes (tileRow 0x98 0 resaddOp a s)

/-- MAXE (R137). -/
def execMaxe (a : TileAt) (s : State) : Host.Outcome State Fault Refusal := goes (tileRow 0xA0 0 maxeOp a s)

/-- MAXR (R137). -/
def execMaxr (a : TileAt) (s : State) : Host.Outcome State Fault Refusal := goes (tileRow 0xA1 0 maxrOp a s)

/-- TOPK (R138). -/
def execTopk (a : TileAt) (s : State) : Host.Outcome State Fault Refusal := goes (tileRow 0xA8 0 topkOp a s)

/-- SORT64 (R138). -/
def execSort64 (a : TileAt) (s : State) : Host.Outcome State Fault Refusal := goes (tileRow 0xA9 0 sort64Op a s)

/-- MERGE (R138). -/
def execMerge (a : TileAt) (s : State) : Host.Outcome State Fault Refusal := goes (tileRow 0xAA 0 mergeOp a s)

/-- MEANVAR (R139). -/
def execMeanvar (a : TileAt) (s : State) : Host.Outcome State Fault Refusal := goes (tileRow 0xB0 0 meanvarOp a s)

/-- NORM (R140). -/
def execNorm (a : TileAt) (s : State) : Host.Outcome State Fault Refusal := goes (tileRow 0xB1 0 normOp a s)

/-- SOFTMAX (R141). -/
def execSoftmax (a : TileAt) (s : State) : Host.Outcome State Fault Refusal := goes (tileRow 0xB8 0 softmaxOp a s)

/-- CLUSTER (R142). -/
def execCluster (a : TileAt) (s : State) : Host.Outcome State Fault Refusal := goes (tileRow 0xC0 0 clusterOp a s)

/-- HIST (R143). -/
def execHist (a : TileAt) (s : State) : Host.Outcome State Fault Refusal := goes (tileRow 0xC8 0 histOp a s)

/-- TOKEN (R145). -/
def execToken (a : TileAt) (s : State) : Host.Outcome State Fault Refusal := goes (tileRow 0xD0 0 tokenOp a s)

/-- SELECT (R146 to R148). -/
def execSelect (a : TileAt) (s : State) : Host.Outcome State Fault Refusal := goes (tileRow 0xD1 0 selectOp a s)

/-- ROUTE (R146 to R148). -/
def execRoute (a : TileAt) (s : State) : Host.Outcome State Fault Refusal := goes (tileRow 0xD2 0 routeOp a s)

end Sys2Proof.Machine
end

