-- ==== Sys2Proof/Machine/Manifest.lean ====
section
/-!
DEFINITION. The manifest of a bundle and the response of a debug authority, read from their bytes (16 R439 to R441, R461).
-/

namespace Sys2Proof

/-- n bytes at offset k as a number (R8). -/
def field (k n : Nat) (b : List Byte) : Nat := unle (slice k n b)
/-- n bytes at offset k, none of which is set. -/
def clear (k n : Nat) (b : List Byte) : Bool := field k n b == 0

/-- Part entry i of a manifest, 256 bytes each after the header (R440). -/
def partBytes (b : List Byte) (i : Nat) : List Byte := slice (128 + 256 * i) 256 b

/-- A part entry (R440). -/
def partOf (e : List Byte) : PartEntry :=
  { type := field 0 1 e, svn := field 1 1 e, rolling := bit (field 2 2 e) 0, lehr := field 4 4 e, version := field 8 8 e
    offset := field 16 4 e, length := field 20 4 e, iv := slice 24 12 e, tag := slice 36 16 e
    digest := BitVec.ofNat 512 (field 64 64 e)
    compat := (List.range 5).map fun t => (field (128 + 16 * t) 8 e, field (136 + 16 * t) 8 e)
    fabric := (field 208 8 e, field 216 8 e) }

/-- Reserved fields of a part entry, the COMPAT entry of its own TYPE among them (R9, R440). -/
def partClear (e : List Byte) : Bool :=
  bits (field 2 2 e) 15 1 == 0 && clear 52 12 e && clear 224 32 e && clear (128 + 16 * (field 0 1 e - 1)) 16 e

/-- Part and recipient entries of a manifest (R439). -/
def partCount (b : List Byte) : Nat := field 6 1 b
def rcptCount (b : List Byte) : Nat := field 7 1 b
/-- Recipient entry i, 1,632 bytes each after the part entries (R441). -/
def rcptBytes (b : List Byte) (i : Nat) : List Byte := slice (128 + 256 * partCount b + 1632 * i) 1632 b
/-- Where ROOT_PUB and SIGNATURE begin (R439). -/
def rootAt (b : List Byte) : Nat := 128 + 256 * partCount b + 1632 * rcptCount b
def sigAt (b : List Byte) : Nat := rootAt b + 2592
/-- The length of a manifest: its signature ends it, padded to a multiple of 64 (R439). -/
def manifestLen (b : List Byte) : Nat := ceilDiv (sigAt b + 4627) 64 * 64

/-- A manifest (R439 to R441): ROOT_PUB and the signed bytes by their SHA3-512 hashes, MAN_DIGEST over all of it. -/
def manifestOf (b : List Byte) : Manifest :=
  { bundleLen := field 12 4 b, bundleId := field 16 8 b, rootSlot := field 24 1 b
    rootPub := sha3Num (slice (rootAt b) 2592 b), body := sha3Num (slice 0 (sigAt b) b), digest := sha3Num (slice 0 (manifestLen b) b)
    sig := slice (sigAt b) 4627 b
    parts := (List.range (partCount b)).map fun i => partOf (partBytes b i)
    rcpts := (List.range (rcptCount b)).map fun i => (field 0 1 (rcptBytes b i), field 8 8 (rcptBytes b i)) }

/-- MAGIC, FORMAT, the lengths and the reserved fields of a manifest (R439 to R441). -/
def manifestForm (b : List Byte) : Bool :=
  field 0 4 b == 0x4E414D43 && field 4 2 b == 1 && field 8 4 b == manifestLen b && decide (manifestLen b ≤ 32768) && clear 25 103 b &&
  clear (sigAt b + 4627) (manifestLen b - (sigAt b + 4627)) b && (List.range (partCount b)).all (fun i => partClear (partBytes b i)) &&
  (List.range (rcptCount b)).all fun i => decide (field 0 1 (rcptBytes b i) ≤ 1) && clear 1 7 (rcptBytes b i) && clear 1624 8 (rcptBytes b i)

/-- A bundle's manifest as order 1 of R443 asks, for a bundle of len bytes (R439, R440). -/
def manifestOk (b : List Byte) (len : Nat) : Bool :=
  let m := manifestOf b
  manifestForm b && decide (m.bundleLen = len ∧ len ≤ 2 ^ 25 ∧ 1 ≤ partCount b ∧ partCount b ≤ 5 ∧ 1 ≤ rcptCount b ∧ rcptCount b ≤ 8) &&
  decide ((m.parts.map (·.type)).length = (m.parts.map (·.type)).eraseDups.length) &&
  m.parts.all fun e => decide (1 ≤ e.type ∧ e.type ≤ 5 ∧ e.svn ≤ 64 ∧ e.offset % 64 = 0 ∧ manifestLen b ≤ e.offset ∧ e.offset + e.length ≤ len) &&
    (e.lehr == 0 || decide (60 ≤ e.lehr ∧ e.lehr ≤ 86400)) && (!e.rolling || e.type == 1)

/-- The response of a debug authority (R461); AUTH_PUB and the signed bytes by their hashes. -/
structure Response where
  magic : Nat
  level : Nat
  slot : Nat
  uid : Nat
  nonce : BitVec 256
  pub : BitVec 512
  body : BitVec 512
  sig : List Byte
  deriving DecidableEq, Repr

/-- The bytes of a response: its fields to offset 48, then the rest (R461). -/
def responseBytes (magic level slot uid : Nat) (nonce : BitVec 256) (rest : List Byte) : List Byte :=
  le 4 magic ++ le 1 level ++ le 1 slot ++ le 2 0 ++ le 8 uid ++ le 32 nonce.toNat ++ rest

/-- The response that bytes hold (R461). -/
def responseOf (b : List Byte) : Response :=
  { magic := field 0 4 b, level := field 4 1 b, slot := field 5 1 b, uid := field 8 8 b, nonce := BitVec.ofNat 256 (field 16 32 b)
    pub := sha3Num (slice 48 2592 b), body := sha3Num (slice 0 2640 b), sig := slice 2640 4627 b }

end Sys2Proof
end

