-- ==== Sys2Proof/Machine/UpdateRows.lean ====
section
/-!
DEFINITION. Commands of class 0x08 and the rows of updates, attestation and debug (16 R443 to R462).
-/

namespace Sys2Proof.Machine

/-- States that accept UPDATE_BEGIN, UPDATE_DATA and UPDATE_APPLY: any but SAFE_STOP (R391). -/
def notSafe : List DevSt := [.ready, .loaded, .armed, .running, .paused]

/-- A command of another source than the holder: UPDATE_CONTENDED, and ST_UPDATE_BUSY with the holder (R445). -/
def contended (h : Hdr) (d8 : List Byte) (s : State) : Act :=
  let res := le 4 (s.upd.holder.getD 0) ++ le 4 0 ++ (if s.upd.holder.isSome then digest8 s.upd.man else le 8 0)
  { s := raiseEv { code := 0x91, sev := 0, body := le 4 (srcOf h) ++ d8 } s, status := stUpdateBusy, result := res, keep := true }

def notHolder (h : Hdr) (s : State) : Bool := s.upd.holder != some (srcOf h)

/-- The root key of the manifest is one of this device's and is not revoked (R434, R442). -/
def rootOk (s : State) (m : Manifest) : Bool :=
  decide (m.rootSlot < 4) && !s.part.rootRevoke.testBit m.rootSlot && m.rootPub == s.part.rootHash.getD m.rootSlot 0#512

/-- A recipient entry serves this device (R441). -/
def rcptOk (s : State) (m : Manifest) : Bool :=
  m.rcpts.any fun r => (r.1 == 0 && r.2 == s.part.uid) || (r.1 == 1 && r.2 != 0 && s.part.fleet.contains r.2)

/-- Bytes at a device address: HBM as it stands, host memory as found (log 9). -/
def bundleBytes (s : State) (addr len : Nat) (found : List Byte) : List Byte :=
  (chunksOf s false (len / 4096 + 2) addr 0 len).flatMap fun c => match c.1 with
    | .host _ => slice c.2.1 c.2.2 found
    | .hbm a => hbmRead s a c.2.2
    | .bad _ => []

/-- MAN_LEN of the manifest at a device address, at most 32,768 (R439). -/
def manLenAt (s : State) (addr : Nat) (found : List Byte) : Nat := min 32768 (max 128 (field 8 4 (bundleBytes s addr 128 found)))
/-- The manifest's bytes (R443). -/
def manBytes (s : State) (addr : Nat) (found : List Byte) : List Byte := bundleBytes s addr (manLenAt s addr found) found
/-- How much lies at MAN_ADDR: the whole bundle with WHOLE, else the manifest (R443). -/
def givenLen (s : State) (addr len : Nat) (whole : Bool) (found : List Byte) : Nat := if whole then len else manLenAt s addr found

/-- A part of the new session (R438, R443). -/
def sessionPart (m : Manifest) (t : Nat) (p : UpPart) : UpPart :=
  match m.parts.find? (fun e => e.type == t) with
  | some e => { p with st := .staged, cause := 0, entry := some e, selected := false, outcome := 0xFF }
  | none => if p.st == .staged then { p with st := .idle, entry := none, selected := false } else { p with entry := none, selected := false }

/-- An authenticated session begins (R443). -/
def beginSession (h : Hdr) (m : Manifest) (len : Nat) (bytes : List Byte) (s : State) : State :=
  let fresh := s.upd.holder.isNone
  let s := { s with upd := { s.upd with
    holder := some (srcOf h), man := m, overlay := true, keepLock := false
    staged := tsetAll (fun _ => 0#8) [] 0 bytes, stagedLen := min len bytes.length
    parts := (s.upd.parts.zipIdx).map fun (p, i) => sessionPart m (i + 1) p } }
  let s := if fresh then startAct { act := 8 } 0 s else s
  askToken (raiseEv { code := 0x90, sev := 0, body := le 4 (srcOf h) ++ digest8 m } s)

/-- UPDATE_BEGIN (R443): the manifest, or with WHOLE the bundle, is read where it lies. -/
def beginAct (h : Hdr) (addr len : Nat) (whole : Bool) (found : List Byte) (s : State) : Act :=
  let m := manifestOf (manBytes s addr found)
  if !rangeOk s false addr 128 || !rangeOk s false addr (givenLen s addr len whole found) then fails s stParam
  else if !manifestOk (manBytes s addr found) len then fails s stBadImage
  else if !rootOk s m || !Config.sigValid m.rootPub m.body m.sig || !rcptOk s m then fails s stAuth
  else if s.upd.holder.isSome && notHolder h s then contended h (digest8 m) s
  else if midUpdate s then fails s stBusy
  else if s.flt.acts.any (fun a => a.act == 0x83) then fails s stMaint
  else { s := beginSession h m len (bundleBytes s addr (givenLen s addr len whole found) found) s }

/-- UPDATE_BEGIN (R443). man is the manifest that lies in host memory, rest the bytes behind it. -/
def execUpdateBegin (h : Hdr) (addr len : Nat) (whole : Bool) (man rest : List Byte) (s : State) : Host.Outcome State Fault Refusal :=
  goes (control { op := 0x801, states := notSafe } h (fun _ => beginAct h addr len whole (man ++ rest)) s)

/-- Staged bytes of a part that has been applied are no longer written (R444). -/
def touchesApplied (s : State) (off n : Nat) : Bool :=
  s.upd.parts.any fun p => p.st != .staged && (match p.entry with
    | some e => decide (off < e.offset + e.length ∧ e.offset < off + n)
    | none => false)

/-- UPDATE_DATA (R444). -/
def execUpdateData (h : Hdr) (off : Nat) (bytes : List Byte) (s : State) : Host.Outcome State Fault Refusal :=
  goes (control { op := 0x802, states := notSafe } h (fun _ s =>
    if notHolder h s then contended h (le 8 0) s
    else if decide (4060 < bytes.length ∨ s.upd.man.bundleLen < off + bytes.length) || touchesApplied s off bytes.length then fails s stParam
    else { s := { s with upd := { s.upd with
      staged := tsetAll (fun _ => 0#8) s.upd.staged off bytes, stagedLen := max s.upd.stagedLen (off + bytes.length) } } }) s)

/- UPDATE_APPLY (R447). -/

/-- Largest ciphertext of a part type (R437). -/
def areaSize (t : Nat) : Nat := match t with | 1 => 12550144 | 5 => 6258688 | _ => 2064384

/-- A part verifies in staging (R442). -/
def partVerifies (s : State) (e : PartEntry) : Bool :=
  let bs := (List.range e.length).map fun k => tget (fun _ => 0#8) s.upd.staged (e.offset + k)
  decide (e.offset + e.length ≤ s.upd.stagedLen ∧ e.length ≤ areaSize e.type) && rootOk s s.upd.man && rcptOk s s.upd.man &&
  sha3Num bs == e.digest && Config.gcmOk s.upd.man.digest e.type bs

/-- A set of versions with the ranges of its parts is compatible (R447); parts as delivered name no range. -/
def setOk (vs : List Nat) (cs : List (List (Nat × Nat))) : Bool :=
  (List.range 5).all fun p => (List.range 5).all fun t => p == t ||
    (match (cs.getD p [])[t]? with
     | some r => decide (r.1 ≤ vs.getD t 0 ∧ vs.getD t 0 ≤ r.2)
     | none => true)

/-- Every set of the order is compatible (R447). -/
def orderOk : List PartEntry → List Nat → List (List (Nat × Nat)) → Bool
  | [], _, _ => true
  | e :: l, vs, cs =>
    let vs := vs.set (e.type - 1) e.version
    let cs := cs.set (e.type - 1) e.compat
    setOk vs cs && orderOk l vs cs

/-- Entries of the parts that PART_MASK selects, in the order of the manifest. -/
def chosen (s : State) (mask : Nat) : List PartEntry := s.upd.man.parts.filter fun e => bit mask e.type

/-- The checks of R447 in order, from the second on. -/
def applyCheck (mask : Nat) (peers : List Nat) (s : State) : Option (Nat × Nat) :=
  let es := chosen s mask
  let ctrl := es.any fun e => e.type == 1
  if !es.all (partVerifies s) then some (stBadImage, 0)
  else if !es.all (fun e => decide (s.part.svn.getD (e.type - 1) 0 ≤ e.svn)) then some (stVersion, 0)
  else if !orderOk es (s.upd.parts.map (·.version)) (s.upd.parts.map (·.compat)) then some (stVersion, 0)
  else if inFabric s && es.any (fun e => e.type == 1 && peers.any fun v => decide (v < e.fabric.1 ∨ e.fabric.2 < v)) then some (stVersion, 0)
  else if es.any (fun e => e.type == 1 && !e.rolling) && !inReady s then some (stState, 0)
  else if midUpdate s then some (stBusy, 0)
  else if inFabric s && !s.fab.tokenHeld then some (stBusy, 9)
  else if ctrl && !((coreAt s 7).alive && (coreAt s 7).roles.isEmpty) then some (stMaint, 0)
  else none

/-- The selected parts wait to be applied in order. -/
def selectParts (mask j : Nat) (s : State) : State :=
  { s with upd := { s.upd with
      order := (chosen s mask).map (·.type), applyJ := some j, keepLock := bit mask 15
      parts := (s.upd.parts.zipIdx).map fun (p, i) =>
        if bit mask (i + 1) then { p with selected := true, outcome := 2 } else { p with selected := false } } }

/-- UPDATE_APPLY (R447). A device without the token asks for it again as it fails (DESIGN CHOICE, log 56). -/
def applyAct (h : Hdr) (mask : Nat) (peers : List Nat) (j : Nat) (s : State) : Act :=
  let es := chosen s mask
  if notHolder h s then contended h (le 8 0) s
  else if decide (mask % 2 = 1) || decide (bits mask 14 6 ≠ 0) || es.isEmpty || decide (es.length ≠ (setBits 6 (mask % 64)).length) then fails s stParam
  else match applyCheck mask peers s with
    | some (9, d) => fails s 9 d
    | some (st, d) =>
      if d = 9 then { s := askToken s, status := st, detail := d, keep := true } else fails s st d
    | none => { s := nextPart (selectParts mask j (longCmd h 0x803 j s)), wait := true }

/-- UPDATE_APPLY (R447). -/
def execUpdateApply (h : Hdr) (mask : Nat) (peers : List Nat) (s : State) : Host.Outcome State Fault Refusal :=
  goes (control { op := 0x803, states := notSafe } h (applyAct h mask peers) s)

/-- LEHR_LEFT in seconds (R456). -/
def lehrLeft (s : State) (p : UpPart) : Nat :=
  if p.st == .trial then (if p.lehr = 0 then 600 else p.lehr) - (s.time.raw - p.lehrFrom) / (65536 * 10 ^ 9) else 0

/-- The 152 bytes of R456. -/
def updateStatus (s : State) : List Byte :=
  le 4 (s.upd.holder.getD 0) ++
  le 4 (bnat s.upd.holder.isSome + 2 * bnat (s.upd.parts.any fun p => p.st == .trial) + 4 * bnat s.fab.tokenHeld) ++
  (if s.upd.holder.isSome then digest8 s.upd.man else le 8 0) ++
  (s.upd.parts.zipIdx).flatMap (fun (p, i) => le 1 (i + 1) ++ le 1 (partCode p.st) ++ le 1 p.cause ++ le 1 (s.part.svn.getD i 0) ++
    le 4 (lehrLeft s p) ++ le 8 p.version ++ le 8 p.fbVersion) ++
  le 8 s.upd.stagedLen ++ le 4 s.upd.rate ++ le 4 0

/-- UPDATE_STATUS (R456). -/
def execUpdateStatus (h : Hdr) (s : State) : Host.Outcome State Fault Refusal :=
  goes (observe { op := 0x804, states := bootAny, bc := true } h (fun s => { s := s, result := updateStatus s }) s)

/-- UPDATE_ABORT (R446, R451): releases the lock, or sends the part in progress back with cause 6. -/
def execUpdateAbort (h : Hdr) (s : State) : Host.Outcome State Fault Refusal :=
  goes (control { op := 0x805, states := anySt } h (fun _ s =>
    if notHolder h s then contended h (le 8 0) s
    else if midUpdate s then { s := markCause 6 s }
    else { s := releaseLock 1 s }) s)

/-- UPDATE_TOKEN (R455): 0 a device asks the master, 1 this device is granted the token, 2 a device returns it. A part that waited for the
token starts. -/
def execUpdateToken (dev kind : Nat) (s : State) : Host.Outcome State Fault Refusal :=
  goes (
    if s.dev.st == .off || !inFabric s then s
    else match kind with
      | 0 => if s.fab.isMaster then tokenAsked dev s else s
      | 1 =>
        if s.upd.holder.isNone then returnToken { s with fab := { s.fab with tokenHeld := true } }
        else
          let s := { s with fab := { s.fab with tokenHeld := true } }
          if s.upd.applyJ.isSome && !midUpdate s then nextPart s else s
      | 2 =>
        if !s.fab.isMaster then s
        else
          let s := tokenBack dev s
          if s.fab.tokenHeld && s.upd.applyJ.isSome && !midUpdate s then nextPart s else s
      | _ => s)

/- Steps (R448 to R453). -/

/-- The part whose step is under way. -/
def stepPart (s : State) : Option Nat :=
  ((List.range 5).find? fun i => match (s.upd.parts.getD i {}).st with
    | .demoting | .writing | .activating | .fallingBack => true
    | _ => false).map (· + 1)

/-- Written and read back: UPDATE_WRITTEN, then the part starts or waits for BOOT (R448, R449). -/
def wroteStep (t : Nat) (s : State) : State :=
  let p := partAt s t
  match p.entry with
  | none => s
  | some e =>
    let s := setPart t (written e p) s
    let s := raiseEv { code := 0x92, sev := 0, body := le 1 t ++ le 8 e.version } s
    if t = 4 && !inReady s then deferPart t s else activate t s

/-- An activation that fails: SEC is a failure of the security core, SERDES and HBMPHY a loss, another part a failed self-test (R402, R449,
R451; DEDUCED, log 57). -/
def activateFails (t : Nat) (s : State) : State :=
  match t with
  | 2 =>
    let s := setPart 2 (causePart 3 (partAt s 2)) { s with upd := { s.upd with spdmBusy := false } }
    fallBack 2 3 (fault { code := 0x0802, sev := 4 } s)
  | 3 | 4 => fallBack t 3 s
  | _ => fallBack t 2 s

/-- One step of a part is done. A step that does not read back is made again (DESIGN CHOICE, log 58). -/
def stepDone (t : Nat) (ok : Bool) (s : State) : State :=
  let p := partAt s t
  match p.st with
  | .demoting =>
    if p.cause ≠ 0 then fallenBack t (if ok then setPart t (demoted p) s else s)
    else if ok then stepTo t .writing (setPart t (demoted p) s) else s
  | .writing =>
    if p.cause ≠ 0 then fallBack t p.cause s
    else if ok then wroteStep t s else s
  | .activating =>
    let s := if t = 2 then { s with upd := { s.upd with spdmBusy := false } } else s
    if p.cause ≠ 0 then fallBack t p.cause s
    else if s.upd.roll.isSome then s
    else if ok then openLehr t (if t = 1 then coresNew true s else s)
    else activateFails t s
  | .fallingBack => if ok then fallenBack t s else s
  | _ => s

/-- UPDATE_STEP_DONE (R448). -/
def execUpdateStepDone (ok : Bool) (rate : Nat) (s : State) : Host.Outcome State Fault Refusal :=
  goes (
    if s.dev.st == .off || s.dev.st == .boot then s
    else match stepPart s with
      | none => s
      | some t =>
        let s := match (partAt s t).st with
          | .activating => s
          | _ => { s with upd := { s.upd with rate := rate } }
        stepDone t ok s)

/-- CORE_RESTART_DONE (R450): a core is back on the new firmware; one that is not is lost (R449). -/
def execCoreRestartDone (core : Nat) (ok : Bool) (s : State) : Host.Outcome State Fault Refusal :=
  goes (
    if s.upd.roll ≠ some core then s
    else if !ok then loseCore core 0x0501 (setPart 1 (causePart 3 (partAt s 1)) s)
    else
      let s := rollBack core true s
      if (partAt s 1).cause ≠ 0 then s
      else if core < 7 then rollBegin (core + 1) s
      else openLehr 1 s)

/-- HEALTH_CONFIRMATION (R451): ok false tells of a self-test that failed. -/
def execHealthConfirmation (type : Nat) (ok : Bool) (s : State) : Host.Outcome State Fault Refusal :=
  goes (
    let p := partAt s type
    if decide (type < 1 ∨ 5 < type) || p.st != .trial then s
    else if ok then setPart type { p with confirmedOk := true } s
    else fallBack type 2 s)

/-- A part is CONFIRMED: OTP SVN bits are burnt up to its SVN (R451). -/
def confirmPart (t : Nat) (s : State) : State :=
  let p := partAt s t
  let s := stepTo t .confirmed (setPart t { p with outcome := 0 } { s with part := { s.part with
    svn := s.part.svn.set (t - 1) (max (s.part.svn.getD (t - 1) 0) p.svn) } })
  let s := raiseEv { code := 0x94, sev := 0, body := le 1 t ++ le 8 p.version ++ le 1 (s.part.svn.getD (t - 1) 0) } s
  partEnded true t (returnToken s)

/-- LEHR_END (R451). -/
def execLehrEnd (type : Nat) (s : State) : Host.Outcome State Fault Refusal :=
  goes (
    let p := partAt s type
    if decide (type < 1 ∨ 5 < type) || p.st != .trial then s
    else if p.confirmedOk && p.cause = 0 then confirmPart type s
    else fallBack type 1 s)

/-- UPDATE_IDLE (R446). -/
def execUpdateIdle (s : State) : Host.Outcome State Fault Refusal :=
  goes (if s.dev.st == .off || s.upd.holder.isNone || midUpdate s || s.upd.applyJ.isSome then s else releaseLock 2 s)

/- Debug (R460 to R462). -/

/-- DEBUG_CHALLENGE (R460); it fails with ST_BUSY while the security-core firmware restarts (R449). -/
def execDebugChallenge (h : Hdr) (s : State) : Host.Outcome State Fault Refusal :=
  goes (control { op := 0x806, states := anySt } h (fun _ s =>
    if s.upd.spdmBusy then fails s stBusy
    else
      let (n, s) := drawFree 256 s
      { s := { s with upd := { s.upd with nonce := some n } }
        result := le 32 n.toNat ++ le 8 s.part.uid ++ le 1 s.upd.level ++ le 1 s.upd.refusals ++ le 6 0 }) s)

/-- The response proves its authority (R461). -/
def unlockOk (s : State) (r : Response) : Bool :=
  s.upd.nonce == some r.nonce && r.uid == s.part.uid && s.part.debugHash.getD r.slot 0#512 != 0#512 &&
  r.pub == s.part.debugHash.getD r.slot 0#512 && Config.sigValid r.pub r.body r.sig

/-- A halted control core goes on once level 2 is left (R462). -/
def resumeHalted (level : Nat) (s : State) : State :=
  if level = 2 then s
  else { s with flt := { s.flt with cores := s.flt.cores.zipIdx.map fun (c, k) => if s.upd.roll = some k then c else { c with restarting := false } } }

/-- The debug level changes: DEBUG_LEVEL. -/
def setLevel (level slot : Nat) (s : State) : State :=
  resumeHalted level <| raiseEv { code := 0x98, sev := 1, body := le 1 s.upd.level ++ le 1 level ++ le 1 slot } { s with upd := { s.upd with level := level } }

/-- A response has its MAGIC, a LEVEL, and all the bytes its LEVEL needs (R461; DEDUCED, log 59). -/
def responseForm (len : Nat) (r : Response) : Bool :=
  decide (r.magic = 0x47554244 ∧ r.level ≤ 2) && (if r.level = 0 then decide (8 ≤ len) else decide (7267 ≤ len ∧ r.slot ≤ 1))

/-- DEBUG_UNLOCK (R461): a nonce serves one response. A range that cannot be read and a wrong form fail with ST_PARAM (DEDUCED, log 59). -/
def unlockAct (addr len : Nat) (found : List Byte) (s : State) : Act :=
  let r := responseOf (bundleBytes s addr (min len 7267) found)
  if s.upd.spdmBusy then fails s stBusy
  else if 8 ≤ s.upd.refusals then fails s stAuth
  else if !rangeOk s false addr (min len 7267) || !responseForm len r then fails s stParam
  else if r.level = 0 then { s := setLevel 0 r.slot s }
  else if unlockOk s r then { s := setLevel r.level r.slot { s with upd := { s.upd with nonce := none } } }
  else
    let s := { s with upd := { s.upd with nonce := none, refusals := s.upd.refusals + 1 } }
    { s := raiseEv { code := 0x99, sev := 0, body := le 1 s.upd.refusals } s, status := stAuth, keep := true }

/-- DEBUG_UNLOCK (R461). The response that lies in host memory is given by its fields, and by its bytes from AUTH_PUB on. -/
def execDebugUnlock (h : Hdr) (addr len magic level slot uid : Nat) (nonce : BitVec 256) (rest : List Byte) (s : State) : Host.Outcome State Fault Refusal :=
  goes (control { op := 0x807, states := anySt } h (fun _ => unlockAct addr len (responseBytes magic level slot uid nonce rest)) s)

/-- DEBUG_NONCE_EXPIRE (R460). -/
def execDebugNonceExpire (s : State) : Host.Outcome State Fault Refusal := goes { s with upd := { s.upd with nonce := none } }

end Sys2Proof.Machine
end

