-- ==== Sys2Proof/Machine/Dispatch.lean ====
section
/-!
DEFINITION. One arm per row of the table.
-/

namespace Sys2Proof.Machine

def exec (i : Instr) (s : State) : Host.Outcome State Fault Refusal :=
  match i with
  | .deviceId h => Sys2Proof.Machine.execDeviceId h s
  | .deviceState h => Sys2Proof.Machine.execDeviceState h s
  | .controlClaim h leaseMs force => Sys2Proof.Machine.execControlClaim h leaseMs force s
  | .controlRelease h => Sys2Proof.Machine.execControlRelease h s
  | .cfgWrite h es => Sys2Proof.Machine.execCfgWrite h es s
  | .cfgRead h offs => Sys2Proof.Machine.execCfgRead h offs s
  | .arm h ta allowDefault => Sys2Proof.Machine.execArm h ta allowDefault s
  | .pause h => Sys2Proof.Machine.execPause h s
  | .resume h tr => Sys2Proof.Machine.execResume h tr s
  | .stop h => Sys2Proof.Machine.execStop h s
  | .deviceReset h => Sys2Proof.Machine.execDeviceReset h s
  | .safeStop h cause => Sys2Proof.Machine.execSafeStop h cause s
  | .telemetryRead h => Sys2Proof.Machine.execTelemetryRead h s
  | .memWrite h addr data => Sys2Proof.Machine.execMemWrite h addr data s
  | .memRead h addr len found => Sys2Proof.Machine.execMemRead h addr len found s
  | .sectionLoad h r => Sys2Proof.Machine.execSectionLoad h r s
  | .sectionUnload h hd => Sys2Proof.Machine.execSectionUnload h hd s
  | .sectionSwap h outs ins => Sys2Proof.Machine.execSectionSwap h outs ins s
  | .sectionInfo h hd => Sys2Proof.Machine.execSectionInfo h hd s
  | .stateSave h addr len => Sys2Proof.Machine.execStateSave h addr len s
  | .stateRestore h img noHist => Sys2Proof.Machine.execStateRestore h img noHist s
  | .tableSwitch h es => Sys2Proof.Machine.execTableSwitch h es s
  | .tileWrite h hd vq col row line data ecc => Sys2Proof.Machine.execTileWrite h hd vq col row line data ecc s
  | .tileRead h hd vq col row line ecc => Sys2Proof.Machine.execTileRead h hd vq col row line ecc s
  | .probeSet h n p => Sys2Proof.Machine.execProbeSet h n p s
  | .probeRead h n => Sys2Proof.Machine.execProbeRead h n s
  | .digestRead h hd first count => Sys2Proof.Machine.execDigestRead h hd first count s
  | .digestVerify h hd => Sys2Proof.Machine.execDigestVerify h hd s
  | .chanSet h first vals => Sys2Proof.Machine.execChanSet h first vals s
  | .groupSet h g d => Sys2Proof.Machine.execGroupSet h g d s
  | .primSet h first ds => Sys2Proof.Machine.execPrimSet h first ds s
  | .measSet h e d => Sys2Proof.Machine.execMeasSet h e d s
  | .calWrite h es => Sys2Proof.Machine.execCalWrite h es s
  | .calCommit h version => Sys2Proof.Machine.execCalCommit h version s
  | .calRead h item first count => Sys2Proof.Machine.execCalRead h item first count s
  | .combLineSet h n d => Sys2Proof.Machine.execCombLineSet h n d s
  | .templateSet h k d => Sys2Proof.Machine.execTemplateSet h k d s
  | .windowSet h n w => Sys2Proof.Machine.execWindowSet h n w s
  | .ringExtract h t k => Sys2Proof.Machine.execRingExtract h t k s
  | .dmaResume h e mode => Sys2Proof.Machine.execDmaResume h e mode s
  | .culletRead h part => Sys2Proof.Machine.execCulletRead h part s
  | .recordInputsSet h area size endTick freeze wide => Sys2Proof.Machine.execRecordInputsSet h area size endTick freeze wide s
  | .replaySet h area recorded quiet imgs => Sys2Proof.Machine.execReplaySet h area recorded quiet imgs s
  | .replayExport h e area addr => Sys2Proof.Machine.execReplayExport h e area addr s
  | .replayImport h e r size => Sys2Proof.Machine.execReplayImport h e r size s
  | .timeSet h t => Sys2Proof.Machine.execTimeSet h t s
  | .timeRate h rate => Sys2Proof.Machine.execTimeRate h rate s
  | .timeAdj h d => Sys2Proof.Machine.execTimeAdj h d s
  | .timeGet h => Sys2Proof.Machine.execTimeGet h s
  | .timedSet h e d => Sys2Proof.Machine.execTimedSet h e d s
  | .tickAlign h tick t => Sys2Proof.Machine.execTickAlign h tick t s
  | .ptpConfig h cfg => Sys2Proof.Machine.execPtpConfig h cfg s
  | .mgmtTx h tsReq tsId bytes => Sys2Proof.Machine.execMgmtTx h tsReq tsId bytes s
  | .fabricDiscover h => Sys2Proof.Machine.execFabricDiscover h s
  | .fabricIdmap h ids => Sys2Proof.Machine.execFabricIdmap h ids s
  | .fabricPlan h p => Sys2Proof.Machine.execFabricPlan h p s
  | .fabricBarrierStart h tb => Sys2Proof.Machine.execFabricBarrierStart h tb s
  | .fabricState h => Sys2Proof.Machine.execFabricState h s
  | .fabricTimeRoot h dev => Sys2Proof.Machine.execFabricTimeRoot h dev s
  | .collectCfg h e => Sys2Proof.Machine.execCollectCfg h e s
  | .fabricForward h dest bytes => Sys2Proof.Machine.execFabricForward h dest bytes s
  | .maintStart h r => Sys2Proof.Machine.execMaintStart h r s
  | .maintStop h act => Sys2Proof.Machine.execMaintStop h act s
  | .maintStatus h => Sys2Proof.Machine.execMaintStatus h s
  | .quadPower h q req => Sys2Proof.Machine.execQuadPower h q req s
  | .standbySet h q => Sys2Proof.Machine.execStandbySet h q s
  | .healthRead h => Sys2Proof.Machine.execHealthRead h s
  | .updateBegin h addr len whole man rest => Sys2Proof.Machine.execUpdateBegin h addr len whole man rest s
  | .updateData h off bytes => Sys2Proof.Machine.execUpdateData h off bytes s
  | .updateApply h mask peers => Sys2Proof.Machine.execUpdateApply h mask peers s
  | .updateStatus h => Sys2Proof.Machine.execUpdateStatus h s
  | .updateAbort h => Sys2Proof.Machine.execUpdateAbort h s
  | .debugChallenge h => Sys2Proof.Machine.execDebugChallenge h s
  | .debugUnlock h addr len magic level slot uid nonce rest => Sys2Proof.Machine.execDebugUnlock h addr len magic level slot uid nonce rest s
  | .journalRead h from_ max => Sys2Proof.Machine.execJournalRead h from_ max s
  | .journalNote h => Sys2Proof.Machine.execJournalNote h s
  | .errqRead h => Sys2Proof.Machine.execErrqRead h s
  | .badPacket h opcode => Sys2Proof.Machine.execBadPacket h opcode s
  | .cmdDenied => Sys2Proof.Machine.execCmdDenied s
  | .namedTickApply => Sys2Proof.Machine.execNamedTickApply s
  | .leaseExpired => Sys2Proof.Machine.execLeaseExpired s
  | .registerWrite via e => Sys2Proof.Machine.execRegisterWrite via e s
  | .mmioDenied off size => Sys2Proof.Machine.execMmioDenied off size s
  | .rcRead off size => Sys2Proof.Machine.execRcRead off size s
  | .txtsHeadRead off size => Sys2Proof.Machine.execTxtsHeadRead off size s
  | .errqOvfClear h => Sys2Proof.Machine.execErrqOvfClear h s
  | .txtsOvfClear h => Sys2Proof.Machine.execTxtsOvfClear h s
  | .queueEnable q size vector => Sys2Proof.Machine.execQueueEnable q size vector s
  | .queueDisable q => Sys2Proof.Machine.execQueueDisable q s
  | .eventRingEnable h en size minSev vector => Sys2Proof.Machine.execEventRingEnable h en size minSev vector s
  | .dmaEngineEnable h e src stream rsize => Sys2Proof.Machine.execDmaEngineEnable h e src stream rsize s
  | .dmaEngineDisable h e => Sys2Proof.Machine.execDmaEngineDisable h e s
  | .dmaEngineStopped e => Sys2Proof.Machine.execDmaEngineStopped e s
  | .dmaRingBaseWrite h e cq addr => Sys2Proof.Machine.execDmaRingBaseWrite h e cq addr s
  | .linkEnable h l => Sys2Proof.Machine.execLinkEnable h l s
  | .ladderDisable h => Sys2Proof.Machine.execLadderDisable h s
  | .ladderMaxLower h max => Sys2Proof.Machine.execLadderMaxLower h max s
  | .tickSourceWrite h es => Sys2Proof.Machine.execTickSourceWrite h es s
  | .timingModeWrite h c1 => Sys2Proof.Machine.execTimingModeWrite h c1 s
  | .alignDepthWrite h depth => Sys2Proof.Machine.execAlignDepthWrite h depth s
  | .bar2CfgWrite h wrEn ofs => Sys2Proof.Machine.execBar2CfgWrite h wrEn ofs s
  | .bar2Resize size => Sys2Proof.Machine.execBar2Resize size s
  | .msixTableWrite vec addr data masked => Sys2Proof.Machine.execMsixTableWrite vec addr data masked s
  | .sqDoorbell q v size => Sys2Proof.Machine.execSqDoorbell q v size s
  | .cqDoorbell q v size => Sys2Proof.Machine.execCqDoorbell q v size s
  | .dmaDoorbell e v size => Sys2Proof.Machine.execDmaDoorbell e v size s
  | .evqDoorbell v size => Sys2Proof.Machine.execEvqDoorbell v size s
  | .submissionTake q bytes => Sys2Proof.Machine.execSubmissionTake q bytes s
  | .completionWrite q => Sys2Proof.Machine.execCompletionWrite q s
  | .eventWrite => Sys2Proof.Machine.execEventWrite s
  | .irqHoldoffEnd vec => Sys2Proof.Machine.execIrqHoldoffEnd vec s
  | .bar2Read off len => Sys2Proof.Machine.execBar2Read off len s
  | .bar2Write off bytes => Sys2Proof.Machine.execBar2Write off bytes s
  | .perst level => Sys2Proof.Machine.execPerst level s
  | .hotReset => Sys2Proof.Machine.execHotReset s
  | .flr => Sys2Proof.Machine.execFlr s
  | .pcieLinkDown => Sys2Proof.Machine.execPcieLinkDown s
  | .d3hotEntry => Sys2Proof.Machine.execD3hotEntry s
  | .pcieLinkTrain speed width flit => Sys2Proof.Machine.execPcieLinkTrain speed width flit s
  | .tickEdge raw => Sys2Proof.Machine.execTickEdge raw s
  | .ladderChange => Sys2Proof.Machine.execLadderChange s
  | .frame lane words x => Sys2Proof.Machine.execFrame lane words x s
  | .laneDown lane => Sys2Proof.Machine.execLaneDown lane s
  | .alignmentPoint t => Sys2Proof.Machine.execAlignmentPoint t s
  | .trgInEdge k x => Sys2Proof.Machine.execTrgInEdge k x s
  | .combineDecision t => Sys2Proof.Machine.execCombineDecision t s
  | .trgOutPulseEnd k => Sys2Proof.Machine.execTrgOutPulseEnd k s
  | .candidateQueued c => Sys2Proof.Machine.execCandidateQueued c s
  | .passDispatch hd x => Sys2Proof.Machine.execPassDispatch hd x s
  | .passEnd hd x => Sys2Proof.Machine.execPassEnd hd x s
  | .verdictMissing hd x => Sys2Proof.Machine.execVerdictMissing hd x s
  | .passBoundary hd x => Sys2Proof.Machine.execPassBoundary hd x s
  | .candidateExpire c x => Sys2Proof.Machine.execCandidateExpire c x s
  | .deliverRequest c => Sys2Proof.Machine.execDeliverRequest c s
  | .stallLimit hd x => Sys2Proof.Machine.execStallLimit hd x s
  | .pauseEffect => Sys2Proof.Machine.execPauseEffect s
  | .drainDone => Sys2Proof.Machine.execDrainDone s
  | .swapEnd => Sys2Proof.Machine.execSwapEnd s
  | .creditReturn hd loop => Sys2Proof.Machine.execCreditReturn hd loop s
  | .hbmLineReturn hd ue ce => Sys2Proof.Machine.execHbmLineReturn hd ue ce s
  | .ringWrite t => Sys2Proof.Machine.execRingWrite t s
  | .recordAssemble kind dest => Sys2Proof.Machine.execRecordAssemble kind dest s
  | .recordDeliver kind dest => Sys2Proof.Machine.execRecordDeliver kind dest s
  | .streamRelease => Sys2Proof.Machine.execStreamRelease s
  | .dmaTransfer e d fetchErr data err => Sys2Proof.Machine.execDmaTransfer e d fetchErr data err s
  | .dmaCompletion e err => Sys2Proof.Machine.execDmaCompletion e err s
  | .replayLogStop => Sys2Proof.Machine.execReplayLogStop s
  | .mvm at_ => Sys2Proof.Machine.execMvm at_ s
  | .mvmAcc at_ => Sys2Proof.Machine.execMvmAcc at_ s
  | .chainPass at_ => Sys2Proof.Machine.execChainPass at_ s
  | .req at_ => Sys2Proof.Machine.execReq at_ s
  | .idle at_ => Sys2Proof.Machine.execIdle at_ s
  | .rd at_ => Sys2Proof.Machine.execRd at_ s
  | .wr at_ => Sys2Proof.Machine.execWr at_ s
  | .rdWr at_ => Sys2Proof.Machine.execRdWr at_ s
  | .rd2 at_ => Sys2Proof.Machine.execRd2 at_ s
  | .rd2Wr at_ => Sys2Proof.Machine.execRd2Wr at_ s
  | .lut4 at_ => Sys2Proof.Machine.execLut4 at_ s
  | .lut8 at_ => Sys2Proof.Machine.execLut8 at_ s
  | .cmp at_ => Sys2Proof.Machine.execCmp at_ s
  | .thr at_ => Sys2Proof.Machine.execThr at_ s
  | .add at_ => Sys2Proof.Machine.execAdd at_ s
  | .sub at_ => Sys2Proof.Machine.execSub at_ s
  | .shl at_ => Sys2Proof.Machine.execShl at_ s
  | .sra at_ => Sys2Proof.Machine.execSra at_ s
  | .narrow at_ => Sys2Proof.Machine.execNarrow at_ s
  | .resadd at_ => Sys2Proof.Machine.execResadd at_ s
  | .maxe at_ => Sys2Proof.Machine.execMaxe at_ s
  | .maxr at_ => Sys2Proof.Machine.execMaxr at_ s
  | .topk at_ => Sys2Proof.Machine.execTopk at_ s
  | .sort64 at_ => Sys2Proof.Machine.execSort64 at_ s
  | .merge at_ => Sys2Proof.Machine.execMerge at_ s
  | .meanvar at_ => Sys2Proof.Machine.execMeanvar at_ s
  | .norm at_ => Sys2Proof.Machine.execNorm at_ s
  | .softmax at_ => Sys2Proof.Machine.execSoftmax at_ s
  | .cluster at_ => Sys2Proof.Machine.execCluster at_ s
  | .hist at_ => Sys2Proof.Machine.execHist at_ s
  | .token at_ => Sys2Proof.Machine.execToken at_ s
  | .select at_ => Sys2Proof.Machine.execSelect at_ s
  | .route at_ => Sys2Proof.Machine.execRoute at_ s
  | .inRd at_ => Sys2Proof.Machine.execInRd at_ s
  | .inCtx at_ => Sys2Proof.Machine.execInCtx at_ s
  | .outScore at_ => Sys2Proof.Machine.execOutScore at_ s
  | .outVerdict at_ => Sys2Proof.Machine.execOutVerdict at_ s
  | .hbmRd at_ => Sys2Proof.Machine.execHbmRd at_ s
  | .hbmWr at_ => Sys2Proof.Machine.execHbmWr at_ s
  | .ringRd at_ => Sys2Proof.Machine.execRingRd at_ s
  | .fabTx at_ => Sys2Proof.Machine.execFabTx at_ s
  | .fabRx at_ => Sys2Proof.Machine.execFabRx at_ s
  | .fabEtx at_ => Sys2Proof.Machine.execFabEtx at_ s
  | .fabErx at_ => Sys2Proof.Machine.execFabErx at_ s
  | .fireWordBuild t => Sys2Proof.Machine.execFireWordBuild t s
  | .fslotTake t n => Sys2Proof.Machine.execFslotTake t n s
  | .fslotGive t n => Sys2Proof.Machine.execFslotGive t n s
  | .codeword l errs m raw => Sys2Proof.Machine.execCodeword l errs m raw s
  | .nakTimeout l => Sys2Proof.Machine.execNakTimeout l s
  | .elasticPacket l vc => Sys2Proof.Machine.execElasticPacket l vc s
  | .collectorRecord src recseq => Sys2Proof.Machine.execCollectorRecord src recseq s
  | .linkTrainDone l peer peerUid => Sys2Proof.Machine.execLinkTrainDone l peer peerUid s
  | .probe l id t2 t3 => Sys2Proof.Machine.execProbe l id t2 t3 s
  | .echo l id turn t4 => Sys2Proof.Machine.execEcho l id turn t4 s
  | .linkCalDone l => Sys2Proof.Machine.execLinkCalDone l s
  | .linkTrainTimeout l => Sys2Proof.Machine.execLinkTrainTimeout l s
  | .linkDown l => Sys2Proof.Machine.execLinkDown l s
  | .hello l m => Sys2Proof.Machine.execHello l m s
  | .elect l m => Sys2Proof.Machine.execElect l m s
  | .discQuiet => Sys2Proof.Machine.execDiscQuiet s
  | .topo l m => Sys2Proof.Machine.execTopo l m s
  | .assign l m => Sys2Proof.Machine.execAssign l m s
  | .assignAck l m => Sys2Proof.Machine.execAssignAck l m s
  | .heartbeat l m => Sys2Proof.Machine.execHeartbeat l m s
  | .hbTimeout dev => Sys2Proof.Machine.execHbTimeout dev s
  | .masterLoss => Sys2Proof.Machine.execMasterLoss s
  | .erouteUpdate table => Sys2Proof.Machine.execErouteUpdate table s
  | .barrier b => Sys2Proof.Machine.execBarrier b s
  | .updateToken dev kind => Sys2Proof.Machine.execUpdateToken dev kind s
  | .fabricTimeSteer l => Sys2Proof.Machine.execFabricTimeSteer l s
  | .fabricTimeLoss => Sys2Proof.Machine.execFabricTimeLoss s
  | .tickInEdge raw tick dev => Sys2Proof.Machine.execTickInEdge raw tick dev s
  | .tickHoldover missing => Sys2Proof.Machine.execTickHoldover missing s
  | .ppsInEdge raw => Sys2Proof.Machine.execPpsInEdge raw s
  | .ppsOutPulse raw => Sys2Proof.Machine.execPpsOutPulse raw s
  | .ptpFrameRx raw kind t bytes => Sys2Proof.Machine.execPtpFrameRx raw kind t bytes s
  | .timeHoldover => Sys2Proof.Machine.execTimeHoldover s
  | .slewEnd raw => Sys2Proof.Machine.execSlewEnd raw s
  | .txTimestamp id raw => Sys2Proof.Machine.execTxTimestamp id raw s
  | .timedEventFire e x => Sys2Proof.Machine.execTimedEventFire e x s
  | .timedOutPulseEnd e => Sys2Proof.Machine.execTimedOutPulseEnd e s
  | .handlerStep core r => Sys2Proof.Machine.execHandlerStep core r s
  | .errqScan core => Sys2Proof.Machine.execErrqScan core s
  | .ceWindowEnd => Sys2Proof.Machine.execCeWindowEnd s
  | .confirmExpire unit => Sys2Proof.Machine.execConfirmExpire unit s
  | .remapSwitch => Sys2Proof.Machine.execRemapSwitch s
  | .rotationWarmupEnd act k => Sys2Proof.Machine.execRotationWarmupEnd act k s
  | .recomputeDecision act k active spare => Sys2Proof.Machine.execRecomputeDecision act k active spare s
  | .rotationSwap act k => Sys2Proof.Machine.execRotationSwap act k s
  | .quadTakeover => Sys2Proof.Machine.execQuadTakeover s
  | .coreWatchdog core ue => Sys2Proof.Machine.execCoreWatchdog core ue s
  | .coreTakeover => Sys2Proof.Machine.execCoreTakeover s
  | .hbmStackLoss stack => Sys2Proof.Machine.execHbmStackLoss stack s
  | .patrolScrub q col row line ce ue again => Sys2Proof.Machine.execPatrolScrub q col row line ce ue again s
  | .scratchWindowTest core w ok access => Sys2Proof.Machine.execScratchWindowTest core w ok access s
  | .clearingDone q => Sys2Proof.Machine.execClearingDone q s
  | .quadSelfTestDone q ok => Sys2Proof.Machine.execQuadSelfTestDone q ok s
  | .updateStepDone ok rate => Sys2Proof.Machine.execUpdateStepDone ok rate s
  | .coreRestartDone core ok => Sys2Proof.Machine.execCoreRestartDone core ok s
  | .healthConfirmation type ok => Sys2Proof.Machine.execHealthConfirmation type ok s
  | .lehrEnd type => Sys2Proof.Machine.execLehrEnd type s
  | .updateIdle => Sys2Proof.Machine.execUpdateIdle s
  | .debugNonceExpire => Sys2Proof.Machine.execDebugNonceExpire s
  | .getVersion r => Sys2Proof.Machine.execGetVersion r s
  | .getCapabilities r => Sys2Proof.Machine.execGetCapabilities r s
  | .negotiateAlgorithms r => Sys2Proof.Machine.execNegotiateAlgorithms r s
  | .getDigests r => Sys2Proof.Machine.execGetDigests r s
  | .getCertificate r => Sys2Proof.Machine.execGetCertificate r s
  | .challenge r => Sys2Proof.Machine.execChallenge r s
  | .getMeasurements r => Sys2Proof.Machine.execGetMeasurements r s
  | .respondIfReady r => Sys2Proof.Machine.execRespondIfReady r s
  | .chunkGet r => Sys2Proof.Machine.execChunkGet r s
  | .jtagInstruction ins => Sys2Proof.Machine.execJtagInstruction ins s
  | .powerSample m => Sys2Proof.Machine.execPowerSample m s
  | .capStep => Sys2Proof.Machine.execCapStep s
  | .avsTransaction rail mv ok => Sys2Proof.Machine.execAvsTransaction rail mv ok s
  | .railFault rail => Sys2Proof.Machine.execRailFault rail s
  | .pwrfail => Sys2Proof.Machine.execPwrfail s
  | .saveEnd => Sys2Proof.Machine.execSaveEnd s
  | .powerRestart b => Sys2Proof.Machine.execPowerRestart b s
  | .resetFall => Sys2Proof.Machine.execResetFall s
  | .resetRise b => Sys2Proof.Machine.execResetRise b s
  | .codewordSend l raw => Sys2Proof.Machine.execCodewordSend l raw s
  | .linkTest q lane idx err => Sys2Proof.Machine.execLinkTest q lane idx err s
  | .heartbeatSend => Sys2Proof.Machine.execHeartbeatSend s
  | .ptpMessageSend kind => Sys2Proof.Machine.execPtpMessageSend kind s
  | .fabricForwardTimeout => Sys2Proof.Machine.execFabricForwardTimeout s
  | .completionTimeout e where_ => Sys2Proof.Machine.execCompletionTimeout e where_ s
  | .ppsOutPulseEnd => Sys2Proof.Machine.execPpsOutPulseEnd s

end Sys2Proof.Machine
end

