-- ==== Sys2Proof/Claims.lean ====
section
/-!
DEFINITION. The words several statements share: what serving a command packet touches beside the command's own effect, when a
control command is accepted, and how it ends.
-/

namespace Sys2Proof.Claims

open Sys2Proof.Machine

/-- t is s but for what every packet may touch: the newest raw stamp, the lease's renewal, the sequence windows, the ring entry it
took, the journal and its mirror, the reply cache, the replies, the replay log, and what leaves on UDP, SMBus and the fabric. -/
def Traces (s t : State) : Prop :=
  t = { s with
    ctl := { s.ctl with
      leaseAt := t.ctl.leaseAt, wins := t.ctl.wins, taken := t.ctl.taken, journal := t.ctl.journal, jnext := t.ctl.jnext
      mirror := t.ctl.mirror, cache := t.ctl.cache, replies := t.ctl.replies }
    time := { s.time with raw := t.time.raw }
    acq := { s.acq with recg := { s.acq.recg with log := t.acq.recg.log } }
    host := { s.host with out := t.host.out }
    fab := { s.fab with out2 := t.fab.out2 } }

/-- The checks of R375 to R379 and R388 pass: the packet is well-formed and new to its source's window, the source holds control
or need not, the device state accepts the command, no overlay and no replay stands against it. -/
abbrev Accepted (op : Nat) (states : List DevSt) (anyone cfg : Bool) (h : Hdr) (s : State) : Prop :=
  s.dev.st ≠ .off ∧ (h.ok = true ∧ h.raw.length ≤ 4064 ∧ (h.transport = 1 → h.indirect = false)) ∧
  seqCase (winAt s (srcOf h)) h.seq = .new ∧ (anyone = true ∨ s.ctl.holder = some (srcOf h)) ∧ s.dev.st ∈ states ∧
  (s.upd.overlay = true → op / 256 ≠ 2 ∧ op / 256 ≠ 6 ∧ op / 256 ≠ 7) ∧ (cfg = true → s.acq.replay.running = false)

/-- A command marked BC is also taken over I3C or SMBus, with at most 223 parameter bytes (R381). -/
abbrev Carried (bc : Bool) (h : Hdr) : Prop := h.transport = 3 → bc = true ∧ h.raw.length ≤ 223

/-- Check 1 and 2 of R376: header fields, lengths, and what the transport takes (R372, R380, R381). -/
abbrev Formed (c : CmdSpec) (h : Hdr) : Prop :=
  (h.ok = true ∧ h.raw.length ≤ 4064 ∧ (h.transport = 1 → h.indirect = false)) ∧ Carried c.bc h

/-- The newest journal entry of t is this command's, with a number of its own (R396). -/
def Journaled (op : Nat) (h : Hdr) (final : Bool) (s t : State) : Prop :=
  t.ctl.jnext = s.ctl.jnext + 1 ∧
  ∃ e, t.ctl.journal.head? = some e ∧ e.jseq = s.ctl.jnext ∧ e.source = srcOf h ∧ e.cseq = h.seq ∧ e.opcode = op ∧ e.status = 0 ∧
    e.final = final

/-- The command ends at once with ST_OK: t is E but for what its packet touches, its journal entry is final, and over a host ring its
reply with the result stands last (R373, R374, R396). -/
def Done (op : Nat) (h : Hdr) (result : List Byte) (s E : State) (i : Instr) : Prop :=
  ∃ t, exec i s = .next t ∧ Traces E t ∧ Journaled op h true s t ∧
    (h.transport = 0 → t.ctl.replies.getLast? = some (mkReply op h (some s.ctl.jnext) 0 0 result))

/-- The command is accepted and waits: t is E with the command among those waiting, tied to a tick or not, its journal entry not
final (R383, R384). -/
def Waits (op : Nat) (h : Hdr) (tick : Option Nat) (s E : State) (i : Instr) : Prop :=
  ∃ t, exec i s = .next t ∧ (∃ w, w.jseq = s.ctl.jnext ∧ w.h = h ∧ w.opcode = op ∧ w.tick = tick ∧
    Traces { E with ctl := { E.ctl with waiting := E.ctl.waiting ++ [w] } } t) ∧ Journaled op h false s t

/-- The state in which an accepted control command's own checks and effect run: the stamp seen, the ring entry taken, the number
noted, the lease renewed, the journal entry made. -/
def begun (op : Nat) (h : Hdr) (s : State) : State :=
  journalAdd (cmdEntry op h false 0 []) (renewLease h (seeSeq h (untake h (seeRaw h.stamp s))))

/-- The packet of an observe command is served: well-formed, not below its window, in a state that accepts it (R375, R379, R388). -/
abbrev Observed (states : List DevSt) (h : Hdr) (s : State) : Prop :=
  s.dev.st ≠ .off ∧ (h.ok = true ∧ h.raw.length ≤ 4064 ∧ (h.transport = 1 → h.indirect = false)) ∧
  seqCase (winAt s (srcOf h)) h.seq ≠ .below ∧ s.dev.st ∈ states

/-- The state an observe command reads: the stamp seen, the ring entry taken, the number noted. -/
def readBy (h : Hdr) (s : State) : State := seeSeq h (untake h (seeRaw h.stamp s))

/-- An observe command changes nothing but its packet's traces, writes no journal entry, and over a host ring answers with the result
(R373, R375). -/
def Answers (op : Nat) (h : Hdr) (result : List Byte) (s E : State) (i : Instr) : Prop :=
  ∃ t, exec i s = .next t ∧ Traces E t ∧ t.ctl.journal = s.ctl.journal ∧ t.ctl.jnext = s.ctl.jnext ∧
    (h.transport = 0 → t.ctl.replies.getLast? = some (mkReply op h none 0 0 result))

/-- Eight bytes for each offset, read in order; a read clears an RC field (R389, R469). -/
def readAll : List Nat → State → List Byte
  | [], _ => []
  | o :: r, s => le 8 (regValue s o) ++ readAll r (rcClear s o)

/-- A control command fails: nothing changes but what its packet touches, its journal entry is final with the status and DETAIL, and over a
host ring its reply carries both (R374, R375, R396). -/
def Refused (op : Nat) (h : Hdr) (status detail : Nat) (result : List Byte) (s : State) (i : Instr) : Prop :=
  ∃ t, exec i s = .next t ∧ Traces s t ∧ t.ctl.jnext = s.ctl.jnext + 1 ∧
    (∃ e, t.ctl.journal.head? = some e ∧ e.jseq = s.ctl.jnext ∧ e.source = srcOf h ∧ e.cseq = h.seq ∧ e.opcode = op ∧
      e.status = status ∧ e.final = true ∧ e.result = le 4 detail ++ le 4 0) ∧
    (h.transport = 0 → t.ctl.replies.getLast? = some (mkReply op h (some s.ctl.jnext) status detail result))

/-- The command ends at once with ST_OK, whatever its effect journals besides: t is E but for what its packet touches, and over a host ring
its reply with the result stands last. -/
def Ends (op : Nat) (h : Hdr) (result : List Byte) (s E : State) (i : Instr) : Prop :=
  ∃ t, exec i s = .next t ∧ Traces E t ∧ (h.transport = 0 → t.ctl.replies.getLast? = some (mkReply op h (some s.ctl.jnext) 0 0 result))

/-- A command tied to a tick edge (R26, R382): in READY or LOADED without AT it takes effect at once; else, on a tick that leaves the
lead, it waits with its effect. -/
def AtEdge (op : Nat) (h : Hdr) (eff : Eff) (E : State) (s : State) (i : Instr) : Prop :=
  (inReady s = true → h.at_ = none → Done op h [] s E i) ∧
  ∀ t, (h.at_ = some t ∧ leadOk (begun op h s) t = true) ∨ (h.at_ = none ∧ inReady s = false ∧ t = firstLead (begun op h s)) →
    s.ctl.waiting.length < 256 →
    ∃ u, exec i s = .next u ∧ Traces { s with ctl := { s.ctl with waiting := s.ctl.waiting ++
      [{ jseq := s.ctl.jnext, h := h, opcode := op, tick := some t, eff := eff }] } } u ∧ Journaled op h false s u

/-- The command a constructor sends, where it sends one: control or observe, its opcode and the states of R391, and its header. -/
def commandOf : Instr → Option (Bool × CmdSpec × Hdr)
  | .deviceId h => some (false, { op := 0x101, states := bootAny, bc := true }, h)
  | .deviceState h => some (false, { op := 0x102, states := bootAny, bc := true }, h)
  | .controlClaim h _ _ => some (true, { op := 0x103, states := anySt, bc := true, anyone := true }, h)
  | .controlRelease h => some (true, { op := 0x104, states := anySt, bc := true }, h)
  | .cfgWrite h es => some (true, { op := 0x105, states := anySt }, { h with ok := h.ok && decide (8 + 24 * es.length ≤ 4064) })
  | .cfgRead h _ => some (false, { op := 0x106, states := anySt }, h)
  | .arm h _ _ => some (true, { op := 0x107, states := stRL }, h)
  | .pause h => some (true, { op := 0x108, states := [.running] }, h)
  | .resume h _ => some (true, { op := 0x109, states := [.paused] }, h)
  | .stop h => some (true, { op := 0x10A, states := stAUP }, h)
  | .deviceReset h => some (true, { op := 0x10B, states := anySt, bc := true }, h)
  | .safeStop h _ => some (true, { op := 0x10C, states := stRLAUP, bc := true }, h)
  | .telemetryRead h => some (false, { op := 0x10D, states := bootAny, bc := true }, h)
  | .memWrite h _ _ => some (true, { op := 0x10E, states := anySt }, h)
  | .memRead h _ _ _ => some (false, { op := 0x10F, states := anySt }, h)
  | .sectionLoad h _ => some (true, loadSpec, h)
  | .sectionUnload h _ => some (true, { op := 0x202, states := stRL }, h)
  | .sectionSwap h _ _ => some (true, { op := 0x203, states := stAUP, cfg := true }, h)
  | .sectionInfo h _ => some (false, { op := 0x204, states := anySt }, h)
  | .stateSave h _ _ => some (true, { op := 0x205, states := [.loaded, .paused] }, h)
  | .stateRestore h _ _ => some (true, { op := 0x206, states := [.loaded, .paused], cfg := true }, h)
  | .tableSwitch h _ => some (true, { op := 0x207, states := stLAUP, cfg := true }, h)
  | .tileWrite h _ _ _ _ _ _ _ => some (true, { op := 0x208, states := stLAUP, cfg := true }, h)
  | .tileRead h _ _ _ _ _ _ => some (false, { op := 0x209, states := stLAUP }, h)
  | .probeSet h _ _ => some (true, { op := 0x20A, states := stLAUP }, h)
  | .probeRead h _ => some (false, { op := 0x20B, states := anySt }, h)
  | .digestRead h _ _ _ => some (false, { op := 0x20C, states := anySt }, h)
  | .digestVerify h _ => some (false, { op := 0x20D, states := stLAUP }, h)
  | .chanSet h _ _ => some (true, { op := 0x301, states := stRL, cfg := true }, h)
  | .groupSet h _ _ => some (true, { op := 0x302, states := stRL, cfg := true }, h)
  | .primSet h _ _ => some (true, { op := 0x303, states := stRLAUP, cfg := true }, h)
  | .measSet h _ _ => some (true, { op := 0x304, states := stRLP, cfg := true }, h)
  | .calWrite h _ => some (true, { op := 0x305, states := anySt, cfg := true }, h)
  | .calCommit h _ => some (true, { op := 0x306, states := stRLAUP, cfg := true }, h)
  | .calRead h _ _ _ => some (false, { op := 0x307, states := anySt }, h)
  | .combLineSet h _ _ => some (true, { op := 0x308, states := stRLAUP, cfg := true }, h)
  | .templateSet h _ _ => some (true, { op := 0x401, states := stRLAUP, cfg := true }, h)
  | .windowSet h _ _ => some (true, { op := 0x402, states := stRLAUP, cfg := true }, h)
  | .ringExtract h _ _ => some (true, { op := 0x403, states := stAUP }, h)
  | .dmaResume h _ _ => some (true, { op := 0x404, states := anySt }, h)
  | .culletRead h _ => some (false, { op := 0x405, states := anySt }, h)
  | .recordInputsSet h _ _ _ _ _ => some (true, { op := 0x406, states := [.loaded, .paused] }, h)
  | .replaySet h _ _ _ _ => some (true, { op := 0x407, states := [.loaded], cfg := true }, h)
  | .replayExport h _ _ _ => some (true, { op := 0x408, states := [.ready, .loaded, .paused] }, h)
  | .replayImport h _ _ _ => some (true, { op := 0x409, states := stRL, cfg := true }, h)
  | .timeSet h _ => some (true, { op := 0x501, states := stRL }, h)
  | .timeRate h _ => some (true, { op := 0x502, states := anySt }, h)
  | .timeAdj h _ => some (true, { op := 0x503, states := anySt }, h)
  | .timeGet h => some (false, { op := 0x504, states := anySt }, h)
  | .timedSet h _ _ => some (true, { op := 0x505, states := anySt }, h)
  | .tickAlign h _ _ => some (true, { op := 0x506, states := stRL }, h)
  | .ptpConfig h _ => some (true, { op := 0x507, states := stRL }, h)
  | .mgmtTx h _ _ _ => some (true, { op := 0x508, states := anySt }, h)
  | .fabricDiscover h => some (true, { op := 0x601, states := stRL }, h)
  | .fabricIdmap h _ => some (true, { op := 0x602, states := stRL }, h)
  | .fabricPlan h _ => some (true, { op := 0x603, states := stRL, anyone := true }, h)
  | .fabricBarrierStart h _ => some (true, { op := 0x604, states := stRL }, h)
  | .fabricState h => some (false, { op := 0x605, states := anySt }, h)
  | .fabricTimeRoot h _ => some (true, { op := 0x606, states := stRL }, h)
  | .collectCfg h _ => some (true, { op := 0x607, states := stRLP }, h)
  | .fabricForward h _ bytes => some (!observeOps.contains (unle (slice 2 2 bytes)), { op := 0x608, states := anySt }, h)
  | .maintStart h _ => some (true, { op := 0x701, states := anySt }, h)
  | .maintStop h _ => some (true, { op := 0x702, states := anySt }, h)
  | .maintStatus h => some (false, { op := 0x703, states := anySt }, h)
  | .quadPower h _ _ => some (true, { op := 0x704, states := stRLAUP }, h)
  | .standbySet h _ => some (true, { op := 0x705, states := stRL }, h)
  | .healthRead h => some (false, { op := 0x706, states := anySt, bc := true }, h)
  | .updateBegin h _ _ _ _ _ => some (true, { op := 0x801, states := notSafe }, h)
  | .updateData h _ _ => some (true, { op := 0x802, states := notSafe }, h)
  | .updateApply h _ _ => some (true, { op := 0x803, states := notSafe }, h)
  | .updateStatus h => some (false, { op := 0x804, states := bootAny, bc := true }, h)
  | .updateAbort h => some (true, { op := 0x805, states := anySt }, h)
  | .debugChallenge h => some (true, { op := 0x806, states := anySt }, h)
  | .debugUnlock h _ _ _ _ _ _ _ _ => some (true, { op := 0x807, states := anySt }, h)
  | .journalRead h _ _ => some (false, { op := 0x901, states := anySt, bc := true }, h)
  | .journalNote h => some (true, { op := 0x902, states := anySt }, h)
  | .errqRead h => some (false, { op := 0x903, states := anySt, bc := true }, h)
  | .registerWrite (some h) _ => some (true, { op := 0x105, states := anySt }, h)
  | .errqOvfClear h => some (true, { op := 0x105, states := anySt }, h)
  | .txtsOvfClear h => some (true, { op := 0x105, states := anySt }, h)
  | .eventRingEnable h _ _ _ _ => some (true, { op := 0x105, states := anySt }, h)
  | .dmaEngineEnable h _ _ _ _ => some (true, { op := 0x105, states := anySt }, h)
  | .dmaEngineDisable h _ => some (true, { op := 0x105, states := anySt }, h)
  | .dmaRingBaseWrite h _ _ _ => some (true, { op := 0x105, states := anySt }, h)
  | .linkEnable h _ => some (true, { op := 0x105, states := anySt }, h)
  | .ladderDisable h => some (true, { op := 0x105, states := anySt }, h)
  | .ladderMaxLower h _ => some (true, { op := 0x105, states := anySt }, h)
  | .tickSourceWrite h _ => some (true, { op := 0x105, states := anySt }, h)
  | .timingModeWrite h _ => some (true, { op := 0x105, states := anySt }, h)
  | .alignDepthWrite h _ => some (true, { op := 0x105, states := anySt }, h)
  | .bar2CfgWrite h _ _ => some (true, { op := 0x105, states := anySt }, h)
  | _ => none

/-- The rows that are a CFG_WRITE, with the entries they write (R389): masked values of one register each, but for CFG_WRITE itself and
TICK_SOURCE_WRITE. -/
def cfgEntriesOf : Instr → Option (Hdr × List CfgEntry)
  | .cfgWrite h es => some ({ h with ok := h.ok && decide (8 + 24 * es.length ≤ 4064) }, es)
  | .registerWrite (some h) e => some (h, [e])
  | .errqOvfClear h => some (h, [⟨0x50000, 2 ^ 63, 2 ^ 63⟩])
  | .txtsOvfClear h => some (h, [⟨0x60060, 2 ^ 31, 2 ^ 31⟩])
  | .eventRingEnable h en size sev vec => some (h, [⟨0x20008, ones 63 48, bnat en * 2 ^ 63 + size % 16 * 2 ^ 59 + sev % 8 * 2 ^ 56 + vec % 256 * 2 ^ 48⟩])
  | .dmaEngineEnable h e src stream size =>
    some (h, [⟨0x30000 + 0x40 * e, ones 63 52, 2 ^ 63 + src % 4 * 2 ^ 61 + stream % 32 * 2 ^ 56 + size % 16 * 2 ^ 52⟩])
  | .dmaEngineDisable h e => some (h, [⟨0x30000 + 0x40 * e, 2 ^ 63, 0⟩])
  | .dmaRingBaseWrite h e cq addr => some (h, [⟨(if cq then 0x30010 else 0x30008) + 0x40 * e, 2 ^ 64 - 1, addr⟩])
  | .linkEnable h l => some (h, [⟨0xB0000 + 16 * l, 2 ^ 31, 2 ^ 31⟩])
  | .ladderDisable h => some (h, [⟨0x70000, 2 ^ 63, 0⟩])
  | .ladderMaxLower h m => some (h, [⟨0x70000, ones 62 59, m % 16 * 2 ^ 59⟩])
  | .tickSourceWrite h es => some (h, es.filter fun e => [0x60010, 0x60018, 0x60020, 0x60028, 0x60030].contains e.off)
  | .timingModeWrite h c1 => some (h, [⟨0x40, 2 ^ 48, bnat c1 * 2 ^ 48⟩])
  | .alignDepthWrite h d => some (h, [⟨0x48, ones 47 32, d % 65536 * 2 ^ 32⟩])
  | .bar2CfgWrite h en ofs => some (h, [⟨0x58, ones 63 63 + ones 38 28, bnat en * 2 ^ 63 + ofs % 2 ^ 39⟩])
  | _ => none

/-- The words of the tile tables: opcode, cycles to the sum chain, operation, and where the word stands (R118, R131 to R151, R181). -/
def wordOp : Instr → Option (Nat × Nat × RowOp × TileAt)
  | .mvm a => some (0x00, 4, pureOp mvmOp, a)
  | .mvmAcc a => some (0x01, 0, pureOp mvmAccOp, a)
  | .chainPass a => some (0x02, 1, pureOp chainPassOp, a)
  | .req a => some (0x08, 0, pureOp reqOp, a)
  | .idle a => some (idleOp a.col a.row, 0, pureOp fun _ t => { t := t }, a)
  | .rd a => some (0x40, 0, pureOp (memoryOp true false false), a)
  | .wr a => some (0x41, 0, pureOp (memoryOp false false true), a)
  | .rdWr a => some (0x42, 0, pureOp (memoryOp true false true), a)
  | .rd2 a => some (0x43, 0, pureOp (memoryOp true true false), a)
  | .rd2Wr a => some (0x44, 0, pureOp (memoryOp true true true), a)
  | .lut4 a => some (0x80, 0, pureOp lut4Op, a)
  | .lut8 a => some (0x81, 0, pureOp lut8Op, a)
  | .cmp a => some (0x88, 0, pureOp (cmpThrOp false), a)
  | .thr a => some (0x89, 0, pureOp (cmpThrOp true), a)
  | .add a => some (0x90, 0, pureOp (addSubOp false), a)
  | .sub a => some (0x91, 0, pureOp (addSubOp true), a)
  | .shl a => some (0x92, 0, pureOp (shiftOp false), a)
  | .sra a => some (0x93, 0, pureOp (shiftOp true), a)
  | .narrow a => some (0x94, 0, pureOp narrowOp, a)
  | .resadd a => some (0x98, 0, pureOp resaddOp, a)
  | .maxe a => some (0xA0, 0, pureOp maxeOp, a)
  | .maxr a => some (0xA1, 0, pureOp maxrOp, a)
  | .topk a => some (0xA8, 0, pureOp topkOp, a)
  | .sort64 a => some (0xA9, 0, pureOp sort64Op, a)
  | .merge a => some (0xAA, 0, pureOp mergeOp, a)
  | .meanvar a => some (0xB0, 0, pureOp meanvarOp, a)
  | .norm a => some (0xB1, 0, pureOp normOp, a)
  | .softmax a => some (0xB8, 0, pureOp softmaxOp, a)
  | .cluster a => some (0xC0, 0, pureOp clusterOp, a)
  | .hist a => some (0xC8, 0, pureOp histOp, a)
  | .token a => some (0xD0, 0, pureOp tokenOp, a)
  | .select a => some (0xD1, 0, pureOp selectOp, a)
  | .route a => some (0xD2, 0, pureOp routeOp, a)
  | .inRd a => some (0xE0, 0, inRdOp a, a)
  | .inCtx a => some (0xE1, 0, inCtxOp, a)
  | .outScore a => some (0xE8, 0, outScoreOp, a)
  | .outVerdict a => some (0xEA, 0, outVerdictOp, a)
  | .hbmRd a => some (0xF0, 0, hbmRdOp a, a)
  | .hbmWr a => some (0xF1, 0, hbmWrOp a, a)
  | .ringRd a => some (0xF2, 0, ringRdOp a, a)
  | .fabTx a => some (0xF8, 0, fabTxOp, a)
  | .fabRx a => some (0xF9, 0, fabRxOp a, a)
  | .fabEtx a => some (0xFA, 0, fabEtxOp a, a)
  | .fabErx a => some (0xFB, 0, fabErxOp a, a)
  | _ => none

/-- What a row reads as it begins: the tile with its generators, and the environment of its operation (R113, R182). -/
def rowTile (a : TileAt) (r : RowCtx) (s : State) : Tile := turnSide r.inc (tileAt s a.q a.col a.row)
def rowEnv (a : TileAt) (r : RowCtx) (w : BitVec 128) (s : State) : Env :=
  { elastic := r.elastic, tag := r.tag, tick := r.tick, seed := (secAt s r.h).seed, c := a.c, w := w, hw := { a.hw with rotation := false }
    free := rowFree s }

/-- Lane i of a word of 16-bit integers (R134). -/
def lane16 (d : Line) (i : Nat) : Int := ofTwos 16 (bits d.toNat (16 * i + 15) (16 * i))

end Sys2Proof.Claims
end

