-- ==== Sys2Proof/Certificates/Slice0/Obligations.lean ====
section
/-!
DEFINITION. The statements for the provers.
-/

open Sys2Proof Sys2Proof.Machine Sys2Proof.Claims

/-- Observe commands that read what the device holds of itself: DEVICE_ID, TELEMETRY_READ, ERRQ_READ, TIME_GET, FABRIC_STATE,
MAINT_STATUS, HEALTH_READ and UPDATE_STATUS answer with its bytes and change nothing but their packet's traces (R373, R375). The
bytes' layouts are those of the sections cited, and where these give none, of log 23. -/
def Obligations.StatusReadsAnswer : Prop :=
  ∀ (h : Hdr) (s : State), Carried true h →
    (Observed bootAny h s →
      Answers 0x101 h (le 8 (regValue (readBy h s) 0) ++ le 8 (regValue (readBy h s) 8) ++ le 8 (regValue (readBy h s) 16)) s s (.deviceId h) ∧
      Answers 0x10D h (telemetryBytes (readBy h s)) s s (.telemetryRead h) ∧
      Answers 0x804 h (updateStatus (readBy h s)) s s (.updateStatus h)) ∧
    (Observed anySt h s →
      Answers 0x903 h ((errqBytes (readBy h s)).take 4064) s s (.errqRead h) ∧
      Answers 0x706 h ((healthBytes (readBy h s)).take 4064) s s (.healthRead h) ∧
      (Carried false h →
        Answers 0x504 h (todBytes (todOf (nowL (readBy h s))) ++ le 8 (readBy h s).time.raw) s s (.timeGet h) ∧
        Answers 0x605 h ((fabricStateBytes (readBy h s)).take 4064) s s (.fabricState h) ∧
        Answers 0x703 h ((le 2 s.flt.acts.length ++ le 2 s.flt.rots.length ++ le 4 s.flt.hbmShare ++
          s.flt.acts.flatMap actBytes ++ s.flt.rots.flatMap rotBytes).take 4064) s s (.maintStatus h)))

/-- Observe commands that read a part of the device answer with what it holds there: CFG_READ (clearing RC fields in the order asked),
SECTION_INFO, TILE_READ (through the ECC of the line, log 150), PROBE_READ, DIGEST_READ, DIGEST_VERIFY, CAL_READ and CULLET_READ of parts 1 and 2. -/
def Obligations.PartReadsAnswer : Prop :=
  ∀ (h : Hdr) (s : State), Carried false h →
    (∀ offs : List Nat, Observed anySt h s → 8 * offs.length ≤ 4064 →
      Answers 0x106 h (readAll offs (readBy h s)) s (offs.foldl rcClear (readBy h s)) (.cfgRead h offs)) ∧
    (∀ hd : Nat, Observed anySt h s → hd < 16 → ((secAt s hd).resident || (secAt s hd).staged) = true →
      Answers 0x204 h ((infoBytes s hd).take 4064) s s (.sectionInfo h hd)) ∧
    (∀ hd vq col row line q c r : Nat, Observed stLAUP h s → siteIn s hd vq col row = some (q, c, r) → siteClass c r = some .memory →
      line < 65536 → bankFull s hd q c r line = false →
      Answers 0x209 h (lineBytes (lineNow (tileAt s q c r) line).data) s s (.tileRead h hd vq col row line .ok) ∧
      Answers 0x209 h (lineBytes (lineNow (tileAt s q c r) line).data) s (hostEcc hd q c r line .corrected (readBy h s))
        (.tileRead h hd vq col row line .corrected) ∧
      Answers 0x209 h (lineBytes 0#256) s (hostEcc hd q c r line .bad (readBy h s)) (.tileRead h hd vq col row line .bad)) ∧
    (∀ n : Nat, Observed anySt h s → n < 16 →
      Answers 0x20B h ((tget (fun _ => ({} : Probe)) s.grid.probes n).buf.flatMap fun (w, t, c) => linkWordBytes w ++ le 8 t ++ le 4 c) s s
        (.probeRead h n)) ∧
    (∀ hd first count : Nat, Observed anySt h s → hd < 16 → 1 ≤ count → count ≤ 127 → (secAt s hd).resident = true →
      (∀ t ∈ rangeFrom first count, (keptDigest s hd t).isSome = true) →
      Answers 0x20C h (((rangeFrom first count).map (keptDigest s hd)).flatMap fun d => le 32 ((d.getD 0#512).toNat)) s s
        (.digestRead h hd first count)) ∧
    (∀ hd : Nat, Observed stLAUP h s → hd < 16 → (secAt s hd).resident = true →
      Answers 0x20D h (le 1 (bnat (storesMatch s hd)) ++ le 64 (weightDigest (secAt s hd).img).toNat) s (verifyWeights hd (readBy h s)) (.digestVerify h hd)) ∧
    (∀ (item first count : Nat) (c : CalItem), Observed anySt h s → calItem item = some c → 1 ≤ count → count ≤ 254 → first + count ≤ c.n →
      Answers 0x307 h ((rangeFrom first count).flatMap fun i =>
        le 4 (toTwos 32 (calFactory s item i)) ++ le 4 (toTwos 32 (calUser s item i)) ++ le 4 (toTwos 32 (calEffective s item i).1) ++
          le 4 (bnat (calEffective s item i).2)) s s (.calRead h item first count)) ∧
    (∀ part : Nat, Observed anySt h s → part = 1 ∨ part = 2 →
      Answers 0x405 h (s.acq.snap.getD part []) s s (.culletRead h part))

/-- Every control command passes the checks of R376 in their order, and fails at the first that does not pass, changing nothing (R374):
its form and its number (ST_PARAM), control held by its source (ST_NOT_OWNER; SECTION_LOAD then names check 0x0001, R196), the device state (ST_STATE), and the UPDATE overlay
(ST_BUSY with DETAIL 8, R392). It is journaled all the same (R375). -/
def Obligations.ChecksFailInOrder : Prop :=
  ∀ (i : Instr) (c : CmdSpec) (h : Hdr) (s : State), commandOf i = some (true, c, h) → s.dev.st ≠ .off →
    (¬ Formed c h → Refused c.op h 3 0 [] s i) ∧
    (Formed c h →
      (seqCase (winAt s (srcOf h)) h.seq = .below → Refused c.op h 3 0 [] s i) ∧
      (seqCase (winAt s (srcOf h)) h.seq = .new →
        (c.anyone = false ∧ s.ctl.holder ≠ some (srcOf h) → Refused c.op h 4 c.denied.1 c.denied.2 s i) ∧
        ((c.anyone = true ∨ s.ctl.holder = some (srcOf h)) →
          (s.dev.st ∉ c.states → Refused c.op h 2 0 [] s i) ∧
          (s.dev.st ∈ c.states → s.upd.overlay = true ∧ c.op / 256 ∈ [2, 6, 7] → Refused c.op h 1 8 [] s i))))

/-- A control command whose number its source's window has seen is not executed again (R379): nothing changes but its packet's
traces, no entry is added, and over a host ring it is answered with DUPLICATE set: an interim reply where the first copy is not final, else
that copy's reply whole where the cache holds it, else what the journal holds of it, with PARTIAL set. -/
def Obligations.DuplicateNotRepeated : Prop :=
  ∀ (i : Instr) (c : CmdSpec) (h : Hdr) (s : State), commandOf i = some (true, c, h) → s.dev.st ≠ .off → Formed c h →
    seqCase (winAt s (srcOf h)) h.seq = .dup →
    ∃ t, exec i s = .next t ∧ Traces s t ∧ t.ctl.jnext = s.ctl.jnext ∧
      t.ctl.journal.map (fun e => (e.jseq, e.status, e.final, e.result)) = s.ctl.journal.map (fun e => (e.jseq, e.status, e.final, e.result)) ∧
      ∀ e, s.ctl.journal.find? (fun e => e.source == srcOf h && e.cseq == h.seq) = some e → h.transport = 0 →
        (e.final = false → t.ctl.replies.getLast? = some { mkReply c.op h (some e.jseq) 0 0 [] with final := false, dup := true }) ∧
        (e.final = true → ∀ r, s.ctl.cache.find? (fun r => r.source == srcOf h && r.seq == h.seq) = some r →
          t.ctl.replies.getLast? = some { r with dup := true }) ∧
        (e.final = true → s.ctl.cache.find? (fun r => r.source == srcOf h && r.seq == h.seq) = none →
          (e.status = 0 → t.ctl.replies.getLast? = some { mkReply c.op h (some e.jseq) 0 0 e.result with dup := true, partialR := true }) ∧
          (e.status ≠ 0 → t.ctl.replies.getLast? =
            some { mkReply c.op h (some e.jseq) e.status (unle (e.result.take 4)) [] with dup := true, partialR := true }))

/-- Observe commands are never journaled and are accepted from any source (R375): none adds or changes a journal entry, changes the holder
or waits among the accepted commands; one that is malformed or comes below its window fails with ST_PARAM, one in a state R391 does not
list with ST_STATE, and then only its packet's traces remain. -/
def Obligations.ObserveNeverJournaled : Prop :=
  ∀ (i : Instr) (c : CmdSpec) (h : Hdr) (s : State), commandOf i = some (false, c, h) → s.dev.st ≠ .off →
    (∃ t, exec i s = .next t ∧ t.ctl.journal = s.ctl.journal ∧ t.ctl.jnext = s.ctl.jnext ∧ t.ctl.holder = s.ctl.holder ∧
      t.ctl.waiting = s.ctl.waiting ∧ t.dev = s.dev) ∧
    ∀ st, (¬ Formed c h ∧ st = 3) ∨ (Formed c h ∧ seqCase (winAt s (srcOf h)) h.seq = .below ∧ st = 3) ∨
        (Formed c h ∧ seqCase (winAt s (srcOf h)) h.seq ≠ .below ∧ s.dev.st ∉ c.states ∧ st = 2) →
      ∃ t, exec i s = .next t ∧ Traces s t ∧ (h.transport = 0 → t.ctl.replies.getLast? = some (mkReply c.op h none st 0 []))

/-- CONTROL_CLAIM (R385). When control is free, or FORCE is given over I3C or by the fabric master, the caller becomes the holder,
CLAIM_EPOCH rises by one, the windows are cleared (R386) and the lease is set; when it holds control already the claim renews it; when
another source holds it the claim fails with ST_NOT_OWNER and names the holder and the lease time left. The other checks are LEASE_MS, and
that a FORCE from elsewhere fails with ST_PARAM (log 25). -/
def Obligations.ClaimTakesControl : Prop :=
  ∀ (h : Hdr) (leaseMs : Nat) (force : Bool) (s : State), Accepted 0x103 anySt true false h s → Carried true h →
    let i := Instr.controlClaim h leaseMs force
    let lawful := force = true → h.transport = 3 ∨ isMasterSrc h s = true
    (leaseMs ≠ 0 ∧ (leaseMs < 100 ∨ 3600000 < leaseMs) → Refused 0x103 h 3 0 [] s i) ∧
    (¬ lawful → Refused 0x103 h 3 0 [] s i) ∧
    (leaseMs = 0 ∨ (100 ≤ leaseMs ∧ leaseMs ≤ 3600000) → lawful →
      (∀ cause, (s.ctl.holder = none ∧ cause = 0) ∨ (∃ o, s.ctl.holder = some o ∧ o ≠ srcOf h ∧ force = true ∧ cause = 1) →
        let E := { s with ctl := { s.ctl with holder := some (srcOf h), epoch := (s.ctl.epoch + 1) % 2 ^ 32, leaseMs := leaseMs } }
        ∃ t, exec i s = .next t ∧ Journaled 0x103 h true s t ∧ t.ctl.wins = [] ∧ t.ctl.leaseAt = t.time.raw ∧
          Traces (raiseEv { code := 0x71, sev := 0, body := le 4 (s.ctl.holder.getD 0) ++ le 4 (srcOf h) ++ le 4 E.ctl.epoch ++ le 4 cause }
            { E with time := t.time }) t ∧
          (h.transport = 0 → t.ctl.replies.getLast? = some (mkReply 0x103 h (some s.ctl.jnext) 0 0 (le 4 E.ctl.epoch)))) ∧
      (s.ctl.holder = some (srcOf h) →
        Done 0x103 h (le 4 s.ctl.epoch) s { s with ctl := { s.ctl with leaseMs := leaseMs } } i) ∧
      (∀ o, s.ctl.holder = some o → o ≠ srcOf h → force = false →
        Refused 0x103 h 4 0 (le 4 o ++ le 4 (leaseLeft (begun 0x103 h s))) s i))

/-- Control becomes free (R385): CONTROL_RELEASE of the holder, and the end of its lease, which also writes the internal entry
LEASE_EXPIRED. Both raise CLAIM_EPOCH, clear the windows and raise CONTROL_CHANGE. -/
def Obligations.ControlBecomesFree : Prop :=
  (∀ (h : Hdr) (s : State), Accepted 0x104 anySt false false h s → Carried true h →
    ∃ t, exec (.controlRelease h) s = .next t ∧ Journaled 0x104 h true s t ∧ t.ctl.wins = [] ∧ t.ctl.leaseAt = t.time.raw ∧
      Traces (raiseEv { code := 0x71, sev := 0, body := le 4 (srcOf h) ++ le 4 0 ++ le 4 ((s.ctl.epoch + 1) % 2 ^ 32) ++ le 4 2 }
        { s with ctl := { s.ctl with holder := none, epoch := (s.ctl.epoch + 1) % 2 ^ 32, leaseMs := 0 }, time := t.time }) t) ∧
  (∀ (o : Nat) (s : State), s.ctl.holder = some o → s.ctl.leaseMs ≠ 0 → s.dev.st ≠ .off →
    ∃ t, exec .leaseExpired s = .next t ∧ t.ctl.holder = none ∧ t.ctl.leaseMs = 0 ∧ t.ctl.wins = [] ∧
      t.ctl.epoch = (s.ctl.epoch + 1) % 2 ^ 32 ∧ t.ctl.jnext = s.ctl.jnext + 1 ∧
      (∃ e, t.ctl.journal.head? = some e ∧ e.jseq = s.ctl.jnext ∧ e.opcode = 0x09F1 ∧ e.internal = true ∧ e.final = true ∧
        e.result = le 4 o ++ le 4 0) ∧
      (∃ r, t.host.raised = s.host.raised ++ [r] ∧ r.e.code = 0x71 ∧
        r.e.body = le 4 o ++ le 4 0 ++ le 4 ((s.ctl.epoch + 1) % 2 ^ 32) ++ le 4 3) ∧
      t = { s with ctl := t.ctl, host := { s.host with eseq := s.host.eseq + 1, raised := t.host.raised } })

/-- ARM in READY or LOADED with T_a ahead by the lead, calibration that is not DEFAULT (or allowed), every place of a resident section
ACTIVE and a tick generator that gives edges: the device is ARMED until E(T_a), where the command becomes final; a fabric master also
names T_a to its members (R256, R382, R392). PAUSE, RESUME with T_r ahead and STOP likewise are accepted and wait; STOP from ARMED
ends at once with the arm cancelled (R264, R315, R318, R392). -/
def Obligations.RunCommandsTaken : Prop :=
  ∀ (h : Hdr) (s : State), Carried false h →
    (∀ (ta : Nat) (allow : Bool), Accepted 0x107 stRL false false h s →
      (s.fab.member = true → s.fab.isMaster = true ∨ isMasterSrc h s = true) → leadOk (begun 0x107 h s) ta = true →
      replayElsewhere s ta = false → (s.fe.cal.isDefault = true → allow = true) → placesActive s = true → ticking s = true →
      startFit s = true →
      let b : BarrierDesc := { tick := ta, start := true }
      let u := begun 0x107 h s
      let v := if u.fab.member && u.fab.isMaster then
        toMembers (.barrier b) { u with fab := { u.fab with barriers := u.fab.barriers ++ [b] } } else u
      Waits 0x107 h (some ta) s (setDev .armed { v with dev := { v.dev with armAt := some ta, tA := ta } }) (.arm h ta allow)) ∧
    (Accepted 0x108 [.running] false false h s → s.dev.pauseReq = false →
      Waits 0x108 h none s { s with dev := { s.dev with pauseReq := true, pauseJ := some s.ctl.jnext } } (.pause h)) ∧
    (∀ tr : Nat, Accepted 0x109 [.paused] false false h s → nowTick s < tr → replayElsewhere s tr = false →
      s.dev.draining = false → s.dev.resumeAt = none →
      Waits 0x109 h (some tr) s { s with dev := { s.dev with resumeAt := some tr } } (.resume h tr)) ∧
    (Accepted 0x10A stAUP false false h s → s.dev.stopReq = false → s.dev.draining = false →
      (s.dev.st = .armed → Done 0x10A h [] s (setDev (if (residents s).isEmpty then .ready else .loaded)
        { expireWaiting (begun 0x10A h s) with dev := { s.dev with armAt := none, tA := 0 } }) (.stop h)) ∧
      (s.dev.st ≠ .armed → ∃ t, exec (.stop h) s = .next t ∧ t.ctl.jnext = s.ctl.jnext + 1 ∧
        (∀ w ∈ t.ctl.waiting, w.tick = none) ∧ (∃ w ∈ t.ctl.waiting, w.jseq = s.ctl.jnext ∧ w.opcode = 0x10A ∧ w.h = h) ∧
        t.dev = if s.dev.st = .paused then { s.dev with draining := true, resumeAt := none, stopJ := some s.ctl.jnext }
          else { s.dev with pauseReq := true, stopReq := true, stopJ := some s.ctl.jnext }))

/-- SAFE_STOP with a cause of R504 enters SAFE_STOP (R392, R492, R503): the state and cause are set, every waiting command tied to a tick
ends with ST_EXPIRED (R383), BUSY_OUT is active in every class, passes end, SAFE_STOP_ENTERED is journaled, the save of CAUSE 4 begins unless one runs,
and the grid rails go to 0.60 V. Another cause fails with ST_PARAM. -/
def Obligations.SafeStopEntered : Prop :=
  ∀ (h : Hdr) (cause : Nat) (s : State), Accepted 0x10C stRLAUP false false h s → Carried true h →
    (cause < 0x8000 ∨ 0xFFFF < cause → Refused 0x10C h 3 0 [] s (.safeStop h cause)) ∧
    (0x8000 ≤ cause → cause ≤ 0xFFFF →
      ∃ t, exec (.safeStop h cause) s = .next t ∧ t.ctl.jnext = s.ctl.jnext + 2 ∧
        t.dev = { s.dev with st := .safe, safeCause := cause, draining := false, pauseReq := false, stopReq := false, armAt := none, resumeAt := none } ∧
        (∃ e, t.ctl.journal.head? = some e ∧ e.jseq = s.ctl.jnext + 1 ∧ e.opcode = 0x09F3 ∧ e.internal = true) ∧
        (∀ w ∈ t.ctl.waiting, w.tick = none) ∧ t.comb = { s.comb with busy := 15 } ∧ (∀ p ∈ t.t2.passes, p.2.ctx = none) ∧
        t.pwr.avsMv = (List.range 4).foldl (fun l q => l.set q 600) s.pwr.avsMv ∧
        (s.pwr.saving = none → s.pwr.saveOk = true → t.pwr.saving = some 4 ∧ t.pwr.saveTick = nowTick s + 1) ∧
        (s.pwr.saving ≠ none → t.pwr.saving = s.pwr.saving) ∧
        t.regs = s.regs ∧ t.hbm = s.hbm ∧ t.grid = s.grid ∧ t.fe = s.fe ∧ t.eng = s.eng ∧ t.flt = s.flt ∧ t.free = s.free)

/-- DEVICE_RESET starts the save with CAUSE 3, unless one is under way (R505), and marks that the save leads to BOOT (R392); JOURNAL_NOTE of
16 bytes only enters the journal, as PDIGEST (R396); MEM_WRITE of a range its windows allow stores the data and nothing else (R289). -/
def Obligations.PlainControlCommands : Prop :=
  ∀ (h : Hdr) (s : State),
    (Accepted 0x10B anySt false false h s → Carried true h → Done 0x10B h [] s
      { s with dev := { s.dev with resetReq := true }
               pwr := if s.pwr.saving = none ∧ s.pwr.saveOk = true then { s.pwr with
                   saving := some 3, saveTick := nowTick s + 1, save := { s.pwr.save with cause := 3, detTick := nowTick s } }
                 else s.pwr } (.deviceReset h)) ∧
    (Accepted 0x902 anySt false false h s → Carried false h → h.raw.length = 16 → Done 0x902 h [] s s (.journalNote h) ∧
      ∃ t, exec (.journalNote h) s = .next t ∧ ∃ e, t.ctl.journal.head? = some e ∧ e.pdigest = slice 0 16 (sha3 h.raw)) ∧
    (∀ (w a : Nat) (data : List Byte), Accepted 0x10E anySt false false h s → Carried false h → s.pwr.saving = none → w < 1024 →
      (windowAt s w).valid = true → (windowAt s w).wr = true → (windowAt s w).target ≠ 0 → 0 < data.length →
      data.length ≤ 4056 → a % 4096 + data.length ≤ 4096 → a + data.length ≤ 2 ^ (windowAt s w).size → a < 2 ^ 54 →
      (windowAt s w).base + a + data.length ≤ hbmSize s →
      Done 0x10E h [] s (hbmWrite ((windowAt s w).base + a) data s) (.memWrite h (w * 2 ^ 54 + a) data))

/-- MEM_READ of a range of an HBM window returns the bytes stored (R289); JOURNAL_READ returns at most MAX entries from FROM, in order, after
OLDEST, NEXT and RFL (R399); DEVICE_STATE is answered at once where the tick generator gives no edge (log 24), else it waits for the next edge (R393). -/
def Obligations.HeldDataReads : Prop :=
  ∀ (h : Hdr) (s : State),
    (∀ (w a len : Nat) (found : List Byte), Carried false h → Observed anySt h s → w < 1024 →
      (windowAt s w).valid = true → (windowAt s w).rd = true → (windowAt s w).target ≠ 0 → 0 < len → len ≤ 4064 →
      a % 4096 + len ≤ 4096 → a + len ≤ 2 ^ (windowAt s w).size → a < 2 ^ 54 → (windowAt s w).base + a + len ≤ hbmSize s →
      Answers 0x10F h (hbmRead s ((windowAt s w).base + a) len) s s (.memRead h (w * 2 ^ 54 + a) len found)) ∧
    (∀ from_ max : Nat, Carried true h → Observed anySt h s → max ≤ 63 → (h.transport = 3 → max ≤ 3) →
      let old := match s.ctl.journal.getLast? with | some e => e.jseq | none => s.ctl.jnext
      let es := (s.ctl.journal.reverse.filter fun e => decide (Nat.max from_ old ≤ e.jseq)).take max
      let nxt := match es.getLast? with | some e => e.jseq + 1 | none => Nat.max from_ old
      Answers 0x901 h (le 8 old ++ le 6 nxt ++ le 2 (bnat (decide (from_ < old))) ++ es.flatMap entryBytes) s s (.journalRead h from_ max)) ∧
    (Carried true h → Observed bootAny h s →
      (ticking s = false → Answers 0x102 h (deviceStateBytes (readBy h s)) s s (.deviceState h)) ∧
      (ticking s = true → ∃ t, exec (.deviceState h) s = .next t ∧
        Traces { s with ctl := { s.ctl with snapWait := s.ctl.snapWait ++ [(h, 0)] } } t ∧ t.ctl.journal = s.ctl.journal))
/-- CFG_WRITE and the rows that are one write of it (R389): all entries take effect together, at once, or at their tick edge where AT is given
or a register is tied to one (R26, R382); one that stops DMA engines becomes final when they have stopped (R288); if an entry fails none takes
effect, and DETAIL gives its index. -/
def Obligations.ConfigWritesTakeEffect : Prop :=
  ∀ (i : Instr) (h : Hdr) (es : List CfgEntry) (s : State), cfgEntriesOf i = some (h, es) → Accepted 0x105 anySt false false h s →
    Carried false h → (s.acq.replay.running = true → ∀ e ∈ es, bitAffecting e.off = false) →
    let u := begun 0x105 h s
    let stops := (List.range 40).filter fun e => (engAt (cfgApply es u) e).stopping && !(engAt s e).stopping
    (h.at_ = none → cfgTickBound es = false →
      (cfgCheck u es = none → stops = [] → Done 0x105 h [] s (cfgApply es u) i) ∧
      (cfgCheck u es = none → stops ≠ [] →
        Waits 0x105 h none s (stops.foldl (fun t e => setEng e { engAt t e with stopReply := some s.ctl.jnext } t) (cfgApply es u)) i) ∧
      (∀ st n, cfgCheck u es = some (st, n) → st ≠ 0 → n < 2 ^ 32 → Refused 0x105 h st n [] s i)) ∧
    (h.at_.isSome = true ∨ cfgTickBound es = true → cfgCheck u es = none → AtEdge 0x105 h (.cfg es) (cfgApply es u) s i)

/-- A register write sets each RW bit that MASK selects to VALUE and leaves every other bit and register as it was (R389); of the rest of the
state it may touch only what the registers written govern: never memory, sections, tiles, the front end's samples, the journal or a queue
of commands. -/
def Obligations.RegisterWriteStores : Prop :=
  ∀ (off mask value : Nat) (s : State),
    (∀ k i, regKind off = some (k, i) → ∀ b, b < 64 →
      (regAt (cfgApply [⟨off, mask, value⟩] s) off).testBit b =
        if mask.testBit b && (rwMaskAt k i).testBit b then value.testBit b else (regAt s off).testBit b) ∧
    (regKind off = none → (cfgApply [⟨off, mask, value⟩] s).regs = s.regs) ∧
    (∀ o, o ≠ off → regAt (cfgApply [⟨off, mask, value⟩] s) o = regAt s o) ∧
    (cfgApply [⟨off, mask, value⟩] s).hbm = s.hbm ∧ (cfgApply [⟨off, mask, value⟩] s).grid = s.grid ∧
    (cfgApply [⟨off, mask, value⟩] s).t2 = s.t2 ∧ (cfgApply [⟨off, mask, value⟩] s).acq = s.acq ∧
    (cfgApply [⟨off, mask, value⟩] s).dev = s.dev ∧ (cfgApply [⟨off, mask, value⟩] s).ctl.journal = s.ctl.journal ∧
    (cfgApply [⟨off, mask, value⟩] s).ctl.waiting = s.ctl.waiting
/-- Loading, unloading and swapping sections (R186, R192, R196, R392). A load that passes the checks before the loader and that the loader
places ends with the handle and placement as its result, its CMD entry logged, and READY becomes LOADED; one against a swap that waits, or in a state without
loads, fails as R196 says. UNLOAD frees the section, recomputes C, and the last one leads back to READY. A swap waits for its tick. -/
def Obligations.SectionsComeAndGo : Prop :=
  ∀ (h : Hdr) (s : State), Carried false h →
    (∀ r : LoadReq, Accepted 0x201 anySt false true h s →
      let u := begun 0x201 h s
      (s.dev.st ∉ stRLAUP → ∃ R, Refused 0x201 h 2 2 R s (.sectionLoad h r)) ∧
      (s.dev.st ∈ stRLAUP → quadsReady s r = true → placeOk r.img r.place = true →
        r.stallExp = 0 ∨ (16 ≤ r.stallExp ∧ r.stallExp ≤ 32) →
        (swapPending s = true → ∃ R, Refused 0x201 h 1 3 R s (.sectionLoad h r)) ∧
        (swapPending s = false → s.ctl.loadQueue = [] → (placeQuads r).any (shadowClaimed u) = false →
          ∀ v p, runLoader u (stAUP.contains s.dev.st) r = (v, .ok p) →
            Ends 0x201 h (loadResult p) s (loadLog h s.ctl.jnext r (if v.dev.st = .ready then setDev .loaded v else v)) (.sectionLoad h r)))) ∧
    (∀ hd : Nat, Accepted 0x202 stRL false false h s → hd < 16 → (secAt s hd).resident = true →
      let v := recomputeC (dropSection hd (begun 0x202 h s))
      Ends 0x202 h [] s (if (residents v).isEmpty then setDev .ready v else v) (.sectionUnload h hd)) ∧
    (∀ outs ins : List Nat, Accepted 0x203 stAUP false true h s → swapCheck outs ins (begun 0x203 h s) = none →
      AtEdge 0x203 h (.swap outs ins) (begun 0x203 h s) s (.sectionSwap h outs ins))

/-- What commands of class 0x02 write (R122, R123, R308, R316, R317): TABLE_SWITCH turns SEL of the generators named at its edge; TILE_WRITE
stores a line, or its low 8 bytes (log 143; a line with an ECC error as log 150 has it), of a memory tile and nothing else; PROBE_SET sets its probe with an empty buffer; STATE_RESTORE notes the
image for the next ARM or RESUME edge; STATE_SAVE verifies the weights, keeps the image captured and writes its header, and answers the bytes moved. -/
def Obligations.SectionCommandsWrite : Prop :=
  ∀ (h : Hdr) (s : State), Carried false h →
    (∀ es : List TabSel, Accepted 0x207 stLAUP false true h s → es.length ≤ 64 → es.all (tabOk s) = true →
      AtEdge 0x207 h (.tables es) (switchTables es (begun 0x207 h s)) s (.tableSwitch h es)) ∧
    (∀ (hd vq col row line q c r : Nat) (data : List Byte) (ecc : Ecc), Accepted 0x208 stLAUP false true h s → siteIn s hd vq col row = some (q, c, r) →
      siteClass c r = some .memory → line < 65536 → data.length = 8 ∨ data.length = 32 →
      (isFixed (secAt s hd) = true → lineInUse (tileAt s q c r) line = true →
        Refused 0x208 h 2 0 [] s (.tileWrite h hd vq col row line data ecc)) ∧
      ((isFixed (secAt s hd) = true → lineInUse (tileAt s q c r) line = false) → bankFull s hd q c r line = false → writeWaits s hd = false →
        let t := tileAt s q c r
        let old := lineNow t line
        let new : MLine := if data.length = 32 then { data := BitVec.ofNat 256 (unle data) }
          else { old with data := BitVec.ofNat 256 (old.data.toNat / 2 ^ 64 * 2 ^ 64 + unle data) }
        (data.length = 8 → Done 0x208 h [] s (writeTileLine hd vq col row line data ecc (begun 0x208 h s)) (.tileWrite h hd vq col row line data ecc)) ∧
        (data.length = 32 ∨ ecc = .ok → Done 0x208 h [] s (setTile q c r { t with
          mem := tset (fun _ => {}) t.mem line new, memNew := t.memNew.filter fun w => w.line != line } s) (.tileWrite h hd vq col row line data ecc)))) ∧
    (∀ (n : Nat) (p : Probe), Accepted 0x20A stLAUP false false h s → n < 16 → p.source ≤ 6 → 1 ≤ p.count → p.count ≤ 64 →
      (siteIn s p.handle p.vq p.col p.row).isSome = true → (p.source = 6 → siteClass p.col p.row = some .matrix) →
      Done 0x20A h [] s { s with grid := { s.grid with probes := tset (fun _ => {}) s.grid.probes n { p with set := true, buf := [] } } }
        (.probeSet h n p)) ∧
    (∀ (img : StateImage) (noHist : Bool), Accepted 0x206 [.loaded, .paused] false true h s →
      (restoreStatus (begun 0x206 h s) img = 0 →
        Done 0x206 h [] s { s with restoring := some img, dev := { s.dev with noHist := noHist } } (.stateRestore h img noHist)) ∧
      (restoreStatus (begun 0x206 h s) img ≠ 0 →
        Refused 0x206 h (restoreStatus (begun 0x206 h s) img) 0 [] s (.stateRestore h img noHist))) ∧
    (∀ addr len : Nat, Accepted 0x205 [.loaded, .paused] false false h s → (s.t2.ctxs.any fun e => e.2.st == .deliver) = false →
      s.pwr.saving = none → 160 ≤ len → rangeOk (begun 0x205 h s) true addr len = true →
      let v := (residents s).foldl (fun t hd => verifyWeights hd t) (begun 0x205 h s)
      let w := { v with free := v.free + 1 }
      let i := { captureState addr w with digest := Config.freeBits 512 v.free }
      Ends 0x205 h (le 8 len) s (windowWrite addr (stateHeader i) { w with images := i :: w.images.filter fun x => x.addr != addr })
        (.stateSave h addr len))
/-- Commands of class 0x03 (R214, R215, R220, R221, R224, R226, R228, R237, R250): channels, groups, primitives, measurement engines,
calibration values and combiner lines take what they are given, at once or at their tick; CAL_COMMIT moves the staged set to the flash unless
its version does not rise (ST_VERSION_CONFLICT). -/
def Obligations.ZoneCommandsSet : Prop :=
  ∀ (h : Hdr) (s : State), Carried false h →
    (∀ (first : Nat) (vals : List Nat), Accepted 0x301 stRL false true h s → vals ≠ [] → first + vals.length ≤ 4096 →
      let es := vals.zipIdx.map fun (v, i) => ({ off := ctxOff (first + i), mask := ones 31 16, value := v } : CfgEntry)
      (cfgCheck (begun 0x301 h s) es = none → Done 0x301 h [] s (cfgApply es (begun 0x301 h s)) (.chanSet h first vals))) ∧
    (∀ (g : Nat) (d : GroupDesc), Accepted 0x302 stRL false true h s → groupOk (begun 0x302 h s) g d = true →
      templatesFit (groupSet g d (begun 0x302 h s)) = true → Done 0x302 h [] s (groupSet g d (begun 0x302 h s)) (.groupSet h g d)) ∧
    (∀ (first : Nat) (ds : List PrimDesc), Accepted 0x303 stRLAUP false true h s → ds ≠ [] → first + ds.length ≤ 8192 → ds.all primOk = true →
      AtEdge 0x303 h (.prims first ds) (setPrims first ds (begun 0x303 h s)) s (.primSet h first ds)) ∧
    (∀ (e : Nat) (d : MeasDesc), Accepted 0x304 stRLP false true h s → e < 1024 → measOk d = true →
      Done 0x304 h [] s { s with fe := { s.fe with meas := tset (fun _ => {}) s.fe.meas e d } } (.measSet h e d)) ∧
    (∀ es : List CalEntry, Accepted 0x305 anySt false true h s → es ≠ [] → es.all calEntryOk = true →
      (inReady s = false → es.any (fun e => calWhen e == 0) = false) → es.any (fun e => calWhen e == 1) = false →
      let u := begun 0x305 h s
      Done 0x305 h [] s (calApply es { u with fe := { u.fe with cal := { u.fe.cal with staged := es.foldl (fun l e => calPut e l) u.fe.cal.staged } } })
        (.calWrite h es)) ∧
    (∀ version : Nat, Accepted 0x306 stRLAUP false true h s →
      (calBlockOk s.fe.cal.flash = true → version ≤ calVersion s.fe.cal.flash → Refused 0x306 h 7 0 [] s (.calCommit h version)) ∧
      ((calBlockOk s.fe.cal.flash = true → calVersion s.fe.cal.flash < version) →
        Done 0x306 h [] s { s with fe := { s.fe with cal := { s.fe.cal with flash := calBlock version s.fe.cal.staged } } } (.calCommit h version))) ∧
    (∀ (n : Nat) (d : LineDesc), Accepted 0x308 stRLAUP false true h s → combLineOk (begun 0x308 h s) n d = true →
      AtEdge 0x308 h (.line n d) (setLine n (lineWritten d (lineSt s n)) (begun 0x308 h s)) s (.combLineSet h n d))

/-- Commands of class 0x04 (R266, R282, R289, R292, R293): templates at their edge, window-table entries, extraction requests, parked engines and
the cullet log. -/
def Obligations.RecordCommandsSet : Prop :=
  ∀ (h : Hdr) (s : State), Carried false h →
    (∀ (k : Nat) (d : TemplateDesc), Accepted 0x401 stRLAUP false true h s → templateOk (begun 0x401 h s) k d = true →
      let u := begun 0x401 h s
      AtEdge 0x401 h (.template k d) { u with acq := { u.acq with templates := tset (fun _ => {}) s.acq.templates k d } } s
        (.templateSet h k d)) ∧
    (∀ (n : Nat) (w : Window), Accepted 0x402 stRLAUP false true h s → n < 1024 →
      (windowBusy s n = true → Refused 0x402 h 1 0 [] s (.windowSet h n w)) ∧
      (windowBusy s n = false →
        windowOk (setReg (0x40008 + 16 * n) (windowCtl w) (setReg (0x40000 + 16 * n) w.base (begun 0x402 h s))) n = true →
        Done 0x402 h [] s (setReg (0x40008 + 16 * n) (windowCtl w) (setReg (0x40000 + 16 * n) w.base s)) (.windowSet h n w))) ∧
    (∀ t k : Nat, Accepted 0x403 stAUP false false h s → ringOn s = true → k < 64 → (templateAt s k).en = true →
      (ringGone (begun 0x403 h s) (firstTick (begun 0x403 h s) (extractReq t k s)) = true → Refused 0x403 h 12 0 [] s (.ringExtract h t k)) ∧
      (ringGone (begun 0x403 h s) (firstTick (begun 0x403 h s) (extractReq t k s)) = false → s.acq.reqs.length < 4096 →
        let r : RecReq := { tick := t, template := k, tpl := templateAt s k, outcome := 3, stamp := stampOf s t, tStart := s.acq.tStart.getD 0 }
        Done 0x403 h [] s (addCnt 19 1 { s with acq := { s.acq with reqs := s.acq.reqs ++ [r] } }) (.ringExtract h t k))) ∧
    (∀ e mode : Nat, Accepted 0x404 anySt false false h s → e < 40 → mode < 2 →
      ((engAt s e).park = none → Refused 0x404 h 2 0 [] s (.dmaResume h e mode)) ∧
      (∀ p, (engAt s e).park = some p →
        let v := setEng e { engAt s e with park := none } (begun 0x404 h s)
        Done 0x404 h [] s (if mode = 0 then v else skipPark e p v) (.dmaResume h e mode))) ∧
    (Observed anySt h s →
      (ticking s = false → Answers 0x405 h ((culletSnap (readBy h s)).getD 0 []) s
        { s with acq := { s.acq with snap := culletSnap (readBy h s) } } (.culletRead h 0)) ∧
      (ticking s = true → ∃ t, exec (.culletRead h 0) s = .next t ∧
        Traces { s with ctl := { s.ctl with snapWait := s.ctl.snapWait ++ [(h, 1)] } } t))

/-- Recordings and replays (R309, R311, R314): RECORD_INPUTS_SET arms one, REPLAY_SET takes a recording that fits the configuration,
REPLAY_EXPORT sends its ring slots and then its log to host memory, REPLAY_IMPORT brings one in; the last two answer the bytes moved. -/
def Obligations.RecordingCommands : Prop :=
  ∀ (h : Hdr) (s : State), Carried false h →
    (∀ (area size endTick : Nat) (freeze wide : Bool), Accepted 0x406 [.loaded, .paused] false false h s →
      let r : Rec := { area := area, size := size, endTick := endTick, freeze := freeze, wide := wide, armed := true }
      let u := begun 0x406 h s
      s.acq.replay.running = false → 2 ^ 26 ≤ size → size ≤ 2 ^ 32 → areasOk { u with acq := { u.acq with recg := r } } = true → ringOn s = true →
      (∀ l, l < 96 → (laneCfg (regAt s) l).en = true → (laneCfg (regAt s) l).ringEn = true) → (usesFabRx s = true → wide = true) →
      (wide = true → s.fab.member = true ∧ s.fab.isMaster = true) →
      let v := { u with acq := { u.acq with recg := r } }
      Done 0x406 h [] s (if wide then toMembers (.command (le 2 0x406 ++ h.raw)) v else v) (.recordInputsSet h area size endTick freeze wide)) ∧
    (∀ (area : Nat) (recorded quiet : Bool) (imgs : List (BitVec 512)) (r : Rec), Accepted 0x407 [.loaded] false true h s →
      s.acq.recorded.find? (fun r => r.area == area) = some r → replayOk (begun 0x407 h s) r imgs = true →
      let u := begun 0x407 h s
      let v := { u with acq := { u.acq with replay := { set := true, recorded := recorded, quiet := quiet, wide := r.wide, log := r.log } } }
      Done 0x407 h [] s (if r.wide then toMembers (.command (le 2 0x407 ++ h.raw)) v else v) (.replaySet h area recorded quiet imgs)) ∧
    (∀ (e area addr : Nat) (r : Rec), Accepted 0x408 [.ready, .loaded, .paused] false false h s →
      s.acq.recorded.find? (fun r => r.area == area) = some r → e < 32 → engSrc s e = 2 →
      (engAt s e).cur = none → (engAt s e).park = none → s.pwr.saving = none →
      let bs := (recSpan r).flatMap (fun t => hbmRead s (slotAddr s t) (slotBytes s)) ++ r.log.flatMap logEntryBytes
      Done 0x408 h (le 8 bs.length) s (send (.mem addr bs) (begun 0x408 h s)) (.replayExport h e area addr)) ∧
    (∀ (e size : Nat) (r : Recording), Accepted 0x409 stRL false true h s → 32 ≤ e → e < 40 → ringOn s = true →
      let u := begun 0x409 h s
      let rc : Rec := { area := r.area, size := size, wide := r.wide, done := true, log := r.log }
      areasOk { u with acq := { u.acq with recg := rc } } = true → (∀ x ∈ r.slots, x.2.length = slotBytes s) → r.slots.length ≤ ringDepth s →
      (engAt s e).cur = none → (engAt s e).park = none → s.pwr.saving = none →
      ∃ t, exec (.replayImport h e r size) s = .next t ∧ t.acq.recg = { rc with log := t.acq.recg.log } ∧ t.acq.recorded = rc :: s.acq.recorded.filter (fun x => x.area != r.area) ∧
        t.hbm = (r.slots.foldl (fun m x => tsetAll (fun _ => 0#8) m (slotAddr s x.1) x.2) s.hbm) ∧
        (h.transport = 0 → t.ctl.replies.getLast? =
          some (mkReply 0x409 h (some s.ctl.jnext) 0 0 (le 8 (sumL (r.slots.map fun x => x.2.length))))))
/-- Commands of class 0x05 (R354, R357, R358, R362, R363, R366, R369, R370): the time is set, its rate changed and slewed where SRC lets a
command steer it, and else refused with ST_STATE; timed events are set at their edge; TICK_IN is numbered; the internal instance is configured;
frames leave. -/
def Obligations.TimeCommands : Prop :=
  ∀ (h : Hdr) (s : State), Carried false h →
    (∀ t : Tod, Accepted 0x501 stRL false false h s → t.ns < 10 ^ 9 → t.frac < 65536 → t.sec < 2 ^ 64 →
      (steerable s = false → Refused 0x501 h 2 0 [] s (.timeSet h t)) ∧
      (steerable s = true → ∃ u, exec (.timeSet h t) s = .next u ∧ nowL u = linOf t ∧ u.time.timeSet = true ∧ u.time.slew = 0 ∧ u.time.rem = 0 ∧
        u.time.slewing = false ∧ u.time.rate = s.time.rate ∧ (∀ e, e < 16 → timeArmed (tget (fun _ => {}) u.time.timed e) = false) ∧
        Traces (timeBecomes (linOf t) (begun 0x501 h s)) u)) ∧
    (∀ rate : Int, Accepted 0x502 anySt false false h s → rate.natAbs ≤ 219902325 →
      (steerable s = false → Refused 0x502 h 2 0 [] s (.timeRate h rate)) ∧
      (steerable s = true → Done 0x502 h [] s { s with time := setRate rate (begun 0x502 h s).time.raw s.time } (.timeRate h rate))) ∧
    (∀ d : Int, Accepted 0x503 anySt false false h s → d.natAbs ≤ 2 ^ 16 * 10 ^ 9 →
      (s.time.rate.natAbs = 219902325 → d ≠ 0 → Refused 0x503 h 3 0 [] s (.timeAdj h d)) ∧
      ((s.time.rate.natAbs = 219902325 → d = 0) →
        (steerable s = false → Refused 0x503 h 2 0 [] s (.timeAdj h d)) ∧
        (steerable s = true → Done 0x503 h [] s { s with time := slewBy d (begun 0x503 h s).time.raw s.time } (.timeAdj h d)))) ∧
    (∀ (e : Nat) (d : TimedDesc), Accepted 0x505 anySt false false h s →
      let u := begun 0x505 h s
      timedCheck u e d (timedAt h u).1 (timedAt h u).2 = none →
      AtEdge 0x505 h (.timed e d) (timedApply e d (nowTick u) (nowL u) u) s (.timedSet h e d)) ∧
    (∀ (tick : Nat) (t : Tod), Accepted 0x506 stRL false false h s → t.ns < 10 ^ 9 → t.frac < 65536 →
      tick % max (bits (regAt s 0x60010) 47 32) 1 = bits (regAt s 0x60010) 31 16 →
      Done 0x506 h [] s { s with time := { s.time with align_ := some (tick, linOf t) } } (.tickAlign h tick t)) ∧
    (∀ c : PtpCfg, Accepted 0x507 stRL false false h s → ptpOk c = true →
      Done 0x507 h [] s { s with time := { s.time with ptp := c, ptpMaster := s.time.ptpMaster && !c.slaveOnly, ptpT := [] } } (.ptpConfig h c)) ∧
    (∀ (tsReq : Bool) (tsId : Nat) (bytes : List Byte), Accepted 0x508 anySt false false h s → bytes ≠ [] → tsId < 65536 →
      (tsReq = true → s.time.tsWait.length < 16) →
      ∃ u, exec (.mgmtTx h tsReq tsId bytes) s = .next u ∧ Sent.frame bytes ∈ u.host.out ∧
        u.time.tsWait = (if tsReq then s.time.tsWait ++ [tsId] else s.time.tsWait))

/-- Commands of class 0x06 (R338, R339, R341, R343, R344, R364, R381): discovery, the ID map, the plan, the start barrier, the time root, the
collector's engine, and a command forwarded to another device. -/
def Obligations.FabricCommands : Prop :=
  ∀ (h : Hdr) (s : State), Carried false h →
    (Accepted 0x601 stRL false false h s → Ends 0x601 h [] s (startDiscovery s.fab.epoch (begun 0x601 h s)) (.fabricDiscover h)) ∧
    (∀ ids : List (Nat × Nat), Accepted 0x602 stRL false false h s →
      (idMapOk ids = true → Done 0x602 h [] s { s with fab := { s.fab with idMap := some ids } } (.fabricIdmap h ids)) ∧
      (idMapOk ids = false → Refused 0x602 h 3 0 [] s (.fabricIdmap h ids))) ∧
    (∀ p : Plan, Accepted 0x603 stRL true false h s → s.fab.discovering = false → s.fab.member = true →
      (s.ctl.holder = some (srcOf h) ∧ s.fab.isMaster = true ∨ fromMaster h s = true) →
      (planCheck s p = none → Ends 0x603 h [] s (planSet h p (begun 0x603 h s)) (.fabricPlan h p)) ∧
      (∀ n, planCheck s p = some n → n < 2 ^ 32 → Refused 0x603 h 3 n [] s (.fabricPlan h p))) ∧
    (∀ tb : Nat, Accepted 0x604 stRL false false h s → s.fab.member = true → s.fab.isMaster = true → startFit s = true → placesActive s = true →
      ticking s = true →
      let u := begun 0x604 h s
      leadOk u tb = true → nowL u + 2 * 10 ^ 6 * 65536 ≤ edgeL u tb →
      ∃ v, exec (.fabricBarrierStart h tb) s = .next v ∧ v.fab.barriers = s.fab.barriers ++ [{ tick := tb, start := true }] ∧
        v.dev.st = .armed ∧ (isStandby s = false → v.dev.armAt = some tb) ∧
        (∃ w ∈ v.ctl.waiting, w.jseq = s.ctl.jnext ∧ w.tick = some tb ∧ w.opcode = 0x604) ∧
        (∀ p, s.fab.plan = some p → ∀ d ∈ p.devs, d.id ≠ s.fab.id → (d.id, Msg2.barrier { tick := tb, start := true }) ∈ v.fab.out2)) ∧
    (∀ dev : Nat, Accepted 0x606 stRL false false h s → s.fab.member = true → s.fab.isMaster = true → (∃ e ∈ s.fab.given_ids, e.2 = dev) →
      let depth := if dev = s.fab.id then 0 else (timeDepth s dev).getD 16
      Done 0x606 h [] s { s with fab := { s.fab with timeRoot := some dev, timeHops := depth, timeDeep := decide (15 < depth) } }
        (.fabricTimeRoot h dev)) ∧
    (∀ e : Nat, Accepted 0x607 stRLP false false h s → e < 32 → engSrc s e = 0 →
      Done 0x607 h [] s { s with acq := { s.acq with collect := some e } } (.collectCfg h e)) ∧
    (∀ (dest : Nat) (bytes : List Byte), Accepted 0x608 anySt false false h s → observeOps.contains (unle (slice 2 2 bytes)) = false →
      ((s.fab.member = false ∨ erouteOf s dest = 0 ∨ erouteOf s dest = 128 ∨ dest ∈ s.fab.lost) →
        Refused 0x608 h 11 0 [] s (.fabricForward h dest bytes)) ∧
      (s.fab.member = true → erouteOf s dest ≠ 0 → erouteOf s dest ≠ 128 → dest ∉ s.fab.lost → 32 ≤ bytes.length →
        ∃ v, exec (.fabricForward h dest bytes) s = .next v ∧ (dest, Msg2.command bytes) ∈ v.fab.out2 ∧
          ∃ w ∈ v.ctl.forwards, w.jseq = s.ctl.jnext ∧ w.tick = some dest)) ∧
    (∀ (dest : Nat) (bytes : List Byte), Observed anySt h s → observeOps.contains (unle (slice 2 2 bytes)) = true →
      s.fab.member = true → erouteOf s dest ≠ 0 → erouteOf s dest ≠ 128 → dest ∉ s.fab.lost → 32 ≤ bytes.length →
      ∃ v, exec (.fabricForward h dest bytes) s = .next v ∧ (dest, Msg2.command bytes) ∈ v.fab.out2 ∧ v.ctl.journal = s.ctl.journal)
/-- Commands of class 0x07 (R418, R428 to R430): an activity starts with a handle, or conflicts with ST_MAINT_CONFLICT; it is stopped; a quadrant's
power moves at once, at its edge, or when its clearing is done; a quadrant becomes the standby. -/
def Obligations.CareCommands : Prop :=
  ∀ (h : Hdr) (s : State), Carried false h →
    (∀ r : MaintReq, Accepted 0x701 anySt false false h s → maintOk s r = true → rotFit s r = true →
      (claimed s r = false → Ends 0x701 h (le 4 s.flt.nextAct) s (beginMaint r (begun 0x701 h s)) (.maintStart h r)) ∧
      (claimed s r = true → h.queue = false → Refused 0x701 h 10 0 [] s (.maintStart h r))) ∧
    (∀ (n : Nat) (a : Activity), Accepted 0x702 anySt false false h s → s.flt.acts.find? (fun x => x.h == n) = some a → a.act ≤ 5 →
      Ends 0x702 h [] s (stopAct' a (begun 0x702 h s)) (.maintStop h n)) ∧
    (∀ q req : Nat, quadMoveOk s q req = true ↔ (req = 2 ∧ (quadAt s q = .off ∨ quadAt s q = .failed ∨ quadAt s q = .idle)) ∨
      ((inRun s = true → sectionsOn s q = []) ∧ ((req = 0 ∧ (quadAt s q = .active ∨ quadAt s q = .idle)) ∨ (req = 1 ∧ quadAt s q = .active)))) ∧
    (∀ q req : Nat, Accepted 0x704 stRLAUP false false h s → q < 4 → req < 3 →
      (quadMoveOk s q req = false → Refused 0x704 h 2 0 [] s (.quadPower h q req)) ∧
      (quadMoveOk s q req = true → claimed s { act := 6, quad := q, core := req } = false →
        (req = 0 → Ends 0x704 h (quadHandles s q) s (quadOff q (begun 0x704 h s)) (.quadPower h q req)) ∧
        (req = 1 ∨ quadAt s q = .idle → req ≠ 0 →
          AtEdge 0x704 h (.quad q (req == 1)) (quadEdge q (req == 1) (begun 0x704 h s)) s (.quadPower h q req)) ∧
        (req = 2 → quadAt s q ≠ .idle → ∃ u, exec (.quadPower h q req) s = .next u ∧
          Traces (longCmd h 0x704 s.ctl.jnext (quadWake q s.ctl.jnext (begun 0x704 h s))) u))) ∧
    (let u := begun 0x705 h s
     let v := match s.dev.standby with | some b => if quadAt s b = .standby then setQuad b .active u else u | none => u
     Accepted 0x705 stRL false false h s → s.flt.takeover = none →
      Ends 0x705 h [] s { v with dev := { v.dev with standby := none } } (.standbySet h none) ∧
      (∀ b : Nat, b < 4 → quadRotating s b = false → (∀ r ∈ s.flt.remaps, r.q ≠ b) → s.dev.standby ≠ some b →
        (quadAt s b = .active ∨ quadAt s b = .idle) →
        (sectionsOn s b ≠ [] → Refused 0x705 h 2 0 [] s (.standbySet h (some b))) ∧
        (sectionsOn s b = [] →
          let w := setQuad b .standby (clearQuad b v)
          Ends 0x705 h [] s { w with dev := { w.dev with standby := some b } } (.standbySet h (some b)))))

/-- Commands of class 0x08 (R443 to R447, R460, R461): BEGIN opens an authenticated session, DATA fills the staging area, APPLY starts the first
selected part, ABORT releases the lock; another source than the holder gets ST_UPDATE_BUSY and UPDATE_CONTENDED; a challenge draws a nonce, and
an unlock moves the debug level once the response proves its authority. -/
def Obligations.UpdateCommands : Prop :=
  ∀ (h : Hdr) (s : State), Carried false h →
    (∀ (addr len : Nat) (whole : Bool) (man rest : List Byte), Accepted 0x801 notSafe false false h s →
      let found := man ++ rest
      let m := manifestOf (manBytes (begun 0x801 h s) addr found)
      rangeOk (begun 0x801 h s) false addr 128 = true →
      rangeOk (begun 0x801 h s) false addr (givenLen (begun 0x801 h s) addr len whole found) = true →
      manifestOk (manBytes (begun 0x801 h s) addr found) len = true → rootOk s m = true →
      Config.sigValid m.rootPub m.body m.sig = true → rcptOk s m = true → (s.upd.holder = none ∨ s.upd.holder = some (srcOf h)) →
      midUpdate s = false → (∀ a ∈ s.flt.acts, a.act ≠ 0x83) →
      ∃ u, exec (.updateBegin h addr len whole man rest) s = .next u ∧ u.upd.holder = some (srcOf h) ∧ u.upd.man = m ∧ u.upd.overlay = true ∧
        u.part = s.part ∧ u.hbm = s.hbm) ∧
    (∀ (off : Nat) (bytes : List Byte), Accepted 0x802 notSafe false false h s → s.upd.holder = some (srcOf h) → bytes.length ≤ 4060 →
      off + bytes.length ≤ s.upd.man.bundleLen → touchesApplied s off bytes.length = false →
      Done 0x802 h [] s { s with upd := { s.upd with
        staged := tsetAll (fun _ => 0#8) s.upd.staged off bytes, stagedLen := max s.upd.stagedLen (off + bytes.length) } } (.updateData h off bytes)) ∧
    (∀ (mask : Nat) (peers : List Nat), Accepted 0x803 notSafe false false h s → s.upd.holder = some (srcOf h) → mask % 2 = 0 → bits mask 14 6 = 0 →
      chosen s mask ≠ [] → (chosen s mask).length = (setBits 6 (mask % 64)).length → applyCheck mask peers s = none →
      ∃ u, exec (.updateApply h mask peers) s = .next u ∧ Traces (nextPart (selectParts mask s.ctl.jnext (longCmd h 0x803 s.ctl.jnext (begun 0x803 h s)))) u) ∧
    (Accepted 0x805 anySt false false h s → s.upd.holder = some (srcOf h) →
      (midUpdate s = true → Ends 0x805 h [] s (markCause 6 (begun 0x805 h s)) (.updateAbort h)) ∧
      (midUpdate s = false → Ends 0x805 h [] s (releaseLock 1 (begun 0x805 h s)) (.updateAbort h))) ∧
    (∀ (off : Nat) (bytes : List Byte), Accepted 0x802 notSafe false false h s → s.upd.holder ≠ some (srcOf h) →
      ∃ u, exec (.updateData h off bytes) s = .next u ∧ u.upd = s.upd ∧
        (∃ e, u.ctl.journal.head? = some e ∧ e.jseq = s.ctl.jnext ∧ e.status = 9 ∧ e.final = true) ∧
        (h.transport = 0 → u.ctl.replies.getLast? = some (mkReply 0x802 h (some s.ctl.jnext) 9 0
          (le 4 (s.upd.holder.getD 0) ++ le 4 0 ++ (if s.upd.holder.isSome then digest8 s.upd.man else le 8 0))))) ∧
    (Accepted 0x806 anySt false false h s → s.upd.spdmBusy = false →
      let n := Config.freeBits 256 s.free
      Done 0x806 h (le 32 n.toNat ++ le 8 s.part.uid ++ le 1 s.upd.level ++ le 1 s.upd.refusals ++ le 6 0) s
        { s with upd := { s.upd with nonce := some n }, free := s.free + 1 } (.debugChallenge h)) ∧
    (∀ (addr len magic level slot uid : Nat) (nonce : BitVec 256) (rest : List Byte), Accepted 0x807 anySt false false h s → s.upd.spdmBusy = false → s.upd.refusals < 8 →
      let r := responseOf (bundleBytes (begun 0x807 h s) addr (min len 7267) (responseBytes magic level slot uid nonce rest))
      rangeOk (begun 0x807 h s) false addr (min len 7267) = true → responseForm len r = true →
      (r.level = 0 → Ends 0x807 h [] s (setLevel 0 r.slot (begun 0x807 h s)) (.debugUnlock h addr len magic level slot uid nonce rest)) ∧
      (r.level ≠ 0 → s.upd.nonce = some r.nonce → r.uid = s.part.uid → s.part.debugHash.getD r.slot 0#512 ≠ 0#512 →
        r.pub = s.part.debugHash.getD r.slot 0#512 → Config.sigValid r.pub r.body r.sig = true →
        ∃ u, exec (.debugUnlock h addr len magic level slot uid nonce rest) s = .next u ∧ u.upd.level = r.level ∧ u.upd.nonce = none))
/-- The registers that the host writes directly, and the reads of BAR0 (R363, R380, R469, R470, R479, R480): a queue's base while EN = 0, its SQ_CFG;
anything else counts MMIO_DENIED, in the doorbell region DB_BAD alone. A read of another size or alignment ends in Completer Abort. -/
def Obligations.HostRegisterAccess : Prop :=
  ∀ s : State, s.dev.st ≠ .off →
    (∀ (e : CfgEntry) (k : Rk) (q : Nat), regKind e.off = some (k, q) → k = .sqBase ∨ k = .qcqBase →
      exec (.registerWrite none e) s =
        .next (if bit (regAt s (0x10010 + 0x40 * q)) 63 then s else setReg e.off (writeRw k q (regAt s e.off) e.mask e.value) s)) ∧
    (∀ e : CfgEntry, (∀ k q, regKind e.off = some (k, q) → k ≠ .sqBase ∧ k ≠ .qcqBase ∧ k ≠ .sqCfg) →
      exec (.registerWrite none e) s = .next { s with host := { s.host with mmioDenied := satAdd 32 s.host.mmioDenied 1 } }) ∧
    (∀ q size vector : Nat, q < 64 → size ≤ 8 → vector < 256 → ∃ t, exec (.queueEnable q size vector) s = .next t ∧
      bit (regAt t (0x10010 + 0x40 * q)) 63 = true ∧ bits (regAt t (0x10010 + 0x40 * q)) 62 59 = size ∧
      bits (regAt t (0x10010 + 0x40 * q)) 55 48 = vector ∧ (∀ o, o ≠ 0x10010 + 0x40 * q → regAt t o = regAt s o)) ∧
    (∀ q : Nat, q < 64 → bit (regAt s (0x10010 + 0x40 * q)) 63 = true → bits (regAt s (0x10010 + 0x40 * q)) 62 59 ≤ 8 → ∃ t, exec (.queueDisable q) s = .next t ∧
      bit (regAt t (0x10010 + 0x40 * q)) 63 = false ∧ queueAt t q = {} ∧ (∀ o, o ≠ 0x10010 + 0x40 * q → regAt t o = regAt s o)) ∧
    (∀ off size : Nat, ¬ (0x2000000 ≤ off ∧ off < 0x2100000) →
      exec (.mmioDenied off size) s = .next { s with host := { s.host with mmioDenied := satAdd 32 s.host.mmioDenied 1 } }) ∧
    (∀ off size : Nat, 0x2000000 ≤ off → off < 0x2100000 →
      exec (.mmioDenied off size) s = .next { s with host := { s.host with
        dbBad := satAdd 32 s.host.dbBad 1, lastBad := (off - 0x2000000) / 4096 % 8192 } }) ∧
    (∀ off size : Nat, (size ≠ 4 ∧ size ≠ 8) ∨ off % size ≠ 0 → exec (.rcRead off size) s = .next (send (.completion false []) s)) ∧
    (∀ off : Nat, off % 8 = 0 → off < 0x60000 → s.dev.st ≠ .boot → s.host.latch = none →
      exec (.rcRead off 8) s = .next ((rcIn off 8).foldl rcClear (send (.completion true (le 8 (bar0Value s off 8))) s))) ∧
    (s.dev.st ≠ .boot → s.host.latch = none →
      (∃ t, exec (.txtsHeadRead 0x60050 8) s = .next t ∧ t.time.txq = s.time.txq) ∧
      (∃ t, exec (.txtsHeadRead 0x60058 8) s = .next t ∧ t.time.txq = s.time.txq.drop 1)) ∧
    (∀ (vec addr data : Nat) (masked : Bool), vec < 256 →
      let t := setMsix vec { addr := addr, data := data, masked := masked } s
      (masked = true ∨ vec ∉ s.host.pba → exec (.msixTableWrite vec addr data masked) s = .next t) ∧
      (masked = false → vec ∈ s.host.pba → exec (.msixTableWrite vec addr data masked) s =
        .next (trigger vec { t with host := { t.host with pba := t.host.pba.filter (· != vec) } })))

/-- Doorbells (R480): a 4-byte write of an index that passes the test of its page moves that index; any other counts DB_BAD with its page. -/
def Obligations.DoorbellsMove : Prop :=
  ∀ (s : State) (q v size : Nat), s.dev.st ≠ .off →
    (let x := queueAt s q
     let n := 2 ^ (bits (regAt s (0x10010 + 0x40 * q)) 62 59 + 4)
     let good := s.pwr.saveOk = true ∧ size = 4 ∧ v < 65536 ∧ q < 64 ∧ bit (regAt s (0x10010 + 0x40 * q)) 63 = true
     (good ∧ dist16 v x.head ≤ n ∧ dist16 v x.tail ≤ n - (x.tail - x.head) →
       exec (.sqDoorbell q v size) s = .next (setQueue q { x with tail := x.tail + dist16 v x.tail } s)) ∧
     (¬ (good ∧ dist16 v x.head ≤ n ∧ dist16 v x.tail ≤ n - (x.tail - x.head)) → exec (.sqDoorbell q v size) s = .next (dbBad (2 * q) s)) ∧
     (good ∧ dist16 v x.ci ≤ x.wr - x.ci → exec (.cqDoorbell q v size) s = .next (setQueue q { x with ci := x.ci + dist16 v x.ci } s)) ∧
     (¬ (good ∧ dist16 v x.ci ≤ x.wr - x.ci) → exec (.cqDoorbell q v size) s = .next (dbBad (2 * q + 1) s))) ∧
    (let x := engAt s q
     let good := s.pwr.saveOk = true ∧ size = 4 ∧ v < 65536 ∧ q < 40 ∧ engEn s q = true ∧ dist16 v x.ci ≤ engSize s q ∧ x.pi - x.ci ≤ dist16 v x.ci
     (good → exec (.dmaDoorbell q v size) s = .next (setEng q { x with pi := x.ci + dist16 v x.ci } s)) ∧
     (¬ good → exec (.dmaDoorbell q v size) s = .next (dbBad (128 + q) s))) ∧
    (let good := s.pwr.saveOk = true ∧ size = 4 ∧ v < 65536 ∧ evqEn s = true ∧ dist16 v s.host.evTail ≤ s.host.evHead - s.host.evTail
     (good → ∃ t, exec (.evqDoorbell v size) s = .next t ∧ t.host.evTail = s.host.evTail + dist16 v s.host.evTail ∧ t.host.evHead = s.host.evHead) ∧
     (¬ good → exec (.evqDoorbell v size) s = .next (dbBad 168 s)))

/-- Queues and events (R380, R384, R394, R473, R479, R481): a taken entry leaves its ring; the oldest reply of a queue is written where the host has
freed an entry, and its vector triggers; the oldest raised event goes to its destinations; a hold-off ends with one message for its merged triggers. -/
def Obligations.QueuesServe : Prop :=
  ∀ s : State, s.dev.st ≠ .off →
    (∀ (q : Nat) (bytes : List Byte), s.pwr.saveOk = true → q < 64 → canTake s q = true → q ∉ s.ctl.served →
      exec (.submissionTake q bytes) s = .next (
        let t := setQueue q { queueAt s q with head := (queueAt s q).head + 1 } s
        { t with ctl := { t.ctl with served := q :: s.ctl.served
                                     taken := s.ctl.taken.filter (fun t => t.queue != q) ++ [{ queue := q, bytes := slice 0 64 bytes }] } })) ∧
    (∀ (q : Nat) (bytes : List Byte), q ∈ s.ctl.served → (∃ p, p < 64 ∧ canTake s p = true ∧ p ∉ s.ctl.served) →
      exec (.submissionTake q bytes) s = .next s) ∧
    (∀ (q : Nat) (r : Reply), s.ctl.replies.find? (fun r => r.source / 65536 % 4096 == q) = some r → bit (regAt s (0x10010 + 0x40 * q)) 63 = true →
      let n := 2 ^ (bits (regAt s (0x10010 + 0x40 * q)) 62 59 + 4)
      let x := queueAt s q
      (n ≤ x.wr - x.ci → exec (.completionWrite q) s = .next s) ∧
      (x.wr - x.ci < n → ∃ t, exec (.completionWrite q) s = .next t ∧ t.ctl.replies = s.ctl.replies.erase r ∧ queueAt t q = { x with wr := x.wr + 1 } ∧
        Sent.mem (regAt s (0x10008 + 0x40 * q) + 64 * (x.wr % n)) (completionOf r (x.wr / n % 2 == 0)).1 ∈ t.host.out)) ∧
    (∀ (r : EvRec) (l : List EvRec), s.host.raised = r :: l →
      (∃ t, exec .eventWrite s = .next t ∧ t.host.raised = l) ∧
      ((evqEn s = false ∨ r.e.sev < bits (regAt s 0x20008) 58 56) →
        exec .eventWrite s = .next (eventElse r { s with host := { s.host with raised := l } })) ∧
      (evqEn s = true → bits (regAt s 0x20008) 58 56 ≤ r.e.sev → s.host.evLostMark = 0 → ceilDiv (32 + r.e.body.length) 64 ≤ evRoom s →
        exec .eventWrite s = .next (eventElse r (eventPut r { s with host := { s.host with raised := l } }))) ∧
      (evqEn s = true → bits (regAt s 0x20008) 58 56 ≤ r.e.sev → s.host.evLostMark = 0 → evRoom s < ceilDiv (32 + r.e.body.length) 64 →
        exec .eventWrite s = .next (eventElse r { s with host := { s.host with
          raised := l, evLost := satAdd 16 s.host.evLost 1, evLostMark := 1 } }))) ∧
    (∀ vec : Nat, (vec ∉ s.host.merged → exec (.irqHoldoffEnd vec) s = .next { s with host := { s.host with
        holding := s.host.holding.filter (· != vec), merged := s.host.merged.filter (· != vec) } }) ∧
      (vec ∈ s.host.merged → (msixAt s vec).masked = false → ∃ t, exec (.irqHoldoffEnd vec) s = .next t ∧
        Sent.msi vec (msixAt s vec).addr (msixAt s vec).data ∈ t.host.out ∧ vec ∉ t.host.merged)) ∧
    (∀ e : Nat, (engAt s e).stopping = true → (engAt s e).cur = none → (engAt s e).owed = none → (engAt s e).stopReply = none →
      exec (.dmaEngineStopped e) s = .next (setEng e { engAt s e with stopping := false } s))

/-- BAR2 (R466, R484, R485): what an access finds by its area; a dropped write counts BAR2_DENIED and changes nothing else; a resize that leaves OFS
unaligned makes it 0. -/
def Obligations.ApertureAccess : Prop :=
  ∀ s : State, s.dev.st ≠ .off →
    (∀ off len : Nat, off + len ≤ s.host.bar2Size →
      let a := bar2Local s off
      ((∀ k, k < len → a + k < loaderBase s) → exec (.bar2Read off len) s = .next (send (.completion true (hbmRead s a len)) s)) ∧
      ((∃ k, k < len ∧ loaderBase s ≤ a + k) → exec (.bar2Read off len) s = .next (send (.completion false []) s))) ∧
    (∀ (off : Nat) (bytes : List Byte), off + bytes.length ≤ s.host.bar2Size → s.pwr.saving = none →
      let a := bar2Local s off
      ((∀ k, k < bytes.length → bar2May s (areaOf s (a + k)) = true) → exec (.bar2Write off bytes) s = .next (hbmWrite a bytes s)) ∧
      ((∃ k, k < bytes.length ∧ bar2May s (areaOf s (a + k)) = false) →
        exec (.bar2Write off bytes) s = .next { s with host := { s.host with bar2Denied := satAdd 32 s.host.bar2Denied 1 } })) ∧
    (∀ k : Nat, 28 ≤ k → k < 40 → ∃ t, exec (.bar2Resize (2 ^ k)) s = .next t ∧ t.host.bar2Size = 2 ^ k ∧
      (regAt s 0x58 % 2 ^ 63 % 2 ^ k = 0 → regAt t 0x58 = regAt s 0x58) ∧ (regAt s 0x58 % 2 ^ 63 % 2 ^ k ≠ 0 → regAt t 0x58 % 2 ^ 63 = 0))

/-- The host is lost (R465, R467): by PERST_N, a hot reset, an FLR, a link-down event or D3hot every queue and the event ring are disabled and the
engines at work park with CAUSE 4; the first three reset the MSI-X table. The device state, control and the fixed zone go on. The link
(R465, R512): PCIE_CFG takes effect when PERST_N rises or the link trains; the link comes up at a rate and width it offers, in flit mode at rate 6. -/
def Obligations.HostLossContained : Prop :=
  (∀ (s : State) (i : Instr), s.dev.st ≠ .off → i = .perst false ∨ i = .hotReset ∨ i = .flr ∨ i = .pcieLinkDown ∨ i = .d3hotEntry →
    ∃ t, exec i s = .next t ∧ t.dev.st = s.dev.st ∧ t.ctl.holder = s.ctl.holder ∧ t.ctl.journal = s.ctl.journal ∧ t.fe = s.fe ∧ t.grid = s.grid ∧
      t.hbm = s.hbm ∧ (∀ q, q < 64 → bit (regAt t (0x10010 + 0x40 * q)) 63 = false) ∧ evqEn t = false ∧
      (∀ e, e < 40 → (engAt s e).park = none → (engAt s e).ci < (engAt s e).pi → engLive s e = true →
        ∃ p, (engAt t e).park = some p ∧ p.cause = 4 ∧ p.done = 0) ∧
      (i = .perst false ∨ i = .hotReset ∨ i = .flr → t.host.msix = [] ∧ t.host.pba = []) ∧
      (i = .pcieLinkDown ∨ i = .d3hotEntry → t.host.msix = s.host.msix) ∧
      (i = .pcieLinkDown → t.host.linkDowns = satAdd 32 s.host.linkDowns 1 ∧ t.host.linkUp = false)) ∧
  ∀ s : State, s.dev.st ≠ .off →
    (exec (.perst true) s = .next { s with dev := { s.dev with perstN := true }, host := { s.host with pcieCfg := regAt s 0x28, subsysShown := regAt s 0x30 } }) ∧
    (∀ (speed width : Nat) (flit : Bool), s.dev.perstN = true → 1 ≤ speed → speed ≤ bits (regAt s 0x28) 2 0 → width ≤ bits (regAt s 0x28) 7 3 →
      width ∈ [1, 2, 4, 8, 16] →
      exec (.pcieLinkTrain speed width flit) s = .next { s with host := { s.host with
        linkUp := true, speed := speed, width := width, flit := flit || decide (6 ≤ speed), pcieCfg := regAt s 0x28, d3 := false } }) ∧
    (∀ (speed width : Nat) (flit : Bool), speed = 0 ∨ bits (regAt s 0x28) 2 0 < speed ∨ bits (regAt s 0x28) 7 3 < width →
      exec (.pcieLinkTrain speed width flit) s = .next s)
/-- A packet that fails the CRC check, or whose header cannot be read (R378): over a host ring a final reply with ST_PARAM and DETAIL 1 that
echoes the fields as read, else no reply and one count of CMD_CRC_ERR of its transport. Nothing is journaled. -/
def Obligations.BadPacketHandled : Prop :=
  ∀ (h : Hdr) (opcode : Nat) (s : State), s.dev.st ≠ .off →
    (h.transport = 0 → exec (.badPacket h opcode) s = .next { s with
      ctl := { s.ctl with replies := s.ctl.replies ++ [{ source := srcOf h, seq := h.seq, opcode := opcode, status := 3, final := true
                                                         jseq := none, detail := 1, result := [], indirect := h.indirect, raddr := h.raddr
                                                         rsize := h.rsize }] }
      time := { s.time with raw := max s.time.raw h.stamp } }) ∧
    (h.transport ≠ 0 → ∃ t, exec (.badPacket h opcode) s = .next t ∧ t = { s with ctl := { s.ctl with crcErr := t.ctl.crcErr } } ∧
      cget t.ctl.crcErr h.transport = satAdd 32 (cget s.ctl.crcErr h.transport) 1 ∧
      ∀ k, k ≠ h.transport → cget t.ctl.crcErr k = cget s.ctl.crcErr k)

/-- A tick edge (R14, R360): the next tick of the generator begins, is stamped with the time of its raw stamp, and the commands, changes and
snapshots tied to it come due. -/
def Obligations.TickBegins : Prop :=
  ∀ (raw n : Nat) (s : State), s.time.next = some n → s.dev.st ≠ .off → s.dev.st ≠ .boot → s.time.tickSt ≠ .unlocked →
    let e := edgeTime n raw s
    exec (.tickEdge raw) s = .next (edgeWork n e) ∧ e.time.tick = some n ∧ e.time.next = some (n + 1) ∧
    e.time.stamps.head? = some (n, linear s.time (max s.time.raw raw)) ∧ e = { s with time := e.time } ∧
    (s.time.tickSt = .locked → s.dev.st ≠ .safe → e.time.tickOut = (n % max (bits (regAt s 0x60010) 63 48) 1 == 0)) ∧
    (s.dev.st = .safe → s.dev.safeCause = 0x20 ∨ s.dev.safeCause = 0x21 → e.time.tickOut = false)

/-- E(T_a) and E(T_r) (R31, R34, R285, R318, R392): the run begins, or is resumed, at the first edge that has come to its tick, and not before.
At ARM the counters, the decisions and scores held, the contexts, the ladder's level and counts, the gather buffer and the held samples start anew; at RESUME
the counters, the front end and the level go on. -/
def Obligations.RunBegins : Prop :=
  ∀ (n a : Nat) (s : State),
    (s.dev.st = .armed → s.dev.armAt = some a → n < a → armEdge n s = s) ∧
    (s.dev.st = .paused → s.dev.resumeAt = some a → n < a → resumeEdge n s = s) ∧
    (s.dev.st ≠ .armed → armEdge n s = s) ∧ (s.dev.st ≠ .paused → resumeEdge n s = s) ∧
    (s.dev.st = .armed → s.dev.armAt = some a → a ≤ n → (armEdge n s).dev.st = .running ∧ (armEdge n s).dev.tA = n ∧
      (armEdge n s).dev.armAt = none) ∧
    (s.dev.st = .paused → s.dev.resumeAt = some a → a ≤ n → s.restoring = none → (resumeEdge n s).dev.st = .running ∧
      (resumeEdge n s).dev.tR = n ∧ (resumeEdge n s).dev.tA = s.dev.tA ∧ (resumeEdge n s).comb.cnt = s.comb.cnt ∧
      (resumeEdge n s).fe = s.fe ∧ (resumeEdge n s).acq.level = s.acq.level) ∧
    (let c := armClear n s
     c.comb.cnt = [] ∧ c.comb.decided = none ∧ c.comb.pend = [] ∧ c.comb.scores = [] ∧ c.t2.ctxs = [] ∧ c.t2.cls = [] ∧ c.acq.level = 0 ∧
     c.acq.lowRun = 0 ∧ c.acq.lastChange = none ∧ c.acq.tStart = some n ∧ c.fe.gather = [] ∧ c.fe.hold = [] ∧
     c.regs = s.regs ∧ c.hbm = s.hbm ∧ c.ctl = s.ctl ∧ c.flt = s.flt ∧ c.pwr = s.pwr)

/-- LADDER_CHANGE at a counted edge (R285, R286): one step up where the pressure is at least HI, the level is below MAX_LEVEL and RISE_HOLD ticks have
passed; one down where the pressure has been at most LO at FALL_HOLD edges. A change counts LADDER_UP or LADDER_DOWN once. -/
def Obligations.LadderMoves : Prop :=
  ∀ s : State, let n := nowTick s
    counted s n = true → saving s = false → recordedFeedback s = false →
    (ladHi s ≤ s.acq.shownPressure → s.acq.level < ladMax s → riseFree n s = true →
      ∃ t, exec .ladderChange s = .next t ∧ t.acq.level = s.acq.level + 1 ∧ levelFor t n = s.acq.level + 1 ∧ t.acq.lastChange = some n ∧
        devCnt t 21 = satAdd 64 (devCnt s 21) 1 ∧ devCnt t 22 = devCnt s 22 ∧ t.comb.lines = s.comb.lines ∧ t.regs = s.regs ∧
        { tick := n, old := s.acq.level, new := s.acq.level + 1 } ∈ t.acq.ladPend) ∧
    (s.acq.shownPressure < ladHi s → 0 < s.acq.level → ladFall s ≤ s.acq.lowRun → s.acq.shownPressure ≤ ladLo s → s.acq.lastChange ≠ some n →
      ∃ t, exec .ladderChange s = .next t ∧ t.acq.level = s.acq.level - 1 ∧ levelFor t n = s.acq.level - 1 ∧ t.acq.lastChange = some n ∧
        devCnt t 22 = satAdd 64 (devCnt s 22) 1 ∧ devCnt t 21 = devCnt s 21 ∧ t.comb.lines = s.comb.lines ∧ t.regs = s.regs) ∧
    (s.acq.shownPressure < ladHi s → s.acq.lowRun < ladFall s → exec .ladderChange s = .next s)

/-- Pause, drain and swap (R186, R264, R315, R392): a pause takes effect at the newest edge once no pass runs; the drain ends when no context is in use
and every record is delivered, with READY or LOADED and STOP final; the banks of the swap's fixed-path sections are exchanged at its end. -/
def Obligations.PauseDrainSwap : Prop :=
  ∀ s : State,
    (s.dev.pauseReq = true → s.dev.st = .running → s.dev.pauseAt = none → noPass s = true →
      let u := { s with dev := { s.dev with tP := nowTick s, pauseAt := some (nowTick s) } }
      (nextDecided s < nowTick s → exec .pauseEffect s = .next u) ∧
      (nowTick s ≤ nextDecided s → exec .pauseEffect s = .next (enterPaused (nowTick s) u) ∧ (enterPaused (nowTick s) u).dev.st = .paused)) ∧
    (s.dev.pauseReq = true → noPass s = false → exec .pauseEffect s = .next s) ∧
    (s.dev.st = .paused → s.dev.draining = true → ctxInUse s = 0 → devCnt s 19 = devCnt s 20 →
      ∃ t, exec .drainDone s = .next t ∧ t.dev.st = (if (residents s).isEmpty then .ready else .loaded) ∧ t.dev.draining = false ∧
        t.dev.stopJ = none ∧ t.comb.cnt = s.comb.cnt) ∧
    (0 < ctxInUse s ∨ devCnt s 19 ≠ devCnt s 20 → exec .drainDone s = .next s) ∧
    (∀ w : Swap, s.grid.swap = some w → w.outs ≠ [] ∨ w.ins ≠ [] →
      (nowTick s < w.endTick → exec .swapEnd s = .next s) ∧
      (w.endTick ≤ nowTick s → exec .swapEnd s = .next (swapSettle { w with outs := [], ins := [] } (exchangeFixed w.outs w.ins s))))
/-- Lanes (R209 to R212, R220): a frame of an enabled lane is checked and held for its tick; a bad CRC or header is counted and nothing is held; a lane that
loses lock goes DOWN with what it held; an edge on TRG_IN belongs to the tick whose window holds it. -/
def Obligations.LaneRows : Prop :=
  ∀ (s : State) (lane : Nat), lane < 96 →
    (∀ (words : List (BitVec 32)) (x : Nat), zoneOn s = true → (laneCfg (regAt s) lane).en = true →
      let k := laneCfg (regAt s) lane
      let st := laneAt s.fe lane
      let r := frameArrive k (iiOf s) (alignOf s) lane words x st
      let w (i : Nat) : Nat := (words.getD i 0#32).toNat
      let crcOk := crc32c (wordBytes ((words.drop 1).take (lanePlen k + 2))) = words.getD (lanePlen k + 3) 0#32
      let p := oldestOpen (iiOf s) (alignOf s) x
      let d := (bits (w 1) 15 0 + 65536 - p % 65536) % 65536
      (words.headD 0#32 = sofWord → exec (.frame lane words x) s = .next (raiseEvs r.2 { s with fe := setLane s.fe lane r.1 })) ∧
      (words.headD 0#32 ≠ sofWord → exec (.frame lane words x) s = .next s) ∧
      (st.up = true → ¬ crcOk → r = (laneCount 0 st, [])) ∧
      (st.up = true → crcOk → headerOk k (w 1) (w 2) = false → r = (laneCount 1 st, [])) ∧
      (crcOk → headerOk k (w 1) (w 2) = true → r.1.up = true ∧ r.1.noGood = 0) ∧
      (crcOk → headerOk k (w 1) (w 2) = true → 32768 ≤ d → r.1.held = st.held) ∧
      (crcOk → headerOk k (w 1) (w 2) = true → d ≤ 1 → (∀ h ∈ st.held, h.tick % 65536 ≠ bits (w 1) 15 0) →
        r.1.held = st.held ++ [{ tick := p + d, srcErr := bit (w 2) 10, payload := wordBytes ((words.drop 3).take (lanePlen k)) }]) ∧
      (crcOk → headerOk k (w 1) (w 2) = true → 1 < d → d < 32768 → (∀ h ∈ st.held, h.tick % 65536 ≠ bits (w 1) 15 0) → r.1.held = [])) ∧
    ((laneAt s.fe lane).up = true → exec (.laneDown lane) s = .next (raiseEv { code := 0x0020, sev := 3, origin := lane }
      { s with fe := setLane s.fe lane (laneCount 7 { laneAt s.fe lane with up := false, held := [], noGood := 0 }) })) ∧
    ((laneAt s.fe lane).up = false → exec (.laneDown lane) s = .next { s with fe := setLane s.fe lane (laneAt s.fe lane) }) ∧
    (∀ k x t : Nat, zoneOn s = true → k < 8 → 0 < iiOf s →
      let ps : Int := (x : Int) - (calEffective s 2 k).1
      let g := ps.toNat * 2 ^ 32 * iiOf s / (max (periodOf s) 1 * 1000)
      (t = 0 ∧ g < alignOf s) ∨ (0 < t ∧ alignOf s + iiOf s * t ≤ g + iiOf s ∧ g < alignOf s + iiOf s * t) →
      exec (.trgInEdge k x) s = .next { s with fe := { s.fe with trgIn := cset s.fe.trgIn t (cget s.fe.trgIn t ||| 2 ^ k) } })

/-- A(T) (R210 to R219, R315): the alignment of a tick whose edge has come gives effect to changes due, and takes what the lanes hold; a tick that is not
counted leaves the gather buffer and everything outside the front end as they are, but for events and changes that were due. -/
def Obligations.AlignmentTakesTick : Prop :=
  ∀ (t n : Nat) (io : IoErr) (s : State), zoneOn s = true → s.time.tick = some n →
    (n < t → exec (.alignmentPoint { t := t, io := io }) s = .next s) ∧
    (t ≤ n → exec (.alignmentPoint { t := t, io := io }) s = .next (alignTick t io s)) ∧
    (alignTick t io s).hbm = s.hbm ∧ (alignTick t io s).dev = s.dev ∧ (alignTick t io s).acq = s.acq ∧ (alignTick t io s).t2 = s.t2 ∧ (alignTick t io s).grid = s.grid ∧
    (counted s t = false → (alignTick t io s).fe.gather = s.fe.gather ∧ (alignTick t io s).comb.cnt = s.comb.cnt)

/-- Each tick receives exactly one outcome; where several could apply, the first of accepted, void, held off, shed, rejected does (R10). -/
def Obligations.OutcomeOrder : Prop :=
  ∀ (a v h s : Bool), let o := pendOutcome { acc := a, void := v, h := h, s := s }
    pendOutcome { acc := a, v := v, h := h, s := s } = o ∧ (o = .accepted ↔ a = true) ∧ (o = .void ↔ a = false ∧ v = true) ∧ (o = .heldOff ↔ a = false ∧ v = false ∧ h = true) ∧
    (o = .shed ↔ a = false ∧ v = false ∧ h = false ∧ s = true) ∧ (o = .rejected ↔ a = false ∧ v = false ∧ h = false ∧ s = false)

/-- The decision of a tick (R31, R247, R249, R252): only the next counted tick is decided; the outcome of a tick raises one counter of R32 or leaves it
pending; a pulse of TRG_OUT ends, unless the hold-off level holds the pin. -/
def Obligations.DecisionRows : Prop :=
  ∀ s : State,
    (∀ (t : Nat) (io : IoErr), counted s t = true → t = nextDecided s → exec (.combineDecision { t := t, io := io }) s = .next (decideTick t io s)) ∧
    (∀ (t : Nat) (io : IoErr), counted s t = false ∨ t ≠ nextDecided s → exec (.combineDecision { t := t, io := io }) s = .next s) ∧
    (∀ (t : Nat) (o : CombOut), let u := (tickOutcome t o s).1
      ∃ k, 1 ≤ k ∧ k ≤ 6 ∧ devCnt u k = satAdd 64 (devCnt s k) 1 ∧ (∀ j, j ≠ k → devCnt u j = devCnt s j) ∧
        (k = 1 ↔ o.clsA = true) ∧ (k = 6 ↔ o.clsA = false ∧ o.clsP = true ∧ o.taken ≠ [])) ∧
    (∀ k : Nat, k < 8 → ∃ t, exec (.trgOutPulseEnd k) s = .next t ∧
      (bit (regAt s (0x70200 + 4 * k)) 31 = false ∨ bits (regAt s (0x70200 + 4 * k)) 24 16 ≠ 0x104 →
        (tget (fun _ => ({} : TrgPin)) t.comb.trg k).active = false) ∧
      (tget (fun _ => ({} : TrgPin)) t.comb.trg k).endFs = 0 ∧ t = { s with comb := { s.comb with trg := t.comb.trg } })

/-- The tier-two queue (R257 to R264, R514): a candidate is queued, dispatched, ends with its verdict, without one, at its deadline, or at the stall limit;
an abandoned pass that owes no word brings its section to its boundary; an accepted candidate's record request is taken and its context freed. -/
def Obligations.QueueRows : Prop :=
  ∀ s : State,
    (∀ c : Nat, (ctxAt s c).st = .alloc → s.dev.st ≠ .safe →
      let y := setCtx c { ctxAt s c with st := .queued } s
      let sec := secAt s (ctxAt s c).handle
      (sec.resident = true → isFixed sec = false → sec.stopped = false → exec (.candidateQueued c) s = .next y) ∧
      (sec.resident = false ∨ isFixed sec = true ∨ sec.stopped = true → exec (.candidateQueued c) s = .next (expireCtx c 2 y))) ∧
    (∀ (hd c x : Nat) (y : Ctx), dispatchable s hd = true → recordedFeedback s = false → bestOf (queuedFor s hd) = some (c, y) →
      (ringGone s y.tick = true → exec (.passDispatch hd x) s = .next (expireCtx c 1 s)) ∧
      (ringGone s y.tick = false → x < earliest s hd c → exec (.passDispatch hd x) s = .next s) ∧
      (ringGone s y.tick = false → earliest s hd c ≤ x → ∃ t, exec (.passDispatch hd x) s = .next t ∧ t = startPass hd c x s ∧
        (ctxAt t c).st = .running ∧ (passAt t hd).ctx = some c ∧ (passAt t hd).start = x ∧ (passAt t hd).verdict = none ∧ t.t2.lastStart = some x)) ∧
    (∀ hd x : Nat, dispatchable s hd = false ∨ (recordedFeedback s = false ∧ queuedFor s hd = []) → exec (.passDispatch hd x) s = .next s) ∧
    (∀ hd x v : Nat, running s hd = true → (passAt s hd).verdict = some v → exec (.passEnd hd x) s = .next (finishPass hd v x s)) ∧
    (∀ hd x : Nat, running s hd = true → (passAt s hd).verdict = none → exec (.verdictMissing hd x) s = .next (finishPass hd 2 x s)) ∧
    (∀ hd x : Nat, (passAt s hd).abandoned = true → (owedWords s hd = 0 → exec (.passBoundary hd x) s = .next (sectionBoundary hd x s)) ∧
      (owedWords s hd ≠ 0 → exec (.passBoundary hd x) s = .next s)) ∧
    (∀ c x : Nat, (ctxAt s c).st = .queued → counted s x = true → recordedFeedback s = false →
      let d := (ctxAt s c).tick + bits (regFor s x (0x70100 + 8 * (ctxAt s c).cls)) 31 0
      (d < x → exec (.candidateExpire c x) s = .next (expireCtx c 0 s)) ∧ (x ≤ d → exec (.candidateExpire c x) s = .next s)) ∧
    (∀ c : Nat, (ctxAt s c).st = .deliver → s.acq.reqs.length < 4096 → ∃ t, exec (.deliverRequest c) s = .next t ∧ ctxAt t c = {} ∧
      devCnt t 19 = satAdd 64 (devCnt s 19) 1 ∧ ∃ r, t.acq.reqs = s.acq.reqs ++ [r] ∧ r.tick = (ctxAt s c).tick ∧ r.handle = (ctxAt s c).handle ∧
        r.template = (ctxAt s c).template ∧ r.lines = 2 ^ (ctxAt s c).line ∧ (r.outcome = 2 ↔ (ctxAt s c).suspect = true)) ∧
    (∀ c : Nat, 4096 ≤ s.acq.reqs.length → exec (.deliverRequest c) s = .next s) ∧
    (∀ hd x : Nat, running s hd = true → let p := passAt s hd
      (∀ n : Nat, frozenBy p x = some n → (secAt s hd).stallLimit ≤ n → exec (.stallLimit hd x) s = .next (sectionBoundary hd x
        (abandonPass hd .suspect (fault { code := 0x0205, sev := 3, elastic := true, tick := nowTick s, section_ := hd, detail := p.heldBy }
          (setPass hd { p with freeze := max p.freeze n } s))))) ∧
      ((∀ n : Nat, frozenBy p x = some n → n < (secAt s hd).stallLimit) → exec (.stallLimit hd x) s = .next s))

/-- How a parison ends (R11, R33, R257, R261): one counter of its outcome rises, P_PENDING falls, and its context is freed unless its record is to come. -/
def Obligations.ParisonEnds : Prop :=
  ∀ (s : State) (c : Nat) (e : ParEnd), let x := ctxAt s c
    let t := parEnd c e s
    (∀ k, 7 ≤ k → k ≤ 12 → devCnt t k = if k = parCtr e x.accept then satAdd 64 (devCnt s k) 1 else devCnt s k) ∧
    devCnt t 13 = devCnt s 13 - 1 ∧
    (parAccepts e x.accept = false → ctxAt t c = {}) ∧
    (parAccepts e x.accept = true → x.tpl.en = true → (ctxAt t c).st = .deliver ∧ (ctxAt t c).tick = x.tick) ∧
    (parAccepts e x.accept = true → x.tpl.en = false → ctxAt t c = {} ∧ devCnt t 31 = satAdd 64 (devCnt s 31) 1) ∧
    t.hbm = s.hbm ∧ t.grid = s.grid ∧ t.fe = s.fe ∧ t.regs = s.regs

/-- Credits and lines that return (R151, R167, R514): a returning credit reaches its producer; a line goes to its queue, or is dropped with its credit
given back where the pass was abandoned; an uncorrectable line is poisoned and records a fault. -/
def Obligations.ReturnRows : Prop :=
  ∀ (s : State) (hd : Nat),
    (∀ loop : Nat, let x := secAt s hd
      (0 < cget x.returning loop → ∃ t, exec (.creditReturn hd loop) s = .next t ∧ cget (secAt t hd).returning loop = cget x.returning loop - 1 ∧
        cget (secAt t hd).credits loop = cget x.credits loop - 1 ∧ (∀ k, k ≠ hd → secAt t k = secAt s k)) ∧
      (cget x.returning loop = 0 → exec (.creditReturn hd loop) s = .next s)) ∧
    (takeLine hd s = none → ∀ ue ce : Bool, exec (.hbmLineReturn hd ue ce) s = .next s) ∧
    (∀ (a : Ask) (l : MLine) (u : State), takeLine hd s = some (a, l, u) →
      ((passAt s hd).ctx = none → exec (.hbmLineReturn hd false false) s = .next (giveCredit hd a.loop u)) ∧
      ((passAt s hd).ctx ≠ none → exec (.hbmLineReturn hd false false) s = .next (queueArrive hd a.q a.col a.row a.ag l
        (qblockAdd hd (passAt u hd).seq a.ord { data := l.data, v := true, p := l.p, tick := l.tick } u))) ∧
      ((passAt s hd).ctx ≠ none → exec (.hbmLineReturn hd true false) s = .next (passFault hd { code := 0x0302, sev := 3 } a.q a.col a.row
        (queueArrive hd a.q a.col a.row a.ag { l with data := 0#256, p := true }
          (qblockAdd hd (passAt u hd).seq a.ord { data := 0#256, v := true, p := true, tick := l.tick } u)))))
/-- The acquisition engine (R279, R281, R282, R287, R309, R310): a tick that has passed the alignment point is written in its ring slot; the oldest request
of a destination becomes a staged record once its window is there and staging has room; a staged record is delivered; the data of a decided tick go to the
streams; a recording ends with its STOP entry. -/
def Obligations.RecordRows : Prop :=
  ∀ s : State,
    (∀ t : Nat, ringReady s t = true → ∃ u, exec (.ringWrite t) s = .next u ∧ u.acq = { s.acq with newest := some t } ∧
      u.hbm = (hbmWrite (slotAddr s t) (slotContents s t) s).hbm ∧ u.dev = s.dev ∧ u.fe = s.fe ∧ u.regs = s.regs) ∧
    (∀ t : Nat, ringReady s t = false → exec (.ringWrite t) s = .next s) ∧
    (∀ (kind dest : Nat) (r : RecReq), s.acq.reqs.find? (fun r => reqDest r == (kind, dest)) = some r → elasticOff s = false →
      (windowReady s r = false ∨ stageSize s < stagedBytes s + (recordBytes s r).1.length → exec (.recordAssemble kind dest) s = .next s) ∧
      (windowReady s r = true → stagedBytes s + (recordBytes s r).1.length ≤ stageSize s → ∃ u, exec (.recordAssemble kind dest) s = .next u ∧
        u.acq = { s.acq with reqs := s.acq.reqs.erase r, staged := s.acq.staged ++ [{ req := r, bytes := (recordBytes s r).1 }] } ∧
        u.hbm = s.hbm ∧ u.dev = s.dev ∧ u.fe = s.fe ∧ u.regs = s.regs)) ∧
    (∀ (kind dest : Nat) (r : Staged), s.acq.staged.find? (fun r => reqDest r.req == (kind, dest)) = some r → elasticOff s = false →
      saving s = false → r.foreign = false →
      (kind = 0 → r.sent < r.bytes.length → exec (.recordDeliver kind dest) s = .next s) ∧
      (kind = 0 → r.bytes.length ≤ r.sent → ∃ u, exec (.recordDeliver kind dest) s = .next u ∧ u.acq.staged = s.acq.staged.erase r ∧
        devCnt u 20 = satAdd 64 (devCnt s 20) 1 ∧ u.hbm = s.hbm) ∧
      (kind = 1 → storeUsed s + r.bytes.length < regAt s 0x1030 → ∃ u, exec (.recordDeliver kind dest) s = .next u ∧
        u.acq.staged = s.acq.staged.erase r ∧ u.acq.rstoreWp = (s.acq.rstoreWp % regAt s 0x1030 + r.bytes.length) % regAt s 0x1030 ∧
        u.hbm = (storeBytes (regAt s 0x1028) (regAt s 0x1030) (s.acq.rstoreWp % regAt s 0x1030) r.bytes s).hbm) ∧
      (kind = 1 → regAt s 0x1030 ≤ storeUsed s + r.bytes.length → exec (.recordDeliver kind dest) s = .next s)) ∧
    (∀ t : Nat, nextRelease s = some t → elasticOff s = false → isDecided s t = true →
      (lastBeforePause s t = false → exec .streamRelease s = .next (releaseTick t s)) ∧
      (lastBeforePause s t = true → exec .streamRelease s = .next (closeStreams (releaseTick t s))) ∧ (releaseTick t s).acq.released = some t ∧
      (∀ m, m < 32 → streamOn s m = false → streamAt (releaseTick t s) m = streamAt s m)) ∧
    (∀ t : Nat, nextRelease s = none ∨ nextRelease s = some t ∧ isDecided s t = false → exec .streamRelease s = .next s) ∧
    (∀ c d : Nat, stopCause s = some c → s.comb.decided = some d → ∃ u, exec .replayLogStop s = .next u ∧ u.acq.recg.running = false ∧
      u.acq.recg.done = true ∧ (c = 0 → u.acq.recg.endTick = s.acq.recg.endTick) ∧ (c ≠ 0 → u.acq.recg.endTick = d) ∧
      (∃ e, u.acq.recg.log = s.acq.recg.log ++ [e] ∧ e.type = 11 ∧ e.tick = u.acq.recg.endTick ∧ e.body = le 1 c) ∧
      u = { s with acq := { s.acq with recg := u.acq.recg, recorded := u.acq.recorded } }) ∧
    (stopCause s = none → exec .replayLogStop s = .next s)

/-- The engines (R288 to R291): one chunk of a descriptor moves, a bad descriptor or address parks the engine with its cause, the completion goes to its
ring and moves CI, and an access without an answer parks the engine with CAUSE 4. -/
def Obligations.EngineRows : Prop :=
  ∀ (s : State) (e : Nat), e < 40 →
    (∀ (d d' : DmaDesc) (data : List Byte) (fe : Bool) (err : Option Nat), dmaReady s e = true → (engAt s e).cur = some d →
      exec (.dmaTransfer e d' fe data err) s = .next (dmaMove e d data err s)) ∧
    (∀ (d : DmaDesc) (data : List Byte) (err : Option Nat) (a : Nat), dmaReady s e = true → (engAt s e).cur = none → (engAt s e).stopping = false →
      translate s false true (descAddr s e) = .host a →
      (exec (.dmaTransfer e d true data err) s = .next (parkHere e 4 0 (descAddr s e) 1 s)) ∧
      ((d.resv = true ∨ d.len % 32 ≠ 0 ∨ d.len < 32 ∨ 2 ^ 31 < d.len) → ∃ t p, exec (.dmaTransfer e d false data err) s = .next t ∧
        (engAt t e).park = some p ∧ p.cause = 5 ∧ t.hbm = s.hbm) ∧
      (d.resv = false → d.len % 32 = 0 → 32 ≤ d.len → d.len ≤ 2 ^ 31 → exec (.dmaTransfer e d false data err) s =
        .next (dmaMove e d data err (setEng e { engAt s e with cur := some d, done := 0 } s)))) ∧
    (∀ (d : DmaDesc) (data : List Byte) (c : Nat), dmaReady s e = true → (engAt s e).cur = none → (engAt s e).stopping = false →
      translate s false true (descAddr s e) = .bad c →
      exec (.dmaTransfer e d false data none) s = .next (parkHere e c 0 (descAddr s e) 1 s)) ∧
    (∀ (d : DmaDesc) (data : List Byte) (src dst : Nat), let x := engAt s e
      let n := min (d.len - x.done) (min (chunkLeft s ((if e < 32 then d.addr2 else d.addr) + x.done)) (chunkLeft s ((if e < 32 then d.addr else d.addr2) + x.done)))
      translate s false true ((if e < 32 then d.addr2 else d.addr) + x.done) = .hbm src →
      translate s true true ((if e < 32 then d.addr else d.addr2) + x.done) = .hbm dst →
      (dmaCopy e d data none s).hbm = (hbmWrite dst (hbmRead s src n) s).hbm ∧ (engAt (dmaCopy e d data none s) e).done = x.done + n ∧
      (x.done + n = d.len → ∃ c, (engAt (dmaCopy e d data none s) e).owed = some c ∧ c.user = d.user ∧ c.bytes = d.len)) ∧
    (∀ (c : DmaCpl) (a : Nat), saving s = false → elasticOff s = false → (engAt s e).owed = some c → (engAt s e).park = none →
      translate s true true (cplAddr s e) = .host a →
      exec (.dmaCompletion e true) s = .next (parkHere e 4 (engAt s e).done (cplAddr s e) 2 s) ∧
      (c.irq = false → exec (.dmaCompletion e false) s = .next (engNext e (send (.mem a (cplBytes s e c)) s)))) ∧
    (engLive s e = true → (engAt s e).park = none → (engAt s e).ci < (engAt s e).pi → (engAt s e).cur = none → (engAt s e).owed = none →
      exec (.completionTimeout e 1) s = .next (parkHere e 4 0 (descAddr s e) 1 s)) ∧
    (∀ d : DmaDesc, engLive s e = true → (engAt s e).park = none → (engAt s e).ci < (engAt s e).pi → (engAt s e).cur = some d → (engAt s e).owed = none →
      exec (.completionTimeout e 0) s = .next (parkHere e 4 (engAt s e).done ((if e < 32 then d.addr2 else d.addr) + (engAt s e).done) 0 s))
/-- A schedule word executes at its cycle (R182 to R186): with the section, zone and tick it acts for found, the word read whole, and no check and no
wait of its section in the way, its operation's result goes to its tile and its words leave; where it stalls the section freezes; a row the schedule
does not have changes nothing. -/
def Obligations.WordsExecute : Prop :=
  ∀ (i : Instr) (op off : Nat) (f : RowOp) (a : TileAt) (s0 : State), wordOp i = some (op, off, f, a) →
    let s := if op = 0xF2 then pcapLines a s0 else s0
    (rowCtx s a = none → exec i s0 = .next s) ∧
    (wOpcode (tswAt (tileAt s a.q a.col a.row) a.bank a.i) ≠ op → exec i s0 = .next s) ∧
    (∀ (r : RowCtx) (w : BitVec 128), rowCtx s a = some r → wOpcode (tswAt (tileAt s a.q a.col a.row) a.bank a.i) = op →
      readWord a (tileAt s a.q a.col a.row) = .good w → a.hw.parity = [] → a.hw.rotation = false →
      (r.elastic = true → (passAt s r.h).ctx ≠ none) → noCredit s a r w = none →
      let y := f r (rowEnv a r w s) (rowTile a r s) s
      (y.1.stall = true → exec i s0 = .next (freezeRow a r y.1.waitAg y.1.waits (setTile a.q a.col a.row (turnSide r.inc y.1.t) s))) ∧
      (y.1.stall = false → let o := checkedOut false (rowTile a r s) y.1
        exec i s0 = .next (y.2 (spread a r off o (addRoute a.q a.col a.row { a := a.c, b := a.c + wSpan w - 1, dirs := wRoute w }
          (proceed a r (setTile a.q a.col a.row (turnSide r.inc o.t) { s with free := s.free + 1 }))))))) ∧
    (∀ r : RowCtx, rowCtx s a = some r → wOpcode (tswAt (tileAt s a.q a.col a.row) a.bank a.i) = op →
      readWord a (tileAt s a.q a.col a.row) = .bad → exec i s0 = .next (schedBad a r s))

/-- Lane arithmetic (R134, R137): with operands that hold words of one tick and block, ADD, SUB, SHL and SRA give one word a cycle later, each of its
sixteen lanes the exact result clamped to INT16, the tags of A kept; a clamp counts LANE_SAT. -/
def Obligations.LaneArithmetic : Prop :=
  ∀ (e : Env) (t : Tile), let a := operand t e.c (wSrcA e.w)
    let b := operand t e.c (wSrcB e.w)
    let one (o : TileOut) (r : Nat → Int) : Prop := o.stall = false ∧ o.faults = [] ∧ o.suspect = false ∧
      (∃ d : Line, o.emits = [{ off := 1, dest := wDest e.w, w := { data := d, v := true, p := false, tick := a.tick, btag := a.btag } }] ∧
        ∀ i, i < 16 → lane16 d i = clampI (-32768) 32767 (r i)) ∧
      (∀ k, k ≠ cLaneSat → cget o.t.cnt k = cget t.cnt k) ∧ ((∀ i, i < 16 → -32768 ≤ r i ∧ r i ≤ 32767) → cget o.t.cnt cLaneSat = min (cget t.cnt cLaneSat) (2 ^ 32 - 1))
    a.v = true → a.p = false →
    (bit (wMod e.w) 7 = false → b.v = true → b.p = false → a.tick = b.tick → a.btag = b.btag →
      one (addSubOp false e t) (fun i => lane16 a.data i + lane16 b.data i) ∧ one (addSubOp true e t) (fun i => lane16 a.data i - lane16 b.data i)) ∧
    (bit (wMod e.w) 7 = true → one (addSubOp false e t) (fun i => lane16 a.data i + ofTwos 16 (wImm e.w)) ∧
      one (addSubOp true e t) (fun i => lane16 a.data i - ofTwos 16 (wImm e.w))) ∧
    one (shiftOp false e t) (fun i => lane16 a.data i * (2 ^ (wImm e.w % 16) : Nat)) ∧
    (bits (wMod e.w) 2 1 ≠ 0 → one (shiftOp true e t) (fun i => roundInt .rtz (lane16 a.data i) (wImm e.w % 16) 0)) ∧
    (bits (wMod e.w) 2 1 = 0 → one (shiftOp true e t) (fun i => roundInt .rne (lane16 a.data i) (wImm e.w % 16) 0))

/-- A poisoned operand poisons every result (R59, R144): each data word that a special-function operation of the list emits is poisoned with zero
bits, and the operation stops nothing and counts no invalid code. -/
def Obligations.PoisonSpreads : Prop :=
  ∀ (e : Env) (t : Tile), let a := operand t e.c (wSrcA e.w)
    let b := operand t e.c (wSrcB e.w)
    a.v = true → b.v = true → a.p = true →
    ∀ op ∈ [lut4Op, lut8Op, cmpThrOp false, cmpThrOp true, addSubOp false, addSubOp true, shiftOp false, shiftOp true, narrowOp, resaddOp, maxeOp, maxrOp,
        histOp],
      (op e t).stall = false ∧ (op e t).faults = [] ∧ (op e t).suspect = false ∧ (∀ m ∈ (op e t).emits, m.w.k = false → m.w.p = true ∧ m.w.data = 0#256) ∧
      cget (op e t).t.cnt cInvalidCode = cget t.cnt cInvalidCode

/-- Steering (R145 to R148): TOKEN takes CHOICE and DROP from its word, in force from the next cycle; in a fixed-path section SELECT then sends B when
CHOICE is 1, A when it is 0, where the token's tag is the word's; without a token, or with a poisoned one, what leaves is poisoned. -/
def Obligations.SteerWords : Prop :=
  ∀ (e : Env) (t : Tile), let a := operand t e.c (wSrcA e.w)
    let b := operand t e.c (wSrcB e.w)
    let k := (tokenOp e t).t.token
    (k.v = a.v ∧ k.p = a.p ∧ k.tag = a.tick ∧ k.vis = e.c + 1 ∧ k.choice = a.data.getLsbD (wImm e.w % 256) ∧ (tokenOp e t).emits = []) ∧
    (e.elastic = false → t.token.vis ≤ e.c → t.token.v = true → t.token.p = false → bit (wTagchk e.w) 7 = false →
      ∀ x : LWord, x = (if t.token.choice then b else a) → t.token.tag = x.tick →
        selectOp e t = { t := t, emits := [{ off := 1, dest := wDest e.w, w := x }] }) ∧
    (e.elastic = false → t.token.vis ≤ e.c → t.token.v = true → t.token.p = false → t.token.tag = a.tick →
      routeOp e t = { t := t, emits := [{ off := 1, dest := if t.token.choice then wImm e.w else wDest e.w, w := a },
        { off := 1, dest := if t.token.choice then wDest e.w else wImm e.w, w := { v := true, tick := a.tick } }] }) ∧
    (e.elastic = false → e.c < t.token.vis ∨ t.token.v = false → ∀ m ∈ (routeOp e t).emits, m.w.p = true ∧ m.w.data = 0#256) ∧
    (e.elastic = true → e.c < t.token.vis ∨ t.token.v = false → (routeOp e t).stall = true ∧ (routeOp e t).t = t)
/-- Links (R321, R322, R329, R331, R334 to R336): a codeword's fields act on a link that is UP; one that cannot be decoded counts CW_UNCORR, and enough of
them bring a locked link DOWN; a link sends its own codewords while it is not DOWN; training, the latency measurement and falls move its state. -/
def Obligations.LinkRows : Prop :=
  ∀ (s : State) (l : Nat), s.dev.st ≠ .off → l < 36 → let x := linkAt s l
    (∀ (errs raw : Nat) (m : BitVec 5140), x.st ≠ .down →
      (errs ≤ 15 → ∃ y : Link, y.good = x.good + 1 ∧ y.bad = 0 ∧ y.lock = (x.lock || decide (8 ≤ x.good + 1)) ∧ y.rxCnt = some (parseCw m.toNat).cnt ∧
        y.st = x.st ∧ exec (.codeword l errs m raw) s = .next
          (if x.st = .up then cwIn l raw (parseCw m.toNat) (setLink l y (seeRaw raw s)) else setLink l y (seeRaw raw s))) ∧
      (15 < errs → ∃ y : Link, y.good = 0 ∧ y.bad = x.bad + 1 ∧ cget y.cnt 1 = satAdd 32 (cget x.cnt 1) 1 ∧ y.st = x.st ∧
        exec (.codeword l errs m raw) s = .next
          (if x.lock = true ∧ bits (regAt s (0xB0000 + 16 * l)) 7 0 ≤ x.bad + 1 then fall l (setLink l y (seeRaw raw s)) else setLink l y (seeRaw raw s)))) ∧
    (∀ raw : Nat, (x.st = .down → exec (.codewordSend l raw) s = .next s) ∧
      (x.st = .up → exec (.codewordSend l raw) s = .next (sendCw l raw (packMsgs l (seeRaw raw s)))) ∧
      (x.st = .train ∨ x.st = .cal → exec (.codewordSend l raw) s = .next (sendCw l raw (seeRaw raw s)))) ∧
    (x.st = .up → c1Mode s = false → exec (.nakTimeout l) s = .next (setLink l { x with nak := true } s)) ∧
    (x.st ≠ .down → exec (.linkDown l) s = .next (fall l s) ∧
      (linkAt (linkFall l s) l).st = (if bit (regAt s (0xB0000 + 16 * l)) 31 = true ∧ bit (regAt s (0xB0000 + 16 * l)) 29 = true then .train else .down) ∧
      cget (linkAt (linkFall l s) l).cnt 6 = satAdd 32 (cget x.cnt 6) 1) ∧
    (x.st = .train ∨ x.st = .cal → exec (.linkTrainTimeout l) s = .next (fall l s)) ∧
    (∀ peer uid : Nat, x.st = .train → exec (.linkTrainDone l peer uid) s = .next (setLink l { x with
      st := .cal, lock := true, good := 8, bad := 0, peerLink := peer % 64, peerUid := uid, probes := [], lc := probeMsgs } s)) ∧
    (∀ id t2 t3 : Nat, x.st = .cal ∨ x.st = .up → exec (.probe l id t2 t3) s = .next (setLink l { x with
      lc := x.lc ++ [(3, id % 16 * 2 ^ 50 + (t3 + 2 ^ 48 - t2 % 2 ^ 48) % 2 ^ 48)] } s)) ∧
    (∀ id turn t4 t1 : Nat, x.st = .cal → x.probeT.find? (fun e => e.1 == id % 16) = some (id % 16, t1) → exec (.echo l id turn t4) s =
      .next (setLink l { x with probes := x.probes ++ [ofTwos 48 ((t4 + 2 ^ 49 - t1 % 2 ^ 48 - turn % 2 ^ 48) % 2 ^ 48)] } s)) ∧
    (x.st = .cal → 64 ≤ x.probes.length →
      (probeSpread x = true → exec (.linkCalDone l) s = .next (setLink l { x with probes := [], lc := probeMsgs } s)) ∧
      (probeSpread x = false → drifted s x (lambdaPs x) = false → s.fab.plan = none → (s.fab.id, l) ∉ s.fab.downLinks → ∃ t, exec (.linkCalDone l) s = .next t ∧ (linkAt t l).st = .up ∧
        (linkAt t l).lambda = lambdaPs x ∧ (linkAt t l).resend = x.unacked ∧ ∀ k, k ≠ l → linkAt t k = linkAt s k))

/-- The fixed and elastic classes and the token (R254, R327, R333, R343, R455): the fire word of a tick is built from its sources; an entry takes its word
into the switch at TAKE and gives it at GIVE; a whole packet is passed on, delivered or left; a record wholly received is staged for the collector's
engine. -/
def Obligations.FabricTraffic : Prop :=
  ∀ s : State,
    (∀ t : Nat, actsFor s t = true → fireQuiet s = false → exec (.fireWordBuild t) s = .next { s with comb := { s.comb with fireOut := some (fireBuilt s t) } } ∧
      (fireBuilt s t).tick = t ∧ (fireBuilt s t).p = false ∧
      ∀ b, b < 32 → bit (regFor s t (0x70300 + 2 * b)) 15 = false → fireSource s t b = (0, 0)) ∧
    (∀ (t n : Nat) (e : FSlot), fslotAt (fbankFor s t) n = some e → actsFor s t = true → (∀ w ∈ s.fab.sw, w.1 ≠ slotKey t n) →
      e.clr = false ∨ e.inp ≠ 3 → let w := fslotWord t n e s
      exec (.fslotTake t n) s = .next { w.2 with fab := { w.2.fab with sw := w.2.fab.sw ++ [(slotKey t n, w.1)] } } ∧
      (e.inp = 0 → s.fab.tx.find? (fun w => w.1 == slotKey t n) = none → w.1 = absentWord t)) ∧
    (∀ (t n : Nat) (e : FSlot) (w : LWord), fslotAt (fbankFor s t) n = some e → s.fab.sw.find? (fun w => w.1 == slotKey t n) = some (slotKey t n, w) →
      let u := { s with fab := { s.fab with sw := s.fab.sw.filter fun w => w.1 != slotKey t n } }
      (e.out = 0 → exec (.fslotGive t n) s = .next { u with fab := { u.fab with given := (s.fab.given.filter fun w => w.1 != slotKey t n) ++ [(slotKey t n, w)] } }) ∧
      (e.out = 1 → exec (.fslotGive t n) s = .next (launch e.outLink e.next w u)) ∧
      (e.out = 2 → exec (.fslotGive t n) s = .next { u with comb := { u.comb with fireIn := tset (fun _ => {}) s.comb.fireIn t (wordToFire w) } }) ∧
      (e.out = 3 → exec (.fslotGive t n) s = .next (mregOr (fbankFor s t) n e.mreg (gcOf s t + e.give) w u))) ∧
    (∀ (l vc : Nat) (p : Packet) (rest : List Flit), s.dev.st ≠ .off → l < 36 → vc < 3 → wholePacket ((linkAt s l).buf.getD vc []) = some (p, rest) →
      let free := unbuffer l vc (p.pay.length + 1) rest
      (erouteOf s p.dest = 0 → exec (.elasticPacket l vc) s = .next s) ∧
      (erouteOf s p.dest ≠ 0 → erouteOf s p.dest ≠ 128 → exec (.elasticPacket l vc) s = .next (free (sendPacket p s))) ∧
      (erouteOf s p.dest = 128 → vc ≠ 1 → ∀ t, packetHere p s = some t → exec (.elasticPacket l vc) s = .next (free t))) ∧
    (∀ (src e : Nat) (c : Coll), s.fab.coll.find? (fun c => c.src == src) = some c → s.acq.collect = some e → elasticOff s = false →
      64 ≤ c.bytes.length → c.bytes.length = 32 * unle (slice 20 4 c.bytes) → ∃ r, exec (.collectorRecord src c.recseq) s =
        .next { s with fab := { s.fab with coll := s.fab.coll.erase c }
                       acq := { s.acq with staged := s.acq.staged ++ [{ req := r, bytes := c.bytes, foreign := true }] } } ∧
        reqDest r = (0, e) ∧ r.tick = unle (slice 0 8 c.bytes)) ∧
    (∀ dev : Nat, s.dev.st ≠ .off → inFabric s = true →
      (s.fab.isMaster = true → exec (.updateToken dev 0) s = .next (tokenAsked dev s)) ∧
      (s.upd.holder = none → exec (.updateToken dev 1) s = .next (returnToken { s with fab := { s.fab with tokenHeld := true } })) ∧
      (s.upd.holder ≠ none → s.upd.applyJ = none → exec (.updateToken dev 1) s = .next { s with fab := { s.fab with tokenHeld := true } }) ∧
      (s.fab.isMaster = true → s.upd.applyJ = none → exec (.updateToken dev 2) s = .next (tokenBack dev s)))

/-- Discovery, routes, barriers and membership (R338 to R340, R344, R346, R348, R349): what each message, and each silence, does; a message changes no
register, no HBM byte, and nothing of the zone. -/
def Obligations.FabricMembers : Prop :=
  ∀ (s : State) (l : Nat), hears s l = true →
    (∀ (uid prio link st : Nat) (d : List Byte), exec (.hello l (.hello uid prio link st d)) s =
      .next (setLink l { linkAt s l with peerUid := uid, peerLink := link % 64 } s)) ∧
    (∀ uid prio hops epoch : Nat, (epoch < s.fab.epoch → exec (.elect l (.elect uid prio hops epoch)) s = .next s) ∧
      (∀ b, inReady s = true → epoch = s.fab.epoch → s.fab.discovering = true → s.fab.best = some b → betterThan (uid, prio, hops + 1) b = true →
        exec (.elect l (.elect uid prio hops epoch)) s =
          .next (floodBest { s with fab := { s.fab with best := some (uid, prio, hops + 1), uplink := some l } }))) ∧
    (∀ (prio hops : Nat), s.fab.discovering = true → s.fab.best = some (s.part.uid, prio, hops) → prio ≠ 0 → s.fab.isMaster = false →
      exec .discQuiet s = .next (tryAssign { s with fab := { s.fab with isMaster := true, masterUid := s.part.uid, id := 0, topo := [(s.part.uid, ownTopo s)] } })) ∧
    (∀ (u prio hops k : Nat), s.fab.discovering = true → s.fab.best = some (u, prio, hops) → u ≠ s.part.uid → s.fab.uplink = some k →
      exec .discQuiet s = .next (sendMsg k (.topo s.part.uid (ownTopo s)) s)) ∧
    (∀ (uid : Nat) (ks : List TopoLink), (s.fab.isMaster = true → exec (.topo l (.topo uid ks)) s =
        .next (tryAssign { s with fab := { s.fab with topo := (s.fab.topo.filter fun e => e.1 != uid) ++ [(uid, ks)] } })) ∧
      (∀ k, s.fab.isMaster = false → s.fab.uplink = some k → exec (.topo l (.topo uid ks)) s = .next (sendMsg k (.topo uid ks) s))) ∧
    (∀ id master epoch : Nat, s.fab.masterUid = 0 → exec (.assign l (.assign s.part.uid id master epoch [])) s =
      .next (sendMsg l (.assignAck s.part.uid id epoch)
        { s with fab := { s.fab with masterUid := master, id := id, member := true, discovering := false, epoch := epoch, timeRoot := some 0 } })) ∧
    (∀ uid id k : Nat, s.fab.isMaster = false → s.fab.uplink = some k → exec (.assignAck l (.assignAck uid id s.fab.epoch)) s =
      .next (sendMsg k (.assignAck uid id s.fab.epoch) s)) ∧
    (∀ uid id : Nat, s.fab.isMaster = true → s.fab.acks = [uid] → exec (.assignAck l (.assignAck uid id s.fab.epoch)) s =
      .next (endDiscovery { s with fab := { s.fab with acks := [] } })) ∧
    (∀ t : List (Nat × Nat), s.fab.member = true → exec (.erouteUpdate t) s = .next (erouteApply t s)) ∧
    (∀ (b : BarrierDesc) (p : Plan), s.fab.plan = some p → s.fab.member = true → s.fab.isMaster = false →
      (b.cancel = true → exec (.barrier b) s = .next (cancelStart b.tick s)) ∧
      (b.cancel = false → b.start = false → nowTick s < b.tick → ∃ t, exec (.barrier b) s = .next t ∧ t.fab.barriers = s.fab.barriers ++ [b] ∧
        t.fab.out2 = (p.master, .barrierAck true b.tick) :: s.fab.out2 ∧ t.dev = s.dev ∧ t.regs = s.regs) ∧
      (b.cancel = false → b.start = false → b.tick ≤ nowTick s → exec (.barrier b) s = .next (sendMsg2 p.master (.barrierAck false b.tick) s))) ∧
    (s.fab.member = true → ∃ t, exec .heartbeatSend s = .next t ∧ t.fab.hbCount = (s.fab.hbCount + 1) % 2 ^ 32 ∧ t.dev = s.dev ∧ t.hbm = s.hbm) ∧
    (∀ id count : Nat, s.fab.member = true → s.fab.isMaster = true → id ≠ s.fab.id → s.fab.heard.find? (fun e => e.1 == id) = none →
      exec (.heartbeat l (.heartbeat id s.fab.epoch count)) s = .next { s with fab := { s.fab with heard := cset s.fab.heard id count } }) ∧
    (∀ (p : Plan) (dev : Nat), s.fab.plan = some p → s.fab.member = true → s.fab.isMaster = true → dev ≠ s.fab.id → (∃ d ∈ p.devs, d.id = dev) →
      dev ∉ s.fab.lost → exec (.hbTimeout dev) s = .next (loseDevice dev p s)) ∧
    (∀ p : Plan, s.fab.plan = some p → s.fab.member = true → s.fab.isMaster = false → p.deputy = s.fab.id →
      ∃ t q, exec .masterLoss s = .next t ∧ t.fab.isMaster = true ∧ t.fab.plan = some q ∧ q.master = s.fab.id ∧ p.master ∈ t.fab.lost)
/-- Disciplines of the time base (R354, R356 to R364): what a step or a slew makes of an offset, where a slew ends, what a pulse, a PTP message, the fabric's
beacons and their loss do, and what a transmit stamp adds; none changes HBM. -/
def Obligations.DisciplinesSteer : Prop :=
  ∀ s : State, s.dev.st ≠ .off →
    (∀ (d : Int) (locked : Bool), let t := steer d locked s
      (d.natAbs ≤ tuMs → t.time.rem = d ∧ t.time.slewing = decide (d ≠ 0) ∧ t.time.offsetLarge = false ∧ t.time.locked = locked ∧ t.time.offsetPs = offsetPs d ∧
        t.host = s.host ∧ linear t.time s.time.raw = nowL s) ∧
      (tuMs < d.natAbs → inReady s = false → t.time.rem = d ∧ t.time.slewing = true ∧ t.time.offsetLarge = true ∧
        ∃ r, t.host.raised = s.host.raised ++ [r] ∧ r.e.code = 0x50 ∧ r.e.sev = 3) ∧
      (tuMs < d.natAbs → inReady s = true → t.time.slewing = false ∧ t.time.rem = 0 ∧ linear t.time s.time.raw = ((nowL s : Int) + d).toNat ∧ t.time.offsetLarge = false)) ∧
    (∀ raw : Nat, s.time.slewing = true → s.time.slew ≠ 0 → s.time.rem.natAbs ≤ (slewed s.time raw).natAbs → s.time.raw ≤ raw → s.time.r0 ≤ raw →
      let l := ((s.time.l0 : Int) + (raw - s.time.r0 : Nat) + (raw - s.time.r0 : Nat) * s.time.rate / (2 ^ 40 : Int) + s.time.rem).toNat
      exec (.slewEnd raw) s = .next { s with time := { s.time with slew := 0, rem := 0, slewing := false, raw := raw, r0 := raw, l0 := l } }) ∧
    (∀ raw : Nat, let u := { seeRaw raw s with time := { (seeRaw raw s).time with ppsTs := linear s.time raw, ppsMiss := 0 } }
      exec (.ppsInEdge raw) s = .next (if timeSrc s = 2 then steer (toSecond (linear s.time raw)) (lockedWide (toSecond (linear s.time raw))) u else u)) ∧
    (∀ l : Nat, timeSrc s = 3 → (linkAt s l).st = .up → (linkAt s l).thetaN ≠ 0 → s.fab.timeRoot ≠ some s.fab.id → (linkAt s l).hops ≤ 14 →
      let x := linkAt s l
      exec (.fabricTimeSteer l) s = .next (steer (x.thetaSum / (2 * x.thetaN)) (decide (x.thetaSum.natAbs * 10 < x.thetaN * 131072))
        (setLink l { x with thetaSum := 0, thetaN := 0 }
          { s with fab := { s.fab with timeRoot := some x.rootId, timeHops := x.hops + 1, timeDeep := false } }))) ∧
    (1 ≤ timeSrc s → timeSrc s ≤ 3 → s.time.holdover = false → ∃ t, exec .timeHoldover s = .next t ∧ t.time.holdover = true ∧ t.time.locked = false ∧
      t.time.slew = 0 ∧ t.time.rate = s.time.rate ∧ linear t.time s.time.raw = nowL s ∧ ∃ r, t.host.raised = s.host.raised ++ [r] ∧ r.e.code = 0x51) ∧
    (timeSrc s = 3 → ∃ t, exec .fabricTimeLoss s = .next t ∧ t.time.holdover = true ∧
      (bits (regAt s 0x60010) 1 0 = 2 → t.time.tickSt = if inRun s = true then .holdover else .unlocked)) ∧
    (∀ (raw kind v : Nat) (bs : List Byte), kind ≤ 8 →
      (timeSrc s = 1 → exec (.ptpFrameRx raw kind v bs) s = .next (ptpClient raw kind v (seeRaw raw s))) ∧
      (timeSrc s = 4 → ptpEvent kind = true → exec (.ptpFrameRx raw kind v bs) s =
        .next (raiseEv { code := 0x55, sev := 0, body := todBytes (todOf (rxStamp (seeRaw raw s) raw)) ++ bs.take 2000 } (seeRaw raw s)))) ∧
    (timeSrc s = 1 →
      (∀ k ∈ [0, 1, 5], s.time.ptpMaster = true → s.time.ptp.slaveOnly = false → exec (.ptpMessageSend k) s = .next (send (.ptp k) s)) ∧
      (s.time.ptp.p2p = false → s.time.ptpMaster = false → exec (.ptpMessageSend 4) s = .next (ptpPut 2 (txStamp s s.time.raw) (send (.ptp 4) s))) ∧
      (s.time.ptp.p2p = true → exec (.ptpMessageSend 6) s = .next (ptpPut 4 (txStamp s s.time.raw) (send (.ptp 6) s)))) ∧
    (∀ id raw : Nat, id ∈ s.time.tsWait → ∃ t, exec (.txTimestamp id raw) s = .next t ∧ t.time.tsWait = s.time.tsWait.erase id ∧
      (s.time.txq.length < 16 → t.time.txq = s.time.txq ++ [(id, todOf (txStamp (seeRaw raw s) raw))] ∧ t.time.txLost = s.time.txLost) ∧
      (16 ≤ s.time.txq.length → t.time.txq = s.time.txq ∧ t.time.txOvf = true ∧ t.time.txLost = satAdd 32 s.time.txLost 1)) ∧
    ∀ (a b c : Nat) (bs : List Byte) (t : State), ∀ i ∈ [Instr.slewEnd a, .ppsInEdge a, .fabricTimeSteer a, .timeHoldover, .fabricTimeLoss, .ptpFrameRx a b c bs, .ptpMessageSend a,
      .txTimestamp a b], exec i s = .next t → t.hbm = s.hbm

/-- The tick input and the pins (R361, R366, R367, R370, R371): a numbered edge within TICK_WIN locks, one beyond it counts, one off its tick slips, one
before numbering waits for TICK_ALIGN; a fired event sets its pin, its bit of the tick's word and its next firing. -/
def Obligations.PinsAndTicks : Prop :=
  ∀ s : State, s.dev.st ≠ .off → let c := regAt s 0x60010
    (∀ (raw tick : Nat) (dev : Int), bits c 1 0 = 1 →
      let u := { seeRaw raw s with time := { (seeRaw raw s).time with lastIn := some raw, missRun := 0 } }
      let l := linear s.time raw + (calEffective (seeRaw raw s) 1 0).1.toNat * 65536 / 1000
      (s.time.next = none → exec (.tickInEdge raw tick dev) s = .next (alignEdge l u)) ∧
      (s.time.next ≠ none → tick % max (bits c 47 32) 1 ≠ bits c 31 16 → ∃ t, exec (.tickInEdge raw tick dev) s = .next t ∧
        (inRun s = true → t.time.slip = satAdd 16 s.time.slip 1 ∧ t.time.next = s.time.next ∧ ∃ r, t.host.raised = s.host.raised ++ [r] ∧ r.e.code = 0x53 ∧ r.e.sev = 3) ∧
        (inRun s = false → t.time.tickSt = .unlocked ∧ t.time.next = none)) ∧
      (s.time.next ≠ none → tick % max (bits c 47 32) 1 = bits c 31 16 → s.time.tickWin < dev.natAbs → ∃ t, exec (.tickInEdge raw tick dev) s = .next t ∧
        t.time.phaseErr = satAdd 32 s.time.phaseErr 1 ∧ t.time.devRun = s.time.devRun + 1 ∧
        (15 ≤ s.time.devRun → inRun s = true → t.time.tickSt = .holdover) ∧ (15 ≤ s.time.devRun → inRun s = false → t.time.tickSt = .unlocked)) ∧
      (s.time.next ≠ none → tick % max (bits c 47 32) 1 = bits c 31 16 → dev.natAbs ≤ s.time.tickWin →
        exec (.tickInEdge raw tick dev) s = .next { u with time := { u.time with devRun := 0, tickSt := .locked } })) ∧
    (∀ missing : Bool, bits c 1 0 = 1 → s.time.next ≠ none → ∃ t, exec (.tickHoldover missing) s = .next t ∧
      (inRun s = true → t.time.tickSt = .holdover ∧ t.time.next = s.time.next) ∧ (inRun s = false → t.time.tickSt = .unlocked ∧ t.time.next = none)) ∧
    (∀ raw : Nat, bit (regAt s 0x60000) 7 = true → ∃ t, exec (.ppsOutPulse raw) s = .next t ∧ t.time.ppsOut = true ∧ t.regs = s.regs) ∧
    exec .ppsOutPulseEnd s = .next { s with time := { s.time with ppsOut := false } } ∧
    (∀ e x n : Nat, let v := tget (fun _ => {}) s.time.timed e
      v.next = some n → s.dev.st ≠ .safe → v.d.en = true → firesAt s v.d n x = true → v.d.tickStart = false →
        ∃ t w, exec (.timedEventFire e x) s = .next t ∧ tget (fun _ => {}) t.time.timed e = w ∧ w.d = v.d ∧
          w.next = (if v.d.periodic = true then some (n + v.d.period) else none) ∧ (w.active = (v.active || v.d.pinEn)) ∧
          (v.d.pinEn = true → x + v.d.width ≤ w.endGc) ∧ cget t.time.timedBits (x / max (iiOf s) 1) = cget s.time.timedBits (x / max (iiOf s) 1) ||| 2 ^ e ∧
          (∀ k, k ≠ e → tget (fun _ => {}) t.time.timed k = tget (fun _ => ({} : TimedEv)) s.time.timed k) ∧ t.hbm = s.hbm ∧ t.regs = s.regs) ∧
    (∀ e : Nat, (tget (fun _ => ({} : TimedEv)) s.time.timed e).active = true → ∃ t, exec (.timedOutPulseEnd e) s = .next t ∧
      tget (fun _ => {}) t.time.timed e = { tget (fun _ => ({} : TimedEv)) s.time.timed e with active := false, endGc := 0 } ∧ t.regs = s.regs ∧ t.dev = s.dev)
/-- Handling and repairs (R405 to R411, R415 to R417, R419): a core makes a step on its first record; pending units become records; a confirmation ends,
a remap switches, a rotation warms up, decides and swaps, and a lost quadrant's work moves; none changes HBM. -/
def Obligations.RepairsRun : Prop :=
  ∀ s : State,
    (∀ (core : Nat) (r : StepIn) (x : QRec), let c := s.flt.cores.getD core {}
      s.dev.st ≠ .off → s.dev.st ≠ .boot → core < 8 → c.alive = true → c.restarting = false →
      (let u := ctlChecks core r s
       let mine := u.flt.errq.filter fun x => c.roles.contains (roleOf x.f) && hasStep u x
       (mine = [] → exec (.handlerStep core r) s = .next u) ∧
       (firstOf mine = some x → let t := recStep r { x with st := 1 } (takeInHand c.roles x u)
        exec (.handlerStep core r) s = .next (if ticking t then t else quadLosses t)))) ∧
    (∀ (r : StepIn) (x : QRec) (u : State),
      (x.stage = 0 → x.f.sev ≠ 3 → let t := recStep r x u
        t.flt.handled = (x.f :: u.flt.handled).take 64 ∧ (∀ y ∈ t.flt.errq, y.f.fid ≠ x.f.fid) ∧ t.grid = u.grid ∧ t.dev = u.dev) ∧
      (x.stage = 0 → x.f.sev = 3 → x.f.confirmed = false → rewriteCode x.f.code = true → x.f.site ≠ 0xFF → healthAt u (healthUnit u x.f) % 16 < 3 →
        recStep r x u = beginConfirm x.f (setRec { x with stage := 2, st := 1, rep0 := x.f.rep } (rewriteStores x.f u)) ∧
        ∃ c ∈ (recStep r x u).flt.confirms, c.unit = unitOf x.f ∧ c.code = x.f.code ∧ c.until_ = nowTick u + u.flt.confirmTicks) ∧
      (x.stage = 2 → recStep r x u = declareFailed x u) ∧
      (∀ m, x.stage = 5 → remapOf u x = some m → r.checkOk = true → ticking u = true →
        recStep r x u = setRec { x with stage := 6 } (setRemap { m with switch_ := some (firstLead u) } u))) ∧
    (∀ core : Nat, (s.flt.cores.getD core {}).alive = true →
      let mine := (s.flt.health.map (·.1)).filter fun u => bit (healthAt s u) 5 && (s.flt.cores.getD core {}).roles.contains (unitRole u).1
      (128 ≤ s.flt.errq.length ∨ mine = [] → exec (.errqScan core) s = .next s) ∧
      (∀ u, s.flt.errq.length < 128 → mine = [u] → exec (.errqScan core) s = .next (fault (scanRec s u) (setHealth u (healthAt s u - 32) s)))) ∧
    exec .ceWindowEnd s = .next { s with flt := { s.flt with ce := [] } } ∧
    (∀ (unit : Nat) (c : Confirm) (x : QRec), s.flt.confirms.filter (fun c => c.unit == unit && decide (c.until_ ≤ nowTick s)) = [c] →
      s.flt.errq.find? (fun x => x.stage == 2 && unitOf x.f == c.unit && x.f.code == c.code) = some x → x.f.rep ≤ x.rep0 →
      isFailed s (healthUnit s x.f) = false →
      exec (.confirmExpire unit) s = .next (doneRec x (endConfirm x.f (markUnit 1 (healthUnit s x.f) s)))) ∧
    (∀ (m : Remap) (e : Nat), s.flt.remaps = [m] → m.switch_ = some e →
      (e ≤ nowTick s → exec .remapSwitch s = .next (resourcesFree (switchRemap m s))) ∧ (nowTick s < e → exec .remapSwitch s = .next s)) ∧
    (∀ (act k : Nat) (r : Rot), rotOf s act k = some r →
      (r.comparing = false → r.until_ ≤ nowTick s →
        exec (.rotationWarmupEnd act k) s = .next (setRot { r with comparing := true, until_ := nowTick s + r.ticks } s)) ∧
      (r.mism = true → exec (.recomputeDecision act k false true) s = .next (rotActiveBad r s) ∧
        exec (.recomputeDecision act k true false) s = .next (rotSpareBad r s) ∧
        (r.repeats = 0 → ∀ b, exec (.recomputeDecision act k b b) s = .next (setRot { rotAgain s r with repeats := 1 } (fault (rotRec s r false 0) s))) ∧
        (r.repeats ≠ 0 → exec (.recomputeDecision act k false false) s = .next (rotBothBad r s))) ∧
      (r.comparing = true → r.mism = false → r.move = false → r.until_ ≤ nowTick s → let u := maintEv 0xA3 act 1 (setSkip r.q r.k r.a s)
        ((∀ a ∈ u.flt.acts, a.h = act → a.stopping = false) → exec (.rotationSwap act k) s = .next (setRot { rotStep r u with steps := r.steps + 1 } u)) ∧
        ((∃ a ∈ u.flt.acts, a.h = act ∧ a.stopping = true) → exec (.rotationSwap act k) s = .next (resourcesFree (dropRot r false u))))) ∧
    (∀ (q sb : Nat) (a : Activity), s.flt.takeover = some q → s.dev.standby = some sb → actOf s 0x82 q = some a →
      exec .quadTakeover s = .next (resourcesFree (fault { code := 0x0702, sev := 2, quad := sb, unit := q } (endAct a.h false (takeQuad q sb s))))) ∧
    (∀ (a b : Nat) (c d : Bool) (r : StepIn) (t : State), ∀ i ∈ [Instr.handlerStep a r, .errqScan a, .ceWindowEnd, .confirmExpire a, .remapSwitch, .rotationWarmupEnd a b,
      .recomputeDecision a b c d, .rotationSwap a b, .quadTakeover], exec i s = .next t → t.hbm = s.hbm)

/-- Losses and tests of cores, stacks, quadrants, lines, windows and lanes (R408 to R410, R420 to R423, R425 to R427, R430, R431). -/
def Obligations.LossesAndTests : Prop :=
  ∀ s : State, s.dev.st ≠ .off →
    (∀ (core : Nat) (ue : Bool), core < 8 → s.flt.cores.length = 8 → (s.flt.cores.getD core {}).alive = true → s.upd.roll = none →
      ∃ t, exec (.coreWatchdog core ue) s = .next t ∧ (t.flt.cores.getD core {}).alive = false ∧ (t.flt.cores.getD core {}).roles = [] ∧
        t.flt.coresLost = s.flt.coresLost + 1 ∧ t.hbm = s.hbm ∧ ∀ k, k ≠ core → t.flt.cores.getD k {} = s.flt.cores.getD k {}) ∧
    (s.flt.roleWait ≠ [] → ∃ t, exec .coreTakeover s = .next t ∧ t.flt.roleWait = [] ∧ t.hbm = s.hbm) ∧
    (∀ k : Nat, k < 4 → k ∉ s.flt.stacksLost → k ∉ s.flt.stackEdge → s.dev.st ≠ .boot → ∃ u, u.hbm = s.hbm ∧
      exec (.hbmStackLoss k) s = .next (if ticking u then { u with flt := { u.flt with stackEdge := u.flt.stackEdge ++ [k] } } else stackDown k u)) ∧
    (∀ (q col row line : Nat) (ce again : Bool), (∃ a ∈ s.flt.acts, a.act = 2 ∧ a.queued = false) → quadReads s q = true → siteClass col row = some .memory →
      line < 65536 → let t := tileAt s q col row
      (∃ f : FaultRec, f.code = 0x0108 ∧ f.sev = 3 ∧ f.confirmed = again ∧ exec (.patrolScrub q col row line ce true again) s = .next (fault f (setTile q col row
        (tcount cMemUe 1 { t with mem := tset (fun _ => {}) t.mem line (scrubbedLine s q col row line (tget (fun _ => {}) t.mem line)) }) s))) ∧
      (∃ f : FaultRec, f.code = 0x0111 ∧ f.sev = 1 ∧ exec (.patrolScrub q col row line true false again) s =
        .next (corrected (64 * tileUnit q (physIndex s q col row) + cMemCe) f (setTile q col row (tcount cMemCe 1 t) s))) ∧
      exec (.patrolScrub q col row line false false again) s = .next s) ∧
    (∀ (core w : Nat), (∃ a ∈ s.flt.acts, a.act = 5 ∧ a.req.core = core ∧ a.queued = false) → core < 8 → w < 256 → (s.flt.cores.getD core {}).alive = true →
      let u := 1100 + 256 * core + w
      let c := s.flt.cores.getD core {}
      (∀ ok, exec (.scratchWindowTest core w ok true) s = .next s) ∧
      (healthAt s u / 64 = 3 → exec (.scratchWindowTest core w true false) s = .next (setStatus u 0 s)) ∧
      (c.windows < 16 → exec (.scratchWindowTest core w false false) s =
        .next (fault { code := 0x0704, sev := 2, unit := core, index := w } (failUnit u (setCore core { c with windows := c.windows + 1 } s)))) ∧
      (16 ≤ c.windows → exec (.scratchWindowTest core w false false) s = .next (loseCore core 0x0503 (failUnit u s)))) ∧
    (∀ q : Nat, quadAt s q = .waking →
      (q ∉ s.flt.fromFailed → exec (.clearingDone q) s = .next (wakeOver q 0 (setQuad q .active s))) ∧
      (q ∈ s.flt.fromFailed → exec (.clearingDone q) s = .next s ∧ ∀ ok : Bool, exec (.quadSelfTestDone q ok) s =
        .next (wakeOver q (if ok then 0 else 2) (setQuad q (if ok then .active else .failed)
          { s with flt := { s.flt with fromFailed := s.flt.fromFailed.filter (· != q) } })))) ∧
    (∀ q lane idx : Nat, (∃ a ∈ s.flt.acts, a.act = 4 ∧ a.queued = false) → quadReads s q = true → lane < 16 → idx < 1024 →
      (slotAt s q lane 0 idx).valid = false → (slotAt s q lane 1 idx).valid = false →
      exec (.linkTest q lane idx false) s = .next s ∧ ∃ t, exec (.linkTest q lane idx true) s = .next t ∧
        cget t.grid.laneTestErr (16 * q + lane) = satAdd 32 (cget s.grid.laneTestErr (16 * q + lane)) 1 ∧
        (∀ k, k ≠ 16 * q + lane → cget t.grid.laneTestErr k = cget s.grid.laneTestErr k) ∧ t.hbm = s.hbm ∧ t.flt = s.flt)
/-- Steps of an update, attestation and the TAP (R446 to R451, R458 to R462, R510): a step read back moves its part on, a lehr window confirms or sends
back; a request is answered once VERSION, CAPABILITIES and ALGORITHMS have come, is put off while the security core restarts, and a large response comes
in chunks (their layouts are PRESUMED, log 60); an instruction the debug level closes does nothing. -/
def Obligations.UpdatesAndTrust : Prop :=
  ∀ s : State, s.dev.st ≠ .off → s.dev.st ≠ .boot →
    (∀ (t rate : Nat) (ok : Bool), stepPart s = some t → let p := partAt s t
      let u := { s with upd := { s.upd with rate := rate } }
      (p.st = .demoting → p.cause = 0 → exec (.updateStepDone true rate) s = .next (stepTo t .writing (setPart t (demoted p) u)) ∧ exec (.updateStepDone false rate) s = .next u) ∧
      (p.st = .writing → p.cause = 0 → exec (.updateStepDone true rate) s = .next (wroteStep t u) ∧ exec (.updateStepDone false rate) s = .next u) ∧
      (p.st = .writing → p.cause ≠ 0 → exec (.updateStepDone ok rate) s = .next (fallBack t p.cause u)) ∧
      (p.st = .activating → p.cause = 0 → s.upd.roll = none → t ≠ 2 →
        exec (.updateStepDone true rate) s = .next (openLehr t (if t = 1 then coresNew true s else s)) ∧
        exec (.updateStepDone false rate) s = .next (fallBack t (if t = 3 ∨ t = 4 then 3 else 2) s)) ∧
      (p.st = .fallingBack → exec (.updateStepDone true rate) s = .next (fallenBack t u) ∧ exec (.updateStepDone false rate) s = .next u)) ∧
    (∀ (t : Nat) (st : PartSt) (u : State), 1 ≤ t → t ≤ u.upd.parts.length → (partAt (stepTo t st u) t).st = st ∧ (stepTo t st u).upd.rseq = u.upd.rseq + 1 ∧
      ∀ k, 1 ≤ k → k ≠ t → partAt (stepTo t st u) k = partAt u k) ∧
    (∀ core : Nat, s.upd.roll = some core → (partAt s 1).cause = 0 →
      (core < 7 → exec (.coreRestartDone core true) s = .next (rollBegin (core + 1) (rollBack core true s))) ∧
      (core = 7 → exec (.coreRestartDone core true) s = .next (openLehr 1 (rollBack core true s))) ∧
      exec (.coreRestartDone core false) s = .next (loseCore core 0x0501 (setPart 1 (causePart 3 (partAt s 1)) s))) ∧
    (∀ t : Nat, 1 ≤ t → t ≤ 5 → (partAt s t).st = .trial →
      exec (.healthConfirmation t true) s = .next (setPart t { partAt s t with confirmedOk := true } s) ∧
      exec (.healthConfirmation t false) s = .next (fallBack t 2 s) ∧
      ((partAt s t).confirmedOk = true → (partAt s t).cause = 0 → exec (.lehrEnd t) s = .next (confirmPart t s)) ∧
      ((partAt s t).confirmedOk = false → exec (.lehrEnd t) s = .next (fallBack t 1 s))) ∧
    (s.upd.holder ≠ none → midUpdate s = false → s.upd.applyJ = none → exec .updateIdle s = .next (releaseLock 2 s)) ∧
    exec .debugNonceExpire s = .next { s with upd := { s.upd with nonce := none } } ∧
    (∀ r : Spdm, s.upd.spdmBusy = false →
      exec (.getVersion r) s = .next (spdmReply r (spdmMsg 0x10 0x04 0 0 [0, 2, 0, 0x12, 0, 0x13])
        { s with upd := { s.upd with spdmVer := 0, spdmCaps := false, spdmAlgo := false, chunk := [] } }) ∧
      (r.version = 0x12 ∨ r.version = 0x13 → ∃ t, exec (.getCapabilities r) s = .next t ∧ t.upd.spdmVer = r.version ∧ t.upd.spdmCaps = true ∧ t.dev = s.dev) ∧
      (s.upd.spdmVer ≠ 0 → s.upd.spdmCaps = true → bit r.hashes 5 = true → (3, 1) ∈ r.asym → ∃ t, exec (.negotiateAlgorithms r) s = .next t ∧ t.upd.spdmAlgo = true ∧ t.dev = s.dev) ∧
      (s.upd.spdmVer ≠ 0 → s.upd.spdmCaps = true → s.upd.spdmAlgo = true →
        exec (.getDigests r) s = .next (spdmReply r (spdmMsg s.upd.spdmVer 0x01 0 1 (sha3 Config.certChain)) s) ∧
        (r.slot = 0 → r.offset < Config.certChain.length → let part := (Config.certChain.drop r.offset).take (min r.length 65535)
          exec (.getCertificate r) s = .next (spdmReply r (spdmMsg s.upd.spdmVer 0x02 0 0
            (le 2 part.length ++ le 2 (Config.certChain.length - r.offset - part.length) ++ part)) s)) ∧
        (r.slot = 0 → ∃ body, exec (.challenge r) s = .next (spdmReply r (spdmMsg s.upd.spdmVer 0x03 0 1 (body ++ spdmSign (r.nonce ++ body))) { s with free := s.free + 1 }) ∧
          body = chainHash ++ le 32 (Config.freeBits 256 s.free).toNat ++ sha3 ((List.range 11).flatMap fun i => measureBlock s (i + 1)) ++ le 2 0) ∧
        (1 ≤ r.index → r.index ≤ 11 → r.signed = true → ∃ body, exec (.getMeasurements r) s =
            .next (spdmReply r (spdmMsg s.upd.spdmVer 0x60 0 0 (body ++ spdmSign (r.nonce ++ body))) { s with free := s.free + 1 }) ∧
          body = [1] ++ le 3 (measureBlock s r.index).length ++ measureBlock s r.index ++ le 32 (Config.freeBits 256 s.free).toNat ++ le 2 0)) ∧
      (∀ (c : Nat) (q : Spdm), s.upd.deferred = some (c, q) →
        exec (.respondIfReady r) s = .next (spdmRequest c { q with max := r.max } { s with upd := { s.upd with deferred := none } })) ∧
      (s.upd.deferred = none → exec (.respondIfReady r) s = .next (send (.spdm (spdmError s 0x04 0)) s)) ∧
      (s.upd.chunk ≠ [] → 0 < r.max → r.index * r.max < s.upd.chunk.length → s.upd.chunk.length ≤ (r.index + 1) * r.max → ∃ t m, exec (.chunkGet r) s = .next t ∧
        t.upd.chunk = [] ∧ t.host.out = .spdm (spdmMsg (spdmV s) 0x06 1 r.handle m) :: s.host.out ∧
        m = le 2 r.index ++ le 2 0 ++ le 4 (s.upd.chunk.length - r.index * r.max) ++ s.upd.chunk.drop (r.index * r.max))) ∧
    (∀ r : Spdm, s.upd.spdmBusy = true → ∀ i ∈ [(Instr.getVersion r, 0x84), (.getCapabilities r, 0xE1), (.negotiateAlgorithms r, 0xE3), (.getDigests r, 0x81),
        (.getCertificate r, 0x82), (.challenge r, 0x83), (.getMeasurements r, 0xE0)],
      exec i.1 s = .next (send (.spdm (spdmError s 0x42 0)) { s with upd := { s.upd with deferred := some (i.2, r) } })) ∧
    (∀ i : Jtag, (jtagOpen s i = false → exec (.jtagInstruction i) s = .next s) ∧
      (jtagOpen s i = true → (∀ k, i ≠ .halt k) → ∃ t, exec (.jtagInstruction i) s = .next t ∧ t.dev.jtag = jtagCode i ∧ t.hbm = s.hbm ∧
        (takesPins i = true → inRun s = true → t.dev.st = .safe ∧ t.dev.safeCause = 0x40) ∧ (takesPins i = false → t.dev = { s.dev with jtag := jtagCode i }))) ∧
    (∀ i : Jtag, jtagOpen s i = true ↔ (i = .scan → 1 ≤ s.upd.level) ∧ ∀ k, i = .halt k → 2 ≤ s.upd.level)
/-- Power, reset and start-up (R402, R492, R493, R497 to R501, R505 to R507, R511): what PWRFAIL_N, RESET_N and the rails start, where a save ends, how a
sample trips, caps and releases, and where start-up fails. -/
def Obligations.PowerRows : Prop :=
  ∀ s : State,
    (∃ t, exec .pwrfail s = .next t ∧ t.dev = { s.dev with pwrfailN := false } ∧ t.hbm = s.hbm ∧
      (s.dev.st ≠ .off → s.pwr.saving = none → s.pwr.saveOk = true → t.pwr.saving = some 0 ∧ t.pwr.saveTick = nowTick s + 1 ∧ t.pwr.save.cause = 0)) ∧
    (∃ t, exec .resetFall s = .next t ∧ t.dev = { s.dev with resetN := false } ∧ t.hbm = s.hbm ∧
      (s.dev.st ≠ .off → t.comb.trg = [] ∧ t.comb.busy = 0 ∧ t.time.ppsOut = false ∧
        (s.pwr.saving = none → s.pwr.saveOk = true → t.pwr.saving = some 3 ∧ t.pwr.saveTick = nowTick s + 1))) ∧
    (∀ c : Nat, s.pwr.saving = some c → ∃ t, exec .saveEnd s = .next t ∧ t.part = s.part ∧
      (∃ v, (t.pwr.slotA = some v ∨ t.pwr.slotB = some v) ∧ v.cause = s.pwr.save.cause ∧ v.detTick = s.pwr.save.detTick ∧ v.lastJ = s.ctl.jnext - 1 ∧
        v.sseq = match newestSave s with | some o => o.sseq + 1 | none => 1) ∧
      (c ≠ 4 ∨ s.dev.resetReq = true ∨ s.dev.resetN = false → t.dev.st = .off ∧ t.hbm = [] ∧ t.ctl.mirror = s.ctl.mirror ∧ t.regs = []) ∧
      (c = 4 → s.dev.resetReq = false → s.dev.resetN = true → t.dev = s.dev ∧ t.hbm = s.hbm ∧ t.pwr.saving = none)) ∧
    (∀ b : BootIn,
      (s.dev.st = .off → s.dev.resetN = true → ∃ t, exec (.powerRestart b) s = .next t ∧
        t = bootUp b { s with dev := { s.dev with pwrfailN := true } }) ∧
      (s.dev.resetN = false → ∃ t, exec (.resetRise b) s = .next t ∧
        (s.dev.st = .off → s.dev.pwrfailN = true → t = bootUp b { s with dev := { s.dev with resetN := true } }) ∧
        (s.dev.st ≠ .off ∨ s.dev.pwrfailN = false → t = { s with dev := { s.dev with resetN := true } })) ∧
      (s.dev.resetN = true → exec (.resetRise b) s = .next s) ∧
      (let t := bootUp b s
       (b.otpOk = false → t.dev.st = .safe ∧ t.dev.safeCause = 0x12) ∧
       (b.otpOk = true → b.loaderOk = false → t.dev.st = .safe ∧ t.dev.safeCause = 0x10) ∧
       (b.otpOk = true → b.loaderOk = true → (∃ t ∈ [1, 2, 3, 4, 5], choose b (persist s) t = .none_) → t.dev.st = .safe ∧ t.dev.safeCause = 0x11))) ∧
    (awake s = true →
      (∀ m : Sample, let m' := corrected' s m
        let d := thermLevels 95 100 110 (dieSensors s m') s.pwr.dieT
        let h := thermLevels 85 90 100 m'.hbm s.pwr.hbmT
        ∃ t, exec (.powerSample m) s = .next t ∧ t.pwr.temps = m' ∧ t.pwr.dieT = d ∧ t.pwr.hbmT = h ∧ t.hbm = s.hbm ∧
          (m.clockBad = false → d.trip = true → s.pwr.dieT.trip = false → s.dev.st ≠ .safe → t.dev.st = .safe ∧ t.dev.safeCause = 0x20) ∧
          (m.clockBad = false → d.trip = false → h.trip = false → t.dev = s.dev) ∧
          (m.clockBad = true → s.flt.errq = [] → s.dev.st ≠ .safe → t.dev.st = .safe ∧ t.dev.safeCause = 0x30) ∧
          (c1Mode s = false → d.cap = true → t.pwr.cap = true) ∧
          (9 ≤ s.pwr.sum.length → t.pwr.sum = [] ∧ t.pwr.avg = sumL (s.pwr.sum ++ [m'.power]) / (s.pwr.sum.length + 1))) ∧
      (c1Mode s = false → s.pwr.cap = true → capLow s = false → ∃ t, exec .capStep s = .next t ∧ t.pwr.step = min capLast (s.pwr.step + 1) ∧
        t.t2.passGap = capGap (min capLast (s.pwr.step + 1)) ∧ t.t2.ringRate = capRate (min capLast (s.pwr.step + 1)) ∧ t.pwr.lowMs = 0) ∧
      (c1Mode s = false → s.pwr.cap = true → capLow s = true → 9 ≤ s.pwr.lowMs → ∃ t, exec .capStep s = .next t ∧ t.pwr.step = s.pwr.step - 1 ∧
        t.t2.passGap = capGap (s.pwr.step - 1) ∧ (t.pwr.cap = decide (s.pwr.step - 1 ≠ 0))) ∧
      (∀ rail mv : Nat, rail < 4 → 600 ≤ mv → mv ≤ 800 → mv % 5 = 0 →
        (∃ t, exec (.avsTransaction rail mv true) s = .next t ∧ t.pwr.avsMv = s.pwr.avsMv.set rail mv ∧ t.pwr.avsFail = s.pwr.avsFail.set rail 0 ∧ t.host.out = .avs rail mv :: s.host.out) ∧
        (∃ u, exec (.avsTransaction rail mv false) s = .next (if s.pwr.avsFail.getD rail 0 = 2 then loseRail rail u else u) ∧
          u.pwr.avsFail = s.pwr.avsFail.set rail (s.pwr.avsFail.getD rail 0 + 1) ∧ u.pwr.avsMv = s.pwr.avsMv)) ∧
      (∀ rail : Nat, rail < 15 →
        (rail < 4 → exec (.railFault rail) s = .next (startSave 2 (loseRail rail s))) ∧
        (rail = 14 → exec (.railFault rail) s = .next (startSave 1 s)) ∧
        (4 ≤ rail → rail ≠ 14 → s.dev.st ≠ .safe → ∃ t, exec (.railFault rail) s = .next t ∧ t.dev.st = .safe ∧ t.dev.safeCause = 0x21 ∧
          (rail = 4 → s.pwr.saving = none → s.pwr.saveOk = true → t.pwr.saving = some 2))))

/-- Rows without an operand complete, under conditions on the state alone: each answers the next state of its own effect. A datagram of
another peer counts CMD_DENIED (R381); the oldest forward without a reply ends with ST_UNREACHABLE after 100 ms (R381); changes tied to a tick whose edge has come
take effect and become final in journal order, or fail where the device state no longer allows one (R15), not while the device is PAUSED nor while their
role waits for a core (R383, R421). Leases (R385), events (R394), host losses (R465, R467), the ladder (R285, R286), pause, drain and swap (R186, R264),
releases and recordings (R279, R310). -/
def Obligations.ServiceRowsComplete : Prop :=
  ∀ s : State,
    exec Instr.cmdDenied s = .next { s with ctl := { s.ctl with denied := satAdd 32 s.ctl.denied 1 } } ∧
    (∀ (w : Waiting) (l : List Waiting), s.ctl.forwards = w :: l →
      (w.jseq = 0 → exec Instr.fabricForwardTimeout s =
        .next (sendReply (mkReply w.opcode w.h none 11 0 []) { s with ctl := { s.ctl with forwards := l } })) ∧
      (w.jseq ≠ 0 → exec Instr.fabricForwardTimeout s =
        .next (finish w.opcode w.h w.jseq 11 0 [] [] { s with ctl := { s.ctl with forwards := l } }))) ∧
    (s.dev.st = .paused ∨ 5 ∈ s.flt.roleWait → exec Instr.namedTickApply s = .next s) ∧
    (s.dev.st ≠ .paused → 5 ∉ s.flt.roleWait →
      (∀ w ∈ s.ctl.waiting, w.eff ≠ .none → ∀ t, w.tick = some t → nowTick s < t) → exec Instr.namedTickApply s = .next s) ∧
    (∀ (w : Waiting) (t : Nat), s.dev.st ≠ .paused → 5 ∉ s.flt.roleWait → s.ctl.waiting = [w] → w.eff ≠ .none → w.tick = some t → t ≤ nowTick s →
      (stateFail s w = none →
        exec Instr.namedTickApply s = .next (finishWait { w with tick := some (nowTick s) } 0 (applyEff (nowTick s) w.eff s))) ∧
      (∀ st k : Nat, stateFail s w = some (st, k) → exec Instr.namedTickApply s =
        .next (finishEff w.eff w.opcode w.h w.jseq st k (waitResult w st) (waitResult w st) (waitOver w.jseq s)))) ∧
    (s.dev.st ≠ .off → s.ctl.leaseMs ≠ 0 → s.ctl.holder ≠ none →
      ∃ t, exec Instr.leaseExpired s = .next t ∧ t.ctl.holder = none ∧ t.ctl.epoch = (s.ctl.epoch + 1) % 2 ^ 32) ∧
    (s.dev.st ≠ .off → s.host.raised ≠ [] → ∃ t, exec Instr.eventWrite s = .next t ∧ t.host.raised = s.host.raised.tail) ∧
    (s.dev.st ≠ .off →
      (∃ t, exec Instr.hotReset s = .next t ∧ t.host.msix = [] ∧ evqEn t = false ∧ t.dev.st = s.dev.st ∧ t.hbm = s.hbm) ∧
      (∃ t, exec Instr.flr s = .next t ∧ t.host.msix = [] ∧ evqEn t = false ∧ t.dev.st = s.dev.st ∧ t.hbm = s.hbm) ∧
      (∃ t, exec Instr.pcieLinkDown s = .next t ∧ t.host.linkUp = false ∧ t.host.linkDowns = satAdd 32 s.host.linkDowns 1 ∧ t.hbm = s.hbm) ∧
      (∃ t, exec Instr.d3hotEntry s = .next t ∧ t.host.msix = s.host.msix ∧ evqEn t = false ∧ t.dev.st = s.dev.st ∧ t.hbm = s.hbm)) ∧
    (counted s (nowTick s) = true → saving s = false → recordedFeedback s = false → ladHi s ≤ s.acq.shownPressure → s.acq.level < ladMax s →
      riseFree (nowTick s) s = true → ∃ t, exec Instr.ladderChange s = .next t ∧ t.acq.level = s.acq.level + 1 ∧ devCnt t 21 = satAdd 64 (devCnt s 21) 1) ∧
    (s.dev.pauseReq = true → s.dev.st = .running → s.dev.pauseAt = none → noPass s = true → nextDecided s < nowTick s →
      exec Instr.pauseEffect s = .next { s with dev := { s.dev with tP := nowTick s, pauseAt := some (nowTick s) } }) ∧
    (s.dev.st = .paused → s.dev.draining = true → ctxInUse s = 0 → devCnt s 19 = devCnt s 20 →
      ∃ t, exec Instr.drainDone s = .next t ∧ t.dev.st = (if (residents s).isEmpty then .ready else .loaded) ∧ t.dev.draining = false) ∧
    (∀ w : Swap, s.grid.swap = some w → w.outs ≠ [] ∨ w.ins ≠ [] → w.endTick ≤ nowTick s →
      exec Instr.swapEnd s = .next (swapSettle { w with outs := [], ins := [] } (exchangeFixed w.outs w.ins s))) ∧
    (∀ t : Nat, nextRelease s = some t → elasticOff s = false → isDecided s t = true → lastBeforePause s t = false →
      exec Instr.streamRelease s = .next (releaseTick t s) ∧ (releaseTick t s).acq.released = some t) ∧
    (∀ c d : Nat, stopCause s = some c → s.comb.decided = some d → ∃ t, exec Instr.replayLogStop s = .next t ∧ t.acq.recg.running = false ∧
      t.acq.recg.done = true ∧ t.hbm = s.hbm ∧ t.dev = s.dev)

/-- The same of the fabric (R339, R346, R349), time (R359, R364, R371), repairs (R404, R411, R419, R421), updates (R446, R460), power (R501, R506, R511), and of
SAFE_STOP (R392, R492) and the commands of recording and replay (R309, R311, R314): each completes with its own effect. -/
def Obligations.UnitRowsComplete : Prop :=
  ∀ s : State,
    (∀ prio hops : Nat, s.dev.st ≠ .off → s.fab.discovering = true → s.fab.best = some (s.part.uid, prio, hops) → prio ≠ 0 → s.fab.isMaster = false →
      exec Instr.discQuiet s =
        .next (tryAssign { s with fab := { s.fab with isMaster := true, masterUid := s.part.uid, id := 0, topo := [(s.part.uid, ownTopo s)] } })) ∧
    (∀ p : Plan, s.dev.st ≠ .off → s.fab.plan = some p → s.fab.member = true → s.fab.isMaster = false → p.deputy = s.fab.id →
      ∃ t, exec Instr.masterLoss s = .next t ∧ t.fab.isMaster = true ∧ p.master ∈ t.fab.lost) ∧
    (s.dev.st ≠ .off → s.fab.member = true →
      ∃ t, exec Instr.heartbeatSend s = .next t ∧ t.fab.hbCount = (s.fab.hbCount + 1) % 2 ^ 32 ∧ t.dev = s.dev ∧ t.hbm = s.hbm) ∧
    (s.dev.st ≠ .off → timeSrc s = 3 → ∃ t, exec Instr.fabricTimeLoss s = .next t ∧ t.time.holdover = true ∧ t.hbm = s.hbm) ∧
    (s.dev.st ≠ .off → 1 ≤ timeSrc s → timeSrc s ≤ 3 → s.time.holdover = false →
      ∃ t, exec Instr.timeHoldover s = .next t ∧ t.time.holdover = true ∧ t.time.locked = false ∧ t.time.rate = s.time.rate ∧ t.hbm = s.hbm) ∧
    (s.dev.st ≠ .off → exec Instr.ppsOutPulseEnd s = .next { s with time := { s.time with ppsOut := false } }) ∧
    exec Instr.ceWindowEnd s = .next { s with flt := { s.flt with ce := [] } } ∧
    (∀ (m : Remap) (e : Nat), s.flt.remaps = [m] → m.switch_ = some e → e ≤ nowTick s →
      exec Instr.remapSwitch s = .next (resourcesFree (switchRemap m s))) ∧
    (∀ (q sb : Nat) (a : Activity), s.flt.takeover = some q → s.dev.standby = some sb → actOf s 0x82 q = some a →
      exec Instr.quadTakeover s = .next (resourcesFree (fault { code := 0x0702, sev := 2, quad := sb, unit := q } (endAct a.h false (takeQuad q sb s))))) ∧
    (s.dev.st ≠ .off → s.flt.roleWait ≠ [] → ∃ t, exec Instr.coreTakeover s = .next t ∧ t.flt.roleWait = [] ∧ t.hbm = s.hbm) ∧
    (s.dev.st ≠ .off → s.dev.st ≠ .boot → s.upd.holder ≠ none → midUpdate s = false → s.upd.applyJ = none →
      exec Instr.updateIdle s = .next (releaseLock 2 s)) ∧
    exec Instr.debugNonceExpire s = .next { s with upd := { s.upd with nonce := none } } ∧
    (awake s = true → c1Mode s = false → s.pwr.cap = true → capLow s = false →
      ∃ t, exec Instr.capStep s = .next t ∧ t.pwr.step = min capLast (s.pwr.step + 1) ∧ t.pwr.lowMs = 0) ∧
    (∃ t, exec Instr.pwrfail s = .next t ∧ t.dev = { s.dev with pwrfailN := false } ∧ t.hbm = s.hbm) ∧
    (∃ t, exec Instr.resetFall s = .next t ∧ t.dev = { s.dev with resetN := false } ∧ t.hbm = s.hbm) ∧
    (s.pwr.saving ≠ none → ∃ t v, exec Instr.saveEnd s = .next t ∧ t.part = s.part ∧ (t.pwr.slotA = some v ∨ t.pwr.slotB = some v) ∧
      v.cause = s.pwr.save.cause ∧ v.lastJ = s.ctl.jnext - 1) ∧
    (∀ h : Hdr, Carried false h →
      (∀ cause : Nat, Carried true h → Accepted 0x10C stRLAUP false false h s → 0x8000 ≤ cause → cause ≤ 0xFFFF →
        ∃ t, exec (Instr.safeStop h cause) s = .next t ∧ t.dev.st = .safe ∧ t.dev.safeCause = cause ∧ t.comb = { s.comb with busy := 15 } ∧
          (∀ w ∈ t.ctl.waiting, w.tick = none) ∧ t.hbm = s.hbm ∧ t.regs = s.regs) ∧
      (∀ (area size endTick : Nat) (freeze : Bool), Accepted 0x406 [.loaded, .paused] false false h s →
        let r : Rec := { area := area, size := size, endTick := endTick, freeze := freeze, wide := false, armed := true }
        let v := { begun 0x406 h s with acq := { (begun 0x406 h s).acq with recg := r } }
        s.acq.replay.running = false → 2 ^ 26 ≤ size → size ≤ 2 ^ 32 → areasOk v = true → ringOn s = true → usesFabRx s = false →
        (∀ l, l < 96 → (laneCfg (regAt s) l).en = true → (laneCfg (regAt s) l).ringEn = true) →
        ∃ t, exec (Instr.recordInputsSet h area size endTick freeze false) s = .next t ∧ Traces v t ∧ Journaled 0x406 h true s t) ∧
      (∀ (area : Nat) (recorded quiet : Bool) (imgs : List (BitVec 512)) (r : Rec), Accepted 0x407 [.loaded] false true h s →
        s.acq.recorded.find? (fun r => r.area == area) = some r → replayOk (begun 0x407 h s) r imgs = true → r.wide = false →
        let v := { begun 0x407 h s with acq := { (begun 0x407 h s).acq with
          replay := { set := true, recorded := recorded, quiet := quiet, wide := false, log := r.log } } }
        ∃ t, exec (Instr.replaySet h area recorded quiet imgs) s = .next t ∧ Traces v t ∧ Journaled 0x407 h true s t) ∧
      (∀ (e area addr : Nat) (r : Rec), Accepted 0x408 [.ready, .loaded, .paused] false false h s →
        s.acq.recorded.find? (fun r => r.area == area) = some r → e < 32 → engSrc s e = 2 → (engAt s e).cur = none → (engAt s e).park = none →
        s.pwr.saving = none →
        let bs := (recSpan r).flatMap (fun t => hbmRead s (slotAddr s t) (slotBytes s)) ++ r.log.flatMap logEntryBytes
        ∃ t, exec (Instr.replayExport h e area addr) s = .next t ∧ Traces (send (.mem addr bs) (begun 0x408 h s)) t ∧ Journaled 0x408 h true s t) ∧
      (∀ (e size : Nat) (r : Recording), Accepted 0x409 stRL false true h s → 32 ≤ e → e < 40 → ringOn s = true →
        let rc : Rec := { area := r.area, size := size, wide := r.wide, done := true, log := r.log }
        areasOk { begun 0x409 h s with acq := { (begun 0x409 h s).acq with recg := rc } } = true → (∀ x ∈ r.slots, x.2.length = slotBytes s) →
        r.slots.length ≤ ringDepth s → (engAt s e).cur = none → (engAt s e).park = none → s.pwr.saving = none →
        ∃ t, exec (Instr.replayImport h e r size) s = .next t ∧ t.acq.recorded = rc :: s.acq.recorded.filter (fun x => x.area != r.area) ∧
          t.hbm = r.slots.foldl (fun m x => tsetAll (fun _ => 0#8) m (slotAddr s x.1) x.2) s.hbm))
/-- The block takes commands first in, first out: a step runs the command at the front of the queue on the state with the queue's rest, and idles on an
empty queue (DESIGN CHOICE, log 7). -/
def Obligations.StepRunsFront : Prop :=
  ∀ (c : Instr) (s : State) (rest : List Instr),
    (s.pending = c :: rest → step s = exec c { s with pending := rest }) ∧ (s.pending = [] → step s = .next s)

/-- What reset leaves (R194, R252, R253, R284, R353, R355, R365, R392, R408, R420, R431, R471, R493): in reset the device is OFF with no output driven and
HBM zeroed in its canonical form, and the registers hold the values their tables give. That reset is RESET_N low is the model's choice (DEDUCED, log 2). -/
def Obligations.ResetState : Prop :=
  let s := State.reset
  s.dev.st = .off ∧ s.dev.resetN = false ∧ s.pending = [] ∧ s.hbm = [] ∧ Memory.wf s.hbm ∧ s.comb.trg = [] ∧ s.comb.busy = 0 ∧ s.time.ppsOut = false ∧
  (∀ q k, skipAt s q k = 8) ∧ (∀ k < 7, ((s.flt.cores.getD k {}).roles = [k])) ∧ (s.flt.cores.getD 7 {}).roles = [] ∧
  s.ctl.jnext = 1 ∧ s.ctl.journal = [] ∧ (∀ h, (secAt s h).resident = false) ∧
  (∀ e ∈ [(0x40, 256), (0x48, 256 * 2 ^ 32), (0x1018, 507 * 2 ^ 30), (0x1020, 2 ^ 30), (0x50000, 20 * 2 ^ 24 + 16 * 2 ^ 16), (0x60000, 100 * 2 ^ 16),
    (0x60010, 2 ^ 48 + 2 ^ 32), (0x70000, 2 ^ 63 + 8 * 2 ^ 59 + 192 * 2 ^ 48 + 64 * 2 ^ 40 + 16 * 2 ^ 20 + 65536)], regAt s e.1 = e.2)

/-- Local memory keeps its canonical form: addresses rise and no entry is zero, so that equal memories are equal data. -/
def Obligations.HbmCanonicalKept : Prop :=
  ∀ s t : State, Memory.wf s.hbm → step s = .next t → Memory.wf t.hbm

/-- No command stops the block, and none touches the queue: each of the 276 rows answers a next state in every state, whose queue is the one it was
given; so a step takes exactly the front command away. -/
def Obligations.QueueUntouched : Prop :=
  (∀ (i : Instr) (s : State), ∃ t, exec i s = .next t ∧ t.pending = s.pending) ∧
  ∀ (c : Instr) (rest : List Instr) (s : State), s.pending = c :: rest → ∃ t, step s = .next t ∧ t.pending = rest
end

