-- ==== Sys2Proof/Laws/Exec.lean ====
section
/-!
SUPPORT. What exec runs for each command.
-/

namespace Sys2Proof.Machine

theorem exec_deviceId (h : Hdr) (s : State) : exec (.deviceId h) s = execDeviceId h s := rfl
theorem exec_deviceState (h : Hdr) (s : State) : exec (.deviceState h) s = execDeviceState h s := rfl
theorem exec_controlClaim (h : Hdr) (leaseMs : Nat) (force : Bool) (s : State) : exec (.controlClaim h leaseMs force) s = execControlClaim h leaseMs force s := rfl
theorem exec_controlRelease (h : Hdr) (s : State) : exec (.controlRelease h) s = execControlRelease h s := rfl
theorem exec_cfgWrite (h : Hdr) (es : List CfgEntry) (s : State) : exec (.cfgWrite h es) s = execCfgWrite h es s := rfl
theorem exec_cfgRead (h : Hdr) (offs : List Nat) (s : State) : exec (.cfgRead h offs) s = execCfgRead h offs s := rfl
theorem exec_arm (h : Hdr) (ta : Nat) (allowDefault : Bool) (s : State) : exec (.arm h ta allowDefault) s = execArm h ta allowDefault s := rfl
theorem exec_pause (h : Hdr) (s : State) : exec (.pause h) s = execPause h s := rfl
theorem exec_resume (h : Hdr) (tr : Nat) (s : State) : exec (.resume h tr) s = execResume h tr s := rfl
theorem exec_stop (h : Hdr) (s : State) : exec (.stop h) s = execStop h s := rfl
theorem exec_deviceReset (h : Hdr) (s : State) : exec (.deviceReset h) s = execDeviceReset h s := rfl
theorem exec_safeStop (h : Hdr) (cause : Nat) (s : State) : exec (.safeStop h cause) s = execSafeStop h cause s := rfl
theorem exec_telemetryRead (h : Hdr) (s : State) : exec (.telemetryRead h) s = execTelemetryRead h s := rfl
theorem exec_memWrite (h : Hdr) (addr : Nat) (data : List Byte) (s : State) : exec (.memWrite h addr data) s = execMemWrite h addr data s := rfl
theorem exec_memRead (h : Hdr) (addr : Nat) (len : Nat) (found : List Byte) (s : State) : exec (.memRead h addr len found) s = execMemRead h addr len found s := rfl
theorem exec_sectionLoad (h : Hdr) (r : LoadReq) (s : State) : exec (.sectionLoad h r) s = execSectionLoad h r s := rfl
theorem exec_sectionUnload (h : Hdr) (hd : Nat) (s : State) : exec (.sectionUnload h hd) s = execSectionUnload h hd s := rfl
theorem exec_sectionSwap (h : Hdr) (outs : List Nat) (ins : List Nat) (s : State) : exec (.sectionSwap h outs ins) s = execSectionSwap h outs ins s := rfl
theorem exec_sectionInfo (h : Hdr) (hd : Nat) (s : State) : exec (.sectionInfo h hd) s = execSectionInfo h hd s := rfl
theorem exec_stateSave (h : Hdr) (addr : Nat) (len : Nat) (s : State) : exec (.stateSave h addr len) s = execStateSave h addr len s := rfl
theorem exec_stateRestore (h : Hdr) (img : StateImage) (noHist : Bool) (s : State) : exec (.stateRestore h img noHist) s = execStateRestore h img noHist s := rfl
theorem exec_tableSwitch (h : Hdr) (es : List TabSel) (s : State) : exec (.tableSwitch h es) s = execTableSwitch h es s := rfl
theorem exec_tileWrite (h : Hdr) (hd : Nat) (vq : Nat) (col : Nat) (row : Nat) (line : Nat) (data : List Byte) (ecc : Ecc) (s : State) : exec (.tileWrite h hd vq col row line data ecc) s = execTileWrite h hd vq col row line data ecc s := rfl
theorem exec_tileRead (h : Hdr) (hd : Nat) (vq : Nat) (col : Nat) (row : Nat) (line : Nat) (ecc : Ecc) (s : State) : exec (.tileRead h hd vq col row line ecc) s = execTileRead h hd vq col row line ecc s := rfl
theorem exec_probeSet (h : Hdr) (n : Nat) (p : Probe) (s : State) : exec (.probeSet h n p) s = execProbeSet h n p s := rfl
theorem exec_probeRead (h : Hdr) (n : Nat) (s : State) : exec (.probeRead h n) s = execProbeRead h n s := rfl
theorem exec_digestRead (h : Hdr) (hd : Nat) (first : Nat) (count : Nat) (s : State) : exec (.digestRead h hd first count) s = execDigestRead h hd first count s := rfl
theorem exec_digestVerify (h : Hdr) (hd : Nat) (s : State) : exec (.digestVerify h hd) s = execDigestVerify h hd s := rfl
theorem exec_chanSet (h : Hdr) (first : Nat) (vals : List Nat) (s : State) : exec (.chanSet h first vals) s = execChanSet h first vals s := rfl
theorem exec_groupSet (h : Hdr) (g : Nat) (d : GroupDesc) (s : State) : exec (.groupSet h g d) s = execGroupSet h g d s := rfl
theorem exec_primSet (h : Hdr) (first : Nat) (ds : List PrimDesc) (s : State) : exec (.primSet h first ds) s = execPrimSet h first ds s := rfl
theorem exec_measSet (h : Hdr) (e : Nat) (d : MeasDesc) (s : State) : exec (.measSet h e d) s = execMeasSet h e d s := rfl
theorem exec_calWrite (h : Hdr) (es : List CalEntry) (s : State) : exec (.calWrite h es) s = execCalWrite h es s := rfl
theorem exec_calCommit (h : Hdr) (version : Nat) (s : State) : exec (.calCommit h version) s = execCalCommit h version s := rfl
theorem exec_calRead (h : Hdr) (item : Nat) (first : Nat) (count : Nat) (s : State) : exec (.calRead h item first count) s = execCalRead h item first count s := rfl
theorem exec_combLineSet (h : Hdr) (n : Nat) (d : LineDesc) (s : State) : exec (.combLineSet h n d) s = execCombLineSet h n d s := rfl
theorem exec_templateSet (h : Hdr) (k : Nat) (d : TemplateDesc) (s : State) : exec (.templateSet h k d) s = execTemplateSet h k d s := rfl
theorem exec_windowSet (h : Hdr) (n : Nat) (w : Window) (s : State) : exec (.windowSet h n w) s = execWindowSet h n w s := rfl
theorem exec_ringExtract (h : Hdr) (t : Nat) (k : Nat) (s : State) : exec (.ringExtract h t k) s = execRingExtract h t k s := rfl
theorem exec_dmaResume (h : Hdr) (e : Nat) (mode : Nat) (s : State) : exec (.dmaResume h e mode) s = execDmaResume h e mode s := rfl
theorem exec_culletRead (h : Hdr) (part : Nat) (s : State) : exec (.culletRead h part) s = execCulletRead h part s := rfl
theorem exec_recordInputsSet (h : Hdr) (area : Nat) (size : Nat) (endTick : Nat) (freeze : Bool) (wide : Bool) (s : State) : exec (.recordInputsSet h area size endTick freeze wide) s = execRecordInputsSet h area size endTick freeze wide s := rfl
theorem exec_replaySet (h : Hdr) (area : Nat) (recorded : Bool) (quiet : Bool) (imgs : List (BitVec 512)) (s : State) : exec (.replaySet h area recorded quiet imgs) s = execReplaySet h area recorded quiet imgs s := rfl
theorem exec_replayExport (h : Hdr) (e : Nat) (area : Nat) (addr : Nat) (s : State) : exec (.replayExport h e area addr) s = execReplayExport h e area addr s := rfl
theorem exec_replayImport (h : Hdr) (e : Nat) (r : Recording) (size : Nat) (s : State) : exec (.replayImport h e r size) s = execReplayImport h e r size s := rfl
theorem exec_timeSet (h : Hdr) (t : Tod) (s : State) : exec (.timeSet h t) s = execTimeSet h t s := rfl
theorem exec_timeRate (h : Hdr) (rate : Int) (s : State) : exec (.timeRate h rate) s = execTimeRate h rate s := rfl
theorem exec_timeAdj (h : Hdr) (d : Int) (s : State) : exec (.timeAdj h d) s = execTimeAdj h d s := rfl
theorem exec_timeGet (h : Hdr) (s : State) : exec (.timeGet h) s = execTimeGet h s := rfl
theorem exec_timedSet (h : Hdr) (e : Nat) (d : TimedDesc) (s : State) : exec (.timedSet h e d) s = execTimedSet h e d s := rfl
theorem exec_tickAlign (h : Hdr) (tick : Nat) (t : Tod) (s : State) : exec (.tickAlign h tick t) s = execTickAlign h tick t s := rfl
theorem exec_ptpConfig (h : Hdr) (cfg : PtpCfg) (s : State) : exec (.ptpConfig h cfg) s = execPtpConfig h cfg s := rfl
theorem exec_mgmtTx (h : Hdr) (tsReq : Bool) (tsId : Nat) (bytes : List Byte) (s : State) : exec (.mgmtTx h tsReq tsId bytes) s = execMgmtTx h tsReq tsId bytes s := rfl
theorem exec_fabricDiscover (h : Hdr) (s : State) : exec (.fabricDiscover h) s = execFabricDiscover h s := rfl
theorem exec_fabricIdmap (h : Hdr) (ids : List (Nat × Nat)) (s : State) : exec (.fabricIdmap h ids) s = execFabricIdmap h ids s := rfl
theorem exec_fabricPlan (h : Hdr) (p : Plan) (s : State) : exec (.fabricPlan h p) s = execFabricPlan h p s := rfl
theorem exec_fabricBarrierStart (h : Hdr) (tb : Nat) (s : State) : exec (.fabricBarrierStart h tb) s = execFabricBarrierStart h tb s := rfl
theorem exec_fabricState (h : Hdr) (s : State) : exec (.fabricState h) s = execFabricState h s := rfl
theorem exec_fabricTimeRoot (h : Hdr) (dev : Nat) (s : State) : exec (.fabricTimeRoot h dev) s = execFabricTimeRoot h dev s := rfl
theorem exec_collectCfg (h : Hdr) (e : Nat) (s : State) : exec (.collectCfg h e) s = execCollectCfg h e s := rfl
theorem exec_fabricForward (h : Hdr) (dest : Nat) (bytes : List Byte) (s : State) : exec (.fabricForward h dest bytes) s = execFabricForward h dest bytes s := rfl
theorem exec_maintStart (h : Hdr) (r : MaintReq) (s : State) : exec (.maintStart h r) s = execMaintStart h r s := rfl
theorem exec_maintStop (h : Hdr) (act : Nat) (s : State) : exec (.maintStop h act) s = execMaintStop h act s := rfl
theorem exec_maintStatus (h : Hdr) (s : State) : exec (.maintStatus h) s = execMaintStatus h s := rfl
theorem exec_quadPower (h : Hdr) (q : Nat) (req : Nat) (s : State) : exec (.quadPower h q req) s = execQuadPower h q req s := rfl
theorem exec_standbySet (h : Hdr) (q : Option Nat) (s : State) : exec (.standbySet h q) s = execStandbySet h q s := rfl
theorem exec_healthRead (h : Hdr) (s : State) : exec (.healthRead h) s = execHealthRead h s := rfl
theorem exec_updateBegin (h : Hdr) (addr : Nat) (len : Nat) (whole : Bool) (man : List Byte) (rest : List Byte) (s : State) : exec (.updateBegin h addr len whole man rest) s = execUpdateBegin h addr len whole man rest s := rfl
theorem exec_updateData (h : Hdr) (off : Nat) (bytes : List Byte) (s : State) : exec (.updateData h off bytes) s = execUpdateData h off bytes s := rfl
theorem exec_updateApply (h : Hdr) (mask : Nat) (peers : List Nat) (s : State) : exec (.updateApply h mask peers) s = execUpdateApply h mask peers s := rfl
theorem exec_updateStatus (h : Hdr) (s : State) : exec (.updateStatus h) s = execUpdateStatus h s := rfl
theorem exec_updateAbort (h : Hdr) (s : State) : exec (.updateAbort h) s = execUpdateAbort h s := rfl
theorem exec_debugChallenge (h : Hdr) (s : State) : exec (.debugChallenge h) s = execDebugChallenge h s := rfl
theorem exec_debugUnlock (h : Hdr) (addr : Nat) (len : Nat) (magic : Nat) (level : Nat) (slot : Nat) (uid : Nat) (nonce : BitVec 256) (rest : List Byte) (s : State) : exec (.debugUnlock h addr len magic level slot uid nonce rest) s = execDebugUnlock h addr len magic level slot uid nonce rest s := rfl
theorem exec_journalRead (h : Hdr) (from_ : Nat) (max : Nat) (s : State) : exec (.journalRead h from_ max) s = execJournalRead h from_ max s := rfl
theorem exec_journalNote (h : Hdr) (s : State) : exec (.journalNote h) s = execJournalNote h s := rfl
theorem exec_errqRead (h : Hdr) (s : State) : exec (.errqRead h) s = execErrqRead h s := rfl
theorem exec_badPacket (h : Hdr) (opcode : Nat) (s : State) : exec (.badPacket h opcode) s = execBadPacket h opcode s := rfl
theorem exec_registerWrite (via : Option Hdr) (e : CfgEntry) (s : State) : exec (.registerWrite via e) s = execRegisterWrite via e s := rfl
theorem exec_mmioDenied (off : Nat) (size : Nat) (s : State) : exec (.mmioDenied off size) s = execMmioDenied off size s := rfl
theorem exec_rcRead (off : Nat) (size : Nat) (s : State) : exec (.rcRead off size) s = execRcRead off size s := rfl
theorem exec_txtsHeadRead (off : Nat) (size : Nat) (s : State) : exec (.txtsHeadRead off size) s = execTxtsHeadRead off size s := rfl
theorem exec_errqOvfClear (h : Hdr) (s : State) : exec (.errqOvfClear h) s = execErrqOvfClear h s := rfl
theorem exec_txtsOvfClear (h : Hdr) (s : State) : exec (.txtsOvfClear h) s = execTxtsOvfClear h s := rfl
theorem exec_queueEnable (q : Nat) (size : Nat) (vector : Nat) (s : State) : exec (.queueEnable q size vector) s = execQueueEnable q size vector s := rfl
theorem exec_queueDisable (q : Nat) (s : State) : exec (.queueDisable q) s = execQueueDisable q s := rfl
theorem exec_eventRingEnable (h : Hdr) (en : Bool) (size : Nat) (minSev : Nat) (vector : Nat) (s : State) : exec (.eventRingEnable h en size minSev vector) s = execEventRingEnable h en size minSev vector s := rfl
theorem exec_dmaEngineEnable (h : Hdr) (e : Nat) (src : Nat) (stream : Nat) (rsize : Nat) (s : State) : exec (.dmaEngineEnable h e src stream rsize) s = execDmaEngineEnable h e src stream rsize s := rfl
theorem exec_dmaEngineDisable (h : Hdr) (e : Nat) (s : State) : exec (.dmaEngineDisable h e) s = execDmaEngineDisable h e s := rfl
theorem exec_dmaEngineStopped (e : Nat) (s : State) : exec (.dmaEngineStopped e) s = execDmaEngineStopped e s := rfl
theorem exec_dmaRingBaseWrite (h : Hdr) (e : Nat) (cq : Bool) (addr : Nat) (s : State) : exec (.dmaRingBaseWrite h e cq addr) s = execDmaRingBaseWrite h e cq addr s := rfl
theorem exec_linkEnable (h : Hdr) (l : Nat) (s : State) : exec (.linkEnable h l) s = execLinkEnable h l s := rfl
theorem exec_ladderDisable (h : Hdr) (s : State) : exec (.ladderDisable h) s = execLadderDisable h s := rfl
theorem exec_ladderMaxLower (h : Hdr) (max : Nat) (s : State) : exec (.ladderMaxLower h max) s = execLadderMaxLower h max s := rfl
theorem exec_tickSourceWrite (h : Hdr) (es : List CfgEntry) (s : State) : exec (.tickSourceWrite h es) s = execTickSourceWrite h es s := rfl
theorem exec_timingModeWrite (h : Hdr) (c1 : Bool) (s : State) : exec (.timingModeWrite h c1) s = execTimingModeWrite h c1 s := rfl
theorem exec_alignDepthWrite (h : Hdr) (depth : Nat) (s : State) : exec (.alignDepthWrite h depth) s = execAlignDepthWrite h depth s := rfl
theorem exec_bar2CfgWrite (h : Hdr) (wrEn : Bool) (ofs : Nat) (s : State) : exec (.bar2CfgWrite h wrEn ofs) s = execBar2CfgWrite h wrEn ofs s := rfl
theorem exec_bar2Resize (size : Nat) (s : State) : exec (.bar2Resize size) s = execBar2Resize size s := rfl
theorem exec_msixTableWrite (vec : Nat) (addr : Nat) (data : Nat) (masked : Bool) (s : State) : exec (.msixTableWrite vec addr data masked) s = execMsixTableWrite vec addr data masked s := rfl
theorem exec_sqDoorbell (q : Nat) (v : Nat) (size : Nat) (s : State) : exec (.sqDoorbell q v size) s = execSqDoorbell q v size s := rfl
theorem exec_cqDoorbell (q : Nat) (v : Nat) (size : Nat) (s : State) : exec (.cqDoorbell q v size) s = execCqDoorbell q v size s := rfl
theorem exec_dmaDoorbell (e : Nat) (v : Nat) (size : Nat) (s : State) : exec (.dmaDoorbell e v size) s = execDmaDoorbell e v size s := rfl
theorem exec_evqDoorbell (v : Nat) (size : Nat) (s : State) : exec (.evqDoorbell v size) s = execEvqDoorbell v size s := rfl
theorem exec_submissionTake (q : Nat) (bytes : List Byte) (s : State) : exec (.submissionTake q bytes) s = execSubmissionTake q bytes s := rfl
theorem exec_completionWrite (q : Nat) (s : State) : exec (.completionWrite q) s = execCompletionWrite q s := rfl
theorem exec_irqHoldoffEnd (vec : Nat) (s : State) : exec (.irqHoldoffEnd vec) s = execIrqHoldoffEnd vec s := rfl
theorem exec_bar2Read (off : Nat) (len : Nat) (s : State) : exec (.bar2Read off len) s = execBar2Read off len s := rfl
theorem exec_bar2Write (off : Nat) (bytes : List Byte) (s : State) : exec (.bar2Write off bytes) s = execBar2Write off bytes s := rfl
theorem exec_perst (level : Bool) (s : State) : exec (.perst level) s = execPerst level s := rfl
theorem exec_pcieLinkTrain (speed : Nat) (width : Nat) (flit : Bool) (s : State) : exec (.pcieLinkTrain speed width flit) s = execPcieLinkTrain speed width flit s := rfl
theorem exec_tickEdge (raw : Nat) (s : State) : exec (.tickEdge raw) s = execTickEdge raw s := rfl
theorem exec_frame (lane : Nat) (words : List (BitVec 32)) (x : Nat) (s : State) : exec (.frame lane words x) s = execFrame lane words x s := rfl
theorem exec_laneDown (lane : Nat) (s : State) : exec (.laneDown lane) s = execLaneDown lane s := rfl
theorem exec_alignmentPoint (t : TickIn) (s : State) : exec (.alignmentPoint t) s = execAlignmentPoint t s := rfl
theorem exec_trgInEdge (k : Nat) (x : Nat) (s : State) : exec (.trgInEdge k x) s = execTrgInEdge k x s := rfl
theorem exec_combineDecision (t : TickIn) (s : State) : exec (.combineDecision t) s = execCombineDecision t s := rfl
theorem exec_trgOutPulseEnd (k : Nat) (s : State) : exec (.trgOutPulseEnd k) s = execTrgOutPulseEnd k s := rfl
theorem exec_candidateQueued (c : Nat) (s : State) : exec (.candidateQueued c) s = execCandidateQueued c s := rfl
theorem exec_passDispatch (hd : Nat) (x : Nat) (s : State) : exec (.passDispatch hd x) s = execPassDispatch hd x s := rfl
theorem exec_passEnd (hd : Nat) (x : Nat) (s : State) : exec (.passEnd hd x) s = execPassEnd hd x s := rfl
theorem exec_verdictMissing (hd : Nat) (x : Nat) (s : State) : exec (.verdictMissing hd x) s = execVerdictMissing hd x s := rfl
theorem exec_passBoundary (hd : Nat) (x : Nat) (s : State) : exec (.passBoundary hd x) s = execPassBoundary hd x s := rfl
theorem exec_candidateExpire (c : Nat) (x : Nat) (s : State) : exec (.candidateExpire c x) s = execCandidateExpire c x s := rfl
theorem exec_deliverRequest (c : Nat) (s : State) : exec (.deliverRequest c) s = execDeliverRequest c s := rfl
theorem exec_stallLimit (hd : Nat) (x : Nat) (s : State) : exec (.stallLimit hd x) s = execStallLimit hd x s := rfl
theorem exec_creditReturn (hd : Nat) (loop : Nat) (s : State) : exec (.creditReturn hd loop) s = execCreditReturn hd loop s := rfl
theorem exec_hbmLineReturn (hd : Nat) (ue : Bool) (ce : Bool) (s : State) : exec (.hbmLineReturn hd ue ce) s = execHbmLineReturn hd ue ce s := rfl
theorem exec_ringWrite (t : Nat) (s : State) : exec (.ringWrite t) s = execRingWrite t s := rfl
theorem exec_recordAssemble (kind : Nat) (dest : Nat) (s : State) : exec (.recordAssemble kind dest) s = execRecordAssemble kind dest s := rfl
theorem exec_recordDeliver (kind : Nat) (dest : Nat) (s : State) : exec (.recordDeliver kind dest) s = execRecordDeliver kind dest s := rfl
theorem exec_dmaTransfer (e : Nat) (d : DmaDesc) (fetchErr : Bool) (data : List Byte) (err : Option Nat) (s : State) : exec (.dmaTransfer e d fetchErr data err) s = execDmaTransfer e d fetchErr data err s := rfl
theorem exec_dmaCompletion (e : Nat) (err : Bool) (s : State) : exec (.dmaCompletion e err) s = execDmaCompletion e err s := rfl
theorem exec_mvm (at_ : TileAt) (s : State) : exec (.mvm at_) s = execMvm at_ s := rfl
theorem exec_mvmAcc (at_ : TileAt) (s : State) : exec (.mvmAcc at_) s = execMvmAcc at_ s := rfl
theorem exec_chainPass (at_ : TileAt) (s : State) : exec (.chainPass at_) s = execChainPass at_ s := rfl
theorem exec_req (at_ : TileAt) (s : State) : exec (.req at_) s = execReq at_ s := rfl
theorem exec_idle (at_ : TileAt) (s : State) : exec (.idle at_) s = execIdle at_ s := rfl
theorem exec_rd (at_ : TileAt) (s : State) : exec (.rd at_) s = execRd at_ s := rfl
theorem exec_wr (at_ : TileAt) (s : State) : exec (.wr at_) s = execWr at_ s := rfl
theorem exec_rdWr (at_ : TileAt) (s : State) : exec (.rdWr at_) s = execRdWr at_ s := rfl
theorem exec_rd2 (at_ : TileAt) (s : State) : exec (.rd2 at_) s = execRd2 at_ s := rfl
theorem exec_rd2Wr (at_ : TileAt) (s : State) : exec (.rd2Wr at_) s = execRd2Wr at_ s := rfl
theorem exec_lut4 (at_ : TileAt) (s : State) : exec (.lut4 at_) s = execLut4 at_ s := rfl
theorem exec_lut8 (at_ : TileAt) (s : State) : exec (.lut8 at_) s = execLut8 at_ s := rfl
theorem exec_cmp (at_ : TileAt) (s : State) : exec (.cmp at_) s = execCmp at_ s := rfl
theorem exec_thr (at_ : TileAt) (s : State) : exec (.thr at_) s = execThr at_ s := rfl
theorem exec_add (at_ : TileAt) (s : State) : exec (.add at_) s = execAdd at_ s := rfl
theorem exec_sub (at_ : TileAt) (s : State) : exec (.sub at_) s = execSub at_ s := rfl
theorem exec_shl (at_ : TileAt) (s : State) : exec (.shl at_) s = execShl at_ s := rfl
theorem exec_sra (at_ : TileAt) (s : State) : exec (.sra at_) s = execSra at_ s := rfl
theorem exec_narrow (at_ : TileAt) (s : State) : exec (.narrow at_) s = execNarrow at_ s := rfl
theorem exec_resadd (at_ : TileAt) (s : State) : exec (.resadd at_) s = execResadd at_ s := rfl
theorem exec_maxe (at_ : TileAt) (s : State) : exec (.maxe at_) s = execMaxe at_ s := rfl
theorem exec_maxr (at_ : TileAt) (s : State) : exec (.maxr at_) s = execMaxr at_ s := rfl
theorem exec_topk (at_ : TileAt) (s : State) : exec (.topk at_) s = execTopk at_ s := rfl
theorem exec_sort64 (at_ : TileAt) (s : State) : exec (.sort64 at_) s = execSort64 at_ s := rfl
theorem exec_merge (at_ : TileAt) (s : State) : exec (.merge at_) s = execMerge at_ s := rfl
theorem exec_meanvar (at_ : TileAt) (s : State) : exec (.meanvar at_) s = execMeanvar at_ s := rfl
theorem exec_norm (at_ : TileAt) (s : State) : exec (.norm at_) s = execNorm at_ s := rfl
theorem exec_softmax (at_ : TileAt) (s : State) : exec (.softmax at_) s = execSoftmax at_ s := rfl
theorem exec_cluster (at_ : TileAt) (s : State) : exec (.cluster at_) s = execCluster at_ s := rfl
theorem exec_hist (at_ : TileAt) (s : State) : exec (.hist at_) s = execHist at_ s := rfl
theorem exec_token (at_ : TileAt) (s : State) : exec (.token at_) s = execToken at_ s := rfl
theorem exec_select (at_ : TileAt) (s : State) : exec (.select at_) s = execSelect at_ s := rfl
theorem exec_route (at_ : TileAt) (s : State) : exec (.route at_) s = execRoute at_ s := rfl
theorem exec_inRd (at_ : TileAt) (s : State) : exec (.inRd at_) s = execInRd at_ s := rfl
theorem exec_inCtx (at_ : TileAt) (s : State) : exec (.inCtx at_) s = execInCtx at_ s := rfl
theorem exec_outScore (at_ : TileAt) (s : State) : exec (.outScore at_) s = execOutScore at_ s := rfl
theorem exec_outVerdict (at_ : TileAt) (s : State) : exec (.outVerdict at_) s = execOutVerdict at_ s := rfl
theorem exec_hbmRd (at_ : TileAt) (s : State) : exec (.hbmRd at_) s = execHbmRd at_ s := rfl
theorem exec_hbmWr (at_ : TileAt) (s : State) : exec (.hbmWr at_) s = execHbmWr at_ s := rfl
theorem exec_ringRd (at_ : TileAt) (s : State) : exec (.ringRd at_) s = execRingRd at_ s := rfl
theorem exec_fabTx (at_ : TileAt) (s : State) : exec (.fabTx at_) s = execFabTx at_ s := rfl
theorem exec_fabRx (at_ : TileAt) (s : State) : exec (.fabRx at_) s = execFabRx at_ s := rfl
theorem exec_fabEtx (at_ : TileAt) (s : State) : exec (.fabEtx at_) s = execFabEtx at_ s := rfl
theorem exec_fabErx (at_ : TileAt) (s : State) : exec (.fabErx at_) s = execFabErx at_ s := rfl
theorem exec_fireWordBuild (t : Nat) (s : State) : exec (.fireWordBuild t) s = execFireWordBuild t s := rfl
theorem exec_fslotTake (t : Nat) (n : Nat) (s : State) : exec (.fslotTake t n) s = execFslotTake t n s := rfl
theorem exec_fslotGive (t : Nat) (n : Nat) (s : State) : exec (.fslotGive t n) s = execFslotGive t n s := rfl
theorem exec_codeword (l : Nat) (errs : Nat) (m : BitVec 5140) (raw : Nat) (s : State) : exec (.codeword l errs m raw) s = execCodeword l errs m raw s := rfl
theorem exec_nakTimeout (l : Nat) (s : State) : exec (.nakTimeout l) s = execNakTimeout l s := rfl
theorem exec_elasticPacket (l : Nat) (vc : Nat) (s : State) : exec (.elasticPacket l vc) s = execElasticPacket l vc s := rfl
theorem exec_collectorRecord (src : Nat) (recseq : Nat) (s : State) : exec (.collectorRecord src recseq) s = execCollectorRecord src recseq s := rfl
theorem exec_linkTrainDone (l : Nat) (peer : Nat) (peerUid : Nat) (s : State) : exec (.linkTrainDone l peer peerUid) s = execLinkTrainDone l peer peerUid s := rfl
theorem exec_probe (l : Nat) (id : Nat) (t2 : Nat) (t3 : Nat) (s : State) : exec (.probe l id t2 t3) s = execProbe l id t2 t3 s := rfl
theorem exec_echo (l : Nat) (id : Nat) (turn : Nat) (t4 : Nat) (s : State) : exec (.echo l id turn t4) s = execEcho l id turn t4 s := rfl
theorem exec_linkCalDone (l : Nat) (s : State) : exec (.linkCalDone l) s = execLinkCalDone l s := rfl
theorem exec_linkTrainTimeout (l : Nat) (s : State) : exec (.linkTrainTimeout l) s = execLinkTrainTimeout l s := rfl
theorem exec_linkDown (l : Nat) (s : State) : exec (.linkDown l) s = execLinkDown l s := rfl
theorem exec_hello (l : Nat) (m : Msg) (s : State) : exec (.hello l m) s = execHello l m s := rfl
theorem exec_elect (l : Nat) (m : Msg) (s : State) : exec (.elect l m) s = execElect l m s := rfl
theorem exec_topo (l : Nat) (m : Msg) (s : State) : exec (.topo l m) s = execTopo l m s := rfl
theorem exec_assign (l : Nat) (m : Msg) (s : State) : exec (.assign l m) s = execAssign l m s := rfl
theorem exec_assignAck (l : Nat) (m : Msg) (s : State) : exec (.assignAck l m) s = execAssignAck l m s := rfl
theorem exec_heartbeat (l : Nat) (m : Msg) (s : State) : exec (.heartbeat l m) s = execHeartbeat l m s := rfl
theorem exec_hbTimeout (dev : Nat) (s : State) : exec (.hbTimeout dev) s = execHbTimeout dev s := rfl
theorem exec_erouteUpdate (table : List (Nat × Nat)) (s : State) : exec (.erouteUpdate table) s = execErouteUpdate table s := rfl
theorem exec_barrier (b : BarrierDesc) (s : State) : exec (.barrier b) s = execBarrier b s := rfl
theorem exec_updateToken (dev : Nat) (kind : Nat) (s : State) : exec (.updateToken dev kind) s = execUpdateToken dev kind s := rfl
theorem exec_fabricTimeSteer (l : Nat) (s : State) : exec (.fabricTimeSteer l) s = execFabricTimeSteer l s := rfl
theorem exec_tickInEdge (raw : Nat) (tick : Nat) (dev : Int) (s : State) : exec (.tickInEdge raw tick dev) s = execTickInEdge raw tick dev s := rfl
theorem exec_tickHoldover (missing : Bool) (s : State) : exec (.tickHoldover missing) s = execTickHoldover missing s := rfl
theorem exec_ppsInEdge (raw : Nat) (s : State) : exec (.ppsInEdge raw) s = execPpsInEdge raw s := rfl
theorem exec_ppsOutPulse (raw : Nat) (s : State) : exec (.ppsOutPulse raw) s = execPpsOutPulse raw s := rfl
theorem exec_ptpFrameRx (raw : Nat) (kind : Nat) (t : Nat) (bytes : List Byte) (s : State) : exec (.ptpFrameRx raw kind t bytes) s = execPtpFrameRx raw kind t bytes s := rfl
theorem exec_slewEnd (raw : Nat) (s : State) : exec (.slewEnd raw) s = execSlewEnd raw s := rfl
theorem exec_txTimestamp (id : Nat) (raw : Nat) (s : State) : exec (.txTimestamp id raw) s = execTxTimestamp id raw s := rfl
theorem exec_timedEventFire (e : Nat) (x : Nat) (s : State) : exec (.timedEventFire e x) s = execTimedEventFire e x s := rfl
theorem exec_timedOutPulseEnd (e : Nat) (s : State) : exec (.timedOutPulseEnd e) s = execTimedOutPulseEnd e s := rfl
theorem exec_handlerStep (core : Nat) (r : StepIn) (s : State) : exec (.handlerStep core r) s = execHandlerStep core r s := rfl
theorem exec_errqScan (core : Nat) (s : State) : exec (.errqScan core) s = execErrqScan core s := rfl
theorem exec_confirmExpire (unit : Nat) (s : State) : exec (.confirmExpire unit) s = execConfirmExpire unit s := rfl
theorem exec_rotationWarmupEnd (act : Nat) (k : Nat) (s : State) : exec (.rotationWarmupEnd act k) s = execRotationWarmupEnd act k s := rfl
theorem exec_recomputeDecision (act : Nat) (k : Nat) (active : Bool) (spare : Bool) (s : State) : exec (.recomputeDecision act k active spare) s = execRecomputeDecision act k active spare s := rfl
theorem exec_rotationSwap (act : Nat) (k : Nat) (s : State) : exec (.rotationSwap act k) s = execRotationSwap act k s := rfl
theorem exec_coreWatchdog (core : Nat) (ue : Bool) (s : State) : exec (.coreWatchdog core ue) s = execCoreWatchdog core ue s := rfl
theorem exec_hbmStackLoss (stack : Nat) (s : State) : exec (.hbmStackLoss stack) s = execHbmStackLoss stack s := rfl
theorem exec_patrolScrub (q : Nat) (col : Nat) (row : Nat) (line : Nat) (ce : Bool) (ue : Bool) (again : Bool) (s : State) : exec (.patrolScrub q col row line ce ue again) s = execPatrolScrub q col row line ce ue again s := rfl
theorem exec_scratchWindowTest (core : Nat) (w : Nat) (ok : Bool) (access : Bool) (s : State) : exec (.scratchWindowTest core w ok access) s = execScratchWindowTest core w ok access s := rfl
theorem exec_clearingDone (q : Nat) (s : State) : exec (.clearingDone q) s = execClearingDone q s := rfl
theorem exec_quadSelfTestDone (q : Nat) (ok : Bool) (s : State) : exec (.quadSelfTestDone q ok) s = execQuadSelfTestDone q ok s := rfl
theorem exec_updateStepDone (ok : Bool) (rate : Nat) (s : State) : exec (.updateStepDone ok rate) s = execUpdateStepDone ok rate s := rfl
theorem exec_coreRestartDone (core : Nat) (ok : Bool) (s : State) : exec (.coreRestartDone core ok) s = execCoreRestartDone core ok s := rfl
theorem exec_healthConfirmation (type : Nat) (ok : Bool) (s : State) : exec (.healthConfirmation type ok) s = execHealthConfirmation type ok s := rfl
theorem exec_lehrEnd (type : Nat) (s : State) : exec (.lehrEnd type) s = execLehrEnd type s := rfl
theorem exec_getVersion (r : Spdm) (s : State) : exec (.getVersion r) s = execGetVersion r s := rfl
theorem exec_getCapabilities (r : Spdm) (s : State) : exec (.getCapabilities r) s = execGetCapabilities r s := rfl
theorem exec_negotiateAlgorithms (r : Spdm) (s : State) : exec (.negotiateAlgorithms r) s = execNegotiateAlgorithms r s := rfl
theorem exec_getDigests (r : Spdm) (s : State) : exec (.getDigests r) s = execGetDigests r s := rfl
theorem exec_getCertificate (r : Spdm) (s : State) : exec (.getCertificate r) s = execGetCertificate r s := rfl
theorem exec_challenge (r : Spdm) (s : State) : exec (.challenge r) s = execChallenge r s := rfl
theorem exec_getMeasurements (r : Spdm) (s : State) : exec (.getMeasurements r) s = execGetMeasurements r s := rfl
theorem exec_respondIfReady (r : Spdm) (s : State) : exec (.respondIfReady r) s = execRespondIfReady r s := rfl
theorem exec_chunkGet (r : Spdm) (s : State) : exec (.chunkGet r) s = execChunkGet r s := rfl
theorem exec_jtagInstruction (ins : Jtag) (s : State) : exec (.jtagInstruction ins) s = execJtagInstruction ins s := rfl
theorem exec_powerSample (m : Sample) (s : State) : exec (.powerSample m) s = execPowerSample m s := rfl
theorem exec_avsTransaction (rail : Nat) (mv : Nat) (ok : Bool) (s : State) : exec (.avsTransaction rail mv ok) s = execAvsTransaction rail mv ok s := rfl
theorem exec_railFault (rail : Nat) (s : State) : exec (.railFault rail) s = execRailFault rail s := rfl
theorem exec_powerRestart (b : BootIn) (s : State) : exec (.powerRestart b) s = execPowerRestart b s := rfl
theorem exec_resetRise (b : BootIn) (s : State) : exec (.resetRise b) s = execResetRise b s := rfl
theorem exec_codewordSend (l : Nat) (raw : Nat) (s : State) : exec (.codewordSend l raw) s = execCodewordSend l raw s := rfl
theorem exec_linkTest (q : Nat) (lane : Nat) (idx : Nat) (err : Bool) (s : State) : exec (.linkTest q lane idx err) s = execLinkTest q lane idx err s := rfl
theorem exec_ptpMessageSend (kind : Nat) (s : State) : exec (.ptpMessageSend kind) s = execPtpMessageSend kind s := rfl
theorem exec_completionTimeout (e : Nat) (where_ : Nat) (s : State) : exec (.completionTimeout e where_) s = execCompletionTimeout e where_ s := rfl
theorem exec_cmdDenied (s : State) : exec (.cmdDenied) s = execCmdDenied s := rfl
theorem exec_namedTickApply (s : State) : exec (.namedTickApply) s = execNamedTickApply s := rfl
theorem exec_leaseExpired (s : State) : exec (.leaseExpired) s = execLeaseExpired s := rfl
theorem exec_eventWrite (s : State) : exec (.eventWrite) s = execEventWrite s := rfl
theorem exec_hotReset (s : State) : exec (.hotReset) s = execHotReset s := rfl
theorem exec_flr (s : State) : exec (.flr) s = execFlr s := rfl
theorem exec_pcieLinkDown (s : State) : exec (.pcieLinkDown) s = execPcieLinkDown s := rfl
theorem exec_d3hotEntry (s : State) : exec (.d3hotEntry) s = execD3hotEntry s := rfl
theorem exec_ladderChange (s : State) : exec (.ladderChange) s = execLadderChange s := rfl
theorem exec_pauseEffect (s : State) : exec (.pauseEffect) s = execPauseEffect s := rfl
theorem exec_drainDone (s : State) : exec (.drainDone) s = execDrainDone s := rfl
theorem exec_swapEnd (s : State) : exec (.swapEnd) s = execSwapEnd s := rfl
theorem exec_streamRelease (s : State) : exec (.streamRelease) s = execStreamRelease s := rfl
theorem exec_replayLogStop (s : State) : exec (.replayLogStop) s = execReplayLogStop s := rfl
theorem exec_discQuiet (s : State) : exec (.discQuiet) s = execDiscQuiet s := rfl
theorem exec_masterLoss (s : State) : exec (.masterLoss) s = execMasterLoss s := rfl
theorem exec_fabricTimeLoss (s : State) : exec (.fabricTimeLoss) s = execFabricTimeLoss s := rfl
theorem exec_timeHoldover (s : State) : exec (.timeHoldover) s = execTimeHoldover s := rfl
theorem exec_ceWindowEnd (s : State) : exec (.ceWindowEnd) s = execCeWindowEnd s := rfl
theorem exec_remapSwitch (s : State) : exec (.remapSwitch) s = execRemapSwitch s := rfl
theorem exec_quadTakeover (s : State) : exec (.quadTakeover) s = execQuadTakeover s := rfl
theorem exec_coreTakeover (s : State) : exec (.coreTakeover) s = execCoreTakeover s := rfl
theorem exec_updateIdle (s : State) : exec (.updateIdle) s = execUpdateIdle s := rfl
theorem exec_debugNonceExpire (s : State) : exec (.debugNonceExpire) s = execDebugNonceExpire s := rfl
theorem exec_capStep (s : State) : exec (.capStep) s = execCapStep s := rfl
theorem exec_pwrfail (s : State) : exec (.pwrfail) s = execPwrfail s := rfl
theorem exec_saveEnd (s : State) : exec (.saveEnd) s = execSaveEnd s := rfl
theorem exec_resetFall (s : State) : exec (.resetFall) s = execResetFall s := rfl
theorem exec_heartbeatSend (s : State) : exec (.heartbeatSend) s = execHeartbeatSend s := rfl
theorem exec_fabricForwardTimeout (s : State) : exec (.fabricForwardTimeout) s = execFabricForwardTimeout s := rfl
theorem exec_ppsOutPulseEnd (s : State) : exec (.ppsOutPulseEnd) s = execPpsOutPulseEnd s := rfl

end Sys2Proof.Machine
end

