-- ==== Sys2Proof/Laws/Tables.lean ====
section
/-!
SUPPORT. Sparse tables: a read after a write, and the canonical form under every table operation.
-/

namespace Sys2Proof

variable {β : Type}

theorem tget_tdel_ne (d : Nat → β) (t : Tbl β) {k j : Nat} (h : j ≠ k) : tget d (tdel t k) j = tget d t j := by
  induction t with
  | nil => rfl
  | cons e r ih =>
    obtain ⟨a, v⟩ := e
    unfold tdel at ih ⊢
    by_cases ha : a = k
    · have hj : ¬ k = j := by omega
      simp only [ha, List.filter_cons, ne_eq, not_true_eq_false, decide_false, Bool.false_eq_true, if_false, tget, hj]
      exact ih
    · simp only [List.filter_cons, ne_eq, ha, not_false_eq_true, decide_true, if_true, tget]
      split
      · rfl
      · exact ih

theorem tget_tins_same (d : Nat → β) (t : Tbl β) (k : Nat) (v : β) (h : ∀ e ∈ t, e.1 ≠ k) : tget d (tins t k v) k = v := by
  induction t with
  | nil => simp [tins, tget]
  | cons e r ih =>
    obtain ⟨a, w⟩ := e
    have ha : ¬ a = k := h (a, w) (by simp)
    unfold tins
    split
    · simp [tget]
    · simp only [tget, ha, if_false]
      exact ih (fun e he => h e (by simp [he]))

theorem tget_tins_ne (d : Nat → β) (t : Tbl β) {k j : Nat} (v : β) (h : j ≠ k) : tget d (tins t k v) j = tget d t j := by
  induction t with
  | nil => simp [tins, tget, Ne.symm h]
  | cons e r ih =>
    obtain ⟨a, w⟩ := e
    unfold tins
    split
    · simp [tget, Ne.symm h]
    · simp only [tget]
      split
      · rfl
      · exact ih

theorem tget_none (d : Nat → β) (t : Tbl β) (k : Nat) (h : ∀ e ∈ t, e.1 ≠ k) : tget d t k = d k := by
  induction t with
  | nil => rfl
  | cons e r ih =>
    obtain ⟨a, w⟩ := e
    simp only [tget, h (a, w) (by simp), if_false]
    exact ih (fun e he => h e (by simp [he]))

theorem mem_tdel {t : Tbl β} {k : Nat} {e : Nat × β} : e ∈ tdel t k ↔ e ∈ t ∧ e.1 ≠ k := by simp [tdel]

theorem mem_tins {t : Tbl β} {k : Nat} {v : β} {e : Nat × β} : e ∈ tins t k v ↔ e = (k, v) ∨ e ∈ t := by
  induction t with
  | nil => simp [tins]
  | cons a r ih =>
    obtain ⟨a, w⟩ := a
    unfold tins
    split
    · simp
    · simp only [List.mem_cons, ih]
      constructor <;> (rintro (h | h | h) <;> simp [h])

theorem tins_sorted {t : Tbl β} {k : Nat} {v : β} (hs : (t.map Prod.fst).Pairwise (· < ·)) (hk : ∀ e ∈ t, e.1 ≠ k) :
    ((tins t k v).map Prod.fst).Pairwise (· < ·) := by
  induction t with
  | nil => simp [tins]
  | cons a r ih =>
    obtain ⟨a, w⟩ := a
    simp only [List.map_cons, List.pairwise_cons, List.mem_map] at hs
    have ha : a ≠ k := hk (a, w) (by simp)
    unfold tins
    split
    · next h =>
      simp only [List.map_cons, List.pairwise_cons, List.mem_cons, List.mem_map]
      refine ⟨?_, hs.1, hs.2⟩
      rintro x (rfl | ⟨e, he, rfl⟩)
      · exact h
      · exact Nat.lt_trans h (hs.1 _ ⟨e, he, rfl⟩)
    · next h =>
      simp only [List.map_cons, List.pairwise_cons, List.mem_map]
      refine ⟨?_, ih hs.2 (fun e he => hk e (by simp [he]))⟩
      rintro x ⟨e, he, rfl⟩
      rcases mem_tins.mp he with rfl | he
      · simp only; omega
      · exact hs.1 _ ⟨e, he, rfl⟩

variable [DecidableEq β]

/-- A write is read back. -/
@[simp] theorem tget_tset_same (d : Nat → β) (t : Tbl β) (k : Nat) (v : β) : tget d (tset d t k v) k = v := by
  have hk : ∀ e ∈ tdel t k, e.1 ≠ k := fun e he => (mem_tdel.mp he).2
  unfold tset
  split
  · next h => rw [tget_none d _ _ hk, h]
  · exact tget_tins_same d _ _ _ hk

/-- A write leaves every other place as it was. -/
theorem tget_tset_ne (d : Nat → β) (t : Tbl β) {k j : Nat} (v : β) (h : j ≠ k) : tget d (tset d t k v) j = tget d t j := by
  unfold tset
  split
  · exact tget_tdel_ne d t h
  · rw [tget_tins_ne d _ _ h, tget_tdel_ne d t h]

theorem twf_nil (d : Nat → β) : twf d ([] : Tbl β) := by simp [twf]

theorem twf_tdel {d : Nat → β} {t : Tbl β} (h : twf d t) (k : Nat) : twf d (tdel t k) := by
  refine ⟨?_, fun e he => h.2 e (mem_tdel.mp he).1⟩
  exact h.1.sublist ((List.filter_sublist (l := t)).map Prod.fst)

/-- A write keeps the canonical form. -/
theorem twf_tset {d : Nat → β} {t : Tbl β} (h : twf d t) (k : Nat) (v : β) : twf d (tset d t k v) := by
  unfold tset
  split
  · exact twf_tdel h k
  · next hv =>
    have hk : ∀ e ∈ tdel t k, e.1 ≠ k := fun e he => (mem_tdel.mp he).2
    refine ⟨tins_sorted (twf_tdel h k).1 hk, fun e he => ?_⟩
    rcases mem_tins.mp he with rfl | he
    · exact hv
    · exact (twf_tdel h k).2 e he

/-- So do writes of consecutive values. -/
theorem twf_tsetAll {d : Nat → β} {t : Tbl β} (h : twf d t) (k : Nat) (vs : List β) : twf d (tsetAll d t k vs) := by
  induction vs generalizing t k with
  | nil => exact h
  | cons v r ih => exact ih (twf_tset h k v) (k + 1)

/-- Writes of consecutive values leave every place before them and after them as it was. -/
theorem tget_tsetAll_out (d : Nat → β) (t : Tbl β) (k : Nat) (vs : List β) {j : Nat} (h : j < k ∨ k + vs.length ≤ j) :
    tget d (tsetAll d t k vs) j = tget d t j := by
  induction vs generalizing t k with
  | nil => rfl
  | cons v r ih =>
    simp only [List.length_cons] at h
    unfold tsetAll
    rw [ih _ _ (by omega), tget_tset_ne d t v (by omega)]

/-- Each of them is read back. -/
theorem tget_tsetAll_in (d : Nat → β) (t : Tbl β) (k : Nat) (vs : List β) (i : Nat) (h : i < vs.length) :
    tget d (tsetAll d t k vs) (k + i) = vs[i] := by
  induction vs generalizing t k i with
  | nil => simp at h
  | cons v r ih =>
    unfold tsetAll
    cases i with
    | zero => rw [Nat.add_zero, tget_tsetAll_out d _ _ _ (by omega)]; simp
    | succ n =>
      have := ih (tset d t k v) (k + 1) n (by simpa using h)
      rw [show k + (n + 1) = k + 1 + n by omega, this]; simp

end Sys2Proof
end

