-- ==== Sys2Proof/Laws/Memory.lean ====
section
/-!
SUPPORT. Local memory: which operations leave it alone, and that those that write it keep its canonical form.
-/

set_option linter.all false

namespace Sys2Proof.Machine

/-- Local memory is the same in both states. -/
structure KeepsMemory (s t : State) : Prop where
  eq : t.hbm = s.hbm
@[simp] theorem keepsMemory_iff (s t : State) : KeepsMemory s t ↔ t.hbm = s.hbm := ⟨fun h => h.eq, fun h => ⟨h⟩⟩
/-- A fold of steps that keep it keeps it. -/
theorem foldl_hbm {β : Type} (f : State → β → State) (l : List β) (s : State) (h : ∀ s x, KeepsMemory s (f s x)) :
    (l.foldl f s).hbm = s.hbm := by
  induction l generalizing s with
  | nil => rfl
  | cons a t ih => rw [List.foldl_cons, ih, (h s a).eq]
@[simp] theorem setReg_hbm (off : Nat) (v : Nat) (s : State) : (setReg off v s).hbm = s.hbm := by rfl
@[simp] theorem seeRaw_hbm (r : Nat) (s : State) : (seeRaw r s).hbm = s.hbm := by rfl
@[simp] theorem raiseEv_hbm (e : Ev) (s : State) : (raiseEv e s).hbm = s.hbm := by rfl
@[simp] theorem raiseEvs_hbm (es : List Ev) (s : State) : (raiseEvs es s).hbm = s.hbm := by
  simp [raiseEvs, apply_ite State.hbm, apply_ite Act.s, foldl_hbm]
@[simp] theorem send_hbm (x : Sent) (s : State) : (send x s).hbm = s.hbm := by rfl
@[simp] theorem drawFree_hbm (w : Nat) (s : State) : (drawFree w s).2.hbm = s.hbm := rfl

@[simp] theorem setDev_hbm (st : DevSt) (s : State) : (setDev st s).hbm = s.hbm := by
  simp [setDev, apply_ite State.hbm, apply_ite Act.s, foldl_hbm]
@[simp] theorem setQuad_hbm (q : Nat) (st : QuadSt) (s : State) : (setQuad q st s).hbm = s.hbm := by
  simp [setQuad, apply_ite State.hbm, apply_ite Act.s, foldl_hbm]
@[simp] theorem addCnt_hbm (k : Nat) (n : Nat) (s : State) : (addCnt k n s).hbm = s.hbm := by rfl
@[simp] theorem decCnt_hbm (k : Nat) (s : State) : (decCnt k s).hbm = s.hbm := by rfl
@[simp] theorem setHealth_hbm (u : Nat) (v : Nat) (s : State) : (setHealth u v s).hbm = s.hbm := by rfl
@[simp] theorem setStatus_hbm (u : Nat) (st : Nat) (s : State) : (setStatus u st s).hbm = s.hbm := by
  simp [setStatus]
@[simp] theorem setTile_hbm (q : Nat) (col : Nat) (row : Nat) (t : Tile) (s : State) : (setTile q col row t s).hbm = s.hbm := by rfl
@[simp] theorem setSkip_hbm (q : Nat) (k : Nat) (p : Nat) (s : State) : (setSkip q k p s).hbm = s.hbm := by
  simp [setSkip, apply_ite State.hbm, apply_ite Act.s, foldl_hbm]
@[simp] theorem setSec_hbm (h : Nat) (x : Sec) (s : State) : (setSec h x s).hbm = s.hbm := by rfl
@[simp] theorem setLink_hbm (l : Nat) (x : Link) (s : State) : (setLink l x s).hbm = s.hbm := by rfl
@[simp] theorem setEng_hbm (e : Nat) (x : Eng) (s : State) : (setEng e x s).hbm = s.hbm := by rfl
@[simp] theorem setCtx_hbm (c : Nat) (x : Ctx) (s : State) : (setCtx c x s).hbm = s.hbm := by rfl
@[simp] theorem setPass_hbm (h : Nat) (x : Pass) (s : State) : (setPass h x s).hbm = s.hbm := by rfl
@[simp] theorem setLine_hbm (n : Nat) (x : LineSt) (s : State) : (setLine n x s).hbm = s.hbm := by rfl
@[simp] theorem setQueue_hbm (q : Nat) (x : QueueSt) (s : State) : (setQueue q x s).hbm = s.hbm := by rfl
@[simp] theorem recomputeC_hbm (s : State) : (recomputeC s).hbm = s.hbm := by rfl
@[simp] theorem calApply1_hbm (s : State) (e : CalEntry) : (calApply1 s e).hbm = s.hbm := by
  unfold calApply1; (repeat' (first | with_reducible rfl | (simp [apply_ite State.hbm, apply_ite Act.s, foldl_hbm]; done) | split | (rw [foldl_hbm] <;> intros)))
@[simp] theorem calApply_hbm (es : List CalEntry) (s : State) : (calApply es s).hbm = s.hbm := by
  simp [calApply, apply_ite State.hbm, apply_ite Act.s, foldl_hbm]
@[simp] theorem calLoad_hbm (s : State) : (calLoad s).hbm = s.hbm := by
  simp [calLoad, apply_ite State.hbm, apply_ite Act.s, foldl_hbm]
@[simp] theorem rcClear_hbm (s : State) (off : Nat) : (rcClear s off).hbm = s.hbm := by
  unfold rcClear; (repeat' (first | with_reducible rfl | (simp [apply_ite State.hbm, apply_ite Act.s, foldl_hbm]; done) | split | (rw [foldl_hbm] <;> intros)))
@[simp] theorem journalAdd_hbm (e : JEntry) (s : State) : (journalAdd e s).hbm = s.hbm := by rfl
@[simp] theorem journalUpd_hbm (j : Nat) (f : JEntry → JEntry) (s : State) : (journalUpd j f s).hbm = s.hbm := by rfl
@[simp] theorem journalInternal_hbm (role : Nat) (op : Nat) (result : List Byte) (s : State) : (journalInternal role op result s).hbm = s.hbm := by
  simp [journalInternal]
@[simp] theorem sendReply_hbm (r : Reply) (s : State) : (sendReply r s).hbm = s.hbm := by
  unfold sendReply; (repeat' (first | with_reducible rfl | (simp [apply_ite State.hbm, apply_ite Act.s, foldl_hbm]; done) | split | (rw [foldl_hbm] <;> intros)))
@[simp] theorem logAdd_hbm (e : LogEntry) (s : State) : (logAdd e s).hbm = s.hbm := by
  simp [logAdd, apply_ite State.hbm, apply_ite Act.s, foldl_hbm]
@[simp] theorem logCmd_hbm (eff : Eff) (op : Nat) (h : Hdr) (j : Nat) (annex : List Byte) (s : State) : (logCmd eff op h j annex s).hbm = s.hbm := by
  simp [logCmd]
@[simp] theorem logDone_hbm (eff : Eff) (op : Nat) (h : Hdr) (j : Nat) (status : Nat) (s : State) : (logDone eff op h j status s).hbm = s.hbm := by
  simp [logDone, apply_ite State.hbm, apply_ite Act.s, foldl_hbm]
@[simp] theorem cacheReply_hbm (r : Reply) (s : State) : (cacheReply r s).hbm = s.hbm := by rfl
@[simp] theorem finishEff_hbm (eff : Eff) (op : Nat) (h : Hdr) (j : Nat) (status : Nat) (detail : Nat) (result : List Byte) (jres : List Byte) (s : State) : (finishEff eff op h j status detail result jres s).hbm = s.hbm := by
  simp [finishEff, apply_ite State.hbm, apply_ite Act.s, foldl_hbm]
@[simp] theorem finish_hbm (op : Nat) (h : Hdr) (j : Nat) (status : Nat) (detail : Nat) (result : List Byte) (jres : List Byte) (s : State) : (finish op h j status detail result jres s).hbm = s.hbm := by
  simp [finish]
@[simp] theorem refuse_hbm (op : Nat) (h : Hdr) (status : Nat) (detail : Nat) (result : List Byte) (s : State) : (refuse op h status detail result s).hbm = s.hbm := by
  simp [refuse]
@[simp] theorem seeSeq_hbm (h : Hdr) (s : State) : (seeSeq h s).hbm = s.hbm := by rfl
@[simp] theorem renewLease_hbm (h : Hdr) (s : State) : (renewLease h s).hbm = s.hbm := by
  simp [renewLease, apply_ite State.hbm, apply_ite Act.s, foldl_hbm]
@[simp] theorem answerDup_hbm (op : Nat) (h : Hdr) (s : State) : (answerDup op h s).hbm = s.hbm := by
  unfold answerDup; (try dsimp only); (repeat' (first | with_reducible rfl | (simp [apply_ite State.hbm, apply_ite Act.s, foldl_hbm]; done) | split | (rw [foldl_hbm] <;> intros) | dsimp only | (simp [apply_ite State.hbm, foldl_hbm])))
@[simp] theorem fails_hbm (s : State) (status : Nat) (detail : optParam Nat 0) (result : optParam (List Byte) []) : (fails s status detail result).s.hbm = s.hbm := by rfl
@[simp] theorem untake_hbm (h : Hdr) (s : State) : (untake h s).hbm = s.hbm := by
  simp [untake, apply_ite State.hbm, apply_ite Act.s, foldl_hbm]
theorem controlEnd_hbm (c : CmdSpec) (h : Hdr) (s : State) (a : Act) (ha : a.s.hbm = s.hbm) : (controlEnd c h s a).hbm = s.hbm := by
  unfold controlEnd
  dsimp only
  repeat' (first | with_reducible rfl | (simp [ha, apply_ite State.hbm]; done) | split)

theorem control_hbm (c : CmdSpec) (h : Hdr) (act : Nat → State → Act) (s0 : State) (ha : ∀ j s, KeepsMemory s (act j s).s) :
    (control c h act s0).hbm = s0.hbm := by
  unfold control
  split
  · rfl
  · dsimp only
    repeat' (first | with_reducible rfl | (rw [controlEnd_hbm _ _ _ _ (by simp [fun j s => (ha j s).eq])]; simp [apply_ite State.hbm]; done) | (simp [apply_ite State.hbm]; done) | split)

theorem observe_hbm (c : CmdSpec) (h : Hdr) (act : State → Act) (s0 : State) (ha : ∀ s, KeepsMemory s (act s).s) :
    (observe c h act s0).hbm = s0.hbm := by
  unfold observe
  split
  · rfl
  · dsimp only
    repeat' (first | with_reducible rfl | (simp [fun s => (ha s).eq, apply_ite State.hbm]; done) | split)

theorem tickCmd_hbm (h : Hdr) (op j : Nat) (eff : Eff) (check : State → Option (Nat × Nat)) (app : State → State) (s : State)
    (ha : ∀ s, KeepsMemory s (app s)) : (tickCmd h op j eff check app s).s.hbm = s.hbm := by
  unfold tickCmd
  dsimp only
  repeat' (first | with_reducible rfl | (simp [fun s => (ha s).eq]; done) | split)

@[simp] theorem waitOver_hbm (j : Nat) (s : State) : (waitOver j s).hbm = s.hbm := by rfl
@[simp] theorem finishWait_hbm (w : Waiting) (status : Nat) (s : State) : (finishWait w status s).hbm = s.hbm := by
  simp [finishWait]
@[simp] theorem expireWaiting_hbm (s : State) : (expireWaiting s).hbm = s.hbm := by
  unfold expireWaiting
  exact foldl_hbm _ _ _ (fun s w => ⟨finishWait_hbm w stExpired s⟩)
@[simp] theorem finishLong_hbm (j : Nat) (status : Nat) (detail : Nat) (result : List Byte) (s : State) : (finishLong j status detail result s).hbm = s.hbm := by
  unfold finishLong; (repeat' (first | with_reducible rfl | (simp [apply_ite State.hbm, apply_ite Act.s, foldl_hbm]; done) | split | (rw [foldl_hbm] <;> intros)))
@[simp] theorem longEff_hbm (eff : Eff) (h : Hdr) (op : Nat) (j : Nat) (s : State) : (longEff eff h op j s).hbm = s.hbm := by rfl
@[simp] theorem longCmd_hbm (h : Hdr) (op : Nat) (j : Nat) (s : State) : (longCmd h op j s).hbm = s.hbm := by
  simp [longCmd]
@[simp] theorem changeHolder_hbm (new : Option Nat) (cause : Nat) (s : State) : (changeHolder new cause s).hbm = s.hbm := by
  simp [changeHolder]
@[simp] theorem startSave_hbm (cause : Nat) (s : State) : (startSave cause s).hbm = s.hbm := by
  simp [startSave, apply_ite State.hbm, apply_ite Act.s, foldl_hbm]
@[simp] theorem avsSend_hbm (rail : Nat) (mv : Nat) (s : State) : (avsSend rail mv s).hbm = s.hbm := by
  simp [avsSend]
@[simp] theorem markCause_hbm (c : Nat) (s : State) : (markCause c s).hbm = s.hbm := by rfl
@[simp] theorem safeDev_hbm (cause : Nat) (s : State) : (safeDev cause s).hbm = s.hbm := by
  simp [safeDev]
@[simp] theorem busyAll_hbm (s : State) : (busyAll s).hbm = s.hbm := by rfl
@[simp] theorem endPasses_hbm (s : State) : (endPasses s).hbm = s.hbm := by rfl
@[simp] theorem railsDown_hbm (s : State) : (railsDown s).hbm = s.hbm := by
  simp [railsDown, apply_ite State.hbm, apply_ite Act.s, foldl_hbm]
@[simp] theorem enterSafe_hbm (cause : Nat) (s : State) : (enterSafe cause s).hbm = s.hbm := by
  simp [enterSafe, apply_ite State.hbm, apply_ite Act.s, foldl_hbm]
@[simp] theorem fault_hbm (f0 : FaultRec) (s : State) : (fault f0 s).hbm = s.hbm := by
  simp [fault, apply_ite State.hbm, apply_ite Act.s, foldl_hbm]
@[simp] theorem repairDone_hbm (code : Nat) (quad : Nat) (unit : Nat) (s : State) : (repairDone code quad unit s).hbm = s.hbm := by
  simp [repairDone]
@[simp] theorem corrected_hbm (unit : Nat) (f : FaultRec) (s : State) : (corrected unit f s).hbm = s.hbm := by
  simp [corrected, apply_ite State.hbm, apply_ite Act.s, foldl_hbm]
@[simp] theorem hwCount_hbm (k : Nat) (s : State) : (hwCount k s).hbm = s.hbm := by rfl
@[simp] theorem ioChecks_hbm (e : IoErr) (s : State) : (ioChecks e s).hbm = s.hbm := by
  simp [ioChecks, apply_ite State.hbm, apply_ite Act.s, foldl_hbm]
@[simp] theorem ctlChecks_hbm (core : Nat) (r : StepIn) (s : State) : (ctlChecks core r s).hbm = s.hbm := by
  unfold ctlChecks; (repeat' (first | with_reducible rfl | (simp [apply_ite State.hbm, apply_ite Act.s, foldl_hbm]; done) | split | (rw [foldl_hbm] <;> intros)))
@[simp] theorem cfgStore_hbm (es : List CfgEntry) (s : State) : (cfgStore es s).hbm = s.hbm := by
  unfold cfgStore; (repeat' (first | with_reducible rfl | (simp [apply_ite State.hbm, apply_ite Act.s, foldl_hbm]; done) | split | (rw [foldl_hbm] <;> intros)))
@[simp] theorem startTicks_hbm (s : State) : (startTicks s).hbm = s.hbm := by
  simp [startTicks, apply_ite State.hbm, apply_ite Act.s, foldl_hbm]
@[simp] theorem startTrain_hbm (l : Nat) (s : State) : (startTrain l s).hbm = s.hbm := by
  simp [startTrain]
@[simp] theorem linkFall_hbm (l : Nat) (s : State) : (linkFall l s).hbm = s.hbm := by
  simp [linkFall, apply_ite State.hbm, apply_ite Act.s, foldl_hbm]
@[simp] theorem memberUpdate_hbm (was : Bool) (c : Nat) (s : State) : (memberUpdate was c s).hbm = s.hbm := by
  unfold memberUpdate; (try dsimp only); (repeat' (first | with_reducible rfl | (simp [apply_ite State.hbm, apply_ite Act.s, foldl_hbm]; done) | split | (rw [foldl_hbm] <;> intros) | dsimp only | (simp [apply_ite State.hbm, foldl_hbm])))
@[simp] theorem queueStop_hbm (q : Nat) (s : State) : (queueStop q s).hbm = s.hbm := by
  simp [queueStop]
@[simp] theorem entryEffect_hbm (off : Nat) (old : Nat) (e : CfgEntry) (s : State) : (entryEffect off old e s).hbm = s.hbm := by
  unfold entryEffect; (repeat' (first | with_reducible rfl | (simp [apply_ite State.hbm, apply_ite Act.s, foldl_hbm]; done) | split | (rw [foldl_hbm] <;> intros)))
@[simp] theorem saveBoot_hbm (s : State) : (saveBoot s).hbm = s.hbm := by rfl
@[simp] theorem cfgApply_hbm (es : List CfgEntry) (s : State) : (cfgApply es s).hbm = s.hbm := by
  simp [cfgApply, apply_ite State.hbm, apply_ite Act.s, foldl_hbm]
@[simp] theorem cfgAct_hbm (h : Hdr) (es : List CfgEntry) (j : Nat) (s : State) : (cfgAct h es j s).s.hbm = s.hbm := by
  unfold cfgAct
  dsimp only
  repeat' (first | with_reducible rfl | (simp; done) | split | (rw [tickCmd_hbm]; intros; simp) | (simp [foldl_hbm]; done))
@[simp] theorem cfgCmd_hbm (h : Hdr) (es : List CfgEntry) (s : State) : (cfgCmd h es s).hbm = s.hbm := by
  exact control_hbm _ _ _ _ (by intros; simp)
@[simp] theorem setPart_hbm (t : Nat) (p : UpPart) (s : State) : (setPart t p s).hbm = s.hbm := by rfl
@[simp] theorem setLease_hbm (ms : Nat) (s : State) : (setLease ms s).hbm = s.hbm := by rfl
@[simp] theorem claimAct_hbm (h : Hdr) (leaseMs : Nat) (force : Bool) (s : State) : (claimAct h leaseMs force s).s.hbm = s.hbm := by
  unfold claimAct; (repeat' (first | with_reducible rfl | (simp [apply_ite State.hbm, apply_ite Act.s, foldl_hbm]; done) | split | (rw [foldl_hbm] <;> intros)))
@[simp] theorem armSet_hbm (ta : Nat) (s : State) : (armSet ta s).hbm = s.hbm := by
  simp [armSet]
@[simp] theorem toMembers_hbm (m : Msg2) (s : State) : (toMembers m s).hbm = s.hbm := by
  unfold toMembers; (repeat' (first | with_reducible rfl | (simp [apply_ite State.hbm, apply_ite Act.s, foldl_hbm]; done) | split | (rw [foldl_hbm] <;> intros)))
@[simp] theorem waitTick_hbm (op : Nat) (h : Hdr) (j : Nat) (t : Nat) (s : State) : (waitTick op h j t s).hbm = s.hbm := by rfl
@[simp] theorem toIdle_hbm (s : State) : (toIdle s).hbm = s.hbm := by
  simp [toIdle]
@[simp] theorem stopNow_hbm (h : Hdr) (j : Nat) (s : State) : (stopNow h j s).s.hbm = s.hbm := by
  unfold stopNow; (repeat' (first | with_reducible rfl | (simp [apply_ite State.hbm, apply_ite Act.s, foldl_hbm]; done) | split | (rw [foldl_hbm] <;> intros)))
@[simp] theorem stopAct_hbm (h : Hdr) (j : Nat) (s : State) : (stopAct h j s).s.hbm = s.hbm := by
  unfold stopAct; (try dsimp only); (repeat' (first | with_reducible rfl | (simp [apply_ite State.hbm, apply_ite Act.s, foldl_hbm]; done) | split | (rw [foldl_hbm] <;> intros) | dsimp only | (simp [apply_ite State.hbm, foldl_hbm])))
@[simp] theorem writeTile_hbm (h : Nat) (staging : Bool) (im : ImTile) (s : State) : (writeTile h staging im s).hbm = s.hbm := by
  simp [writeTile]
@[simp] theorem writeSlots_hbm (bank : Nat) (a : List Nat) (img : Image) (s : State) : (writeSlots bank a img s).hbm = s.hbm := by rfl
@[simp] theorem settleSkip_hbm (p : LoadPlan) (s : State) : (settleSkip p s).hbm = s.hbm := by
  unfold settleSkip; (repeat' (first | with_reducible rfl | (simp [apply_ite State.hbm, apply_ite Act.s, foldl_hbm]; done) | split | (rw [foldl_hbm] <;> intros)))
@[simp] theorem writeImage_hbm (staging : Bool) (r : LoadReq) (p : LoadPlan) (s0 : State) : (writeImage staging r p s0).hbm = s0.hbm := by
  simp [writeImage, apply_ite State.hbm, apply_ite Act.s, foldl_hbm]
@[simp] theorem failTile_hbm (x : Nat × Nat) (s : State) : (failTile x s).hbm = s.hbm := by
  simp [failTile]
@[simp] theorem runLoader_hbm (s : State) (staging : Bool) (r : LoadReq) : (runLoader s staging r).1.hbm = s.hbm := by
  unfold runLoader
  repeat' (first | with_reducible rfl | (simp; done) | split | dsimp only)

@[simp] theorem pendEnd_hbm (t : Nat) (acc : Bool) (void : Bool) (s : State) : (pendEnd t acc void s).hbm = s.hbm := by
  unfold pendEnd; (repeat' (first | with_reducible rfl | (simp [apply_ite State.hbm, apply_ite Act.s, foldl_hbm]; done) | split | (rw [foldl_hbm] <;> intros)))
@[simp] theorem clsCount_hbm (c : Nat) (k : Nat) (s : State) : (clsCount c k s).hbm = s.hbm := by rfl
@[simp] theorem deliverStart_hbm (c : Nat) (x : Ctx) (doubt : Bool) (s : State) : (deliverStart c x doubt s).hbm = s.hbm := by
  simp [deliverStart, apply_ite State.hbm, apply_ite Act.s, foldl_hbm]
@[simp] theorem parEnd_hbm (c : Nat) (e : ParEnd) (s : State) : (parEnd c e s).hbm = s.hbm := by
  simp [parEnd, apply_ite State.hbm, apply_ite Act.s, foldl_hbm]
@[simp] theorem expireCtx_hbm (c : Nat) (cause : Nat) (s : State) : (expireCtx c cause s).hbm = s.hbm := by
  simp [expireCtx]
@[simp] theorem mapTiles_hbm (h : Nat) (f : Tile → Tile) (s : State) : (mapTiles h f s).hbm = s.hbm := by
  simp [mapTiles, apply_ite State.hbm, apply_ite Act.s, foldl_hbm]
@[simp] theorem abandonPass_hbm (h : Nat) (e : ParEnd) (s : State) : (abandonPass h e s).hbm = s.hbm := by
  unfold abandonPass; (try dsimp only); (repeat' (first | with_reducible rfl | (simp [apply_ite State.hbm, apply_ite Act.s, foldl_hbm]; done) | split | (rw [foldl_hbm] <;> intros) | dsimp only | (simp [apply_ite State.hbm, foldl_hbm])))
@[simp] theorem endPass_hbm (h : Nat) (v : Nat) (x : Nat) (s : State) : (endPass h v x s).hbm = s.hbm := by
  unfold endPass; (try dsimp only); (repeat' (first | with_reducible rfl | (simp [apply_ite State.hbm, apply_ite Act.s, foldl_hbm]; done) | split | (rw [foldl_hbm] <;> intros) | dsimp only | (simp [apply_ite State.hbm, foldl_hbm])))
@[simp] theorem expireAll_hbm (h : Nat) (s : State) : (expireAll h s).hbm = s.hbm := by
  simp [expireAll, apply_ite State.hbm, apply_ite Act.s, foldl_hbm]
@[simp] theorem freeTiles_hbm (ims : List ImTile) (s : State) : (freeTiles ims s).hbm = s.hbm := by
  simp [freeTiles, apply_ite State.hbm, apply_ite Act.s, foldl_hbm]
@[simp] theorem leaveTiles_hbm (ims : List ImTile) (s : State) : (leaveTiles ims s).hbm = s.hbm := by
  simp [leaveTiles, apply_ite State.hbm, apply_ite Act.s, foldl_hbm]
@[simp] theorem installTiles_hbm (h : Nat) (ims : List ImTile) (s : State) : (installTiles h ims s).hbm = s.hbm := by
  simp [installTiles, apply_ite State.hbm, apply_ite Act.s, foldl_hbm]
@[simp] theorem readyAllPoints_hbm (ims : List ImTile) (s : State) : (readyAllPoints ims s).hbm = s.hbm := by
  simp [readyAllPoints, apply_ite State.hbm, apply_ite Act.s, foldl_hbm]
@[simp] theorem startAllPoints_hbm (ims : List ImTile) (s : State) : (startAllPoints ims s).hbm = s.hbm := by
  simp [startAllPoints, apply_ite State.hbm, apply_ite Act.s, foldl_hbm]
@[simp] theorem clearSlots_hbm (bank : Nat) (s : State) : (clearSlots bank s).hbm = s.hbm := by rfl
@[simp] theorem rebuildSlots_hbm (s : State) : (rebuildSlots s).hbm = s.hbm := by
  simp [rebuildSlots, apply_ite State.hbm, apply_ite Act.s, foldl_hbm]
@[simp] theorem dropSection_hbm (h : Nat) (s : State) : (dropSection h s).hbm = s.hbm := by
  simp [dropSection]
@[simp] theorem markStart_hbm (h : Nat) (s : State) : (markStart h s).hbm = s.hbm := by
  simp [markStart]
@[simp] theorem markIncoming_hbm (h : Nat) (s : State) : (markIncoming h s).hbm = s.hbm := by
  simp [markIncoming]
@[simp] theorem qblockAdd_hbm (h : Nat) (key : Nat) (ord : Nat) (w : LWord) (s : State) : (qblockAdd h key ord w s).hbm = s.hbm := by
  simp [qblockAdd]
@[simp] theorem qblockClose_hbm (h : Nat) (key : Nat) (tick : Nat) (s : State) : (qblockClose h key tick s).hbm = s.hbm := by
  simp [qblockClose]
@[simp] theorem hostEcc_hbm (hd : Nat) (q : Nat) (c : Nat) (r : Nat) (line : Nat) (ecc : Ecc) (s : State) : (hostEcc hd q c r line ecc s).hbm = s.hbm := by
  unfold hostEcc; (repeat' (first | with_reducible rfl | (simp [apply_ite State.hbm, apply_ite Act.s, foldl_hbm]; done) | split | (rw [foldl_hbm] <;> intros)))
@[simp] theorem writeTileLine_hbm (hd : Nat) (vq : Nat) (col : Nat) (row : Nat) (line : Nat) (data : List Byte) (ecc : Ecc) (s : State) : (writeTileLine hd vq col row line data ecc s).hbm = s.hbm := by
  unfold writeTileLine; (repeat' (first | with_reducible rfl | (simp [apply_ite State.hbm, apply_ite Act.s, foldl_hbm]; done) | split | (rw [foldl_hbm] <;> intros)))
@[simp] theorem serveWrites_hbm (hd : Nat) (s : State) : (serveWrites hd s).hbm = s.hbm := by
  unfold serveWrites; (repeat' (first | with_reducible rfl | (simp [apply_ite State.hbm, apply_ite Act.s, foldl_hbm]; done) | split | (rw [foldl_hbm] <;> intros)))
@[simp] theorem exchangeFixed_hbm (outs : List Nat) (ins : List Nat) (s : State) : (exchangeFixed outs ins s).hbm = s.hbm := by
  unfold exchangeFixed
  dsimp only
  rw [foldl_hbm _ _ _ (by intros; simp), foldl_hbm _ _ _ (by intros; simp), leaveTiles_hbm]
@[simp] theorem loseScores_hbm (outs : List Nat) (x : Nat) (s : State) : (loseScores outs x s).hbm = s.hbm := by rfl
@[simp] theorem exchangePair_hbm (p : Option Nat × Option Nat) (s : State) : (exchangePair p s).hbm = s.hbm := by
  unfold exchangePair; (repeat' (first | with_reducible rfl | (simp [apply_ite State.hbm, apply_ite Act.s, foldl_hbm]; done) | split | (rw [foldl_hbm] <;> intros)))
@[simp] theorem beginSwap_hbm (ts : Nat) (outs : List Nat) (ins : List Nat) (s : State) : (beginSwap ts outs ins s).hbm = s.hbm := by
  simp [beginSwap, apply_ite State.hbm, apply_ite Act.s, foldl_hbm]
@[simp] theorem swapSettle_hbm (w : Swap) (s : State) : (swapSettle w s).hbm = s.hbm := by
  simp [swapSettle]
@[simp] theorem swapBoundary_hbm (h : Nat) (s : State) : (swapBoundary h s).hbm = s.hbm := by
  unfold swapBoundary; (repeat' (first | with_reducible rfl | (simp [apply_ite State.hbm, apply_ite Act.s, foldl_hbm]; done) | split | (rw [foldl_hbm] <;> intros)))
@[simp] theorem armSections_hbm (s : State) : (armSections s).hbm = s.hbm := by
  simp [armSections, apply_ite State.hbm, apply_ite Act.s, foldl_hbm]
@[simp] theorem restoreSec_hbm (noHist : Bool) (s : State) (i : SecImage) : (restoreSec noHist s i).hbm = s.hbm := by
  simp [restoreSec, apply_ite State.hbm, apply_ite Act.s, foldl_hbm]
@[simp] theorem applyRestore_hbm (i : StateImage) (noHist : Bool) (t : Nat) (s : State) : (applyRestore i noHist t s).hbm = s.hbm := by
  simp [applyRestore, apply_ite State.hbm, apply_ite Act.s, foldl_hbm]
@[simp] theorem loadNow_hbm (r : LoadReq) (s : State) : (loadNow r s).s.hbm = s.hbm := by
  have h := runLoader_hbm s (stAUP.contains s.dev.st) r
  unfold loadNow
  split <;> rename_i e <;> rw [e] at h
  · dsimp only at h; simp [apply_ite State.hbm, h]
  · exact h
@[simp] theorem loadFails_hbm (s : State) (status : Nat) (code : Nat) : (loadFails s status code).s.hbm = s.hbm := by
  simp [loadFails]
@[simp] theorem loadLog_hbm (h : Hdr) (j : Nat) (r : LoadReq) (s : State) : (loadLog h j r s).hbm = s.hbm := by
  simp [loadLog]
@[simp] theorem loadAct_hbm (h : Hdr) (r : LoadReq) (j : Nat) (s : State) : (loadAct h r j s).s.hbm = s.hbm := by
  simp [loadAct, apply_ite State.hbm, apply_ite Act.s, foldl_hbm]
@[simp] theorem serveLoads_hbm (s : State) : (serveLoads s).hbm = s.hbm := by
  unfold serveLoads; (repeat' (first | with_reducible rfl | (simp [apply_ite State.hbm, apply_ite Act.s, foldl_hbm]; done) | split | (rw [foldl_hbm] <;> intros)))
@[simp] theorem verifyWeights_hbm (hd : Nat) (s : State) : (verifyWeights hd s).hbm = s.hbm := by
  simp [verifyWeights, apply_ite State.hbm, apply_ite Act.s, foldl_hbm]
@[simp] theorem switchTables_hbm (es : List TabSel) (s : State) : (switchTables es s).hbm = s.hbm := by
  unfold switchTables; (repeat' (first | with_reducible rfl | (simp [apply_ite State.hbm, apply_ite Act.s, foldl_hbm]; done) | split | (rw [foldl_hbm] <;> intros)))
@[simp] theorem setProbe_hbm (n : Nat) (p : Probe) (s : State) : (setProbe n p s).hbm = s.hbm := by rfl
@[simp] theorem setMsix_hbm (v : Nat) (m : Msix) (s : State) : (setMsix v m s).hbm = s.hbm := by rfl
@[simp] theorem msiSend_hbm (v : Nat) (s : State) : (msiSend v s).hbm = s.hbm := by
  simp [msiSend, apply_ite State.hbm, apply_ite Act.s, foldl_hbm]
@[simp] theorem trigger_hbm (v : Nat) (s : State) : (trigger v s).hbm = s.hbm := by
  simp [trigger, apply_ite State.hbm, apply_ite Act.s, foldl_hbm]
@[simp] theorem engTrigger_hbm (e : Nat) (s : State) : (engTrigger e s).hbm = s.hbm := by
  simp [engTrigger]
@[simp] theorem parkEng_hbm (e : Nat) (p : Park) (s : State) : (parkEng e p s).hbm = s.hbm := by
  simp [parkEng]
@[simp] theorem parkHere_hbm (e : Nat) (cause : Nat) (done : Nat) (addr : Nat) (at_ : Nat) (s : State) : (parkHere e cause done addr at_ s).hbm = s.hbm := by
  simp [parkHere]
@[simp] theorem bar0Read_hbm (off : Nat) (n : Nat) (s : State) : (bar0Read off n s).hbm = s.hbm := by
  simp [bar0Read, apply_ite State.hbm, apply_ite Act.s, foldl_hbm]
@[simp] theorem mmioDenied_hbm (s : State) : (mmioDenied s).hbm = s.hbm := by rfl
@[simp] theorem dbBad_hbm (page : Nat) (s : State) : (dbBad page s).hbm = s.hbm := by rfl
@[simp] theorem eventPut_hbm (r : EvRec) (s : State) : (eventPut r s).hbm = s.hbm := by
  simp [eventPut, apply_ite State.hbm, apply_ite Act.s, foldl_hbm]
@[simp] theorem lostMark_hbm (s : State) : (lostMark s).hbm = s.hbm := by
  simp [lostMark, apply_ite State.hbm, apply_ite Act.s, foldl_hbm]
@[simp] theorem eventRing_hbm (r : EvRec) (s0 : State) : (eventRing r s0).hbm = s0.hbm := by
  simp [eventRing, apply_ite State.hbm, apply_ite Act.s, foldl_hbm]
@[simp] theorem eventElse_hbm (r : EvRec) (s : State) : (eventElse r s).hbm = s.hbm := by
  unfold eventElse; (try dsimp only); (repeat' (first | with_reducible rfl | (simp [apply_ite State.hbm, apply_ite Act.s, foldl_hbm]; done) | split | (rw [foldl_hbm] <;> intros) | dsimp only | (simp [apply_ite State.hbm, foldl_hbm])))
@[simp] theorem queueOff_hbm (q : Nat) (s : State) : (queueOff q s).hbm = s.hbm := by
  simp [queueOff, apply_ite State.hbm, apply_ite Act.s, foldl_hbm]
@[simp] theorem ringOff_hbm (s : State) : (ringOff s).hbm = s.hbm := by
  simp [ringOff, apply_ite State.hbm, apply_ite Act.s, foldl_hbm]
@[simp] theorem queuesOff_hbm (s : State) : (queuesOff s).hbm = s.hbm := by
  simp [queuesOff, apply_ite State.hbm, apply_ite Act.s, foldl_hbm]
@[simp] theorem parkOne_hbm (e : Nat) (s : State) : (parkOne e s).hbm = s.hbm := by
  unfold parkOne; (try dsimp only); (repeat' (first | with_reducible rfl | (simp [apply_ite State.hbm, apply_ite Act.s, foldl_hbm]; done) | split | (rw [foldl_hbm] <;> intros) | dsimp only | (simp [apply_ite State.hbm, foldl_hbm])))
@[simp] theorem parkBusy_hbm (s : State) : (parkBusy s).hbm = s.hbm := by
  unfold parkBusy; (try dsimp only); (repeat' (first | with_reducible rfl | (simp [apply_ite State.hbm, apply_ite Act.s, foldl_hbm]; done) | split | (rw [foldl_hbm] <;> intros) | dsimp only | (simp [apply_ite State.hbm, foldl_hbm])))
@[simp] theorem hostLost_hbm (s : State) : (hostLost s).hbm = s.hbm := by
  simp [hostLost]
@[simp] theorem configReset_hbm (s : State) : (configReset s).hbm = s.hbm := by rfl
@[simp] theorem groupSet_hbm (g : Nat) (d : GroupDesc) (s : State) : (groupSet g d s).hbm = s.hbm := by rfl
@[simp] theorem setPrims_hbm (first : Nat) (ds : List PrimDesc) (s : State) : (setPrims first ds s).hbm = s.hbm := by rfl
@[simp] theorem setMeas_hbm (e : Nat) (d : MeasDesc) (s : State) : (setMeas e d s).hbm = s.hbm := by rfl
@[simp] theorem commitCal_hbm (version : Nat) (s : State) : (commitCal version s).hbm = s.hbm := by rfl
@[simp] theorem setCombLine_hbm (n : Nat) (d : LineDesc) (s : State) : (setCombLine n d s).hbm = s.hbm := by
  simp [setCombLine]
@[simp] theorem setTemplate_hbm (k : Nat) (d : TemplateDesc) (s : State) : (setTemplate k d s).hbm = s.hbm := by rfl
@[simp] theorem setWindow_hbm (n : Nat) (w : Window) (s : State) : (setWindow n w s).hbm = s.hbm := by
  simp [setWindow]
@[simp] theorem extract_hbm (t : Nat) (k : Nat) (s : State) : (extract t k s).hbm = s.hbm := by
  simp [extract]
@[simp] theorem oweCpl_hbm (e : Nat) (c : DmaCpl) (s : State) : (oweCpl e c s).hbm = s.hbm := by
  simp [oweCpl]
@[simp] theorem engNext_hbm (e : Nat) (s : State) : (engNext e s).hbm = s.hbm := by
  simp [engNext]
@[simp] theorem skipPark_hbm (e : Nat) (p : Park) (s : State) : (skipPark e p s).hbm = s.hbm := by
  unfold skipPark; (repeat' (first | with_reducible rfl | (simp [apply_ite State.hbm, apply_ite Act.s, foldl_hbm]; done) | split | (rw [foldl_hbm] <;> intros)))
@[simp] theorem resumeEng_hbm (e : Nat) (mode : Nat) (s : State) : (resumeEng e mode s).hbm = s.hbm := by
  unfold resumeEng; (repeat' (first | with_reducible rfl | (simp [apply_ite State.hbm, apply_ite Act.s, foldl_hbm]; done) | split | (rw [foldl_hbm] <;> intros)))
@[simp] theorem zoneEff_hbm (e : Eff) (s : State) : (zoneEff e s).hbm = s.hbm := by
  unfold zoneEff; (repeat' (first | with_reducible rfl | (simp [apply_ite State.hbm, apply_ite Act.s, foldl_hbm]; done) | split | (rw [foldl_hbm] <;> intros)))
@[simp] theorem settleDue_hbm (align : Bool) (t : Nat) (s : State) : (settleDue align t s).hbm = s.hbm := by
  simp [settleDue, apply_ite State.hbm, apply_ite Act.s, foldl_hbm]
@[simp] theorem flushDue_hbm (s : State) : (flushDue s).hbm = s.hbm := by
  simp [flushDue, apply_ite State.hbm, apply_ite Act.s, foldl_hbm]
@[simp] theorem diverge_hbm (t : Nat) (case_ : Nat) (s : State) : (diverge t case_ s).hbm = s.hbm := by
  simp [diverge]
@[simp] theorem scoreChecks_hbm (t : Nat) (s : State) : (scoreChecks t s).hbm = s.hbm := by
  simp [scoreChecks, apply_ite State.hbm, apply_ite Act.s, foldl_hbm]
@[simp] theorem fireChecks_hbm (t : Nat) (f : Option FireCase) (s : State) : (fireChecks t f s).hbm = s.hbm := by
  unfold fireChecks; (repeat' (first | with_reducible rfl | (simp [apply_ite State.hbm, apply_ite Act.s, foldl_hbm]; done) | split | (rw [foldl_hbm] <;> intros)))
@[simp] theorem drivePins_hbm (t : Nat) (o : CombOut) (void : Bool) (s : State) : (drivePins t o void s).hbm = s.hbm := by
  simp [drivePins, apply_ite State.hbm, apply_ite Act.s, foldl_hbm]
@[simp] theorem driveBusy_hbm (s : State) : (driveBusy s).hbm = s.hbm := by rfl
@[simp] theorem setStream_hbm (m : Nat) (x : Stream) (s : State) : (setStream m x s).hbm = s.hbm := by rfl
@[simp] theorem probeTake_hbm (h : Nat) (n : Nat) (base : Nat) (k : Nat) (s : State) : (probeTake h n base k s).hbm = s.hbm := by
  simp [probeTake, apply_ite State.hbm, apply_ite Act.s, foldl_hbm]
@[simp] theorem probeAll_hbm (h : Nat) (n : Nat) (base : Nat) (s : State) : (probeAll h n base s).hbm = s.hbm := by
  simp [probeAll, apply_ite State.hbm, apply_ite Act.s, foldl_hbm]
@[simp] theorem closeStreams_hbm (s : State) : (closeStreams s).hbm = s.hbm := by
  simp [closeStreams, apply_ite State.hbm, apply_ite Act.s, foldl_hbm]
@[simp] theorem enterPaused_hbm (p : Nat) (s : State) : (enterPaused p s).hbm = s.hbm := by
  unfold enterPaused; (try dsimp only); (repeat' (first | with_reducible rfl | (simp [apply_ite State.hbm, apply_ite Act.s, foldl_hbm]; done) | split | (rw [foldl_hbm] <;> intros) | dsimp only | (simp [apply_ite State.hbm, foldl_hbm])))
@[simp] theorem releaseTick_hbm (t : Nat) (s : State) : (releaseTick t s).hbm = s.hbm := by
  simp [releaseTick, apply_ite State.hbm, apply_ite Act.s, foldl_hbm]
@[simp] theorem tileFault_hbm (f : FaultRec) (q : Nat) (col : Nat) (row : Nat) (s : State) : (tileFault f q col row s).hbm = s.hbm := by
  simp [tileFault]
theorem hop_hbm (k : Nat) :
    (∀ q col row port ov r s, (arrive k q col row port ov r s).hbm = s.hbm) ∧
    (∀ q col row port ov dirs r s, (passOn k q col row port ov dirs r s).hbm = s.hbm) ∧
    (∀ q col row port d ov r s, (capture k q col row port d ov r s).hbm = s.hbm) ∧
    (∀ q col row n r s, (holdPut k q col row n r s).hbm = s.hbm) ∧
    (∀ q col row side ov r s, (drive k q col row side ov r s).hbm = s.hbm) := by
  induction k with
  | zero => refine ⟨?_, ?_, ?_, ?_, ?_⟩ <;> intros <;> simp [arrive, passOn, capture, holdPut, drive]
  | succ k ih =>
    obtain ⟨h1, h2, h3, h4, h5⟩ := ih
    refine ⟨?_, ?_, ?_, ?_, ?_⟩ <;> intros
    · simp only [arrive]
      rw [foldl_hbm _ _ _ (by intros; simp [apply_ite State.hbm, h2, h4])]; simp
    · simp only [passOn]
      rw [apply_ite State.hbm, h3, foldl_hbm _ _ _ (by intros; simp [apply_ite State.hbm, h5])]; simp
    · simp only [capture]
      repeat' (first | with_reducible rfl | (simp [h4]; done) | split)
    · simp only [holdPut]
      rw [foldl_hbm _ _ _ (fun s u => ⟨foldl_hbm _ _ _ (by intros; simp [apply_ite State.hbm, h5])⟩)]; simp
    · simp only [drive]
      split <;> simp [h1]
@[simp] theorem arrive_hbm (k q col row port : Nat) (ov : Bool) (r : Run) (s : State) : (arrive k q col row port ov r s).hbm = s.hbm := (hop_hbm k).1 ..
@[simp] theorem passOn_hbm (k q col row port : Nat) (ov : Bool) (dirs : Nat) (r : Run) (s : State) : (passOn k q col row port ov dirs r s).hbm = s.hbm := (hop_hbm k).2.1 ..
@[simp] theorem capture_hbm (k q col row port d : Nat) (ov : Bool) (r : Run) (s : State) : (capture k q col row port d ov r s).hbm = s.hbm := (hop_hbm k).2.2.1 ..
@[simp] theorem holdPut_hbm (k q col row n : Nat) (r : Run) (s : State) : (holdPut k q col row n r s).hbm = s.hbm := (hop_hbm k).2.2.2.1 ..
@[simp] theorem drive_hbm (k q col row side : Nat) (ov : Bool) (r : Run) (s : State) : (drive k q col row side ov r s).hbm = s.hbm := (hop_hbm k).2.2.2.2 ..





@[simp] theorem suspectOwner_hbm (q : Nat) (col : Nat) (row : Nat) (s : State) : (suspectOwner q col row s).hbm = s.hbm := by
  simp [suspectOwner, apply_ite State.hbm, apply_ite Act.s, foldl_hbm]
@[simp] theorem portCollision_hbm (q : Nat) (col : Nat) (row : Nat) (side : Nat) (x : Nat) (w : LWord) (s : State) : (portCollision q col row side x w s).hbm = s.hbm := by
  simp [portCollision]
@[simp] theorem driveOwn_hbm (q : Nat) (col : Nat) (row : Nat) (side : Nat) (x : Nat) (w : LWord) (s : State) : (driveOwn q col row side x w s).hbm = s.hbm := by
  simp [driveOwn, apply_ite State.hbm, apply_ite Act.s, foldl_hbm]
@[simp] theorem captureIdle_hbm (q : Nat) (col : Nat) (row : Nat) (u : Route) (s : State) : (captureIdle q col row u s).hbm = s.hbm := by
  simp [captureIdle, apply_ite State.hbm, apply_ite Act.s, foldl_hbm]
@[simp] theorem addRoute_hbm (q : Nat) (col : Nat) (row : Nat) (u : Route) (s0 : State) : (addRoute q col row u s0).hbm = s0.hbm := by
  unfold addRoute; (repeat' (first | with_reducible rfl | (simp [apply_ite State.hbm, apply_ite Act.s, foldl_hbm]; done) | split | (rw [foldl_hbm] <;> intros)))
@[simp] theorem crossingBad_hbm (q : Nat) (s : State) : (crossingBad q s).hbm = s.hbm := by
  simp [crossingBad]
@[simp] theorem takeWord_hbm (q : Nat) (lane : Nat) (bank : Nat) (x : Nat) (idx : Nat) (e : Slot) (ov : Bool) (w : LWord) (s0 : State) : (takeWord q lane bank x idx e ov w s0).hbm = s0.hbm := by
  simp [takeWord, apply_ite State.hbm, apply_ite Act.s, foldl_hbm]
@[simp] theorem laneFault_hbm (q : Nat) (lane : Nat) (x : Nat) (idx : Nat) (count : Bool) (sites : List Nat) (s : State) : (laneFault q lane x idx count sites s).hbm = s.hbm := by
  simp [laneFault, apply_ite State.hbm, apply_ite Act.s, foldl_hbm]
@[simp] theorem elasticBad_hbm (q : Nat) (lane : Nat) (e : Slot) (s : State) : (elasticBad q lane e s).hbm = s.hbm := by
  simp [elasticBad, apply_ite State.hbm, apply_ite Act.s, foldl_hbm]
@[simp] theorem fixedPut_hbm (q : Nat) (col : Nat) (row : Nat) (bank : Nat) (x : Nat) (w : LWord) (s : State) : (fixedPut q col row bank x w s).hbm = s.hbm := by
  unfold fixedPut; (try dsimp only); (repeat' (first | with_reducible rfl | (simp [apply_ite State.hbm, apply_ite Act.s, foldl_hbm]; done) | split | (rw [foldl_hbm] <;> intros) | dsimp only | (simp [apply_ite State.hbm, foldl_hbm])))
@[simp] theorem spendCredit_hbm (h : Nat) (loop : Nat) (n : Nat) (s : State) : (spendCredit h loop n s).hbm = s.hbm := by
  simp [spendCredit]
@[simp] theorem giveCredit_hbm (h : Nat) (loop : Nat) (s : State) : (giveCredit h loop s).hbm = s.hbm := by
  simp [giveCredit]
@[simp] theorem passFault_hbm (h : Nat) (f : FaultRec) (q : Nat) (col : Nat) (row : Nat) (s : State) : (passFault h f q col row s).hbm = s.hbm := by
  simp [passFault]
@[simp] theorem queueArrive_hbm (h : Nat) (q : Nat) (col : Nat) (row : Nat) (ag : Nat) (l : MLine) (s : State) : (queueArrive h q col row ag l s).hbm = s.hbm := by
  unfold queueArrive; (try dsimp only); (repeat' (first | with_reducible rfl | (simp [apply_ite State.hbm, apply_ite Act.s, foldl_hbm]; done) | split | (rw [foldl_hbm] <;> intros) | dsimp only | (simp [apply_ite State.hbm, foldl_hbm])))
@[simp] theorem elasticPut_hbm (h : Nat) (q : Nat) (col : Nat) (row : Nat) (x : Nat) (w : LWord) (s : State) : (elasticPut h q col row x w s).hbm = s.hbm := by
  unfold elasticPut; (try dsimp only); (repeat' (first | with_reducible rfl | (simp [apply_ite State.hbm, apply_ite Act.s, foldl_hbm]; done) | split | (rw [foldl_hbm] <;> intros) | dsimp only | (simp [apply_ite State.hbm, foldl_hbm])))
@[simp] theorem deliver_hbm (h : Nat) (elastic : Bool) (slotBank : Nat) (q : Nat) (col : Nat) (row : Nat) (x : Nat) (dest : Nat) (w : LWord) (s : State) : (deliver h elastic slotBank q col row x dest w s).hbm = s.hbm := by
  simp [deliver, apply_ite State.hbm, apply_ite Act.s, foldl_hbm]
@[simp] theorem chainOut_hbm (q : Nat) (col : Nat) (row : Nat) (x : Nat) (c : Chain) (s : State) : (chainOut q col row x c s).hbm = s.hbm := by
  simp [chainOut, apply_ite State.hbm, apply_ite Act.s, foldl_hbm]
@[simp] theorem markUnit_hbm (st : Nat) (u : Nat) (s : State) : (markUnit st u s).hbm = s.hbm := by
  simp [markUnit]
@[simp] theorem failUnit_hbm (u : Nat) (s : State) : (failUnit u s).hbm = s.hbm := by
  simp [failUnit]
@[simp] theorem maintEv_hbm (code : Nat) (h : Nat) (act : Nat) (s : State) : (maintEv code h act s).hbm = s.hbm := by
  simp [maintEv]
@[simp] theorem startAct_hbm (r : MaintReq) (j : Nat) (s : State) : (startAct r j s).hbm = s.hbm := by
  simp [startAct]
@[simp] theorem queueAct_hbm (r : MaintReq) (j : Nat) (s : State) : (queueAct r j s).hbm = s.hbm := by
  simp [queueAct]
@[simp] theorem endAct_hbm (h : Nat) (aborted : Bool) (s : State) : (endAct h aborted s).hbm = s.hbm := by
  unfold endAct; (repeat' (first | with_reducible rfl | (simp [apply_ite State.hbm, apply_ite Act.s, foldl_hbm]; done) | split | (rw [foldl_hbm] <;> intros)))
@[simp] theorem setRot_hbm (r : Rot) (s : State) : (setRot r s).hbm = s.hbm := by rfl
@[simp] theorem dropRot_hbm (r : Rot) (aborted : Bool) (s : State) : (dropRot r aborted s).hbm = s.hbm := by
  simp [dropRot, apply_ite State.hbm, apply_ite Act.s, foldl_hbm]
@[simp] theorem loseQuad_hbm (q : Nat) (clean : Bool) (s : State) : (loseQuad q clean s).hbm = s.hbm := by
  simp [loseQuad, apply_ite State.hbm, apply_ite Act.s, foldl_hbm]
@[simp] theorem rotActiveBad_hbm (r : Rot) (s : State) : (rotActiveBad r s).hbm = s.hbm := by
  simp [rotActiveBad]
@[simp] theorem rotSpareBad_hbm (r : Rot) (s : State) : (rotSpareBad r s).hbm = s.hbm := by
  simp [rotSpareBad]
@[simp] theorem rotUndecided_hbm (r : Rot) (s : State) : (rotUndecided r s).hbm = s.hbm := by
  simp [rotUndecided, apply_ite State.hbm, apply_ite Act.s, foldl_hbm]
@[simp] theorem rotBothBad_hbm (r : Rot) (s : State) : (rotBothBad r s).hbm = s.hbm := by
  simp [rotBothBad]
@[simp] theorem rotDecide_hbm (recomputed : Bool) (aBad : Bool) (sBad : Bool) (r : Rot) (s : State) : (rotDecide recomputed aBad sBad r s).hbm = s.hbm := by
  unfold rotDecide; (repeat' (first | with_reducible rfl | (simp [apply_ite State.hbm, apply_ite Act.s, foldl_hbm]; done) | split | (rw [foldl_hbm] <;> intros)))
@[simp] theorem rotMismatch_hbm (covered : Bool) (aBad : Bool) (sBad : Bool) (r : Rot) (s : State) : (rotMismatch covered aBad sBad r s).hbm = s.hbm := by
  simp [rotMismatch, apply_ite State.hbm, apply_ite Act.s, foldl_hbm]
@[simp] theorem moveRots_hbm (s : State) : (moveRots s).hbm = s.hbm := by
  simp [moveRots, apply_ite State.hbm, apply_ite Act.s, foldl_hbm]
@[simp] theorem rotSwapped_hbm (hs : List Nat) (s : State) : (rotSwapped hs s).hbm = s.hbm := by rfl
@[simp] theorem holdTiles_hbm (hold : Bool) (l : List (Nat × Nat × Nat)) (s : State) : (holdTiles hold l s).hbm = s.hbm := by
  simp [holdTiles, apply_ite State.hbm, apply_ite Act.s, foldl_hbm]
@[simp] theorem holdPasses_hbm (l : List (Nat × Nat × Nat)) (s : State) : (holdPasses l s).hbm = s.hbm := by
  simp [holdPasses, apply_ite State.hbm, apply_ite Act.s, foldl_hbm]
@[simp] theorem poisonTile_hbm (n : Nat) (p : Nat × Nat × Nat) (s : State) : (poisonTile n p s).hbm = s.hbm := by
  simp [poisonTile, apply_ite State.hbm, apply_ite Act.s, foldl_hbm]
@[simp] theorem heldTick_hbm (n : Nat) (s : State) : (heldTick n s).hbm = s.hbm := by
  simp [heldTick, apply_ite State.hbm, apply_ite Act.s, foldl_hbm]
@[simp] theorem loseStores_hbm (p : Nat × Nat × Nat) (s : State) : (loseStores p s).hbm = s.hbm := by
  unfold loseStores; (repeat' (first | with_reducible rfl | (simp [apply_ite State.hbm, apply_ite Act.s, foldl_hbm]; done) | split | (rw [foldl_hbm] <;> intros)))
@[simp] theorem stopSection_hbm (h : Nat) (s : State) : (stopSection h s).hbm = s.hbm := by
  simp [stopSection]
@[simp] theorem endRemaps_hbm (q : Nat) (s : State) : (endRemaps q s).hbm = s.hbm := by
  simp [endRemaps, apply_ite State.hbm, apply_ite Act.s, foldl_hbm]
@[simp] theorem quadDown_hbm (q : Nat) (s : State) : (quadDown q s).hbm = s.hbm := by
  simp [quadDown, apply_ite State.hbm, apply_ite Act.s, foldl_hbm]
@[simp] theorem quadLosses_hbm (s : State) : (quadLosses s).hbm = s.hbm := by
  simp [quadLosses, apply_ite State.hbm, apply_ite Act.s, foldl_hbm]
@[simp] theorem clearQuad_hbm (q : Nat) (s : State) : (clearQuad q s).hbm = s.hbm := by rfl
@[simp] theorem unloadQuad_hbm (q : Nat) (s : State) : (unloadQuad q s).hbm = s.hbm := by
  simp [unloadQuad, apply_ite State.hbm, apply_ite Act.s, foldl_hbm]
@[simp] theorem quadWake_hbm (q : Nat) (j : Nat) (s : State) : (quadWake q j s).hbm = s.hbm := by
  simp [quadWake, apply_ite State.hbm, apply_ite Act.s, foldl_hbm]
@[simp] theorem quadOff_hbm (q : Nat) (s : State) : (quadOff q s).hbm = s.hbm := by
  simp [quadOff]
@[simp] theorem quadEdge_hbm (q : Nat) (idle : Bool) (s : State) : (quadEdge q idle s).hbm = s.hbm := by
  unfold quadEdge; (repeat' (first | with_reducible rfl | (simp [apply_ite State.hbm, apply_ite Act.s, foldl_hbm]; done) | split | (rw [foldl_hbm] <;> intros)))
@[simp] theorem runQueued_hbm (a : Activity) (s : State) : (runQueued a s).hbm = s.hbm := by
  simp [runQueued, apply_ite State.hbm, apply_ite Act.s, foldl_hbm]
@[simp] theorem serveMaint_hbm (y0 : Nat) (y1 : State) : (serveMaint y0 y1).hbm = y1.hbm := by
  induction y0 generalizing y1 with
  | zero => rfl
  | succ n ih => unfold serveMaint; split <;> simp [apply_ite State.hbm, ih]
@[simp] theorem alignTick_hbm (t : Nat) (io : IoErr) (s0 : State) : (alignTick t io s0).hbm = s0.hbm := by
  simp [alignTick, apply_ite State.hbm, apply_ite Act.s, foldl_hbm]
@[simp] theorem wideCheck_hbm (t : Nat) (f : Option FireCase) (s : State) : (wideCheck t f s).hbm = s.hbm := by
  unfold wideCheck; (repeat' (first | with_reducible rfl | (simp [apply_ite State.hbm, apply_ite Act.s, foldl_hbm]; done) | split | (rw [foldl_hbm] <;> intros)))
@[simp] theorem enterRequest_hbm (r : Option RecReq) (s : State) : (enterRequest r s).hbm = s.hbm := by
  unfold enterRequest; (repeat' (first | with_reducible rfl | (simp [apply_ite State.hbm, apply_ite Act.s, foldl_hbm]; done) | split | (rw [foldl_hbm] <;> intros)))
@[simp] theorem enterParisons_hbm (t : Nat) (o : CombOut) (s : State) : (enterParisons t o s).hbm = s.hbm := by
  simp [enterParisons, apply_ite State.hbm, apply_ite Act.s, foldl_hbm]
@[simp] theorem tickOutcome_hbm (t : Nat) (o : CombOut) (s : State) : (tickOutcome t o s).1.hbm = s.hbm := by
  unfold tickOutcome
  dsimp only
  repeat' (first | with_reducible rfl | (simp [apply_ite State.hbm]; done) | split)

@[simp] theorem ghoStart_hbm (t : Nat) (o : CombOut) (g : Nat) (s : State) : (ghoStart t o g s).hbm = s.hbm := by
  simp [ghoStart, apply_ite State.hbm, apply_ite Act.s, foldl_hbm]
@[simp] theorem enterMarks_hbm (t : Nat) (i : CombIn) (o : CombOut) (ls : Tbl LineSt) (s : State) : (enterMarks t i o ls s).hbm = s.hbm := by rfl
@[simp] theorem decisionLog_hbm (t : Nat) (o : CombOut) (full : Bool) (s : State) : (decisionLog t o full s).hbm = s.hbm := by
  simp [decisionLog, apply_ite State.hbm, apply_ite Act.s, foldl_hbm]
@[simp] theorem dropInputs_hbm (t : Nat) (s : State) : (dropInputs t s).hbm = s.hbm := by rfl
@[simp] theorem inputLog_hbm (t : Nat) (s : State) : (inputLog t s).hbm = s.hbm := by
  simp [inputLog, apply_ite State.hbm, apply_ite Act.s, foldl_hbm]
@[simp] theorem closeDigests_hbm (t : Nat) (s : State) : (closeDigests t s).hbm = s.hbm := by
  simp [closeDigests, apply_ite State.hbm, apply_ite Act.s, foldl_hbm]
@[simp] theorem afterDecision_hbm (t : Nat) (s : State) : (afterDecision t s).hbm = s.hbm := by rfl
@[simp] theorem decisionEffects_hbm (t : Nat) (i : CombIn) (o : CombOut) (ls : Tbl LineSt) (full : Bool) (s : State) : (decisionEffects t i o ls full s).hbm = s.hbm := by
  simp [decisionEffects, apply_ite State.hbm, apply_ite Act.s, foldl_hbm]
@[simp] theorem shStart_hbm (t : Nat) (s : State) : (shStart t s).hbm = s.hbm := by
  simp [shStart, apply_ite State.hbm, apply_ite Act.s, foldl_hbm]
@[simp] theorem decideTick_hbm (t : Nat) (io : IoErr) (s0 : State) : (decideTick t io s0).hbm = s0.hbm := by
  simp [decideTick, apply_ite State.hbm, apply_ite Act.s, foldl_hbm]
@[simp] theorem startPass_hbm (hd : Nat) (c : Nat) (x : Nat) (s : State) : (startPass hd c x s).hbm = s.hbm := by
  simp [startPass]
@[simp] theorem finishPass_hbm (hd : Nat) (v : Nat) (x : Nat) (s : State) : (finishPass hd v x s).hbm = s.hbm := by
  simp [finishPass]
@[simp] theorem sectionBoundary_hbm (hd : Nat) (x : Nat) (s : State) : (sectionBoundary hd x s).hbm = s.hbm := by
  simp [sectionBoundary]
@[simp] theorem receivePorts_hbm (a : TileAt) (r : RowCtx) (s : State) : (receivePorts a r s).hbm = s.hbm := by
  simp [receivePorts, apply_ite State.hbm, apply_ite Act.s, foldl_hbm]
@[simp] theorem schedBad_hbm (a : TileAt) (r : RowCtx) (s : State) : (schedBad a r s).hbm = s.hbm := by
  simp [schedBad, apply_ite State.hbm, apply_ite Act.s, foldl_hbm]
@[simp] theorem freezeRow_hbm (a : TileAt) (r : RowCtx) (waitAg : Option Nat) (waits : Option Nat) (s : State) : (freezeRow a r waitAg waits s).hbm = s.hbm := by
  unfold freezeRow; (try dsimp only); (repeat' (first | with_reducible rfl | (simp [apply_ite State.hbm, apply_ite Act.s, foldl_hbm]; done) | split | (rw [foldl_hbm] <;> intros) | dsimp only | (simp [apply_ite State.hbm, foldl_hbm])))
@[simp] theorem proceed_hbm (a : TileAt) (r : RowCtx) (s : State) : (proceed a r s).hbm = s.hbm := by
  simp [proceed, apply_ite State.hbm, apply_ite Act.s, foldl_hbm]
@[simp] theorem spread_hbm (a : TileAt) (r : RowCtx) (chainOff : Nat) (o : TileOut) (s : State) : (spread a r chainOff o s).hbm = s.hbm := by
  unfold spread; (try dsimp only); (repeat' (first | with_reducible rfl | (simp [apply_ite State.hbm, apply_ite Act.s, foldl_hbm]; done) | split | (rw [foldl_hbm] <;> intros) | dsimp only | (simp [apply_ite State.hbm, foldl_hbm])))
@[simp] theorem rotFound_hbm (op : Nat) (a : TileAt) (o : TileOut) (rot : Option Rot) (s : State) : (rotFound op a o rot s).hbm = s.hbm := by
  unfold rotFound; (repeat' (first | with_reducible rfl | (simp [apply_ite State.hbm, apply_ite Act.s, foldl_hbm]; done) | split | (rw [foldl_hbm] <;> intros)))
theorem runRow_hbm (op chainOff : Nat) (f : RowOp) (a : TileAt) (s : State) (hf : ∀ r e t s s', KeepsMemory s' ((f r e t s).2 s')) :
    (runRow op chainOff f a s).hbm = s.hbm := by
  have hg : ∀ r w ce, (runRow.go op chainOff f a s r w ce).hbm = s.hbm := by
    intro r w ce
    unfold runRow.go
    dsimp only
    repeat' (first | with_reducible rfl | (simp [fun r e t s s' => (hf r e t s s').eq, apply_ite State.hbm]; done) | split)
  unfold runRow
  dsimp only
  repeat' (first | with_reducible rfl | (simp [hg]; done) | split)

@[simp] theorem tileRow_hbm (op chainOff : Nat) (f : Env → Tile → TileOut) (a : TileAt) (s : State) : (tileRow op chainOff f a s).hbm = s.hbm :=
  runRow_hbm _ _ _ _ _ (fun _ _ _ _ _ => ⟨rfl⟩)

@[simp] theorem sectionEdge_hbm (n : Nat) (s : State) : (sectionEdge n s).hbm = s.hbm := by
  simp [sectionEdge, apply_ite State.hbm, apply_ite Act.s, foldl_hbm]
@[simp] theorem request_hbm (h : Nat) (l : Nat × ImLoop) (lines : List MLine) (s : State) : (request h l lines s).hbm = s.hbm := by
  simp [request]
@[simp] theorem pcapLines_hbm (a : TileAt) (s : State) : (pcapLines a s).hbm = s.hbm := by
  unfold pcapLines; (repeat' (first | with_reducible rfl | (simp [apply_ite State.hbm, apply_ite Act.s, foldl_hbm]; done) | split | (rw [foldl_hbm] <;> intros)))
theorem takeLine_hbm (hd : Nat) (s : State) (a : Ask) (l : MLine) (t : State) (h : takeLine hd s = some (a, l, t)) : t.hbm = s.hbm := by
  unfold takeLine at h
  repeat' (first | cases h | split at h)
  all_goals (first | with_reducible rfl | simp_all)

@[simp] theorem mregOr_hbm (b : FBank) (n : Nat) (m : Nat) (x : Nat) (w : LWord) (s : State) : (mregOr b n m x w s).hbm = s.hbm := by rfl
@[simp] theorem mregClear_hbm (m : Nat) (x : Nat) (s : State) : (mregClear m x s).hbm = s.hbm := by rfl
@[simp] theorem takeLink_hbm (t n : Nat) (e : FSlot) (s : State) : (takeLink t n e s).2.hbm = s.hbm := by
  unfold takeLink
  dsimp only
  repeat' (first | with_reducible rfl | (simp; done) | split)

@[simp] theorem fslotWord_hbm (t n : Nat) (e : FSlot) (s : State) : (fslotWord t n e s).2.hbm = s.hbm := by
  unfold fslotWord
  repeat' (first | with_reducible rfl | (simp; done) | split)

@[simp] theorem launch_hbm (l : Nat) (next : Nat) (w : LWord) (s : State) : (launch l next w s).hbm = s.hbm := by
  simp [launch, apply_ite State.hbm, apply_ite Act.s, foldl_hbm]
@[simp] theorem takePseq_hbm (dest vc : Nat) (s : State) : (takePseq dest vc s).2.hbm = s.hbm := rfl

@[simp] theorem erxAdd_hbm (dport : Nat) (w : LWord) (s : State) : (erxAdd dport w s).hbm = s.hbm := by rfl
@[simp] theorem sendPacket_hbm (p : Packet) (s : State) : (sendPacket p s).hbm = s.hbm := by
  unfold sendPacket; (repeat' (first | with_reducible rfl | (simp [apply_ite State.hbm, apply_ite Act.s, foldl_hbm]; done) | split | (rw [foldl_hbm] <;> intros)))
@[simp] theorem sendMsg_hbm (l : Nat) (m : Msg) (s : State) : (sendMsg l m s).hbm = s.hbm := by rfl
@[simp] theorem sendMsg2_hbm (d : Nat) (m : Msg2) (s : State) : (sendMsg2 d m s).hbm = s.hbm := by rfl
@[simp] theorem grantTo_hbm (d : Nat) (s : State) : (grantTo d s).hbm = s.hbm := by
  simp [grantTo, apply_ite State.hbm, apply_ite Act.s, foldl_hbm]
@[simp] theorem tokenAsked_hbm (d : Nat) (s : State) : (tokenAsked d s).hbm = s.hbm := by
  simp [tokenAsked, apply_ite State.hbm, apply_ite Act.s, foldl_hbm]
@[simp] theorem tokenBack_hbm (d : Nat) (s : State) : (tokenBack d s).hbm = s.hbm := by
  unfold tokenBack; (try dsimp only); (repeat' (first | with_reducible rfl | (simp [apply_ite State.hbm, apply_ite Act.s, foldl_hbm]; done) | split | (rw [foldl_hbm] <;> intros) | dsimp only | (simp [apply_ite State.hbm, foldl_hbm])))
@[simp] theorem erouteApply_hbm (t : List (Nat × Nat)) (s : State) : (erouteApply t s).hbm = s.hbm := by
  simp [erouteApply, apply_ite State.hbm, apply_ite Act.s, foldl_hbm]
@[simp] theorem routesOut_hbm (s : State) : (routesOut s).hbm = s.hbm := by
  simp [routesOut, apply_ite State.hbm, apply_ite Act.s, foldl_hbm]
@[simp] theorem nameBarrier_hbm (b : BarrierDesc) (s : State) : (nameBarrier b s).hbm = s.hbm := by
  simp [nameBarrier]
@[simp] theorem sendKept_hbm (dev : Nat) (sb : Nat) (s : State) : (sendKept dev sb s).hbm = s.hbm := by
  simp [sendKept, apply_ite State.hbm, apply_ite Act.s, foldl_hbm]
@[simp] theorem loseDevice_hbm (dev : Nat) (p : Plan) (s : State) : (loseDevice dev p s).hbm = s.hbm := by
  unfold loseDevice; (try dsimp only); (repeat' (first | with_reducible rfl | (simp [apply_ite State.hbm, apply_ite Act.s, foldl_hbm]; done) | split | (rw [foldl_hbm] <;> intros) | dsimp only | (simp [apply_ite State.hbm, foldl_hbm])))
@[simp] theorem linkLostAt_hbm (dev : Nat) (l : Nat) (s : State) : (linkLostAt dev l s).hbm = s.hbm := by
  unfold linkLostAt; (try dsimp only); (repeat' (first | with_reducible rfl | (simp [apply_ite State.hbm, apply_ite Act.s, foldl_hbm]; done) | split | (rw [foldl_hbm] <;> intros) | dsimp only | (simp [apply_ite State.hbm, foldl_hbm])))
@[simp] theorem linkBackAt_hbm (dev : Nat) (l : Nat) (need : Nat) (s : State) : (linkBackAt dev l need s).hbm = s.hbm := by
  unfold linkBackAt; (try dsimp only); (repeat' (first | with_reducible rfl | (simp [apply_ite State.hbm, apply_ite Act.s, foldl_hbm]; done) | split | (rw [foldl_hbm] <;> intros) | dsimp only | (simp [apply_ite State.hbm, foldl_hbm])))
@[simp] theorem packMsgs_hbm (l : Nat) (s : State) : (packMsgs l s).hbm = s.hbm := by
  unfold packMsgs
  exact foldl_hbm _ _ _ (fun s e => ⟨foldl_hbm _ _ _ (fun s ws => ⟨by simp only [sendPacket_hbm, takePseq_hbm]⟩)⟩)
@[simp] theorem sendCw_hbm (l : Nat) (raw : Nat) (s : State) : (sendCw l raw s).hbm = s.hbm := by
  unfold sendCw
  exact (send_hbm _ _).trans ((foldl_hbm _ _ _ (fun s p => ⟨by split <;> simp only [giveCredit_hbm]⟩)).trans (setLink_hbm _ _ _))
@[simp] theorem fall_hbm (l : Nat) (s : State) : (fall l s).hbm = s.hbm := by
  simp [fall]
@[simp] theorem fixedIn_hbm (l : Nat) (n : Nat) (w : LWord) (s : State) : (fixedIn l n w s).hbm = s.hbm := by
  simp [fixedIn, apply_ite State.hbm, apply_ite Act.s, foldl_hbm]
@[simp] theorem cwIn_hbm (l : Nat) (raw : Nat) (w : Codeword) (s : State) : (cwIn l raw w s).hbm = s.hbm := by
  unfold cwIn; (try dsimp only); (repeat' (first | with_reducible rfl | (simp [apply_ite State.hbm, apply_ite Act.s, foldl_hbm]; done) | split | (rw [foldl_hbm] <;> intros) | dsimp only | (simp [apply_ite State.hbm, foldl_hbm])))
@[simp] theorem reportLambda_hbm (l : Nat) (ps : Nat) (s : State) : (reportLambda l ps s).hbm = s.hbm := by
  unfold reportLambda; (repeat' (first | with_reducible rfl | (simp [apply_ite State.hbm, apply_ite Act.s, foldl_hbm]; done) | split | (rw [foldl_hbm] <;> intros)))
@[simp] theorem askToken_hbm (s : State) : (askToken s).hbm = s.hbm := by
  simp [askToken, apply_ite State.hbm, apply_ite Act.s, foldl_hbm]
@[simp] theorem returnToken_hbm (s : State) : (returnToken s).hbm = s.hbm := by
  simp [returnToken, apply_ite State.hbm, apply_ite Act.s, foldl_hbm]
@[simp] theorem releaseLock_hbm (cause : Nat) (s : State) : (releaseLock cause s).hbm = s.hbm := by
  simp [releaseLock, apply_ite State.hbm, apply_ite Act.s, foldl_hbm]
@[simp] theorem stepTo_hbm (t : Nat) (st : PartSt) (s : State) : (stepTo t st s).hbm = s.hbm := by
  simp [stepTo]
@[simp] theorem applyEnd_hbm (s : State) : (applyEnd s).hbm = s.hbm := by
  unfold applyEnd; (repeat' (first | with_reducible rfl | (simp [apply_ite State.hbm, apply_ite Act.s, foldl_hbm]; done) | split | (rw [foldl_hbm] <;> intros)))
@[simp] theorem nextPart_hbm (s : State) : (nextPart s).hbm = s.hbm := by
  unfold nextPart; (repeat' (first | with_reducible rfl | (simp [apply_ite State.hbm, apply_ite Act.s, foldl_hbm]; done) | split | (rw [foldl_hbm] <;> intros)))
@[simp] theorem partEnded_hbm (ok : Bool) (t : Nat) (s : State) : (partEnded ok t s).hbm = s.hbm := by
  simp [partEnded, apply_ite State.hbm, apply_ite Act.s, foldl_hbm]
@[simp] theorem openLehr_hbm (t : Nat) (s : State) : (openLehr t s).hbm = s.hbm := by
  simp [openLehr]
@[simp] theorem coresNew_hbm (new : Bool) (s : State) : (coresNew new s).hbm = s.hbm := by rfl
@[simp] theorem fallenBack_hbm (t : Nat) (s : State) : (fallenBack t s).hbm = s.hbm := by
  simp [fallenBack, apply_ite State.hbm, apply_ite Act.s, foldl_hbm]
@[simp] theorem fallBack_hbm (t : Nat) (c : Nat) (s : State) : (fallBack t c s).hbm = s.hbm := by
  simp [fallBack]
@[simp] theorem setCore_hbm (k : Nat) (c : Core) (s : State) : (setCore k c s).hbm = s.hbm := by rfl
@[simp] theorem rollBegin_hbm (k : Nat) (s : State) : (rollBegin k s).hbm = s.hbm := by
  simp [rollBegin, apply_ite State.hbm, apply_ite Act.s, foldl_hbm]
@[simp] theorem rollBack_hbm (k : Nat) (new : Bool) (s : State) : (rollBack k new s).hbm = s.hbm := by
  simp [rollBack, apply_ite State.hbm, apply_ite Act.s, foldl_hbm]
@[simp] theorem rollAborts_hbm (s : State) : (rollAborts s).hbm = s.hbm := by
  unfold rollAborts; (repeat' (first | with_reducible rfl | (simp [apply_ite State.hbm, apply_ite Act.s, foldl_hbm]; done) | split | (rw [foldl_hbm] <;> intros)))
@[simp] theorem activate_hbm (t : Nat) (s : State) : (activate t s).hbm = s.hbm := by
  unfold activate; (repeat' (first | with_reducible rfl | (simp [apply_ite State.hbm, apply_ite Act.s, foldl_hbm]; done) | split | (rw [foldl_hbm] <;> intros)))
@[simp] theorem deferPart_hbm (t : Nat) (s : State) : (deferPart t s).hbm = s.hbm := by
  simp [deferPart]
@[simp] theorem resourcesFree_hbm (s : State) : (resourcesFree s).hbm = s.hbm := by
  simp [resourcesFree]
@[simp] theorem beginMaint_hbm (r : MaintReq) (s : State) : (beginMaint r s).hbm = s.hbm := by
  simp [beginMaint, apply_ite State.hbm, apply_ite Act.s, foldl_hbm]
@[simp] theorem stopAct'_hbm (a : Activity) (s : State) : (stopAct' a s).hbm = s.hbm := by
  simp [stopAct', apply_ite State.hbm, apply_ite Act.s, foldl_hbm]
@[simp] theorem quadAct_hbm (h : Hdr) (q : Nat) (req : Nat) (j : Nat) (s : State) : (quadAct h q req j s).s.hbm = s.hbm := by
  unfold quadAct
  dsimp only
  repeat' (first | with_reducible rfl | (simp; done) | split | (rw [tickCmd_hbm]; intros; simp))
@[simp] theorem releaseStandby_hbm (s : State) : (releaseStandby s).hbm = s.hbm := by
  unfold releaseStandby; (repeat' (first | with_reducible rfl | (simp [apply_ite State.hbm, apply_ite Act.s, foldl_hbm]; done) | split | (rw [foldl_hbm] <;> intros)))
@[simp] theorem nameStandby_hbm (q : Option Nat) (s : State) : (nameStandby q s).hbm = s.hbm := by rfl
@[simp] theorem standbyAct_hbm (q : Option Nat) (s : State) : (standbyAct q s).s.hbm = s.hbm := by
  unfold standbyAct; (try dsimp only); (repeat' (first | with_reducible rfl | (simp [apply_ite State.hbm, apply_ite Act.s, foldl_hbm]; done) | split | (rw [foldl_hbm] <;> intros) | dsimp only | (simp [apply_ite State.hbm, foldl_hbm])))
@[simp] theorem setRec_hbm (x : QRec) (s : State) : (setRec x s).hbm = s.hbm := by rfl
@[simp] theorem doneRec_hbm (x : QRec) (s : State) : (doneRec x s).hbm = s.hbm := by rfl
@[simp] theorem takeInHand_hbm (roles : List Nat) (x : QRec) (s : State) : (takeInHand roles x s).hbm = s.hbm := by rfl
@[simp] theorem rewriteStores_hbm (f : FaultRec) (s : State) : (rewriteStores f s).hbm = s.hbm := by
  unfold rewriteStores; (try dsimp only); (repeat' (first | with_reducible rfl | (simp [apply_ite State.hbm, apply_ite Act.s, foldl_hbm]; done) | split | (rw [foldl_hbm] <;> intros) | dsimp only | (simp [apply_ite State.hbm, foldl_hbm])))
@[simp] theorem beginConfirm_hbm (f : FaultRec) (s : State) : (beginConfirm f s).hbm = s.hbm := by rfl
@[simp] theorem endConfirm_hbm (f : FaultRec) (s : State) : (endConfirm f s).hbm = s.hbm := by rfl
@[simp] theorem declareTile_hbm (x : QRec) (s0 : State) : (declareTile x s0).hbm = s0.hbm := by
  unfold declareTile; (try dsimp only); (repeat' (first | with_reducible rfl | (simp [apply_ite State.hbm, apply_ite Act.s, foldl_hbm]; done) | split | (rw [foldl_hbm] <;> intros) | dsimp only | (simp [apply_ite State.hbm, foldl_hbm])))
@[simp] theorem stopRotation_hbm (q : Nat) (k : Nat) (s : State) : (stopRotation q k s).hbm = s.hbm := by
  simp [stopRotation, apply_ite State.hbm, apply_ite Act.s, foldl_hbm]
@[simp] theorem declareFailed_hbm (x : QRec) (s : State) : (declareFailed x s).hbm = s.hbm := by
  unfold declareFailed; (try dsimp only); (repeat' (first | with_reducible rfl | (simp [apply_ite State.hbm, apply_ite Act.s, foldl_hbm]; done) | split | (rw [foldl_hbm] <;> intros) | dsimp only | (simp [apply_ite State.hbm, foldl_hbm])))
@[simp] theorem firstStep_hbm (x : QRec) (s : State) : (firstStep x s).hbm = s.hbm := by
  simp [firstStep, apply_ite State.hbm, apply_ite Act.s, foldl_hbm]
@[simp] theorem setRemap_hbm (r : Remap) (s : State) : (setRemap r s).hbm = s.hbm := by rfl
@[simp] theorem recStep_hbm (r : StepIn) (x : QRec) (s : State) : (recStep r x s).hbm = s.hbm := by
  unfold recStep; (repeat' (first | with_reducible rfl | (simp [apply_ite State.hbm, apply_ite Act.s, foldl_hbm]; done) | split | (rw [foldl_hbm] <;> intros)))
@[simp] theorem switchRemap_hbm (m : Remap) (s : State) : (switchRemap m s).hbm = s.hbm := by
  simp [switchRemap, apply_ite State.hbm, apply_ite Act.s, foldl_hbm]
@[simp] theorem moveQuadWork_hbm (q : Nat) (sb : Nat) (s : State) : (moveQuadWork q sb s).hbm = s.hbm := by
  simp [moveQuadWork, apply_ite State.hbm, apply_ite Act.s, foldl_hbm]
@[simp] theorem quadMoved_hbm (q : Nat) (sb : Nat) (s : State) : (quadMoved q sb s).hbm = s.hbm := by rfl
@[simp] theorem takeQuad_hbm (q : Nat) (sb : Nat) (s : State) : (takeQuad q sb s).hbm = s.hbm := by
  simp [takeQuad]
@[simp] theorem wakeOver_hbm (q : Nat) (status : Nat) (s : State) : (wakeOver q status s).hbm = s.hbm := by
  unfold wakeOver; (repeat' (first | with_reducible rfl | (simp [apply_ite State.hbm, apply_ite Act.s, foldl_hbm]; done) | split | (rw [foldl_hbm] <;> intros)))
@[simp] theorem moveAreas_hbm (s : State) : (moveAreas s).hbm = s.hbm := by
  simp [moveAreas, apply_ite State.hbm, apply_ite Act.s, foldl_hbm]
@[simp] theorem dropWindows_hbm (s : State) : (dropWindows s).hbm = s.hbm := by
  simp [dropWindows, apply_ite State.hbm, apply_ite Act.s, foldl_hbm]
@[simp] theorem ringShrink_hbm (s : State) : (ringShrink s).hbm = s.hbm := by
  simp [ringShrink, apply_ite State.hbm, apply_ite Act.s, foldl_hbm]
@[simp] theorem relayoutEnd_hbm (s : State) : (relayoutEnd s).hbm = s.hbm := by
  unfold relayoutEnd; (repeat' (first | with_reducible rfl | (simp [apply_ite State.hbm, apply_ite Act.s, foldl_hbm]; done) | split | (rw [foldl_hbm] <;> intros)))
@[simp] theorem loseCore_hbm (core : Nat) (code : Nat) (s : State) : (loseCore core code s).hbm = s.hbm := by
  simp [loseCore, apply_ite State.hbm, apply_ite Act.s, foldl_hbm]
@[simp] theorem expirePassed_hbm (s : State) : (expirePassed s).hbm = s.hbm := by
  unfold expirePassed
  exact foldl_hbm _ _ _ (fun s w => ⟨finishWait_hbm w stExpired s⟩)
@[simp] theorem resumeRole_hbm (role : Nat) (s : State) : (resumeRole role s).hbm = s.hbm := by
  unfold resumeRole; (repeat' (first | with_reducible rfl | (simp [apply_ite State.hbm, apply_ite Act.s, foldl_hbm]; done) | split | (rw [foldl_hbm] <;> intros)))
@[simp] theorem dmaFetch_hbm (e : Nat) (d : DmaDesc) (fetchErr : Bool) (s : State) : (dmaFetch e d fetchErr s).hbm = s.hbm := by
  unfold dmaFetch; (try dsimp only); (repeat' (first | with_reducible rfl | (simp [apply_ite State.hbm, apply_ite Act.s, foldl_hbm]; done) | split | (rw [foldl_hbm] <;> intros) | dsimp only | (simp [apply_ite State.hbm, foldl_hbm])))
@[simp] theorem oweFor_hbm (e : Nat) (d : DmaDesc) (bytes : Nat) (split : Bool) (s : State) : (oweFor e d bytes split s).hbm = s.hbm := by
  simp [oweFor]
@[simp] theorem recordSent_hbm (e : Nat) (n : Nat) (s : State) : (recordSent e n s).hbm = s.hbm := by
  unfold recordSent; (repeat' (first | with_reducible rfl | (simp [apply_ite State.hbm, apply_ite Act.s, foldl_hbm]; done) | split | (rw [foldl_hbm] <;> intros)))
@[simp] theorem entrySent_hbm (m : Nat) (n : Nat) (s : State) : (entrySent m n s).hbm = s.hbm := by
  simp [entrySent]
@[simp] theorem oweStopped_hbm (e : Nat) (s : State) : (oweStopped e s).hbm = s.hbm := by
  unfold oweStopped; (try dsimp only); (repeat' (first | with_reducible rfl | (simp [apply_ite State.hbm, apply_ite Act.s, foldl_hbm]; done) | split | (rw [foldl_hbm] <;> intros) | dsimp only | (simp [apply_ite State.hbm, foldl_hbm])))
@[simp] theorem setPrx_hbm (k : Nat) (x : PRx) (s : State) : (setPrx k x s).hbm = s.hbm := by rfl
@[simp] theorem collIn_hbm (p : Packet) (s : State) : (collIn p s).hbm = s.hbm := by rfl
@[simp] theorem keepConfig_hbm (dev : Nat) (b : List Byte) (s : State) : (keepConfig dev b s).hbm = s.hbm := by
  simp [keepConfig, apply_ite State.hbm, apply_ite Act.s, foldl_hbm]
@[simp] theorem replyFrom_hbm (src : Nat) (b : List Byte) (s : State) : (replyFrom src b s).hbm = s.hbm := by
  unfold replyFrom; (repeat' (first | with_reducible rfl | (simp [apply_ite State.hbm, apply_ite Act.s, foldl_hbm]; done) | split | (rw [foldl_hbm] <;> intros)))
@[simp] theorem cancelStart_hbm (t : Nat) (s : State) : (cancelStart t s).hbm = s.hbm := by
  simp [cancelStart, apply_ite State.hbm, apply_ite Act.s, foldl_hbm]
@[simp] theorem barrierFailed_hbm (dev : Nat) (t : Nat) (s : State) : (barrierFailed dev t s).hbm = s.hbm := by
  unfold barrierFailed; (repeat' (first | with_reducible rfl | (simp [apply_ite State.hbm, apply_ite Act.s, foldl_hbm]; done) | split | (rw [foldl_hbm] <;> intros)))
@[simp] theorem toldBy_hbm (src : Nat) (b : List Byte) (s : State) : (toldBy src b s).hbm = s.hbm := by
  unfold toldBy; (repeat' (first | with_reducible rfl | (simp [apply_ite State.hbm, apply_ite Act.s, foldl_hbm]; done) | split | (rw [foldl_hbm] <;> intros)))
@[simp] theorem vc2In_hbm (p : Packet) (s : State) : (vc2In p s).hbm = s.hbm := by
  unfold vc2In; (try dsimp only); (repeat' (first | with_reducible rfl | (simp [apply_ite State.hbm, apply_ite Act.s, foldl_hbm]; done) | split | (rw [foldl_hbm] <;> intros) | dsimp only | (simp [apply_ite State.hbm, foldl_hbm])))
@[simp] theorem takePacket_hbm (p : Packet) (s : State) : (takePacket p s).hbm = s.hbm := by
  unfold takePacket; (repeat' (first | with_reducible rfl | (simp [apply_ite State.hbm, apply_ite Act.s, foldl_hbm]; done) | split | (rw [foldl_hbm] <;> intros)))
@[simp] theorem takeHeld_hbm (y0 : Nat) (y1 : Nat) (y2 : State) : (takeHeld y0 y1 y2).hbm = y2.hbm := by
  induction y0 generalizing y2 with
  | zero => rfl
  | succ n ih => unfold takeHeld; dsimp only; split <;> simp [ih]
@[simp] theorem poisonLost_hbm (p : Packet) (n : Nat) (s : State) : (poisonLost p n s).hbm = s.hbm := by
  simp [poisonLost, apply_ite State.hbm, apply_ite Act.s, foldl_hbm]
theorem packetHere_hbm (p : Packet) (s t : State) (h : packetHere p s = some t) : t.hbm = s.hbm := by
  unfold packetHere at h
  dsimp only at h
  repeat' (first | cases h | split at h)
  all_goals (first | with_reducible rfl | simp | (simp at h; subst h; simp))

@[simp] theorem unbuffer_hbm (l : Nat) (vc : Nat) (n : Nat) (rest : List Flit) (s : State) : (unbuffer l vc n rest s).hbm = s.hbm := by
  simp [unbuffer]
@[simp] theorem delivered_hbm (r : Staged) (s : State) : (delivered r s).hbm = s.hbm := by
  simp [delivered, apply_ite State.hbm, apply_ite Act.s, foldl_hbm]
@[simp] theorem sendAll_hbm (ps : List Packet) (s : State) : (sendAll ps s).hbm = s.hbm := by
  simp [sendAll, apply_ite State.hbm, apply_ite Act.s, foldl_hbm]
@[simp] theorem markSent_hbm (r : Staged) (s : State) : (markSent r s).hbm = s.hbm := by rfl
@[simp] theorem fabricRecord_hbm (dest : Nat) (r : Staged) (s : State) : (fabricRecord dest r s).hbm = s.hbm := by
  unfold fabricRecord; (repeat' (first | with_reducible rfl | (simp [apply_ite State.hbm, apply_ite Act.s, foldl_hbm]; done) | split | (rw [foldl_hbm] <;> intros)))
@[simp] theorem flood_hbm (m : Msg) (s : State) : (flood m s).hbm = s.hbm := by
  simp [flood, apply_ite State.hbm, apply_ite Act.s, foldl_hbm]
@[simp] theorem floodBest_hbm (s : State) : (floodBest s).hbm = s.hbm := by
  unfold floodBest; (repeat' (first | with_reducible rfl | (simp [apply_ite State.hbm, apply_ite Act.s, foldl_hbm]; done) | split | (rw [foldl_hbm] <;> intros)))
@[simp] theorem helloOn_hbm (l : Nat) (s : State) : (helloOn l s).hbm = s.hbm := by
  simp [helloOn]
@[simp] theorem startDiscovery_hbm (epoch : Nat) (s : State) : (startDiscovery epoch s).hbm = s.hbm := by
  simp [startDiscovery, apply_ite State.hbm, apply_ite Act.s, foldl_hbm]
@[simp] theorem endDiscovery_hbm (s : State) : (endDiscovery s).hbm = s.hbm := by
  simp [endDiscovery]
@[simp] theorem tryAssign_hbm (s : State) : (tryAssign s).hbm = s.hbm := by
  unfold tryAssign; (try dsimp only); (repeat' (first | with_reducible rfl | (simp [apply_ite State.hbm, apply_ite Act.s, foldl_hbm]; done) | split | (rw [foldl_hbm] <;> intros) | dsimp only | (simp [apply_ite State.hbm, foldl_hbm])))
@[simp] theorem clearDrift_hbm (b : BarrierDesc) (s : State) : (clearDrift b s).hbm = s.hbm := by
  unfold clearDrift; (repeat' (first | with_reducible rfl | (simp [apply_ite State.hbm, apply_ite Act.s, foldl_hbm]; done) | split | (rw [foldl_hbm] <;> intros)))
@[simp] theorem exchange_hbm (n : Nat) (b : BarrierDesc) (s : State) : (exchange n b s).hbm = s.hbm := by
  simp [exchange, apply_ite State.hbm, apply_ite Act.s, foldl_hbm]
@[simp] theorem takeRole_hbm (n : Nat) (b : BarrierDesc) (s : State) : (takeRole n b s).hbm = s.hbm := by
  unfold takeRole; (repeat' (first | with_reducible rfl | (simp [apply_ite State.hbm, apply_ite Act.s, foldl_hbm]; done) | split | (rw [foldl_hbm] <;> intros)))
@[simp] theorem newMaster_hbm (b : BarrierDesc) (s : State) : (newMaster b s).hbm = s.hbm := by
  unfold newMaster; (repeat' (first | with_reducible rfl | (simp [apply_ite State.hbm, apply_ite Act.s, foldl_hbm]; done) | split | (rw [foldl_hbm] <;> intros)))
@[simp] theorem barrierEffect_hbm (n : Nat) (b : BarrierDesc) (s : State) : (barrierEffect n b s).hbm = s.hbm := by
  simp [barrierEffect, apply_ite State.hbm, apply_ite Act.s, foldl_hbm]
@[simp] theorem barrierEdge_hbm (n : Nat) (s : State) : (barrierEdge n s).hbm = s.hbm := by
  simp [barrierEdge, apply_ite State.hbm, apply_ite Act.s, foldl_hbm]
@[simp] theorem startSet_hbm (b : BarrierDesc) (s : State) : (startSet b s).hbm = s.hbm := by
  simp [startSet, apply_ite State.hbm, apply_ite Act.s, foldl_hbm]
@[simp] theorem toDeputy_hbm (d : Nat) (s : State) : (toDeputy d s).hbm = s.hbm := by
  simp [toDeputy, apply_ite State.hbm, apply_ite Act.s, foldl_hbm]
@[simp] theorem cancelTimed_hbm (s : State) : (cancelTimed s).hbm = s.hbm := by
  simp [cancelTimed, apply_ite State.hbm, apply_ite Act.s, foldl_hbm]
@[simp] theorem timeBecomes_hbm (l : Nat) (s : State) : (timeBecomes l s).hbm = s.hbm := by
  simp [timeBecomes, apply_ite State.hbm, apply_ite Act.s, foldl_hbm]
@[simp] theorem steer_hbm (d : Int) (locked : Bool) (s : State) : (steer d locked s).hbm = s.hbm := by
  simp [steer, apply_ite State.hbm, apply_ite Act.s, foldl_hbm]
@[simp] theorem loseSource_hbm (s : State) : (loseSource s).hbm = s.hbm := by
  simp [loseSource, apply_ite State.hbm, apply_ite Act.s, foldl_hbm]
@[simp] theorem tickHold_hbm (a : Nat) (b : Nat) (s : State) : (tickHold a b s).hbm = s.hbm := by
  simp [tickHold, apply_ite State.hbm, apply_ite Act.s, foldl_hbm]
@[simp] theorem tickLost_hbm (a : Nat) (b : Nat) (s : State) : (tickLost a b s).hbm = s.hbm := by
  simp [tickLost, apply_ite State.hbm, apply_ite Act.s, foldl_hbm]
@[simp] theorem alignEdge_hbm (l : Nat) (s : State) : (alignEdge l s).hbm = s.hbm := by
  unfold alignEdge; (repeat' (first | with_reducible rfl | (simp [apply_ite State.hbm, apply_ite Act.s, foldl_hbm]; done) | split | (rw [foldl_hbm] <;> intros)))
@[simp] theorem slipEdge_hbm (l : Nat) (s : State) : (slipEdge l s).hbm = s.hbm := by
  simp [slipEdge, apply_ite State.hbm, apply_ite Act.s, foldl_hbm]
@[simp] theorem deviantEdge_hbm (l : Nat) (s : State) : (deviantEdge l s).hbm = s.hbm := by
  simp [deviantEdge, apply_ite State.hbm, apply_ite Act.s, foldl_hbm]
@[simp] theorem ptpPut_hbm (k : Nat) (v : Nat) (s : State) : (ptpPut k v s).hbm = s.hbm := by rfl
@[simp] theorem ptpSteer_hbm (s : State) : (ptpSteer s).hbm = s.hbm := by
  unfold ptpSteer; (repeat' (first | with_reducible rfl | (simp [apply_ite State.hbm, apply_ite Act.s, foldl_hbm]; done) | split | (rw [foldl_hbm] <;> intros)))
@[simp] theorem ptpClient_hbm (raw : Nat) (kind : Nat) (t : Nat) (s : State) : (ptpClient raw kind t s).hbm = s.hbm := by
  unfold ptpClient; (repeat' (first | with_reducible rfl | (simp [apply_ite State.hbm, apply_ite Act.s, foldl_hbm]; done) | split | (rw [foldl_hbm] <;> intros)))
@[simp] theorem timedApply_hbm (e : Nat) (d : TimedDesc) (w : Nat) (lw : Nat) (s : State) : (timedApply e d w lw s).hbm = s.hbm := by rfl
@[simp] theorem tickStart_hbm (d : TimedDesc) (s : State) : (tickStart d s).hbm = s.hbm := by
  simp [tickStart]
@[simp] theorem zoneChange_hbm (n : Nat) (e : Eff) (s : State) : (zoneChange n e s).hbm = s.hbm := by
  simp [zoneChange, apply_ite State.hbm, apply_ite Act.s, foldl_hbm]
@[simp] theorem cfgAt_hbm (n : Nat) (es : List CfgEntry) (s : State) : (cfgAt n es s).hbm = s.hbm := by
  simp [cfgAt, apply_ite State.hbm, apply_ite Act.s, foldl_hbm]
@[simp] theorem applyEff_hbm (n : Nat) (e : Eff) (s : State) : (applyEff n e s).hbm = s.hbm := by
  unfold applyEff; (repeat' (first | with_reducible rfl | (simp [apply_ite State.hbm, apply_ite Act.s, foldl_hbm]; done) | split | (rw [foldl_hbm] <;> intros)))
@[simp] theorem applyOne_hbm (s : State) (w : Waiting) : (applyOne s w).hbm = s.hbm := by
  unfold applyOne
  dsimp only
  generalize stateFail s w = o
  cases o <;> simp
@[simp] theorem applyDue_hbm (s : State) : (applyDue s).hbm = s.hbm := by
  simp [applyDue, apply_ite State.hbm, apply_ite Act.s, foldl_hbm]
@[simp] theorem replayCmds_hbm (n : Nat) (s : State) : (replayCmds n s).hbm = s.hbm := by
  simp [replayCmds, apply_ite State.hbm, apply_ite Act.s, foldl_hbm]
@[simp] theorem armClear_hbm (n : Nat) (s : State) : (armClear n s).hbm = s.hbm := by
  simp [armClear]
@[simp] theorem recordStart_hbm (n : Nat) (kind : Nat) (restored : Option StateImage) (s : State) : (recordStart n kind restored s).hbm = s.hbm := by
  simp [recordStart, apply_ite State.hbm, apply_ite Act.s, foldl_hbm]
@[simp] theorem replayStart_hbm (s : State) : (replayStart s).hbm = s.hbm := by
  simp [replayStart, apply_ite State.hbm, apply_ite Act.s, foldl_hbm]
@[simp] theorem restoreAt_hbm (n : Nat) (s : State) : (restoreAt n s).hbm = s.hbm := by
  unfold restoreAt; (repeat' (first | with_reducible rfl | (simp [apply_ite State.hbm, apply_ite Act.s, foldl_hbm]; done) | split | (rw [foldl_hbm] <;> intros)))
@[simp] theorem runBegins_hbm (n : Nat) (kind : Nat) (s : State) : (runBegins n kind s).hbm = s.hbm := by
  simp [runBegins]
@[simp] theorem finishAt_hbm (op : Nat) (n : Nat) (s : State) : (finishAt op n s).hbm = s.hbm := by
  unfold finishAt
  exact foldl_hbm _ _ _ (fun s w => ⟨finishWait_hbm _ 0 s⟩)
@[simp] theorem scrubStart_hbm (s : State) : (scrubStart s).hbm = s.hbm := by
  simp [scrubStart, apply_ite State.hbm, apply_ite Act.s, foldl_hbm]
@[simp] theorem armEdge_hbm (n : Nat) (s : State) : (armEdge n s).hbm = s.hbm := by
  simp [armEdge, apply_ite State.hbm, apply_ite Act.s, foldl_hbm]
@[simp] theorem resumeShift_hbm (p : Nat) (n : Nat) (s : State) : (resumeShift p n s).hbm = s.hbm := by rfl
@[simp] theorem resumeEdge_hbm (n : Nat) (s : State) : (resumeEdge n s).hbm = s.hbm := by
  simp [resumeEdge, apply_ite State.hbm, apply_ite Act.s, foldl_hbm]
@[simp] theorem ladderMarks_hbm (n : Nat) (old : Nat) (new : Nat) (s : State) : (ladderMarks n old new s).hbm = s.hbm := by
  simp [ladderMarks, apply_ite State.hbm, apply_ite Act.s, foldl_hbm]
@[simp] theorem changeLevel_hbm (n : Nat) (new : Nat) (s : State) : (changeLevel n new s).hbm = s.hbm := by
  simp [changeLevel, apply_ite State.hbm, apply_ite Act.s, foldl_hbm]
@[simp] theorem ladderEdge_hbm (n : Nat) (s : State) : (ladderEdge n s).hbm = s.hbm := by
  simp [ladderEdge, apply_ite State.hbm, apply_ite Act.s, foldl_hbm]
@[simp] theorem ladderStep_hbm (n : Nat) (s : State) : (ladderStep n s).hbm = s.hbm := by
  simp [ladderStep, apply_ite State.hbm, apply_ite Act.s, foldl_hbm]
@[simp] theorem holdSegments_hbm (n : Nat) (s : State) : (holdSegments n s).hbm = s.hbm := by
  simp [holdSegments, apply_ite State.hbm, apply_ite Act.s, foldl_hbm]
@[simp] theorem edgeTime_hbm (n : Nat) (raw : Nat) (s : State) : (edgeTime n raw s).hbm = s.hbm := by
  simp [edgeTime]
@[simp] theorem answerSnap_hbm (s : State) (x : Hdr × Nat) : (answerSnap s x).hbm = s.hbm := by
  simp [answerSnap, apply_ite State.hbm, apply_ite Act.s, foldl_hbm]
@[simp] theorem serveSnaps_hbm (s : State) : (serveSnaps s).hbm = s.hbm := by
  simp [serveSnaps, apply_ite State.hbm, apply_ite Act.s, foldl_hbm]
@[simp] theorem heldCounted_hbm (n : Nat) (s : State) : (heldCounted n s).hbm = s.hbm := by
  simp [heldCounted, apply_ite State.hbm, apply_ite Act.s, foldl_hbm]
@[simp] theorem flushIdle_hbm (s : State) : (flushIdle s).hbm = s.hbm := by
  simp [flushIdle, apply_ite State.hbm, apply_ite Act.s, foldl_hbm]
@[simp] theorem planLinks_hbm (p : Plan) (s : State) : (planLinks p s).hbm = s.hbm := by
  unfold planLinks; (repeat' (first | with_reducible rfl | (simp [apply_ite State.hbm, apply_ite Act.s, foldl_hbm]; done) | split | (rw [foldl_hbm] <;> intros)))
@[simp] theorem planSet_hbm (h : Hdr) (p : Plan) (s : State) : (planSet h p s).hbm = s.hbm := by
  simp [planSet, apply_ite State.hbm, apply_ite Act.s, foldl_hbm]
@[simp] theorem forwardAct_hbm (h : Hdr) (dest : Nat) (bytes : List Byte) (j : Nat) (s : State) : (forwardAct h dest bytes j s).s.hbm = s.hbm := by
  simp [forwardAct, apply_ite State.hbm, apply_ite Act.s, foldl_hbm]
@[simp] theorem directWrite_hbm (e : CfgEntry) (s : State) : (directWrite e s).hbm = s.hbm := by
  unfold directWrite; (repeat' (first | with_reducible rfl | (simp [apply_ite State.hbm, apply_ite Act.s, foldl_hbm]; done) | split | (rw [foldl_hbm] <;> intros)))
@[simp] theorem haltCore_hbm (k : Nat) (s : State) : (haltCore k s).hbm = s.hbm := by
  simp [haltCore, apply_ite State.hbm, apply_ite Act.s, foldl_hbm]
@[simp] theorem capAt_hbm (step : Nat) (s : State) : (capAt step s).hbm = s.hbm := by rfl
@[simp] theorem setCap_hbm (on : Bool) (s : State) : (setCap on s).hbm = s.hbm := by
  simp [setCap, apply_ite State.hbm, apply_ite Act.s, foldl_hbm]
@[simp] theorem addPower_hbm (p : Nat) (s : State) : (addPower p s).hbm = s.hbm := by
  simp [addPower, apply_ite State.hbm, apply_ite Act.s, foldl_hbm]
@[simp] theorem thermEvents_hbm (old : Therm) (new : Therm) (kind : Nat) (s : State) : (thermEvents old new kind s).hbm = s.hbm := by
  simp [thermEvents, apply_ite State.hbm, apply_ite Act.s, foldl_hbm]
@[simp] theorem tripped_hbm (kind : Nat) (s : State) : (tripped kind s).hbm = s.hbm := by
  simp [tripped]
@[simp] theorem powerOver_hbm (s : State) : (powerOver s).hbm = s.hbm := by
  simp [powerOver, apply_ite State.hbm, apply_ite Act.s, foldl_hbm]
@[simp] theorem loseRail_hbm (rail : Nat) (s : State) : (loseRail rail s).hbm = s.hbm := by
  simp [loseRail, apply_ite State.hbm, apply_ite Act.s, foldl_hbm]
@[simp] theorem saveDoubt_hbm (s : State) : (saveDoubt s).hbm = s.hbm := by
  simp [saveDoubt]
@[simp] theorem supplyFault_hbm (rail : Nat) (s : State) : (supplyFault rail s).hbm = s.hbm := by
  simp [supplyFault]
@[simp] theorem saveFree_hbm (v : Save) (s : State) : (saveFree v s).2.hbm = s.hbm := by
  have hf : ∀ (l : List Nat) (x : List (BitVec 512) × State),
      (l.foldl (fun (x : List (BitVec 512) × State) (_ : Nat) => (x.1 ++ [(drawFree 512 x.2).1], (drawFree 512 x.2).2)) x).2.hbm = x.2.hbm := by
    intro l
    induction l with
    | nil => intro x; rfl
    | cons a t ih => intro x; rw [List.foldl_cons, ih]; rfl
  unfold saveFree
  dsimp only
  split <;> split <;> split <;> split <;> simp [hf]

@[simp] theorem storeSave_hbm (v : Save) (s : State) : (storeSave v s).hbm = s.hbm := by
  simp [storeSave, apply_ite State.hbm, apply_ite Act.s, foldl_hbm]
@[simp] theorem bootPart_hbm (b : BootIn) (s : State) (t : Nat) : (bootPart b s t).hbm = s.hbm := by
  unfold bootPart; (try dsimp only); (repeat' (first | with_reducible rfl | (simp [apply_ite State.hbm, apply_ite Act.s, foldl_hbm]; done) | split | (rw [foldl_hbm] <;> intros) | dsimp only | (simp [apply_ite State.hbm, foldl_hbm])))
@[simp] theorem bootFail_hbm (cause : Nat) (s : State) : (bootFail cause s).hbm = s.hbm := by
  simp [bootFail]
@[simp] theorem bootLoad_hbm (b : BootIn) (s : State) : (bootLoad b s).hbm = s.hbm := by
  simp [bootLoad, apply_ite State.hbm, apply_ite Act.s, foldl_hbm]
@[simp] theorem restoreSave_hbm (s : State) : (restoreSave s).hbm = s.hbm := by
  unfold restoreSave; (repeat' (first | with_reducible rfl | (simp [apply_ite State.hbm, apply_ite Act.s, foldl_hbm]; done) | split | (rw [foldl_hbm] <;> intros)))
@[simp] theorem bootRead_hbm (b : BootIn) (s : State) : (bootRead b s).hbm = s.hbm := by
  simp [bootRead]
@[simp] theorem bootCores_hbm (b : BootIn) (s : State) : (bootCores b s).hbm = s.hbm := by
  simp [bootCores, apply_ite State.hbm, apply_ite Act.s, foldl_hbm]
@[simp] theorem bootStacks_hbm (b : BootIn) (s : State) : (bootStacks b s).hbm = s.hbm := by
  simp [bootStacks, apply_ite State.hbm, apply_ite Act.s, foldl_hbm]
@[simp] theorem bootGrid_hbm (b : BootIn) (s : State) : (bootGrid b s).hbm = s.hbm := by
  simp [bootGrid, apply_ite State.hbm, apply_ite Act.s, foldl_hbm]
@[simp] theorem bootActs_hbm (s : State) : (bootActs s).hbm = s.hbm := by
  simp [bootActs, apply_ite State.hbm, apply_ite Act.s, foldl_hbm]
@[simp] theorem bootReady_hbm (s : State) : (bootReady s).hbm = s.hbm := by
  unfold bootReady
  dsimp only
  split <;> simp
theorem unlessSafe_hbm (f : State → State) (s : State) (hf : ∀ s, KeepsMemory s (f s)) : (unlessSafe f s).hbm = s.hbm := by
  unfold unlessSafe; split
  · rfl
  · exact (hf s).eq

@[simp] theorem outputsOff_hbm (s : State) : (outputsOff s).hbm = s.hbm := by rfl
@[simp] theorem spdmServe_hbm (code : Nat) (r : Spdm) (s : State) : (spdmServe code r s).2.hbm = s.hbm := by
  unfold spdmServe
  dsimp only
  repeat' (first | with_reducible rfl | (simp; done) | split)

@[simp] theorem spdmReply_hbm (r : Spdm) (m : List Byte) (s : State) : (spdmReply r m s).hbm = s.hbm := by
  simp [spdmReply, apply_ite State.hbm, apply_ite Act.s, foldl_hbm]
@[simp] theorem spdmRequest_hbm (code : Nat) (r : Spdm) (s : State) : (spdmRequest code r s).hbm = s.hbm := by
  simp [spdmRequest, apply_ite State.hbm, apply_ite Act.s, foldl_hbm]
@[simp] theorem contended_hbm (h : Hdr) (d8 : List Byte) (s : State) : (contended h d8 s).s.hbm = s.hbm := by
  simp [contended]
@[simp] theorem beginSession_hbm (h : Hdr) (m : Manifest) (len : Nat) (bytes : List Byte) (s : State) : (beginSession h m len bytes s).hbm = s.hbm := by
  simp [beginSession, apply_ite State.hbm, apply_ite Act.s, foldl_hbm]
@[simp] theorem beginAct_hbm (h : Hdr) (addr : Nat) (len : Nat) (whole : Bool) (found : List Byte) (s : State) : (beginAct h addr len whole found s).s.hbm = s.hbm := by
  simp [beginAct, apply_ite State.hbm, apply_ite Act.s, foldl_hbm]
@[simp] theorem selectParts_hbm (mask : Nat) (j : Nat) (s : State) : (selectParts mask j s).hbm = s.hbm := by rfl
@[simp] theorem applyAct_hbm (h : Hdr) (mask : Nat) (peers : List Nat) (j : Nat) (s : State) : (applyAct h mask peers j s).s.hbm = s.hbm := by
  unfold applyAct; (repeat' (first | with_reducible rfl | (simp [apply_ite State.hbm, apply_ite Act.s, foldl_hbm]; done) | split | (rw [foldl_hbm] <;> intros)))
@[simp] theorem wroteStep_hbm (t : Nat) (s : State) : (wroteStep t s).hbm = s.hbm := by
  unfold wroteStep; (try dsimp only); (repeat' (first | with_reducible rfl | (simp [apply_ite State.hbm, apply_ite Act.s, foldl_hbm]; done) | split | (rw [foldl_hbm] <;> intros) | dsimp only | (simp [apply_ite State.hbm, foldl_hbm])))
@[simp] theorem activateFails_hbm (t : Nat) (s : State) : (activateFails t s).hbm = s.hbm := by
  unfold activateFails; (repeat' (first | with_reducible rfl | (simp [apply_ite State.hbm, apply_ite Act.s, foldl_hbm]; done) | split | (rw [foldl_hbm] <;> intros)))
@[simp] theorem stepDone_hbm (t : Nat) (ok : Bool) (s : State) : (stepDone t ok s).hbm = s.hbm := by
  unfold stepDone; (try dsimp only); (repeat' (first | with_reducible rfl | (simp [apply_ite State.hbm, apply_ite Act.s, foldl_hbm]; done) | split | (rw [foldl_hbm] <;> intros) | dsimp only | (simp [apply_ite State.hbm, foldl_hbm])))
@[simp] theorem confirmPart_hbm (t : Nat) (s : State) : (confirmPart t s).hbm = s.hbm := by
  simp [confirmPart]
@[simp] theorem resumeHalted_hbm (level : Nat) (s : State) : (resumeHalted level s).hbm = s.hbm := by
  simp [resumeHalted, apply_ite State.hbm, apply_ite Act.s, foldl_hbm]
@[simp] theorem setLevel_hbm (level : Nat) (slot : Nat) (s : State) : (setLevel level slot s).hbm = s.hbm := by
  simp [setLevel]
@[simp] theorem unlockAct_hbm (addr : Nat) (len : Nat) (found : List Byte) (s : State) : (unlockAct addr len found s).s.hbm = s.hbm := by
  simp [unlockAct, apply_ite State.hbm, apply_ite Act.s, foldl_hbm]

/-- Local memory has its canonical form. -/
structure MemOk (s : State) : Prop where
  wf : Memory.wf s.hbm

/-- A fold of steps that keep the canonical form keeps it. -/
theorem foldl_wf {β : Type} (f : State → β → State) (l : List β) (s : State) (h : ∀ s x, MemOk s → MemOk (f s x))
    (hs : Memory.wf s.hbm) : Memory.wf (l.foldl f s).hbm := by
  induction l generalizing s with
  | nil => exact hs
  | cons a t ih => exact ih _ (h s a ⟨hs⟩).wf

theorem hbmWrite_wf (a : Nat) (bs : List Byte) (s : State) (h : Memory.wf s.hbm) : Memory.wf (hbmWrite a bs s).hbm := twf_tsetAll h _ _
theorem stackWipe_wf (k : Nat) (s : State) : Memory.wf (stackWipe k s).hbm := twf_nil _
theorem stackDown_wf (k : Nat) (s : State) : Memory.wf (stackDown k s).hbm := by simp only [stackDown, relayoutEnd_hbm, ringShrink_hbm, dropWindows_hbm, moveAreas_hbm]; exact stackWipe_wf k s
theorem persist_wf (s : State) : Memory.wf (persist s).hbm := twf_nil _
theorem placeWrite_wf (p : Place) (bs : List Byte) (s : State) (h : Memory.wf s.hbm) : Memory.wf (placeWrite p bs s).hbm := by
  unfold placeWrite
  split
  · simpa using h
  · exact hbmWrite_wf _ _ _ h
  · exact h
theorem windowWrite_wf (addr : Nat) (bs : List Byte) (s : State) (h : Memory.wf s.hbm) : Memory.wf (windowWrite addr bs s).hbm := by
  unfold windowWrite
  refine foldl_wf _ _ _ (fun t c ht => ⟨?_⟩) h
  have ht := ht.wf
  split
  · simpa using ht
  · exact hbmWrite_wf _ _ _ ht
  · exact ht
theorem storeBytes_wf (base size wp : Nat) (bs : List Byte) (s : State) (h : Memory.wf s.hbm) : Memory.wf (storeBytes base size wp bs s).hbm :=
  hbmWrite_wf _ _ _ (hbmWrite_wf _ _ _ h)
theorem storeRecord_wf (r : Staged) (s : State) (h : Memory.wf s.hbm) : Memory.wf (storeRecord r s).hbm := by
  unfold storeRecord
  dsimp only
  split
  · exact h
  · simpa using storeBytes_wf _ _ _ _ _ h
theorem dmaCopy_wf (e : Nat) (d : DmaDesc) (data : List Byte) (err : Option Nat) (s : State) (h : Memory.wf s.hbm) :
    Memory.wf (dmaCopy e d data err s).hbm := by
  have hp := fun p bs => placeWrite_wf p bs s h
  unfold dmaCopy
  dsimp only
  repeat' (first | split | simp only [parkHere_hbm, oweFor_hbm, setEng_hbm])
  all_goals first | exact h | exact hp _ _
theorem dmaFill_wf (e : Nat) (d : DmaDesc) (rest : List Byte) (begun : Bool) (took : Nat → State → State) (s : State)
    (ht : ∀ n s, KeepsMemory s (took n s)) (h : Memory.wf s.hbm) : Memory.wf (dmaFill e d rest begun took s).hbm := by
  have hp := fun p bs => placeWrite_wf p bs s h
  unfold dmaFill
  dsimp only
  repeat' (first | split | simp only [parkHere_hbm, oweFor_hbm, setEng_hbm, fun n s => (ht n s).eq])
  all_goals first | exact h | exact hp _ _
theorem dmaMove_wf (e : Nat) (d : DmaDesc) (data : List Byte) (err : Option Nat) (s : State) (h : Memory.wf s.hbm) :
    Memory.wf (dmaMove e d data err s).hbm := by
  unfold dmaMove
  dsimp only
  repeat' split
  all_goals first
    | exact h
    | exact dmaCopy_wf _ _ _ _ _ h
    | exact dmaFill_wf _ _ _ _ _ _ (by intros; simp) h
theorem saveOver_wf (cause : Nat) (s : State) (h : Memory.wf s.hbm) : Memory.wf (saveOver cause s).hbm := by
  unfold saveOver
  dsimp only
  split
  · exact persist_wf _
  · simpa using h
theorem unlessSafe_wf (f : State → State) (s : State) (hf : ∀ s, KeepsMemory s (f s)) (h : Memory.wf s.hbm) : Memory.wf (unlessSafe f s).hbm := by
  rw [unlessSafe_hbm f s hf]; exact h
theorem bootUp_wf (b : BootIn) (s : State) : Memory.wf (bootUp b s).hbm := by
  unfold bootUp
  refine unlessSafe_wf _ _ (fun s => ⟨bootReady_hbm s⟩) (unlessSafe_wf _ _ (fun s => ⟨startTicks_hbm s⟩) (unlessSafe_wf _ _ (fun s => ⟨bootGrid_hbm b s⟩)
    (unlessSafe_wf _ _ (fun s => ⟨bootStacks_hbm b s⟩) (unlessSafe_wf _ _ (fun s => ⟨bootCores_hbm b s⟩) ?_))))
  simpa using persist_wf s
theorem faultEdge_wf (n : Nat) (s : State) (h : Memory.wf s.hbm) : Memory.wf (faultEdge n s).hbm := by
  unfold faultEdge
  dsimp only
  rw [holdSegments_hbm]
  refine foldl_wf _ _ _ (fun t k _ => ⟨stackDown_wf k t⟩) ?_
  simpa using h
theorem edgeWork_wf (n : Nat) (s : State) (h : Memory.wf s.hbm) : Memory.wf (edgeWork n s).hbm := by
  simp only [edgeWork, serveSnaps_hbm, driveBusy_hbm, flushIdle_hbm, ladderEdge_hbm, heldCounted_hbm, sectionEdge_hbm]
  exact faultEdge_wf _ _ (by simpa using h)
theorem controlEnd_wf (c : CmdSpec) (h : Hdr) (s : State) (a : Act) (hs : Memory.wf s.hbm) (ha : Memory.wf a.s.hbm) : Memory.wf (controlEnd c h s a).hbm := by
  unfold controlEnd
  dsimp only
  repeat' (first | split | simp only [finishEff_hbm, refuse_hbm, sendReply_hbm])
  all_goals assumption

/-- A command's path keeps the canonical form when its own part does. -/
theorem control_wf (c : CmdSpec) (h : Hdr) (act : Nat → State → Act) (s0 : State) (ha : ∀ j s, Memory.wf s.hbm → Memory.wf (act j s).s.hbm)
    (hs : Memory.wf s0.hbm) : Memory.wf (control c h act s0).hbm := by
  unfold control
  dsimp only
  repeat' split
  all_goals first
    | exact hs
    | (refine controlEnd_wf _ _ _ _ ?_ (ha _ _ ?_) <;> simpa using hs)
    | simpa [apply_ite State.hbm] using hs

/-- A row of the schedule keeps the canonical form when its operation's effect does. -/
theorem runRow_wf (op chainOff : Nat) (f : RowOp) (a : TileAt) (s : State) (hf : ∀ r e t s s', Memory.wf s'.hbm → Memory.wf ((f r e t s).2 s').hbm)
    (hs : Memory.wf s.hbm) : Memory.wf (runRow op chainOff f a s).hbm := by
  have hg : ∀ r w ce, Memory.wf (runRow.go op chainOff f a s r w ce).hbm := by
    intro r w ce
    unfold runRow.go
    dsimp only
    repeat' split
    all_goals first
      | (simpa using hs)
      | (rw [rotFound_hbm]; refine hf _ _ _ _ _ ?_; simpa [apply_ite State.hbm] using hs)
  unfold runRow
  dsimp only
  repeat' split
  all_goals first
    | exact hg _ _ _
    | simpa using hs

end Sys2Proof.Machine
end

