-- ==== Sys2Proof/Laws/Queue.lean ====
section
/-!
SUPPORT. No operation of the machine touches the queue of commands.
-/

set_option linter.all false

namespace Sys2Proof.Machine

/-- The queue is the same in both states. -/
structure KeepsQueue (s t : State) : Prop where
  eq : t.pending = s.pending
@[simp] theorem keepsQueue_iff (s t : State) : KeepsQueue s t ↔ t.pending = s.pending := ⟨fun h => h.eq, fun h => ⟨h⟩⟩
/-- A fold of steps that keep it keeps it. -/
theorem foldl_pending {β : Type} (f : State → β → State) (l : List β) (s : State) (h : ∀ s x, KeepsQueue s (f s x)) :
    (l.foldl f s).pending = s.pending := by
  induction l generalizing s with
  | nil => rfl
  | cons a t ih => rw [List.foldl_cons, ih, (h s a).eq]
@[simp] theorem setReg_pending (off : Nat) (v : Nat) (s : State) : (setReg off v s).pending = s.pending := by rfl
@[simp] theorem seeRaw_pending (r : Nat) (s : State) : (seeRaw r s).pending = s.pending := by rfl
@[simp] theorem raiseEv_pending (e : Ev) (s : State) : (raiseEv e s).pending = s.pending := by rfl
@[simp] theorem raiseEvs_pending (es : List Ev) (s : State) : (raiseEvs es s).pending = s.pending := by
  simp [raiseEvs, apply_ite State.pending, apply_ite Act.s, foldl_pending]
@[simp] theorem send_pending (x : Sent) (s : State) : (send x s).pending = s.pending := by rfl
@[simp] theorem drawFree_pending (w : Nat) (s : State) : (drawFree w s).2.pending = s.pending := rfl

@[simp] theorem setDev_pending (st : DevSt) (s : State) : (setDev st s).pending = s.pending := by
  simp [setDev, apply_ite State.pending, apply_ite Act.s, foldl_pending]
@[simp] theorem setQuad_pending (q : Nat) (st : QuadSt) (s : State) : (setQuad q st s).pending = s.pending := by
  simp [setQuad, apply_ite State.pending, apply_ite Act.s, foldl_pending]
@[simp] theorem addCnt_pending (k : Nat) (n : Nat) (s : State) : (addCnt k n s).pending = s.pending := by rfl
@[simp] theorem decCnt_pending (k : Nat) (s : State) : (decCnt k s).pending = s.pending := by rfl
@[simp] theorem hbmWrite_pending (a : Nat) (bs : List Byte) (s : State) : (hbmWrite a bs s).pending = s.pending := by rfl
@[simp] theorem setHealth_pending (u : Nat) (v : Nat) (s : State) : (setHealth u v s).pending = s.pending := by rfl
@[simp] theorem setStatus_pending (u : Nat) (st : Nat) (s : State) : (setStatus u st s).pending = s.pending := by
  simp [setStatus]
@[simp] theorem setTile_pending (q : Nat) (col : Nat) (row : Nat) (t : Tile) (s : State) : (setTile q col row t s).pending = s.pending := by rfl
@[simp] theorem setSkip_pending (q : Nat) (k : Nat) (p : Nat) (s : State) : (setSkip q k p s).pending = s.pending := by
  simp [setSkip, apply_ite State.pending, apply_ite Act.s, foldl_pending]
@[simp] theorem setSec_pending (h : Nat) (x : Sec) (s : State) : (setSec h x s).pending = s.pending := by rfl
@[simp] theorem setLink_pending (l : Nat) (x : Link) (s : State) : (setLink l x s).pending = s.pending := by rfl
@[simp] theorem setEng_pending (e : Nat) (x : Eng) (s : State) : (setEng e x s).pending = s.pending := by rfl
@[simp] theorem setCtx_pending (c : Nat) (x : Ctx) (s : State) : (setCtx c x s).pending = s.pending := by rfl
@[simp] theorem setPass_pending (h : Nat) (x : Pass) (s : State) : (setPass h x s).pending = s.pending := by rfl
@[simp] theorem setLine_pending (n : Nat) (x : LineSt) (s : State) : (setLine n x s).pending = s.pending := by rfl
@[simp] theorem setQueue_pending (q : Nat) (x : QueueSt) (s : State) : (setQueue q x s).pending = s.pending := by rfl
@[simp] theorem recomputeC_pending (s : State) : (recomputeC s).pending = s.pending := by rfl
@[simp] theorem calApply1_pending (s : State) (e : CalEntry) : (calApply1 s e).pending = s.pending := by
  unfold calApply1; (repeat' (first | with_reducible rfl | (simp [apply_ite State.pending, apply_ite Act.s, foldl_pending]; done) | split | (rw [foldl_pending] <;> intros)))
@[simp] theorem calApply_pending (es : List CalEntry) (s : State) : (calApply es s).pending = s.pending := by
  simp [calApply, apply_ite State.pending, apply_ite Act.s, foldl_pending]
@[simp] theorem calLoad_pending (s : State) : (calLoad s).pending = s.pending := by
  simp [calLoad, apply_ite State.pending, apply_ite Act.s, foldl_pending]
@[simp] theorem rcClear_pending (s : State) (off : Nat) : (rcClear s off).pending = s.pending := by
  unfold rcClear; (repeat' (first | with_reducible rfl | (simp [apply_ite State.pending, apply_ite Act.s, foldl_pending]; done) | split | (rw [foldl_pending] <;> intros)))
@[simp] theorem journalAdd_pending (e : JEntry) (s : State) : (journalAdd e s).pending = s.pending := by rfl
@[simp] theorem journalUpd_pending (j : Nat) (f : JEntry → JEntry) (s : State) : (journalUpd j f s).pending = s.pending := by rfl
@[simp] theorem journalInternal_pending (role : Nat) (op : Nat) (result : List Byte) (s : State) : (journalInternal role op result s).pending = s.pending := by
  simp [journalInternal]
@[simp] theorem sendReply_pending (r : Reply) (s : State) : (sendReply r s).pending = s.pending := by
  unfold sendReply; (repeat' (first | with_reducible rfl | (simp [apply_ite State.pending, apply_ite Act.s, foldl_pending]; done) | split | (rw [foldl_pending] <;> intros)))
@[simp] theorem logAdd_pending (e : LogEntry) (s : State) : (logAdd e s).pending = s.pending := by
  simp [logAdd, apply_ite State.pending, apply_ite Act.s, foldl_pending]
@[simp] theorem logCmd_pending (eff : Eff) (op : Nat) (h : Hdr) (j : Nat) (annex : List Byte) (s : State) : (logCmd eff op h j annex s).pending = s.pending := by
  simp [logCmd]
@[simp] theorem logDone_pending (eff : Eff) (op : Nat) (h : Hdr) (j : Nat) (status : Nat) (s : State) : (logDone eff op h j status s).pending = s.pending := by
  simp [logDone, apply_ite State.pending, apply_ite Act.s, foldl_pending]
@[simp] theorem cacheReply_pending (r : Reply) (s : State) : (cacheReply r s).pending = s.pending := by rfl
@[simp] theorem finishEff_pending (eff : Eff) (op : Nat) (h : Hdr) (j : Nat) (status : Nat) (detail : Nat) (result : List Byte) (jres : List Byte) (s : State) : (finishEff eff op h j status detail result jres s).pending = s.pending := by
  simp [finishEff, apply_ite State.pending, apply_ite Act.s, foldl_pending]
@[simp] theorem finish_pending (op : Nat) (h : Hdr) (j : Nat) (status : Nat) (detail : Nat) (result : List Byte) (jres : List Byte) (s : State) : (finish op h j status detail result jres s).pending = s.pending := by
  simp [finish]
@[simp] theorem refuse_pending (op : Nat) (h : Hdr) (status : Nat) (detail : Nat) (result : List Byte) (s : State) : (refuse op h status detail result s).pending = s.pending := by
  simp [refuse]
@[simp] theorem seeSeq_pending (h : Hdr) (s : State) : (seeSeq h s).pending = s.pending := by rfl
@[simp] theorem renewLease_pending (h : Hdr) (s : State) : (renewLease h s).pending = s.pending := by
  simp [renewLease, apply_ite State.pending, apply_ite Act.s, foldl_pending]
@[simp] theorem answerDup_pending (op : Nat) (h : Hdr) (s : State) : (answerDup op h s).pending = s.pending := by
  unfold answerDup; (try dsimp only); (repeat' (first | with_reducible rfl | (simp [apply_ite State.pending, apply_ite Act.s, foldl_pending]; done) | split | (rw [foldl_pending] <;> intros) | dsimp only | (simp [apply_ite State.pending, foldl_pending])))
@[simp] theorem fails_pending (s : State) (status : Nat) (detail : optParam Nat 0) (result : optParam (List Byte) []) : (fails s status detail result).s.pending = s.pending := by rfl
@[simp] theorem untake_pending (h : Hdr) (s : State) : (untake h s).pending = s.pending := by
  simp [untake, apply_ite State.pending, apply_ite Act.s, foldl_pending]
theorem controlEnd_pending (c : CmdSpec) (h : Hdr) (s : State) (a : Act) (ha : a.s.pending = s.pending) : (controlEnd c h s a).pending = s.pending := by
  unfold controlEnd
  dsimp only
  repeat' (first | with_reducible rfl | (simp [ha, apply_ite State.pending]; done) | split)

theorem control_pending (c : CmdSpec) (h : Hdr) (act : Nat → State → Act) (s0 : State) (ha : ∀ j s, KeepsQueue s (act j s).s) :
    (control c h act s0).pending = s0.pending := by
  unfold control
  split
  · rfl
  · dsimp only
    repeat' (first | with_reducible rfl | (rw [controlEnd_pending _ _ _ _ (by simp [fun j s => (ha j s).eq])]; simp [apply_ite State.pending]; done) | (simp [apply_ite State.pending]; done) | split)

theorem observe_pending (c : CmdSpec) (h : Hdr) (act : State → Act) (s0 : State) (ha : ∀ s, KeepsQueue s (act s).s) :
    (observe c h act s0).pending = s0.pending := by
  unfold observe
  split
  · rfl
  · dsimp only
    repeat' (first | with_reducible rfl | (simp [fun s => (ha s).eq, apply_ite State.pending]; done) | split)

theorem tickCmd_pending (h : Hdr) (op j : Nat) (eff : Eff) (check : State → Option (Nat × Nat)) (app : State → State) (s : State)
    (ha : ∀ s, KeepsQueue s (app s)) : (tickCmd h op j eff check app s).s.pending = s.pending := by
  unfold tickCmd
  dsimp only
  repeat' (first | with_reducible rfl | (simp [fun s => (ha s).eq]; done) | split)

@[simp] theorem waitOver_pending (j : Nat) (s : State) : (waitOver j s).pending = s.pending := by rfl
@[simp] theorem finishWait_pending (w : Waiting) (status : Nat) (s : State) : (finishWait w status s).pending = s.pending := by
  simp [finishWait]
@[simp] theorem expireWaiting_pending (s : State) : (expireWaiting s).pending = s.pending := by
  unfold expireWaiting
  exact foldl_pending _ _ _ (fun s w => ⟨finishWait_pending w stExpired s⟩)
@[simp] theorem finishLong_pending (j : Nat) (status : Nat) (detail : Nat) (result : List Byte) (s : State) : (finishLong j status detail result s).pending = s.pending := by
  unfold finishLong; (repeat' (first | with_reducible rfl | (simp [apply_ite State.pending, apply_ite Act.s, foldl_pending]; done) | split | (rw [foldl_pending] <;> intros)))
@[simp] theorem longEff_pending (eff : Eff) (h : Hdr) (op : Nat) (j : Nat) (s : State) : (longEff eff h op j s).pending = s.pending := by rfl
@[simp] theorem longCmd_pending (h : Hdr) (op : Nat) (j : Nat) (s : State) : (longCmd h op j s).pending = s.pending := by
  simp [longCmd]
@[simp] theorem changeHolder_pending (new : Option Nat) (cause : Nat) (s : State) : (changeHolder new cause s).pending = s.pending := by
  simp [changeHolder]
@[simp] theorem startSave_pending (cause : Nat) (s : State) : (startSave cause s).pending = s.pending := by
  simp [startSave, apply_ite State.pending, apply_ite Act.s, foldl_pending]
@[simp] theorem avsSend_pending (rail : Nat) (mv : Nat) (s : State) : (avsSend rail mv s).pending = s.pending := by
  simp [avsSend]
@[simp] theorem markCause_pending (c : Nat) (s : State) : (markCause c s).pending = s.pending := by rfl
@[simp] theorem safeDev_pending (cause : Nat) (s : State) : (safeDev cause s).pending = s.pending := by
  simp [safeDev]
@[simp] theorem busyAll_pending (s : State) : (busyAll s).pending = s.pending := by rfl
@[simp] theorem endPasses_pending (s : State) : (endPasses s).pending = s.pending := by rfl
@[simp] theorem railsDown_pending (s : State) : (railsDown s).pending = s.pending := by
  simp [railsDown, apply_ite State.pending, apply_ite Act.s, foldl_pending]
@[simp] theorem enterSafe_pending (cause : Nat) (s : State) : (enterSafe cause s).pending = s.pending := by
  simp [enterSafe, apply_ite State.pending, apply_ite Act.s, foldl_pending]
@[simp] theorem fault_pending (f0 : FaultRec) (s : State) : (fault f0 s).pending = s.pending := by
  simp [fault, apply_ite State.pending, apply_ite Act.s, foldl_pending]
@[simp] theorem repairDone_pending (code : Nat) (quad : Nat) (unit : Nat) (s : State) : (repairDone code quad unit s).pending = s.pending := by
  simp [repairDone]
@[simp] theorem corrected_pending (unit : Nat) (f : FaultRec) (s : State) : (corrected unit f s).pending = s.pending := by
  simp [corrected, apply_ite State.pending, apply_ite Act.s, foldl_pending]
@[simp] theorem hwCount_pending (k : Nat) (s : State) : (hwCount k s).pending = s.pending := by rfl
@[simp] theorem ioChecks_pending (e : IoErr) (s : State) : (ioChecks e s).pending = s.pending := by
  simp [ioChecks, apply_ite State.pending, apply_ite Act.s, foldl_pending]
@[simp] theorem ctlChecks_pending (core : Nat) (r : StepIn) (s : State) : (ctlChecks core r s).pending = s.pending := by
  unfold ctlChecks; (repeat' (first | with_reducible rfl | (simp [apply_ite State.pending, apply_ite Act.s, foldl_pending]; done) | split | (rw [foldl_pending] <;> intros)))
@[simp] theorem cfgStore_pending (es : List CfgEntry) (s : State) : (cfgStore es s).pending = s.pending := by
  unfold cfgStore; (repeat' (first | with_reducible rfl | (simp [apply_ite State.pending, apply_ite Act.s, foldl_pending]; done) | split | (rw [foldl_pending] <;> intros)))
@[simp] theorem startTicks_pending (s : State) : (startTicks s).pending = s.pending := by
  simp [startTicks, apply_ite State.pending, apply_ite Act.s, foldl_pending]
@[simp] theorem startTrain_pending (l : Nat) (s : State) : (startTrain l s).pending = s.pending := by
  simp [startTrain]
@[simp] theorem linkFall_pending (l : Nat) (s : State) : (linkFall l s).pending = s.pending := by
  simp [linkFall, apply_ite State.pending, apply_ite Act.s, foldl_pending]
@[simp] theorem memberUpdate_pending (was : Bool) (c : Nat) (s : State) : (memberUpdate was c s).pending = s.pending := by
  unfold memberUpdate; (try dsimp only); (repeat' (first | with_reducible rfl | (simp [apply_ite State.pending, apply_ite Act.s, foldl_pending]; done) | split | (rw [foldl_pending] <;> intros) | dsimp only | (simp [apply_ite State.pending, foldl_pending])))
@[simp] theorem queueStop_pending (q : Nat) (s : State) : (queueStop q s).pending = s.pending := by
  simp [queueStop]
@[simp] theorem entryEffect_pending (off : Nat) (old : Nat) (e : CfgEntry) (s : State) : (entryEffect off old e s).pending = s.pending := by
  unfold entryEffect; (repeat' (first | with_reducible rfl | (simp [apply_ite State.pending, apply_ite Act.s, foldl_pending]; done) | split | (rw [foldl_pending] <;> intros)))
@[simp] theorem saveBoot_pending (s : State) : (saveBoot s).pending = s.pending := by rfl
@[simp] theorem cfgApply_pending (es : List CfgEntry) (s : State) : (cfgApply es s).pending = s.pending := by
  simp [cfgApply, apply_ite State.pending, apply_ite Act.s, foldl_pending]
@[simp] theorem cfgAct_pending (h : Hdr) (es : List CfgEntry) (j : Nat) (s : State) : (cfgAct h es j s).s.pending = s.pending := by
  unfold cfgAct
  dsimp only
  repeat' (first | with_reducible rfl | (simp; done) | split | (rw [tickCmd_pending]; intros; simp) | (simp [foldl_pending]; done))
@[simp] theorem cfgCmd_pending (h : Hdr) (es : List CfgEntry) (s : State) : (cfgCmd h es s).pending = s.pending := by
  exact control_pending _ _ _ _ (by intros; simp)
@[simp] theorem setPart_pending (t : Nat) (p : UpPart) (s : State) : (setPart t p s).pending = s.pending := by rfl
@[simp] theorem setLease_pending (ms : Nat) (s : State) : (setLease ms s).pending = s.pending := by rfl
@[simp] theorem claimAct_pending (h : Hdr) (leaseMs : Nat) (force : Bool) (s : State) : (claimAct h leaseMs force s).s.pending = s.pending := by
  unfold claimAct; (repeat' (first | with_reducible rfl | (simp [apply_ite State.pending, apply_ite Act.s, foldl_pending]; done) | split | (rw [foldl_pending] <;> intros)))
@[simp] theorem armSet_pending (ta : Nat) (s : State) : (armSet ta s).pending = s.pending := by
  simp [armSet]
@[simp] theorem toMembers_pending (m : Msg2) (s : State) : (toMembers m s).pending = s.pending := by
  unfold toMembers; (repeat' (first | with_reducible rfl | (simp [apply_ite State.pending, apply_ite Act.s, foldl_pending]; done) | split | (rw [foldl_pending] <;> intros)))
@[simp] theorem waitTick_pending (op : Nat) (h : Hdr) (j : Nat) (t : Nat) (s : State) : (waitTick op h j t s).pending = s.pending := by rfl
@[simp] theorem toIdle_pending (s : State) : (toIdle s).pending = s.pending := by
  simp [toIdle]
@[simp] theorem stopNow_pending (h : Hdr) (j : Nat) (s : State) : (stopNow h j s).s.pending = s.pending := by
  unfold stopNow; (repeat' (first | with_reducible rfl | (simp [apply_ite State.pending, apply_ite Act.s, foldl_pending]; done) | split | (rw [foldl_pending] <;> intros)))
@[simp] theorem stopAct_pending (h : Hdr) (j : Nat) (s : State) : (stopAct h j s).s.pending = s.pending := by
  unfold stopAct; (try dsimp only); (repeat' (first | with_reducible rfl | (simp [apply_ite State.pending, apply_ite Act.s, foldl_pending]; done) | split | (rw [foldl_pending] <;> intros) | dsimp only | (simp [apply_ite State.pending, foldl_pending])))
@[simp] theorem writeTile_pending (h : Nat) (staging : Bool) (im : ImTile) (s : State) : (writeTile h staging im s).pending = s.pending := by
  simp [writeTile]
@[simp] theorem writeSlots_pending (bank : Nat) (a : List Nat) (img : Image) (s : State) : (writeSlots bank a img s).pending = s.pending := by rfl
@[simp] theorem settleSkip_pending (p : LoadPlan) (s : State) : (settleSkip p s).pending = s.pending := by
  unfold settleSkip; (repeat' (first | with_reducible rfl | (simp [apply_ite State.pending, apply_ite Act.s, foldl_pending]; done) | split | (rw [foldl_pending] <;> intros)))
@[simp] theorem writeImage_pending (staging : Bool) (r : LoadReq) (p : LoadPlan) (s0 : State) : (writeImage staging r p s0).pending = s0.pending := by
  simp [writeImage, apply_ite State.pending, apply_ite Act.s, foldl_pending]
@[simp] theorem failTile_pending (x : Nat × Nat) (s : State) : (failTile x s).pending = s.pending := by
  simp [failTile]
@[simp] theorem runLoader_pending (s : State) (staging : Bool) (r : LoadReq) : (runLoader s staging r).1.pending = s.pending := by
  unfold runLoader
  repeat' (first | with_reducible rfl | (simp; done) | split | dsimp only)

@[simp] theorem pendEnd_pending (t : Nat) (acc : Bool) (void : Bool) (s : State) : (pendEnd t acc void s).pending = s.pending := by
  unfold pendEnd; (repeat' (first | with_reducible rfl | (simp [apply_ite State.pending, apply_ite Act.s, foldl_pending]; done) | split | (rw [foldl_pending] <;> intros)))
@[simp] theorem clsCount_pending (c : Nat) (k : Nat) (s : State) : (clsCount c k s).pending = s.pending := by rfl
@[simp] theorem deliverStart_pending (c : Nat) (x : Ctx) (doubt : Bool) (s : State) : (deliverStart c x doubt s).pending = s.pending := by
  simp [deliverStart, apply_ite State.pending, apply_ite Act.s, foldl_pending]
@[simp] theorem parEnd_pending (c : Nat) (e : ParEnd) (s : State) : (parEnd c e s).pending = s.pending := by
  simp [parEnd, apply_ite State.pending, apply_ite Act.s, foldl_pending]
@[simp] theorem expireCtx_pending (c : Nat) (cause : Nat) (s : State) : (expireCtx c cause s).pending = s.pending := by
  simp [expireCtx]
@[simp] theorem mapTiles_pending (h : Nat) (f : Tile → Tile) (s : State) : (mapTiles h f s).pending = s.pending := by
  simp [mapTiles, apply_ite State.pending, apply_ite Act.s, foldl_pending]
@[simp] theorem abandonPass_pending (h : Nat) (e : ParEnd) (s : State) : (abandonPass h e s).pending = s.pending := by
  unfold abandonPass; (try dsimp only); (repeat' (first | with_reducible rfl | (simp [apply_ite State.pending, apply_ite Act.s, foldl_pending]; done) | split | (rw [foldl_pending] <;> intros) | dsimp only | (simp [apply_ite State.pending, foldl_pending])))
@[simp] theorem endPass_pending (h : Nat) (v : Nat) (x : Nat) (s : State) : (endPass h v x s).pending = s.pending := by
  unfold endPass; (try dsimp only); (repeat' (first | with_reducible rfl | (simp [apply_ite State.pending, apply_ite Act.s, foldl_pending]; done) | split | (rw [foldl_pending] <;> intros) | dsimp only | (simp [apply_ite State.pending, foldl_pending])))
@[simp] theorem expireAll_pending (h : Nat) (s : State) : (expireAll h s).pending = s.pending := by
  simp [expireAll, apply_ite State.pending, apply_ite Act.s, foldl_pending]
@[simp] theorem freeTiles_pending (ims : List ImTile) (s : State) : (freeTiles ims s).pending = s.pending := by
  simp [freeTiles, apply_ite State.pending, apply_ite Act.s, foldl_pending]
@[simp] theorem leaveTiles_pending (ims : List ImTile) (s : State) : (leaveTiles ims s).pending = s.pending := by
  simp [leaveTiles, apply_ite State.pending, apply_ite Act.s, foldl_pending]
@[simp] theorem installTiles_pending (h : Nat) (ims : List ImTile) (s : State) : (installTiles h ims s).pending = s.pending := by
  simp [installTiles, apply_ite State.pending, apply_ite Act.s, foldl_pending]
@[simp] theorem readyAllPoints_pending (ims : List ImTile) (s : State) : (readyAllPoints ims s).pending = s.pending := by
  simp [readyAllPoints, apply_ite State.pending, apply_ite Act.s, foldl_pending]
@[simp] theorem startAllPoints_pending (ims : List ImTile) (s : State) : (startAllPoints ims s).pending = s.pending := by
  simp [startAllPoints, apply_ite State.pending, apply_ite Act.s, foldl_pending]
@[simp] theorem clearSlots_pending (bank : Nat) (s : State) : (clearSlots bank s).pending = s.pending := by rfl
@[simp] theorem rebuildSlots_pending (s : State) : (rebuildSlots s).pending = s.pending := by
  simp [rebuildSlots, apply_ite State.pending, apply_ite Act.s, foldl_pending]
@[simp] theorem dropSection_pending (h : Nat) (s : State) : (dropSection h s).pending = s.pending := by
  simp [dropSection]
@[simp] theorem markStart_pending (h : Nat) (s : State) : (markStart h s).pending = s.pending := by
  simp [markStart]
@[simp] theorem markIncoming_pending (h : Nat) (s : State) : (markIncoming h s).pending = s.pending := by
  simp [markIncoming]
@[simp] theorem qblockAdd_pending (h : Nat) (key : Nat) (ord : Nat) (w : LWord) (s : State) : (qblockAdd h key ord w s).pending = s.pending := by
  simp [qblockAdd]
@[simp] theorem qblockClose_pending (h : Nat) (key : Nat) (tick : Nat) (s : State) : (qblockClose h key tick s).pending = s.pending := by
  simp [qblockClose]
@[simp] theorem hostEcc_pending (hd : Nat) (q : Nat) (c : Nat) (r : Nat) (line : Nat) (ecc : Ecc) (s : State) : (hostEcc hd q c r line ecc s).pending = s.pending := by
  unfold hostEcc; (repeat' (first | with_reducible rfl | (simp [apply_ite State.pending, apply_ite Act.s, foldl_pending]; done) | split | (rw [foldl_pending] <;> intros)))
@[simp] theorem writeTileLine_pending (hd : Nat) (vq : Nat) (col : Nat) (row : Nat) (line : Nat) (data : List Byte) (ecc : Ecc) (s : State) : (writeTileLine hd vq col row line data ecc s).pending = s.pending := by
  unfold writeTileLine; (repeat' (first | with_reducible rfl | (simp [apply_ite State.pending, apply_ite Act.s, foldl_pending]; done) | split | (rw [foldl_pending] <;> intros)))
@[simp] theorem serveWrites_pending (hd : Nat) (s : State) : (serveWrites hd s).pending = s.pending := by
  unfold serveWrites; (repeat' (first | with_reducible rfl | (simp [apply_ite State.pending, apply_ite Act.s, foldl_pending]; done) | split | (rw [foldl_pending] <;> intros)))
@[simp] theorem exchangeFixed_pending (outs : List Nat) (ins : List Nat) (s : State) : (exchangeFixed outs ins s).pending = s.pending := by
  unfold exchangeFixed
  dsimp only
  rw [foldl_pending _ _ _ (by intros; simp), foldl_pending _ _ _ (by intros; simp), leaveTiles_pending]
@[simp] theorem loseScores_pending (outs : List Nat) (x : Nat) (s : State) : (loseScores outs x s).pending = s.pending := by rfl
@[simp] theorem exchangePair_pending (p : Option Nat × Option Nat) (s : State) : (exchangePair p s).pending = s.pending := by
  unfold exchangePair; (repeat' (first | with_reducible rfl | (simp [apply_ite State.pending, apply_ite Act.s, foldl_pending]; done) | split | (rw [foldl_pending] <;> intros)))
@[simp] theorem beginSwap_pending (ts : Nat) (outs : List Nat) (ins : List Nat) (s : State) : (beginSwap ts outs ins s).pending = s.pending := by
  simp [beginSwap, apply_ite State.pending, apply_ite Act.s, foldl_pending]
@[simp] theorem swapSettle_pending (w : Swap) (s : State) : (swapSettle w s).pending = s.pending := by
  simp [swapSettle]
@[simp] theorem swapBoundary_pending (h : Nat) (s : State) : (swapBoundary h s).pending = s.pending := by
  unfold swapBoundary; (repeat' (first | with_reducible rfl | (simp [apply_ite State.pending, apply_ite Act.s, foldl_pending]; done) | split | (rw [foldl_pending] <;> intros)))
@[simp] theorem armSections_pending (s : State) : (armSections s).pending = s.pending := by
  simp [armSections, apply_ite State.pending, apply_ite Act.s, foldl_pending]
@[simp] theorem restoreSec_pending (noHist : Bool) (s : State) (i : SecImage) : (restoreSec noHist s i).pending = s.pending := by
  simp [restoreSec, apply_ite State.pending, apply_ite Act.s, foldl_pending]
@[simp] theorem applyRestore_pending (i : StateImage) (noHist : Bool) (t : Nat) (s : State) : (applyRestore i noHist t s).pending = s.pending := by
  simp [applyRestore, apply_ite State.pending, apply_ite Act.s, foldl_pending]
@[simp] theorem loadNow_pending (r : LoadReq) (s : State) : (loadNow r s).s.pending = s.pending := by
  have h := runLoader_pending s (stAUP.contains s.dev.st) r
  unfold loadNow
  split <;> rename_i e <;> rw [e] at h
  · dsimp only at h; simp [apply_ite State.pending, h]
  · exact h
@[simp] theorem loadFails_pending (s : State) (status : Nat) (code : Nat) : (loadFails s status code).s.pending = s.pending := by
  simp [loadFails]
@[simp] theorem loadLog_pending (h : Hdr) (j : Nat) (r : LoadReq) (s : State) : (loadLog h j r s).pending = s.pending := by
  simp [loadLog]
@[simp] theorem loadAct_pending (h : Hdr) (r : LoadReq) (j : Nat) (s : State) : (loadAct h r j s).s.pending = s.pending := by
  simp [loadAct, apply_ite State.pending, apply_ite Act.s, foldl_pending]
@[simp] theorem serveLoads_pending (s : State) : (serveLoads s).pending = s.pending := by
  unfold serveLoads; (repeat' (first | with_reducible rfl | (simp [apply_ite State.pending, apply_ite Act.s, foldl_pending]; done) | split | (rw [foldl_pending] <;> intros)))
@[simp] theorem windowWrite_pending (addr : Nat) (bs : List Byte) (s : State) : (windowWrite addr bs s).pending = s.pending := by
  unfold windowWrite; (repeat' (first | with_reducible rfl | (simp [apply_ite State.pending, apply_ite Act.s, foldl_pending]; done) | split | (rw [foldl_pending] <;> intros)))
@[simp] theorem verifyWeights_pending (hd : Nat) (s : State) : (verifyWeights hd s).pending = s.pending := by
  simp [verifyWeights, apply_ite State.pending, apply_ite Act.s, foldl_pending]
@[simp] theorem switchTables_pending (es : List TabSel) (s : State) : (switchTables es s).pending = s.pending := by
  unfold switchTables; (repeat' (first | with_reducible rfl | (simp [apply_ite State.pending, apply_ite Act.s, foldl_pending]; done) | split | (rw [foldl_pending] <;> intros)))
@[simp] theorem setProbe_pending (n : Nat) (p : Probe) (s : State) : (setProbe n p s).pending = s.pending := by rfl
@[simp] theorem setMsix_pending (v : Nat) (m : Msix) (s : State) : (setMsix v m s).pending = s.pending := by rfl
@[simp] theorem msiSend_pending (v : Nat) (s : State) : (msiSend v s).pending = s.pending := by
  simp [msiSend, apply_ite State.pending, apply_ite Act.s, foldl_pending]
@[simp] theorem trigger_pending (v : Nat) (s : State) : (trigger v s).pending = s.pending := by
  simp [trigger, apply_ite State.pending, apply_ite Act.s, foldl_pending]
@[simp] theorem engTrigger_pending (e : Nat) (s : State) : (engTrigger e s).pending = s.pending := by
  simp [engTrigger]
@[simp] theorem parkEng_pending (e : Nat) (p : Park) (s : State) : (parkEng e p s).pending = s.pending := by
  simp [parkEng]
@[simp] theorem parkHere_pending (e : Nat) (cause : Nat) (done : Nat) (addr : Nat) (at_ : Nat) (s : State) : (parkHere e cause done addr at_ s).pending = s.pending := by
  simp [parkHere]
@[simp] theorem bar0Read_pending (off : Nat) (n : Nat) (s : State) : (bar0Read off n s).pending = s.pending := by
  simp [bar0Read, apply_ite State.pending, apply_ite Act.s, foldl_pending]
@[simp] theorem mmioDenied_pending (s : State) : (mmioDenied s).pending = s.pending := by rfl
@[simp] theorem dbBad_pending (page : Nat) (s : State) : (dbBad page s).pending = s.pending := by rfl
@[simp] theorem eventPut_pending (r : EvRec) (s : State) : (eventPut r s).pending = s.pending := by
  simp [eventPut, apply_ite State.pending, apply_ite Act.s, foldl_pending]
@[simp] theorem lostMark_pending (s : State) : (lostMark s).pending = s.pending := by
  simp [lostMark, apply_ite State.pending, apply_ite Act.s, foldl_pending]
@[simp] theorem eventRing_pending (r : EvRec) (s0 : State) : (eventRing r s0).pending = s0.pending := by
  simp [eventRing, apply_ite State.pending, apply_ite Act.s, foldl_pending]
@[simp] theorem eventElse_pending (r : EvRec) (s : State) : (eventElse r s).pending = s.pending := by
  unfold eventElse; (try dsimp only); (repeat' (first | with_reducible rfl | (simp [apply_ite State.pending, apply_ite Act.s, foldl_pending]; done) | split | (rw [foldl_pending] <;> intros) | dsimp only | (simp [apply_ite State.pending, foldl_pending])))
@[simp] theorem queueOff_pending (q : Nat) (s : State) : (queueOff q s).pending = s.pending := by
  simp [queueOff, apply_ite State.pending, apply_ite Act.s, foldl_pending]
@[simp] theorem ringOff_pending (s : State) : (ringOff s).pending = s.pending := by
  simp [ringOff, apply_ite State.pending, apply_ite Act.s, foldl_pending]
@[simp] theorem queuesOff_pending (s : State) : (queuesOff s).pending = s.pending := by
  simp [queuesOff, apply_ite State.pending, apply_ite Act.s, foldl_pending]
@[simp] theorem parkOne_pending (e : Nat) (s : State) : (parkOne e s).pending = s.pending := by
  unfold parkOne; (try dsimp only); (repeat' (first | with_reducible rfl | (simp [apply_ite State.pending, apply_ite Act.s, foldl_pending]; done) | split | (rw [foldl_pending] <;> intros) | dsimp only | (simp [apply_ite State.pending, foldl_pending])))
@[simp] theorem parkBusy_pending (s : State) : (parkBusy s).pending = s.pending := by
  unfold parkBusy; (try dsimp only); (repeat' (first | with_reducible rfl | (simp [apply_ite State.pending, apply_ite Act.s, foldl_pending]; done) | split | (rw [foldl_pending] <;> intros) | dsimp only | (simp [apply_ite State.pending, foldl_pending])))
@[simp] theorem hostLost_pending (s : State) : (hostLost s).pending = s.pending := by
  simp [hostLost]
@[simp] theorem configReset_pending (s : State) : (configReset s).pending = s.pending := by rfl
@[simp] theorem groupSet_pending (g : Nat) (d : GroupDesc) (s : State) : (groupSet g d s).pending = s.pending := by rfl
@[simp] theorem setPrims_pending (first : Nat) (ds : List PrimDesc) (s : State) : (setPrims first ds s).pending = s.pending := by rfl
@[simp] theorem setMeas_pending (e : Nat) (d : MeasDesc) (s : State) : (setMeas e d s).pending = s.pending := by rfl
@[simp] theorem commitCal_pending (version : Nat) (s : State) : (commitCal version s).pending = s.pending := by rfl
@[simp] theorem setCombLine_pending (n : Nat) (d : LineDesc) (s : State) : (setCombLine n d s).pending = s.pending := by
  simp [setCombLine]
@[simp] theorem setTemplate_pending (k : Nat) (d : TemplateDesc) (s : State) : (setTemplate k d s).pending = s.pending := by rfl
@[simp] theorem setWindow_pending (n : Nat) (w : Window) (s : State) : (setWindow n w s).pending = s.pending := by
  simp [setWindow]
@[simp] theorem extract_pending (t : Nat) (k : Nat) (s : State) : (extract t k s).pending = s.pending := by
  simp [extract]
@[simp] theorem oweCpl_pending (e : Nat) (c : DmaCpl) (s : State) : (oweCpl e c s).pending = s.pending := by
  simp [oweCpl]
@[simp] theorem engNext_pending (e : Nat) (s : State) : (engNext e s).pending = s.pending := by
  simp [engNext]
@[simp] theorem skipPark_pending (e : Nat) (p : Park) (s : State) : (skipPark e p s).pending = s.pending := by
  unfold skipPark; (repeat' (first | with_reducible rfl | (simp [apply_ite State.pending, apply_ite Act.s, foldl_pending]; done) | split | (rw [foldl_pending] <;> intros)))
@[simp] theorem resumeEng_pending (e : Nat) (mode : Nat) (s : State) : (resumeEng e mode s).pending = s.pending := by
  unfold resumeEng; (repeat' (first | with_reducible rfl | (simp [apply_ite State.pending, apply_ite Act.s, foldl_pending]; done) | split | (rw [foldl_pending] <;> intros)))
@[simp] theorem zoneEff_pending (e : Eff) (s : State) : (zoneEff e s).pending = s.pending := by
  unfold zoneEff; (repeat' (first | with_reducible rfl | (simp [apply_ite State.pending, apply_ite Act.s, foldl_pending]; done) | split | (rw [foldl_pending] <;> intros)))
@[simp] theorem settleDue_pending (align : Bool) (t : Nat) (s : State) : (settleDue align t s).pending = s.pending := by
  simp [settleDue, apply_ite State.pending, apply_ite Act.s, foldl_pending]
@[simp] theorem flushDue_pending (s : State) : (flushDue s).pending = s.pending := by
  simp [flushDue, apply_ite State.pending, apply_ite Act.s, foldl_pending]
@[simp] theorem diverge_pending (t : Nat) (case_ : Nat) (s : State) : (diverge t case_ s).pending = s.pending := by
  simp [diverge]
@[simp] theorem scoreChecks_pending (t : Nat) (s : State) : (scoreChecks t s).pending = s.pending := by
  simp [scoreChecks, apply_ite State.pending, apply_ite Act.s, foldl_pending]
@[simp] theorem fireChecks_pending (t : Nat) (f : Option FireCase) (s : State) : (fireChecks t f s).pending = s.pending := by
  unfold fireChecks; (repeat' (first | with_reducible rfl | (simp [apply_ite State.pending, apply_ite Act.s, foldl_pending]; done) | split | (rw [foldl_pending] <;> intros)))
@[simp] theorem drivePins_pending (t : Nat) (o : CombOut) (void : Bool) (s : State) : (drivePins t o void s).pending = s.pending := by
  simp [drivePins, apply_ite State.pending, apply_ite Act.s, foldl_pending]
@[simp] theorem driveBusy_pending (s : State) : (driveBusy s).pending = s.pending := by rfl
@[simp] theorem setStream_pending (m : Nat) (x : Stream) (s : State) : (setStream m x s).pending = s.pending := by rfl
@[simp] theorem probeTake_pending (h : Nat) (n : Nat) (base : Nat) (k : Nat) (s : State) : (probeTake h n base k s).pending = s.pending := by
  simp [probeTake, apply_ite State.pending, apply_ite Act.s, foldl_pending]
@[simp] theorem probeAll_pending (h : Nat) (n : Nat) (base : Nat) (s : State) : (probeAll h n base s).pending = s.pending := by
  simp [probeAll, apply_ite State.pending, apply_ite Act.s, foldl_pending]
@[simp] theorem closeStreams_pending (s : State) : (closeStreams s).pending = s.pending := by
  simp [closeStreams, apply_ite State.pending, apply_ite Act.s, foldl_pending]
@[simp] theorem enterPaused_pending (p : Nat) (s : State) : (enterPaused p s).pending = s.pending := by
  unfold enterPaused; (try dsimp only); (repeat' (first | with_reducible rfl | (simp [apply_ite State.pending, apply_ite Act.s, foldl_pending]; done) | split | (rw [foldl_pending] <;> intros) | dsimp only | (simp [apply_ite State.pending, foldl_pending])))
@[simp] theorem releaseTick_pending (t : Nat) (s : State) : (releaseTick t s).pending = s.pending := by
  simp [releaseTick, apply_ite State.pending, apply_ite Act.s, foldl_pending]
@[simp] theorem tileFault_pending (f : FaultRec) (q : Nat) (col : Nat) (row : Nat) (s : State) : (tileFault f q col row s).pending = s.pending := by
  simp [tileFault]
theorem hop_pending (k : Nat) :
    (∀ q col row port ov r s, (arrive k q col row port ov r s).pending = s.pending) ∧
    (∀ q col row port ov dirs r s, (passOn k q col row port ov dirs r s).pending = s.pending) ∧
    (∀ q col row port d ov r s, (capture k q col row port d ov r s).pending = s.pending) ∧
    (∀ q col row n r s, (holdPut k q col row n r s).pending = s.pending) ∧
    (∀ q col row side ov r s, (drive k q col row side ov r s).pending = s.pending) := by
  induction k with
  | zero => refine ⟨?_, ?_, ?_, ?_, ?_⟩ <;> intros <;> simp [arrive, passOn, capture, holdPut, drive]
  | succ k ih =>
    obtain ⟨h1, h2, h3, h4, h5⟩ := ih
    refine ⟨?_, ?_, ?_, ?_, ?_⟩ <;> intros
    · simp only [arrive]
      rw [foldl_pending _ _ _ (by intros; simp [apply_ite State.pending, h2, h4])]; simp
    · simp only [passOn]
      rw [apply_ite State.pending, h3, foldl_pending _ _ _ (by intros; simp [apply_ite State.pending, h5])]; simp
    · simp only [capture]
      repeat' (first | with_reducible rfl | (simp [h4]; done) | split)
    · simp only [holdPut]
      rw [foldl_pending _ _ _ (fun s u => ⟨foldl_pending _ _ _ (by intros; simp [apply_ite State.pending, h5])⟩)]; simp
    · simp only [drive]
      split <;> simp [h1]
@[simp] theorem arrive_pending (k q col row port : Nat) (ov : Bool) (r : Run) (s : State) : (arrive k q col row port ov r s).pending = s.pending := (hop_pending k).1 ..
@[simp] theorem passOn_pending (k q col row port : Nat) (ov : Bool) (dirs : Nat) (r : Run) (s : State) : (passOn k q col row port ov dirs r s).pending = s.pending := (hop_pending k).2.1 ..
@[simp] theorem capture_pending (k q col row port d : Nat) (ov : Bool) (r : Run) (s : State) : (capture k q col row port d ov r s).pending = s.pending := (hop_pending k).2.2.1 ..
@[simp] theorem holdPut_pending (k q col row n : Nat) (r : Run) (s : State) : (holdPut k q col row n r s).pending = s.pending := (hop_pending k).2.2.2.1 ..
@[simp] theorem drive_pending (k q col row side : Nat) (ov : Bool) (r : Run) (s : State) : (drive k q col row side ov r s).pending = s.pending := (hop_pending k).2.2.2.2 ..





@[simp] theorem suspectOwner_pending (q : Nat) (col : Nat) (row : Nat) (s : State) : (suspectOwner q col row s).pending = s.pending := by
  simp [suspectOwner, apply_ite State.pending, apply_ite Act.s, foldl_pending]
@[simp] theorem portCollision_pending (q : Nat) (col : Nat) (row : Nat) (side : Nat) (x : Nat) (w : LWord) (s : State) : (portCollision q col row side x w s).pending = s.pending := by
  simp [portCollision]
@[simp] theorem driveOwn_pending (q : Nat) (col : Nat) (row : Nat) (side : Nat) (x : Nat) (w : LWord) (s : State) : (driveOwn q col row side x w s).pending = s.pending := by
  simp [driveOwn, apply_ite State.pending, apply_ite Act.s, foldl_pending]
@[simp] theorem captureIdle_pending (q : Nat) (col : Nat) (row : Nat) (u : Route) (s : State) : (captureIdle q col row u s).pending = s.pending := by
  simp [captureIdle, apply_ite State.pending, apply_ite Act.s, foldl_pending]
@[simp] theorem addRoute_pending (q : Nat) (col : Nat) (row : Nat) (u : Route) (s0 : State) : (addRoute q col row u s0).pending = s0.pending := by
  unfold addRoute; (repeat' (first | with_reducible rfl | (simp [apply_ite State.pending, apply_ite Act.s, foldl_pending]; done) | split | (rw [foldl_pending] <;> intros)))
@[simp] theorem crossingBad_pending (q : Nat) (s : State) : (crossingBad q s).pending = s.pending := by
  simp [crossingBad]
@[simp] theorem takeWord_pending (q : Nat) (lane : Nat) (bank : Nat) (x : Nat) (idx : Nat) (e : Slot) (ov : Bool) (w : LWord) (s0 : State) : (takeWord q lane bank x idx e ov w s0).pending = s0.pending := by
  simp [takeWord, apply_ite State.pending, apply_ite Act.s, foldl_pending]
@[simp] theorem laneFault_pending (q : Nat) (lane : Nat) (x : Nat) (idx : Nat) (count : Bool) (sites : List Nat) (s : State) : (laneFault q lane x idx count sites s).pending = s.pending := by
  simp [laneFault, apply_ite State.pending, apply_ite Act.s, foldl_pending]
@[simp] theorem elasticBad_pending (q : Nat) (lane : Nat) (e : Slot) (s : State) : (elasticBad q lane e s).pending = s.pending := by
  simp [elasticBad, apply_ite State.pending, apply_ite Act.s, foldl_pending]
@[simp] theorem fixedPut_pending (q : Nat) (col : Nat) (row : Nat) (bank : Nat) (x : Nat) (w : LWord) (s : State) : (fixedPut q col row bank x w s).pending = s.pending := by
  unfold fixedPut; (try dsimp only); (repeat' (first | with_reducible rfl | (simp [apply_ite State.pending, apply_ite Act.s, foldl_pending]; done) | split | (rw [foldl_pending] <;> intros) | dsimp only | (simp [apply_ite State.pending, foldl_pending])))
@[simp] theorem spendCredit_pending (h : Nat) (loop : Nat) (n : Nat) (s : State) : (spendCredit h loop n s).pending = s.pending := by
  simp [spendCredit]
@[simp] theorem giveCredit_pending (h : Nat) (loop : Nat) (s : State) : (giveCredit h loop s).pending = s.pending := by
  simp [giveCredit]
@[simp] theorem passFault_pending (h : Nat) (f : FaultRec) (q : Nat) (col : Nat) (row : Nat) (s : State) : (passFault h f q col row s).pending = s.pending := by
  simp [passFault]
@[simp] theorem queueArrive_pending (h : Nat) (q : Nat) (col : Nat) (row : Nat) (ag : Nat) (l : MLine) (s : State) : (queueArrive h q col row ag l s).pending = s.pending := by
  unfold queueArrive; (try dsimp only); (repeat' (first | with_reducible rfl | (simp [apply_ite State.pending, apply_ite Act.s, foldl_pending]; done) | split | (rw [foldl_pending] <;> intros) | dsimp only | (simp [apply_ite State.pending, foldl_pending])))
@[simp] theorem elasticPut_pending (h : Nat) (q : Nat) (col : Nat) (row : Nat) (x : Nat) (w : LWord) (s : State) : (elasticPut h q col row x w s).pending = s.pending := by
  unfold elasticPut; (try dsimp only); (repeat' (first | with_reducible rfl | (simp [apply_ite State.pending, apply_ite Act.s, foldl_pending]; done) | split | (rw [foldl_pending] <;> intros) | dsimp only | (simp [apply_ite State.pending, foldl_pending])))
@[simp] theorem deliver_pending (h : Nat) (elastic : Bool) (slotBank : Nat) (q : Nat) (col : Nat) (row : Nat) (x : Nat) (dest : Nat) (w : LWord) (s : State) : (deliver h elastic slotBank q col row x dest w s).pending = s.pending := by
  simp [deliver, apply_ite State.pending, apply_ite Act.s, foldl_pending]
@[simp] theorem chainOut_pending (q : Nat) (col : Nat) (row : Nat) (x : Nat) (c : Chain) (s : State) : (chainOut q col row x c s).pending = s.pending := by
  simp [chainOut, apply_ite State.pending, apply_ite Act.s, foldl_pending]
@[simp] theorem markUnit_pending (st : Nat) (u : Nat) (s : State) : (markUnit st u s).pending = s.pending := by
  simp [markUnit]
@[simp] theorem failUnit_pending (u : Nat) (s : State) : (failUnit u s).pending = s.pending := by
  simp [failUnit]
@[simp] theorem maintEv_pending (code : Nat) (h : Nat) (act : Nat) (s : State) : (maintEv code h act s).pending = s.pending := by
  simp [maintEv]
@[simp] theorem startAct_pending (r : MaintReq) (j : Nat) (s : State) : (startAct r j s).pending = s.pending := by
  simp [startAct]
@[simp] theorem queueAct_pending (r : MaintReq) (j : Nat) (s : State) : (queueAct r j s).pending = s.pending := by
  simp [queueAct]
@[simp] theorem endAct_pending (h : Nat) (aborted : Bool) (s : State) : (endAct h aborted s).pending = s.pending := by
  unfold endAct; (repeat' (first | with_reducible rfl | (simp [apply_ite State.pending, apply_ite Act.s, foldl_pending]; done) | split | (rw [foldl_pending] <;> intros)))
@[simp] theorem setRot_pending (r : Rot) (s : State) : (setRot r s).pending = s.pending := by rfl
@[simp] theorem dropRot_pending (r : Rot) (aborted : Bool) (s : State) : (dropRot r aborted s).pending = s.pending := by
  simp [dropRot, apply_ite State.pending, apply_ite Act.s, foldl_pending]
@[simp] theorem loseQuad_pending (q : Nat) (clean : Bool) (s : State) : (loseQuad q clean s).pending = s.pending := by
  simp [loseQuad, apply_ite State.pending, apply_ite Act.s, foldl_pending]
@[simp] theorem rotActiveBad_pending (r : Rot) (s : State) : (rotActiveBad r s).pending = s.pending := by
  simp [rotActiveBad]
@[simp] theorem rotSpareBad_pending (r : Rot) (s : State) : (rotSpareBad r s).pending = s.pending := by
  simp [rotSpareBad]
@[simp] theorem rotUndecided_pending (r : Rot) (s : State) : (rotUndecided r s).pending = s.pending := by
  simp [rotUndecided, apply_ite State.pending, apply_ite Act.s, foldl_pending]
@[simp] theorem rotBothBad_pending (r : Rot) (s : State) : (rotBothBad r s).pending = s.pending := by
  simp [rotBothBad]
@[simp] theorem rotDecide_pending (recomputed : Bool) (aBad : Bool) (sBad : Bool) (r : Rot) (s : State) : (rotDecide recomputed aBad sBad r s).pending = s.pending := by
  unfold rotDecide; (repeat' (first | with_reducible rfl | (simp [apply_ite State.pending, apply_ite Act.s, foldl_pending]; done) | split | (rw [foldl_pending] <;> intros)))
@[simp] theorem rotMismatch_pending (covered : Bool) (aBad : Bool) (sBad : Bool) (r : Rot) (s : State) : (rotMismatch covered aBad sBad r s).pending = s.pending := by
  simp [rotMismatch, apply_ite State.pending, apply_ite Act.s, foldl_pending]
@[simp] theorem moveRots_pending (s : State) : (moveRots s).pending = s.pending := by
  simp [moveRots, apply_ite State.pending, apply_ite Act.s, foldl_pending]
@[simp] theorem rotSwapped_pending (hs : List Nat) (s : State) : (rotSwapped hs s).pending = s.pending := by rfl
@[simp] theorem holdTiles_pending (hold : Bool) (l : List (Nat × Nat × Nat)) (s : State) : (holdTiles hold l s).pending = s.pending := by
  simp [holdTiles, apply_ite State.pending, apply_ite Act.s, foldl_pending]
@[simp] theorem holdPasses_pending (l : List (Nat × Nat × Nat)) (s : State) : (holdPasses l s).pending = s.pending := by
  simp [holdPasses, apply_ite State.pending, apply_ite Act.s, foldl_pending]
@[simp] theorem poisonTile_pending (n : Nat) (p : Nat × Nat × Nat) (s : State) : (poisonTile n p s).pending = s.pending := by
  simp [poisonTile, apply_ite State.pending, apply_ite Act.s, foldl_pending]
@[simp] theorem heldTick_pending (n : Nat) (s : State) : (heldTick n s).pending = s.pending := by
  simp [heldTick, apply_ite State.pending, apply_ite Act.s, foldl_pending]
@[simp] theorem loseStores_pending (p : Nat × Nat × Nat) (s : State) : (loseStores p s).pending = s.pending := by
  unfold loseStores; (repeat' (first | with_reducible rfl | (simp [apply_ite State.pending, apply_ite Act.s, foldl_pending]; done) | split | (rw [foldl_pending] <;> intros)))
@[simp] theorem stopSection_pending (h : Nat) (s : State) : (stopSection h s).pending = s.pending := by
  simp [stopSection]
@[simp] theorem endRemaps_pending (q : Nat) (s : State) : (endRemaps q s).pending = s.pending := by
  simp [endRemaps, apply_ite State.pending, apply_ite Act.s, foldl_pending]
@[simp] theorem quadDown_pending (q : Nat) (s : State) : (quadDown q s).pending = s.pending := by
  simp [quadDown, apply_ite State.pending, apply_ite Act.s, foldl_pending]
@[simp] theorem quadLosses_pending (s : State) : (quadLosses s).pending = s.pending := by
  simp [quadLosses, apply_ite State.pending, apply_ite Act.s, foldl_pending]
@[simp] theorem clearQuad_pending (q : Nat) (s : State) : (clearQuad q s).pending = s.pending := by rfl
@[simp] theorem unloadQuad_pending (q : Nat) (s : State) : (unloadQuad q s).pending = s.pending := by
  simp [unloadQuad, apply_ite State.pending, apply_ite Act.s, foldl_pending]
@[simp] theorem quadWake_pending (q : Nat) (j : Nat) (s : State) : (quadWake q j s).pending = s.pending := by
  simp [quadWake, apply_ite State.pending, apply_ite Act.s, foldl_pending]
@[simp] theorem quadOff_pending (q : Nat) (s : State) : (quadOff q s).pending = s.pending := by
  simp [quadOff]
@[simp] theorem quadEdge_pending (q : Nat) (idle : Bool) (s : State) : (quadEdge q idle s).pending = s.pending := by
  unfold quadEdge; (repeat' (first | with_reducible rfl | (simp [apply_ite State.pending, apply_ite Act.s, foldl_pending]; done) | split | (rw [foldl_pending] <;> intros)))
@[simp] theorem runQueued_pending (a : Activity) (s : State) : (runQueued a s).pending = s.pending := by
  simp [runQueued, apply_ite State.pending, apply_ite Act.s, foldl_pending]
@[simp] theorem serveMaint_pending (y0 : Nat) (y1 : State) : (serveMaint y0 y1).pending = y1.pending := by
  induction y0 generalizing y1 with
  | zero => rfl
  | succ n ih => unfold serveMaint; split <;> simp [apply_ite State.pending, ih]
@[simp] theorem alignTick_pending (t : Nat) (io : IoErr) (s0 : State) : (alignTick t io s0).pending = s0.pending := by
  simp [alignTick, apply_ite State.pending, apply_ite Act.s, foldl_pending]
@[simp] theorem wideCheck_pending (t : Nat) (f : Option FireCase) (s : State) : (wideCheck t f s).pending = s.pending := by
  unfold wideCheck; (repeat' (first | with_reducible rfl | (simp [apply_ite State.pending, apply_ite Act.s, foldl_pending]; done) | split | (rw [foldl_pending] <;> intros)))
@[simp] theorem enterRequest_pending (r : Option RecReq) (s : State) : (enterRequest r s).pending = s.pending := by
  unfold enterRequest; (repeat' (first | with_reducible rfl | (simp [apply_ite State.pending, apply_ite Act.s, foldl_pending]; done) | split | (rw [foldl_pending] <;> intros)))
@[simp] theorem enterParisons_pending (t : Nat) (o : CombOut) (s : State) : (enterParisons t o s).pending = s.pending := by
  simp [enterParisons, apply_ite State.pending, apply_ite Act.s, foldl_pending]
@[simp] theorem tickOutcome_pending (t : Nat) (o : CombOut) (s : State) : (tickOutcome t o s).1.pending = s.pending := by
  unfold tickOutcome
  dsimp only
  repeat' (first | with_reducible rfl | (simp [apply_ite State.pending]; done) | split)

@[simp] theorem ghoStart_pending (t : Nat) (o : CombOut) (g : Nat) (s : State) : (ghoStart t o g s).pending = s.pending := by
  simp [ghoStart, apply_ite State.pending, apply_ite Act.s, foldl_pending]
@[simp] theorem enterMarks_pending (t : Nat) (i : CombIn) (o : CombOut) (ls : Tbl LineSt) (s : State) : (enterMarks t i o ls s).pending = s.pending := by rfl
@[simp] theorem decisionLog_pending (t : Nat) (o : CombOut) (full : Bool) (s : State) : (decisionLog t o full s).pending = s.pending := by
  simp [decisionLog, apply_ite State.pending, apply_ite Act.s, foldl_pending]
@[simp] theorem dropInputs_pending (t : Nat) (s : State) : (dropInputs t s).pending = s.pending := by rfl
@[simp] theorem inputLog_pending (t : Nat) (s : State) : (inputLog t s).pending = s.pending := by
  simp [inputLog, apply_ite State.pending, apply_ite Act.s, foldl_pending]
@[simp] theorem closeDigests_pending (t : Nat) (s : State) : (closeDigests t s).pending = s.pending := by
  simp [closeDigests, apply_ite State.pending, apply_ite Act.s, foldl_pending]
@[simp] theorem afterDecision_pending (t : Nat) (s : State) : (afterDecision t s).pending = s.pending := by rfl
@[simp] theorem decisionEffects_pending (t : Nat) (i : CombIn) (o : CombOut) (ls : Tbl LineSt) (full : Bool) (s : State) : (decisionEffects t i o ls full s).pending = s.pending := by
  simp [decisionEffects, apply_ite State.pending, apply_ite Act.s, foldl_pending]
@[simp] theorem shStart_pending (t : Nat) (s : State) : (shStart t s).pending = s.pending := by
  simp [shStart, apply_ite State.pending, apply_ite Act.s, foldl_pending]
@[simp] theorem decideTick_pending (t : Nat) (io : IoErr) (s0 : State) : (decideTick t io s0).pending = s0.pending := by
  simp [decideTick, apply_ite State.pending, apply_ite Act.s, foldl_pending]
@[simp] theorem startPass_pending (hd : Nat) (c : Nat) (x : Nat) (s : State) : (startPass hd c x s).pending = s.pending := by
  simp [startPass]
@[simp] theorem finishPass_pending (hd : Nat) (v : Nat) (x : Nat) (s : State) : (finishPass hd v x s).pending = s.pending := by
  simp [finishPass]
@[simp] theorem sectionBoundary_pending (hd : Nat) (x : Nat) (s : State) : (sectionBoundary hd x s).pending = s.pending := by
  simp [sectionBoundary]
@[simp] theorem receivePorts_pending (a : TileAt) (r : RowCtx) (s : State) : (receivePorts a r s).pending = s.pending := by
  simp [receivePorts, apply_ite State.pending, apply_ite Act.s, foldl_pending]
@[simp] theorem schedBad_pending (a : TileAt) (r : RowCtx) (s : State) : (schedBad a r s).pending = s.pending := by
  simp [schedBad, apply_ite State.pending, apply_ite Act.s, foldl_pending]
@[simp] theorem freezeRow_pending (a : TileAt) (r : RowCtx) (waitAg : Option Nat) (waits : Option Nat) (s : State) : (freezeRow a r waitAg waits s).pending = s.pending := by
  unfold freezeRow; (try dsimp only); (repeat' (first | with_reducible rfl | (simp [apply_ite State.pending, apply_ite Act.s, foldl_pending]; done) | split | (rw [foldl_pending] <;> intros) | dsimp only | (simp [apply_ite State.pending, foldl_pending])))
@[simp] theorem proceed_pending (a : TileAt) (r : RowCtx) (s : State) : (proceed a r s).pending = s.pending := by
  simp [proceed, apply_ite State.pending, apply_ite Act.s, foldl_pending]
@[simp] theorem spread_pending (a : TileAt) (r : RowCtx) (chainOff : Nat) (o : TileOut) (s : State) : (spread a r chainOff o s).pending = s.pending := by
  unfold spread; (try dsimp only); (repeat' (first | with_reducible rfl | (simp [apply_ite State.pending, apply_ite Act.s, foldl_pending]; done) | split | (rw [foldl_pending] <;> intros) | dsimp only | (simp [apply_ite State.pending, foldl_pending])))
@[simp] theorem rotFound_pending (op : Nat) (a : TileAt) (o : TileOut) (rot : Option Rot) (s : State) : (rotFound op a o rot s).pending = s.pending := by
  unfold rotFound; (repeat' (first | with_reducible rfl | (simp [apply_ite State.pending, apply_ite Act.s, foldl_pending]; done) | split | (rw [foldl_pending] <;> intros)))
theorem runRow_pending (op chainOff : Nat) (f : RowOp) (a : TileAt) (s : State) (hf : ∀ r e t s s', KeepsQueue s' ((f r e t s).2 s')) :
    (runRow op chainOff f a s).pending = s.pending := by
  have hg : ∀ r w ce, (runRow.go op chainOff f a s r w ce).pending = s.pending := by
    intro r w ce
    unfold runRow.go
    dsimp only
    repeat' (first | with_reducible rfl | (simp [fun r e t s s' => (hf r e t s s').eq, apply_ite State.pending]; done) | split)
  unfold runRow
  dsimp only
  repeat' (first | with_reducible rfl | (simp [hg]; done) | split)

@[simp] theorem tileRow_pending (op chainOff : Nat) (f : Env → Tile → TileOut) (a : TileAt) (s : State) : (tileRow op chainOff f a s).pending = s.pending :=
  runRow_pending _ _ _ _ _ (fun _ _ _ _ _ => ⟨rfl⟩)

@[simp] theorem sectionEdge_pending (n : Nat) (s : State) : (sectionEdge n s).pending = s.pending := by
  simp [sectionEdge, apply_ite State.pending, apply_ite Act.s, foldl_pending]
@[simp] theorem request_pending (h : Nat) (l : Nat × ImLoop) (lines : List MLine) (s : State) : (request h l lines s).pending = s.pending := by
  simp [request]
@[simp] theorem pcapLines_pending (a : TileAt) (s : State) : (pcapLines a s).pending = s.pending := by
  unfold pcapLines; (repeat' (first | with_reducible rfl | (simp [apply_ite State.pending, apply_ite Act.s, foldl_pending]; done) | split | (rw [foldl_pending] <;> intros)))
theorem takeLine_pending (hd : Nat) (s : State) (a : Ask) (l : MLine) (t : State) (h : takeLine hd s = some (a, l, t)) : t.pending = s.pending := by
  unfold takeLine at h
  repeat' (first | cases h | split at h)
  all_goals (first | with_reducible rfl | simp_all)

@[simp] theorem mregOr_pending (b : FBank) (n : Nat) (m : Nat) (x : Nat) (w : LWord) (s : State) : (mregOr b n m x w s).pending = s.pending := by rfl
@[simp] theorem mregClear_pending (m : Nat) (x : Nat) (s : State) : (mregClear m x s).pending = s.pending := by rfl
@[simp] theorem takeLink_pending (t n : Nat) (e : FSlot) (s : State) : (takeLink t n e s).2.pending = s.pending := by
  unfold takeLink
  dsimp only
  repeat' (first | with_reducible rfl | (simp; done) | split)

@[simp] theorem fslotWord_pending (t n : Nat) (e : FSlot) (s : State) : (fslotWord t n e s).2.pending = s.pending := by
  unfold fslotWord
  repeat' (first | with_reducible rfl | (simp; done) | split)

@[simp] theorem launch_pending (l : Nat) (next : Nat) (w : LWord) (s : State) : (launch l next w s).pending = s.pending := by
  simp [launch, apply_ite State.pending, apply_ite Act.s, foldl_pending]
@[simp] theorem takePseq_pending (dest vc : Nat) (s : State) : (takePseq dest vc s).2.pending = s.pending := rfl

@[simp] theorem erxAdd_pending (dport : Nat) (w : LWord) (s : State) : (erxAdd dport w s).pending = s.pending := by rfl
@[simp] theorem sendPacket_pending (p : Packet) (s : State) : (sendPacket p s).pending = s.pending := by
  unfold sendPacket; (repeat' (first | with_reducible rfl | (simp [apply_ite State.pending, apply_ite Act.s, foldl_pending]; done) | split | (rw [foldl_pending] <;> intros)))
@[simp] theorem sendMsg_pending (l : Nat) (m : Msg) (s : State) : (sendMsg l m s).pending = s.pending := by rfl
@[simp] theorem sendMsg2_pending (d : Nat) (m : Msg2) (s : State) : (sendMsg2 d m s).pending = s.pending := by rfl
@[simp] theorem grantTo_pending (d : Nat) (s : State) : (grantTo d s).pending = s.pending := by
  simp [grantTo, apply_ite State.pending, apply_ite Act.s, foldl_pending]
@[simp] theorem tokenAsked_pending (d : Nat) (s : State) : (tokenAsked d s).pending = s.pending := by
  simp [tokenAsked, apply_ite State.pending, apply_ite Act.s, foldl_pending]
@[simp] theorem tokenBack_pending (d : Nat) (s : State) : (tokenBack d s).pending = s.pending := by
  unfold tokenBack; (try dsimp only); (repeat' (first | with_reducible rfl | (simp [apply_ite State.pending, apply_ite Act.s, foldl_pending]; done) | split | (rw [foldl_pending] <;> intros) | dsimp only | (simp [apply_ite State.pending, foldl_pending])))
@[simp] theorem erouteApply_pending (t : List (Nat × Nat)) (s : State) : (erouteApply t s).pending = s.pending := by
  simp [erouteApply, apply_ite State.pending, apply_ite Act.s, foldl_pending]
@[simp] theorem routesOut_pending (s : State) : (routesOut s).pending = s.pending := by
  simp [routesOut, apply_ite State.pending, apply_ite Act.s, foldl_pending]
@[simp] theorem nameBarrier_pending (b : BarrierDesc) (s : State) : (nameBarrier b s).pending = s.pending := by
  simp [nameBarrier]
@[simp] theorem sendKept_pending (dev : Nat) (sb : Nat) (s : State) : (sendKept dev sb s).pending = s.pending := by
  simp [sendKept, apply_ite State.pending, apply_ite Act.s, foldl_pending]
@[simp] theorem loseDevice_pending (dev : Nat) (p : Plan) (s : State) : (loseDevice dev p s).pending = s.pending := by
  unfold loseDevice; (try dsimp only); (repeat' (first | with_reducible rfl | (simp [apply_ite State.pending, apply_ite Act.s, foldl_pending]; done) | split | (rw [foldl_pending] <;> intros) | dsimp only | (simp [apply_ite State.pending, foldl_pending])))
@[simp] theorem linkLostAt_pending (dev : Nat) (l : Nat) (s : State) : (linkLostAt dev l s).pending = s.pending := by
  unfold linkLostAt; (try dsimp only); (repeat' (first | with_reducible rfl | (simp [apply_ite State.pending, apply_ite Act.s, foldl_pending]; done) | split | (rw [foldl_pending] <;> intros) | dsimp only | (simp [apply_ite State.pending, foldl_pending])))
@[simp] theorem linkBackAt_pending (dev : Nat) (l : Nat) (need : Nat) (s : State) : (linkBackAt dev l need s).pending = s.pending := by
  unfold linkBackAt; (try dsimp only); (repeat' (first | with_reducible rfl | (simp [apply_ite State.pending, apply_ite Act.s, foldl_pending]; done) | split | (rw [foldl_pending] <;> intros) | dsimp only | (simp [apply_ite State.pending, foldl_pending])))
@[simp] theorem packMsgs_pending (l : Nat) (s : State) : (packMsgs l s).pending = s.pending := by
  unfold packMsgs
  exact foldl_pending _ _ _ (fun s e => ⟨foldl_pending _ _ _ (fun s ws => ⟨by simp only [sendPacket_pending, takePseq_pending]⟩)⟩)
@[simp] theorem sendCw_pending (l : Nat) (raw : Nat) (s : State) : (sendCw l raw s).pending = s.pending := by
  unfold sendCw
  exact (send_pending _ _).trans ((foldl_pending _ _ _ (fun s p => ⟨by split <;> simp only [giveCredit_pending]⟩)).trans (setLink_pending _ _ _))
@[simp] theorem fall_pending (l : Nat) (s : State) : (fall l s).pending = s.pending := by
  simp [fall]
@[simp] theorem fixedIn_pending (l : Nat) (n : Nat) (w : LWord) (s : State) : (fixedIn l n w s).pending = s.pending := by
  simp [fixedIn, apply_ite State.pending, apply_ite Act.s, foldl_pending]
@[simp] theorem cwIn_pending (l : Nat) (raw : Nat) (w : Codeword) (s : State) : (cwIn l raw w s).pending = s.pending := by
  unfold cwIn; (try dsimp only); (repeat' (first | with_reducible rfl | (simp [apply_ite State.pending, apply_ite Act.s, foldl_pending]; done) | split | (rw [foldl_pending] <;> intros) | dsimp only | (simp [apply_ite State.pending, foldl_pending])))
@[simp] theorem reportLambda_pending (l : Nat) (ps : Nat) (s : State) : (reportLambda l ps s).pending = s.pending := by
  unfold reportLambda; (repeat' (first | with_reducible rfl | (simp [apply_ite State.pending, apply_ite Act.s, foldl_pending]; done) | split | (rw [foldl_pending] <;> intros)))
@[simp] theorem askToken_pending (s : State) : (askToken s).pending = s.pending := by
  simp [askToken, apply_ite State.pending, apply_ite Act.s, foldl_pending]
@[simp] theorem returnToken_pending (s : State) : (returnToken s).pending = s.pending := by
  simp [returnToken, apply_ite State.pending, apply_ite Act.s, foldl_pending]
@[simp] theorem releaseLock_pending (cause : Nat) (s : State) : (releaseLock cause s).pending = s.pending := by
  simp [releaseLock, apply_ite State.pending, apply_ite Act.s, foldl_pending]
@[simp] theorem stepTo_pending (t : Nat) (st : PartSt) (s : State) : (stepTo t st s).pending = s.pending := by
  simp [stepTo]
@[simp] theorem applyEnd_pending (s : State) : (applyEnd s).pending = s.pending := by
  unfold applyEnd; (repeat' (first | with_reducible rfl | (simp [apply_ite State.pending, apply_ite Act.s, foldl_pending]; done) | split | (rw [foldl_pending] <;> intros)))
@[simp] theorem nextPart_pending (s : State) : (nextPart s).pending = s.pending := by
  unfold nextPart; (repeat' (first | with_reducible rfl | (simp [apply_ite State.pending, apply_ite Act.s, foldl_pending]; done) | split | (rw [foldl_pending] <;> intros)))
@[simp] theorem partEnded_pending (ok : Bool) (t : Nat) (s : State) : (partEnded ok t s).pending = s.pending := by
  simp [partEnded, apply_ite State.pending, apply_ite Act.s, foldl_pending]
@[simp] theorem openLehr_pending (t : Nat) (s : State) : (openLehr t s).pending = s.pending := by
  simp [openLehr]
@[simp] theorem coresNew_pending (new : Bool) (s : State) : (coresNew new s).pending = s.pending := by rfl
@[simp] theorem fallenBack_pending (t : Nat) (s : State) : (fallenBack t s).pending = s.pending := by
  simp [fallenBack, apply_ite State.pending, apply_ite Act.s, foldl_pending]
@[simp] theorem fallBack_pending (t : Nat) (c : Nat) (s : State) : (fallBack t c s).pending = s.pending := by
  simp [fallBack]
@[simp] theorem setCore_pending (k : Nat) (c : Core) (s : State) : (setCore k c s).pending = s.pending := by rfl
@[simp] theorem rollBegin_pending (k : Nat) (s : State) : (rollBegin k s).pending = s.pending := by
  simp [rollBegin, apply_ite State.pending, apply_ite Act.s, foldl_pending]
@[simp] theorem rollBack_pending (k : Nat) (new : Bool) (s : State) : (rollBack k new s).pending = s.pending := by
  simp [rollBack, apply_ite State.pending, apply_ite Act.s, foldl_pending]
@[simp] theorem rollAborts_pending (s : State) : (rollAborts s).pending = s.pending := by
  unfold rollAborts; (repeat' (first | with_reducible rfl | (simp [apply_ite State.pending, apply_ite Act.s, foldl_pending]; done) | split | (rw [foldl_pending] <;> intros)))
@[simp] theorem activate_pending (t : Nat) (s : State) : (activate t s).pending = s.pending := by
  unfold activate; (repeat' (first | with_reducible rfl | (simp [apply_ite State.pending, apply_ite Act.s, foldl_pending]; done) | split | (rw [foldl_pending] <;> intros)))
@[simp] theorem deferPart_pending (t : Nat) (s : State) : (deferPart t s).pending = s.pending := by
  simp [deferPart]
@[simp] theorem resourcesFree_pending (s : State) : (resourcesFree s).pending = s.pending := by
  simp [resourcesFree]
@[simp] theorem beginMaint_pending (r : MaintReq) (s : State) : (beginMaint r s).pending = s.pending := by
  simp [beginMaint, apply_ite State.pending, apply_ite Act.s, foldl_pending]
@[simp] theorem stopAct'_pending (a : Activity) (s : State) : (stopAct' a s).pending = s.pending := by
  simp [stopAct', apply_ite State.pending, apply_ite Act.s, foldl_pending]
@[simp] theorem quadAct_pending (h : Hdr) (q : Nat) (req : Nat) (j : Nat) (s : State) : (quadAct h q req j s).s.pending = s.pending := by
  unfold quadAct
  dsimp only
  repeat' (first | with_reducible rfl | (simp; done) | split | (rw [tickCmd_pending]; intros; simp))
@[simp] theorem releaseStandby_pending (s : State) : (releaseStandby s).pending = s.pending := by
  unfold releaseStandby; (repeat' (first | with_reducible rfl | (simp [apply_ite State.pending, apply_ite Act.s, foldl_pending]; done) | split | (rw [foldl_pending] <;> intros)))
@[simp] theorem nameStandby_pending (q : Option Nat) (s : State) : (nameStandby q s).pending = s.pending := by rfl
@[simp] theorem standbyAct_pending (q : Option Nat) (s : State) : (standbyAct q s).s.pending = s.pending := by
  unfold standbyAct; (try dsimp only); (repeat' (first | with_reducible rfl | (simp [apply_ite State.pending, apply_ite Act.s, foldl_pending]; done) | split | (rw [foldl_pending] <;> intros) | dsimp only | (simp [apply_ite State.pending, foldl_pending])))
@[simp] theorem setRec_pending (x : QRec) (s : State) : (setRec x s).pending = s.pending := by rfl
@[simp] theorem doneRec_pending (x : QRec) (s : State) : (doneRec x s).pending = s.pending := by rfl
@[simp] theorem takeInHand_pending (roles : List Nat) (x : QRec) (s : State) : (takeInHand roles x s).pending = s.pending := by rfl
@[simp] theorem rewriteStores_pending (f : FaultRec) (s : State) : (rewriteStores f s).pending = s.pending := by
  unfold rewriteStores; (try dsimp only); (repeat' (first | with_reducible rfl | (simp [apply_ite State.pending, apply_ite Act.s, foldl_pending]; done) | split | (rw [foldl_pending] <;> intros) | dsimp only | (simp [apply_ite State.pending, foldl_pending])))
@[simp] theorem beginConfirm_pending (f : FaultRec) (s : State) : (beginConfirm f s).pending = s.pending := by rfl
@[simp] theorem endConfirm_pending (f : FaultRec) (s : State) : (endConfirm f s).pending = s.pending := by rfl
@[simp] theorem declareTile_pending (x : QRec) (s0 : State) : (declareTile x s0).pending = s0.pending := by
  unfold declareTile; (try dsimp only); (repeat' (first | with_reducible rfl | (simp [apply_ite State.pending, apply_ite Act.s, foldl_pending]; done) | split | (rw [foldl_pending] <;> intros) | dsimp only | (simp [apply_ite State.pending, foldl_pending])))
@[simp] theorem stopRotation_pending (q : Nat) (k : Nat) (s : State) : (stopRotation q k s).pending = s.pending := by
  simp [stopRotation, apply_ite State.pending, apply_ite Act.s, foldl_pending]
@[simp] theorem declareFailed_pending (x : QRec) (s : State) : (declareFailed x s).pending = s.pending := by
  unfold declareFailed; (try dsimp only); (repeat' (first | with_reducible rfl | (simp [apply_ite State.pending, apply_ite Act.s, foldl_pending]; done) | split | (rw [foldl_pending] <;> intros) | dsimp only | (simp [apply_ite State.pending, foldl_pending])))
@[simp] theorem firstStep_pending (x : QRec) (s : State) : (firstStep x s).pending = s.pending := by
  simp [firstStep, apply_ite State.pending, apply_ite Act.s, foldl_pending]
@[simp] theorem setRemap_pending (r : Remap) (s : State) : (setRemap r s).pending = s.pending := by rfl
@[simp] theorem recStep_pending (r : StepIn) (x : QRec) (s : State) : (recStep r x s).pending = s.pending := by
  unfold recStep; (repeat' (first | with_reducible rfl | (simp [apply_ite State.pending, apply_ite Act.s, foldl_pending]; done) | split | (rw [foldl_pending] <;> intros)))
@[simp] theorem switchRemap_pending (m : Remap) (s : State) : (switchRemap m s).pending = s.pending := by
  simp [switchRemap, apply_ite State.pending, apply_ite Act.s, foldl_pending]
@[simp] theorem moveQuadWork_pending (q : Nat) (sb : Nat) (s : State) : (moveQuadWork q sb s).pending = s.pending := by
  simp [moveQuadWork, apply_ite State.pending, apply_ite Act.s, foldl_pending]
@[simp] theorem quadMoved_pending (q : Nat) (sb : Nat) (s : State) : (quadMoved q sb s).pending = s.pending := by rfl
@[simp] theorem takeQuad_pending (q : Nat) (sb : Nat) (s : State) : (takeQuad q sb s).pending = s.pending := by
  simp [takeQuad, apply_ite State.pending, apply_ite Act.s, foldl_pending]
@[simp] theorem wakeOver_pending (q : Nat) (status : Nat) (s : State) : (wakeOver q status s).pending = s.pending := by
  unfold wakeOver; (repeat' (first | with_reducible rfl | (simp [apply_ite State.pending, apply_ite Act.s, foldl_pending]; done) | split | (rw [foldl_pending] <;> intros)))
@[simp] theorem moveAreas_pending (s : State) : (moveAreas s).pending = s.pending := by
  simp [moveAreas, apply_ite State.pending, apply_ite Act.s, foldl_pending]
@[simp] theorem dropWindows_pending (s : State) : (dropWindows s).pending = s.pending := by
  simp [dropWindows, apply_ite State.pending, apply_ite Act.s, foldl_pending]
@[simp] theorem stackWipe_pending (k : Nat) (s0 : State) : (stackWipe k s0).pending = s0.pending := by
  simp [stackWipe]
@[simp] theorem ringShrink_pending (s : State) : (ringShrink s).pending = s.pending := by
  simp [ringShrink, apply_ite State.pending, apply_ite Act.s, foldl_pending]
@[simp] theorem relayoutEnd_pending (s : State) : (relayoutEnd s).pending = s.pending := by
  unfold relayoutEnd; (repeat' (first | with_reducible rfl | (simp [apply_ite State.pending, apply_ite Act.s, foldl_pending]; done) | split | (rw [foldl_pending] <;> intros)))
@[simp] theorem stackDown_pending (k : Nat) (s : State) : (stackDown k s).pending = s.pending := by
  simp [stackDown]
@[simp] theorem loseCore_pending (core : Nat) (code : Nat) (s : State) : (loseCore core code s).pending = s.pending := by
  simp [loseCore, apply_ite State.pending, apply_ite Act.s, foldl_pending]
@[simp] theorem expirePassed_pending (s : State) : (expirePassed s).pending = s.pending := by
  unfold expirePassed
  exact foldl_pending _ _ _ (fun s w => ⟨finishWait_pending w stExpired s⟩)
@[simp] theorem resumeRole_pending (role : Nat) (s : State) : (resumeRole role s).pending = s.pending := by
  unfold resumeRole; (repeat' (first | with_reducible rfl | (simp [apply_ite State.pending, apply_ite Act.s, foldl_pending]; done) | split | (rw [foldl_pending] <;> intros)))
@[simp] theorem dmaFetch_pending (e : Nat) (d : DmaDesc) (fetchErr : Bool) (s : State) : (dmaFetch e d fetchErr s).pending = s.pending := by
  unfold dmaFetch; (try dsimp only); (repeat' (first | with_reducible rfl | (simp [apply_ite State.pending, apply_ite Act.s, foldl_pending]; done) | split | (rw [foldl_pending] <;> intros) | dsimp only | (simp [apply_ite State.pending, foldl_pending])))
@[simp] theorem placeWrite_pending (p : Place) (bs : List Byte) (s : State) : (placeWrite p bs s).pending = s.pending := by
  unfold placeWrite; (repeat' (first | with_reducible rfl | (simp [apply_ite State.pending, apply_ite Act.s, foldl_pending]; done) | split | (rw [foldl_pending] <;> intros)))
@[simp] theorem oweFor_pending (e : Nat) (d : DmaDesc) (bytes : Nat) (split : Bool) (s : State) : (oweFor e d bytes split s).pending = s.pending := by
  simp [oweFor]
@[simp] theorem dmaCopy_pending (e : Nat) (d : DmaDesc) (data : List Byte) (err : Option Nat) (s : State) : (dmaCopy e d data err s).pending = s.pending := by
  unfold dmaCopy; (try dsimp only); (repeat' (first | with_reducible rfl | (simp [apply_ite State.pending, apply_ite Act.s, foldl_pending]; done) | split | (rw [foldl_pending] <;> intros) | dsimp only | (simp [apply_ite State.pending, foldl_pending])))
theorem dmaFill_pending (e : Nat) (d : DmaDesc) (rest : List Byte) (begun : Bool) (took : Nat → State → State) (s : State)
    (ht : ∀ n s, KeepsQueue s (took n s)) : (dmaFill e d rest begun took s).pending = s.pending := by
  unfold dmaFill
  dsimp only
  repeat' (first | with_reducible rfl | (simp [fun n s => (ht n s).eq, apply_ite State.pending]; done) | split)

@[simp] theorem recordSent_pending (e : Nat) (n : Nat) (s : State) : (recordSent e n s).pending = s.pending := by
  unfold recordSent; (repeat' (first | with_reducible rfl | (simp [apply_ite State.pending, apply_ite Act.s, foldl_pending]; done) | split | (rw [foldl_pending] <;> intros)))
@[simp] theorem entrySent_pending (m : Nat) (n : Nat) (s : State) : (entrySent m n s).pending = s.pending := by
  simp [entrySent]
@[simp] theorem dmaMove_pending (e : Nat) (d : DmaDesc) (data : List Byte) (err : Option Nat) (s : State) : (dmaMove e d data err s).pending = s.pending := by
  unfold dmaMove
  dsimp only
  repeat' (first | with_reducible rfl | (simp; done) | split | (rw [dmaFill_pending]; intros; simp))
@[simp] theorem oweStopped_pending (e : Nat) (s : State) : (oweStopped e s).pending = s.pending := by
  unfold oweStopped; (try dsimp only); (repeat' (first | with_reducible rfl | (simp [apply_ite State.pending, apply_ite Act.s, foldl_pending]; done) | split | (rw [foldl_pending] <;> intros) | dsimp only | (simp [apply_ite State.pending, foldl_pending])))
@[simp] theorem setPrx_pending (k : Nat) (x : PRx) (s : State) : (setPrx k x s).pending = s.pending := by rfl
@[simp] theorem collIn_pending (p : Packet) (s : State) : (collIn p s).pending = s.pending := by rfl
@[simp] theorem keepConfig_pending (dev : Nat) (b : List Byte) (s : State) : (keepConfig dev b s).pending = s.pending := by
  simp [keepConfig, apply_ite State.pending, apply_ite Act.s, foldl_pending]
@[simp] theorem replyFrom_pending (src : Nat) (b : List Byte) (s : State) : (replyFrom src b s).pending = s.pending := by
  unfold replyFrom; (repeat' (first | with_reducible rfl | (simp [apply_ite State.pending, apply_ite Act.s, foldl_pending]; done) | split | (rw [foldl_pending] <;> intros)))
@[simp] theorem cancelStart_pending (t : Nat) (s : State) : (cancelStart t s).pending = s.pending := by
  simp [cancelStart, apply_ite State.pending, apply_ite Act.s, foldl_pending]
@[simp] theorem barrierFailed_pending (dev : Nat) (t : Nat) (s : State) : (barrierFailed dev t s).pending = s.pending := by
  unfold barrierFailed; (repeat' (first | with_reducible rfl | (simp [apply_ite State.pending, apply_ite Act.s, foldl_pending]; done) | split | (rw [foldl_pending] <;> intros)))
@[simp] theorem toldBy_pending (src : Nat) (b : List Byte) (s : State) : (toldBy src b s).pending = s.pending := by
  unfold toldBy; (repeat' (first | with_reducible rfl | (simp [apply_ite State.pending, apply_ite Act.s, foldl_pending]; done) | split | (rw [foldl_pending] <;> intros)))
@[simp] theorem vc2In_pending (p : Packet) (s : State) : (vc2In p s).pending = s.pending := by
  unfold vc2In; (try dsimp only); (repeat' (first | with_reducible rfl | (simp [apply_ite State.pending, apply_ite Act.s, foldl_pending]; done) | split | (rw [foldl_pending] <;> intros) | dsimp only | (simp [apply_ite State.pending, foldl_pending])))
@[simp] theorem takePacket_pending (p : Packet) (s : State) : (takePacket p s).pending = s.pending := by
  unfold takePacket; (repeat' (first | with_reducible rfl | (simp [apply_ite State.pending, apply_ite Act.s, foldl_pending]; done) | split | (rw [foldl_pending] <;> intros)))
@[simp] theorem takeHeld_pending (y0 : Nat) (y1 : Nat) (y2 : State) : (takeHeld y0 y1 y2).pending = y2.pending := by
  induction y0 generalizing y2 with
  | zero => rfl
  | succ n ih => unfold takeHeld; dsimp only; split <;> simp [ih]
@[simp] theorem poisonLost_pending (p : Packet) (n : Nat) (s : State) : (poisonLost p n s).pending = s.pending := by
  simp [poisonLost, apply_ite State.pending, apply_ite Act.s, foldl_pending]
theorem packetHere_pending (p : Packet) (s t : State) (h : packetHere p s = some t) : t.pending = s.pending := by
  unfold packetHere at h
  dsimp only at h
  repeat' (first | cases h | split at h)
  all_goals (first | with_reducible rfl | simp | (simp at h; subst h; simp))

@[simp] theorem unbuffer_pending (l : Nat) (vc : Nat) (n : Nat) (rest : List Flit) (s : State) : (unbuffer l vc n rest s).pending = s.pending := by
  simp [unbuffer]
@[simp] theorem delivered_pending (r : Staged) (s : State) : (delivered r s).pending = s.pending := by
  simp [delivered, apply_ite State.pending, apply_ite Act.s, foldl_pending]
@[simp] theorem storeBytes_pending (base : Nat) (size : Nat) (wp : Nat) (bs : List Byte) (s : State) : (storeBytes base size wp bs s).pending = s.pending := by
  simp [storeBytes]
@[simp] theorem storeRecord_pending (r : Staged) (s : State) : (storeRecord r s).pending = s.pending := by
  simp [storeRecord, apply_ite State.pending, apply_ite Act.s, foldl_pending]
@[simp] theorem sendAll_pending (ps : List Packet) (s : State) : (sendAll ps s).pending = s.pending := by
  simp [sendAll, apply_ite State.pending, apply_ite Act.s, foldl_pending]
@[simp] theorem markSent_pending (r : Staged) (s : State) : (markSent r s).pending = s.pending := by rfl
@[simp] theorem fabricRecord_pending (dest : Nat) (r : Staged) (s : State) : (fabricRecord dest r s).pending = s.pending := by
  unfold fabricRecord; (repeat' (first | with_reducible rfl | (simp [apply_ite State.pending, apply_ite Act.s, foldl_pending]; done) | split | (rw [foldl_pending] <;> intros)))
@[simp] theorem flood_pending (m : Msg) (s : State) : (flood m s).pending = s.pending := by
  simp [flood, apply_ite State.pending, apply_ite Act.s, foldl_pending]
@[simp] theorem floodBest_pending (s : State) : (floodBest s).pending = s.pending := by
  unfold floodBest; (repeat' (first | with_reducible rfl | (simp [apply_ite State.pending, apply_ite Act.s, foldl_pending]; done) | split | (rw [foldl_pending] <;> intros)))
@[simp] theorem helloOn_pending (l : Nat) (s : State) : (helloOn l s).pending = s.pending := by
  simp [helloOn]
@[simp] theorem startDiscovery_pending (epoch : Nat) (s : State) : (startDiscovery epoch s).pending = s.pending := by
  simp [startDiscovery, apply_ite State.pending, apply_ite Act.s, foldl_pending]
@[simp] theorem endDiscovery_pending (s : State) : (endDiscovery s).pending = s.pending := by
  simp [endDiscovery]
@[simp] theorem tryAssign_pending (s : State) : (tryAssign s).pending = s.pending := by
  unfold tryAssign; (try dsimp only); (repeat' (first | with_reducible rfl | (simp [apply_ite State.pending, apply_ite Act.s, foldl_pending]; done) | split | (rw [foldl_pending] <;> intros) | dsimp only | (simp [apply_ite State.pending, foldl_pending])))
@[simp] theorem clearDrift_pending (b : BarrierDesc) (s : State) : (clearDrift b s).pending = s.pending := by
  unfold clearDrift; (repeat' (first | with_reducible rfl | (simp [apply_ite State.pending, apply_ite Act.s, foldl_pending]; done) | split | (rw [foldl_pending] <;> intros)))
@[simp] theorem exchange_pending (n : Nat) (b : BarrierDesc) (s : State) : (exchange n b s).pending = s.pending := by
  simp [exchange, apply_ite State.pending, apply_ite Act.s, foldl_pending]
@[simp] theorem takeRole_pending (n : Nat) (b : BarrierDesc) (s : State) : (takeRole n b s).pending = s.pending := by
  unfold takeRole; (repeat' (first | with_reducible rfl | (simp [apply_ite State.pending, apply_ite Act.s, foldl_pending]; done) | split | (rw [foldl_pending] <;> intros)))
@[simp] theorem newMaster_pending (b : BarrierDesc) (s : State) : (newMaster b s).pending = s.pending := by
  unfold newMaster; (repeat' (first | with_reducible rfl | (simp [apply_ite State.pending, apply_ite Act.s, foldl_pending]; done) | split | (rw [foldl_pending] <;> intros)))
@[simp] theorem barrierEffect_pending (n : Nat) (b : BarrierDesc) (s : State) : (barrierEffect n b s).pending = s.pending := by
  simp [barrierEffect, apply_ite State.pending, apply_ite Act.s, foldl_pending]
@[simp] theorem barrierEdge_pending (n : Nat) (s : State) : (barrierEdge n s).pending = s.pending := by
  simp [barrierEdge, apply_ite State.pending, apply_ite Act.s, foldl_pending]
@[simp] theorem startSet_pending (b : BarrierDesc) (s : State) : (startSet b s).pending = s.pending := by
  simp [startSet, apply_ite State.pending, apply_ite Act.s, foldl_pending]
@[simp] theorem toDeputy_pending (d : Nat) (s : State) : (toDeputy d s).pending = s.pending := by
  simp [toDeputy, apply_ite State.pending, apply_ite Act.s, foldl_pending]
@[simp] theorem cancelTimed_pending (s : State) : (cancelTimed s).pending = s.pending := by
  simp [cancelTimed, apply_ite State.pending, apply_ite Act.s, foldl_pending]
@[simp] theorem timeBecomes_pending (l : Nat) (s : State) : (timeBecomes l s).pending = s.pending := by
  simp [timeBecomes, apply_ite State.pending, apply_ite Act.s, foldl_pending]
@[simp] theorem steer_pending (d : Int) (locked : Bool) (s : State) : (steer d locked s).pending = s.pending := by
  simp [steer, apply_ite State.pending, apply_ite Act.s, foldl_pending]
@[simp] theorem loseSource_pending (s : State) : (loseSource s).pending = s.pending := by
  simp [loseSource, apply_ite State.pending, apply_ite Act.s, foldl_pending]
@[simp] theorem tickHold_pending (a : Nat) (b : Nat) (s : State) : (tickHold a b s).pending = s.pending := by
  simp [tickHold, apply_ite State.pending, apply_ite Act.s, foldl_pending]
@[simp] theorem tickLost_pending (a : Nat) (b : Nat) (s : State) : (tickLost a b s).pending = s.pending := by
  simp [tickLost, apply_ite State.pending, apply_ite Act.s, foldl_pending]
@[simp] theorem alignEdge_pending (l : Nat) (s : State) : (alignEdge l s).pending = s.pending := by
  unfold alignEdge; (repeat' (first | with_reducible rfl | (simp [apply_ite State.pending, apply_ite Act.s, foldl_pending]; done) | split | (rw [foldl_pending] <;> intros)))
@[simp] theorem slipEdge_pending (l : Nat) (s : State) : (slipEdge l s).pending = s.pending := by
  simp [slipEdge, apply_ite State.pending, apply_ite Act.s, foldl_pending]
@[simp] theorem deviantEdge_pending (l : Nat) (s : State) : (deviantEdge l s).pending = s.pending := by
  simp [deviantEdge, apply_ite State.pending, apply_ite Act.s, foldl_pending]
@[simp] theorem ptpPut_pending (k : Nat) (v : Nat) (s : State) : (ptpPut k v s).pending = s.pending := by rfl
@[simp] theorem ptpSteer_pending (s : State) : (ptpSteer s).pending = s.pending := by
  unfold ptpSteer; (repeat' (first | with_reducible rfl | (simp [apply_ite State.pending, apply_ite Act.s, foldl_pending]; done) | split | (rw [foldl_pending] <;> intros)))
@[simp] theorem ptpClient_pending (raw : Nat) (kind : Nat) (t : Nat) (s : State) : (ptpClient raw kind t s).pending = s.pending := by
  unfold ptpClient; (repeat' (first | with_reducible rfl | (simp [apply_ite State.pending, apply_ite Act.s, foldl_pending]; done) | split | (rw [foldl_pending] <;> intros)))
@[simp] theorem timedApply_pending (e : Nat) (d : TimedDesc) (w : Nat) (lw : Nat) (s : State) : (timedApply e d w lw s).pending = s.pending := by rfl
@[simp] theorem tickStart_pending (d : TimedDesc) (s : State) : (tickStart d s).pending = s.pending := by
  simp [tickStart]
@[simp] theorem zoneChange_pending (n : Nat) (e : Eff) (s : State) : (zoneChange n e s).pending = s.pending := by
  simp [zoneChange, apply_ite State.pending, apply_ite Act.s, foldl_pending]
@[simp] theorem cfgAt_pending (n : Nat) (es : List CfgEntry) (s : State) : (cfgAt n es s).pending = s.pending := by
  simp [cfgAt, apply_ite State.pending, apply_ite Act.s, foldl_pending]
@[simp] theorem applyEff_pending (n : Nat) (e : Eff) (s : State) : (applyEff n e s).pending = s.pending := by
  unfold applyEff; (repeat' (first | with_reducible rfl | (simp [apply_ite State.pending, apply_ite Act.s, foldl_pending]; done) | split | (rw [foldl_pending] <;> intros)))
@[simp] theorem applyOne_pending (s : State) (w : Waiting) : (applyOne s w).pending = s.pending := by
  unfold applyOne
  dsimp only
  generalize stateFail s w = o
  cases o <;> simp
@[simp] theorem applyDue_pending (s : State) : (applyDue s).pending = s.pending := by
  simp [applyDue, apply_ite State.pending, apply_ite Act.s, foldl_pending]
@[simp] theorem replayCmds_pending (n : Nat) (s : State) : (replayCmds n s).pending = s.pending := by
  simp [replayCmds, apply_ite State.pending, apply_ite Act.s, foldl_pending]
@[simp] theorem armClear_pending (n : Nat) (s : State) : (armClear n s).pending = s.pending := by
  simp [armClear]
@[simp] theorem recordStart_pending (n : Nat) (kind : Nat) (restored : Option StateImage) (s : State) : (recordStart n kind restored s).pending = s.pending := by
  simp [recordStart, apply_ite State.pending, apply_ite Act.s, foldl_pending]
@[simp] theorem replayStart_pending (s : State) : (replayStart s).pending = s.pending := by
  simp [replayStart, apply_ite State.pending, apply_ite Act.s, foldl_pending]
@[simp] theorem restoreAt_pending (n : Nat) (s : State) : (restoreAt n s).pending = s.pending := by
  unfold restoreAt; (repeat' (first | with_reducible rfl | (simp [apply_ite State.pending, apply_ite Act.s, foldl_pending]; done) | split | (rw [foldl_pending] <;> intros)))
@[simp] theorem runBegins_pending (n : Nat) (kind : Nat) (s : State) : (runBegins n kind s).pending = s.pending := by
  simp [runBegins]
@[simp] theorem finishAt_pending (op : Nat) (n : Nat) (s : State) : (finishAt op n s).pending = s.pending := by
  unfold finishAt
  exact foldl_pending _ _ _ (fun s w => ⟨finishWait_pending _ 0 s⟩)
@[simp] theorem scrubStart_pending (s : State) : (scrubStart s).pending = s.pending := by
  simp [scrubStart, apply_ite State.pending, apply_ite Act.s, foldl_pending]
@[simp] theorem armEdge_pending (n : Nat) (s : State) : (armEdge n s).pending = s.pending := by
  simp [armEdge, apply_ite State.pending, apply_ite Act.s, foldl_pending]
@[simp] theorem resumeShift_pending (p : Nat) (n : Nat) (s : State) : (resumeShift p n s).pending = s.pending := by rfl
@[simp] theorem resumeEdge_pending (n : Nat) (s : State) : (resumeEdge n s).pending = s.pending := by
  simp [resumeEdge, apply_ite State.pending, apply_ite Act.s, foldl_pending]
@[simp] theorem ladderMarks_pending (n : Nat) (old : Nat) (new : Nat) (s : State) : (ladderMarks n old new s).pending = s.pending := by
  simp [ladderMarks, apply_ite State.pending, apply_ite Act.s, foldl_pending]
@[simp] theorem changeLevel_pending (n : Nat) (new : Nat) (s : State) : (changeLevel n new s).pending = s.pending := by
  simp [changeLevel, apply_ite State.pending, apply_ite Act.s, foldl_pending]
@[simp] theorem ladderEdge_pending (n : Nat) (s : State) : (ladderEdge n s).pending = s.pending := by
  simp [ladderEdge, apply_ite State.pending, apply_ite Act.s, foldl_pending]
@[simp] theorem ladderStep_pending (n : Nat) (s : State) : (ladderStep n s).pending = s.pending := by
  simp [ladderStep, apply_ite State.pending, apply_ite Act.s, foldl_pending]
@[simp] theorem holdSegments_pending (n : Nat) (s : State) : (holdSegments n s).pending = s.pending := by
  simp [holdSegments, apply_ite State.pending, apply_ite Act.s, foldl_pending]
@[simp] theorem faultEdge_pending (n : Nat) (s : State) : (faultEdge n s).pending = s.pending := by
  unfold faultEdge
  dsimp only
  rw [holdSegments_pending, foldl_pending _ _ _ (fun s k => ⟨stackDown_pending k s⟩)]; simp
@[simp] theorem edgeTime_pending (n : Nat) (raw : Nat) (s : State) : (edgeTime n raw s).pending = s.pending := by
  simp [edgeTime]
@[simp] theorem answerSnap_pending (s : State) (x : Hdr × Nat) : (answerSnap s x).pending = s.pending := by
  simp [answerSnap, apply_ite State.pending, apply_ite Act.s, foldl_pending]
@[simp] theorem serveSnaps_pending (s : State) : (serveSnaps s).pending = s.pending := by
  simp [serveSnaps, apply_ite State.pending, apply_ite Act.s, foldl_pending]
@[simp] theorem heldCounted_pending (n : Nat) (s : State) : (heldCounted n s).pending = s.pending := by
  simp [heldCounted, apply_ite State.pending, apply_ite Act.s, foldl_pending]
@[simp] theorem flushIdle_pending (s : State) : (flushIdle s).pending = s.pending := by
  simp [flushIdle, apply_ite State.pending, apply_ite Act.s, foldl_pending]
@[simp] theorem edgeWork_pending (n : Nat) (s : State) : (edgeWork n s).pending = s.pending := by
  simp [edgeWork]
@[simp] theorem planLinks_pending (p : Plan) (s : State) : (planLinks p s).pending = s.pending := by
  unfold planLinks; (repeat' (first | with_reducible rfl | (simp [apply_ite State.pending, apply_ite Act.s, foldl_pending]; done) | split | (rw [foldl_pending] <;> intros)))
@[simp] theorem planSet_pending (h : Hdr) (p : Plan) (s : State) : (planSet h p s).pending = s.pending := by
  simp [planSet, apply_ite State.pending, apply_ite Act.s, foldl_pending]
@[simp] theorem forwardAct_pending (h : Hdr) (dest : Nat) (bytes : List Byte) (j : Nat) (s : State) : (forwardAct h dest bytes j s).s.pending = s.pending := by
  simp [forwardAct, apply_ite State.pending, apply_ite Act.s, foldl_pending]
@[simp] theorem directWrite_pending (e : CfgEntry) (s : State) : (directWrite e s).pending = s.pending := by
  unfold directWrite; (repeat' (first | with_reducible rfl | (simp [apply_ite State.pending, apply_ite Act.s, foldl_pending]; done) | split | (rw [foldl_pending] <;> intros)))
@[simp] theorem haltCore_pending (k : Nat) (s : State) : (haltCore k s).pending = s.pending := by
  simp [haltCore, apply_ite State.pending, apply_ite Act.s, foldl_pending]
@[simp] theorem capAt_pending (step : Nat) (s : State) : (capAt step s).pending = s.pending := by rfl
@[simp] theorem setCap_pending (on : Bool) (s : State) : (setCap on s).pending = s.pending := by
  simp [setCap, apply_ite State.pending, apply_ite Act.s, foldl_pending]
@[simp] theorem addPower_pending (p : Nat) (s : State) : (addPower p s).pending = s.pending := by
  simp [addPower, apply_ite State.pending, apply_ite Act.s, foldl_pending]
@[simp] theorem thermEvents_pending (old : Therm) (new : Therm) (kind : Nat) (s : State) : (thermEvents old new kind s).pending = s.pending := by
  simp [thermEvents, apply_ite State.pending, apply_ite Act.s, foldl_pending]
@[simp] theorem tripped_pending (kind : Nat) (s : State) : (tripped kind s).pending = s.pending := by
  simp [tripped]
@[simp] theorem powerOver_pending (s : State) : (powerOver s).pending = s.pending := by
  simp [powerOver, apply_ite State.pending, apply_ite Act.s, foldl_pending]
@[simp] theorem loseRail_pending (rail : Nat) (s : State) : (loseRail rail s).pending = s.pending := by
  simp [loseRail, apply_ite State.pending, apply_ite Act.s, foldl_pending]
@[simp] theorem saveDoubt_pending (s : State) : (saveDoubt s).pending = s.pending := by
  simp [saveDoubt]
@[simp] theorem supplyFault_pending (rail : Nat) (s : State) : (supplyFault rail s).pending = s.pending := by
  simp [supplyFault]
@[simp] theorem saveFree_pending (v : Save) (s : State) : (saveFree v s).2.pending = s.pending := by
  have hf : ∀ (l : List Nat) (x : List (BitVec 512) × State),
      (l.foldl (fun (x : List (BitVec 512) × State) (_ : Nat) => (x.1 ++ [(drawFree 512 x.2).1], (drawFree 512 x.2).2)) x).2.pending = x.2.pending := by
    intro l
    induction l with
    | nil => intro x; rfl
    | cons a t ih => intro x; rw [List.foldl_cons, ih]; rfl
  unfold saveFree
  dsimp only
  split <;> split <;> split <;> split <;> simp [hf]

@[simp] theorem storeSave_pending (v : Save) (s : State) : (storeSave v s).pending = s.pending := by
  simp [storeSave, apply_ite State.pending, apply_ite Act.s, foldl_pending]
@[simp] theorem persist_pending (s : State) : (persist s).pending = s.pending := by rfl
@[simp] theorem saveOver_pending (cause : Nat) (s : State) : (saveOver cause s).pending = s.pending := by
  simp [saveOver, apply_ite State.pending, apply_ite Act.s, foldl_pending]
@[simp] theorem bootPart_pending (b : BootIn) (s : State) (t : Nat) : (bootPart b s t).pending = s.pending := by
  unfold bootPart; (try dsimp only); (repeat' (first | with_reducible rfl | (simp [apply_ite State.pending, apply_ite Act.s, foldl_pending]; done) | split | (rw [foldl_pending] <;> intros) | dsimp only | (simp [apply_ite State.pending, foldl_pending])))
@[simp] theorem bootFail_pending (cause : Nat) (s : State) : (bootFail cause s).pending = s.pending := by
  simp [bootFail]
@[simp] theorem bootLoad_pending (b : BootIn) (s : State) : (bootLoad b s).pending = s.pending := by
  simp [bootLoad, apply_ite State.pending, apply_ite Act.s, foldl_pending]
@[simp] theorem restoreSave_pending (s : State) : (restoreSave s).pending = s.pending := by
  unfold restoreSave; (repeat' (first | with_reducible rfl | (simp [apply_ite State.pending, apply_ite Act.s, foldl_pending]; done) | split | (rw [foldl_pending] <;> intros)))
@[simp] theorem bootRead_pending (b : BootIn) (s : State) : (bootRead b s).pending = s.pending := by
  simp [bootRead]
@[simp] theorem bootCores_pending (b : BootIn) (s : State) : (bootCores b s).pending = s.pending := by
  simp [bootCores, apply_ite State.pending, apply_ite Act.s, foldl_pending]
@[simp] theorem bootStacks_pending (b : BootIn) (s : State) : (bootStacks b s).pending = s.pending := by
  simp [bootStacks, apply_ite State.pending, apply_ite Act.s, foldl_pending]
@[simp] theorem bootGrid_pending (b : BootIn) (s : State) : (bootGrid b s).pending = s.pending := by
  simp [bootGrid, apply_ite State.pending, apply_ite Act.s, foldl_pending]
@[simp] theorem bootActs_pending (s : State) : (bootActs s).pending = s.pending := by
  simp [bootActs, apply_ite State.pending, apply_ite Act.s, foldl_pending]
@[simp] theorem bootReady_pending (s : State) : (bootReady s).pending = s.pending := by
  unfold bootReady
  dsimp only
  split <;> simp
theorem unlessSafe_pending (f : State → State) (s : State) (hf : ∀ s, KeepsQueue s (f s)) : (unlessSafe f s).pending = s.pending := by
  unfold unlessSafe; split
  · rfl
  · exact (hf s).eq

@[simp] theorem bootUp_pending (b : BootIn) (s : State) : (bootUp b s).pending = s.pending := by
  unfold bootUp
  dsimp only
  rw [unlessSafe_pending _ _ (fun s => ⟨bootReady_pending s⟩), unlessSafe_pending _ _ (fun s => ⟨startTicks_pending s⟩), unlessSafe_pending _ _ (fun s => ⟨bootGrid_pending b s⟩), unlessSafe_pending _ _ (fun s => ⟨bootStacks_pending b s⟩), unlessSafe_pending _ _ (fun s => ⟨bootCores_pending b s⟩)]
  simp
@[simp] theorem outputsOff_pending (s : State) : (outputsOff s).pending = s.pending := by rfl
@[simp] theorem spdmServe_pending (code : Nat) (r : Spdm) (s : State) : (spdmServe code r s).2.pending = s.pending := by
  unfold spdmServe
  dsimp only
  repeat' (first | with_reducible rfl | (simp; done) | split)

@[simp] theorem spdmReply_pending (r : Spdm) (m : List Byte) (s : State) : (spdmReply r m s).pending = s.pending := by
  simp [spdmReply, apply_ite State.pending, apply_ite Act.s, foldl_pending]
@[simp] theorem spdmRequest_pending (code : Nat) (r : Spdm) (s : State) : (spdmRequest code r s).pending = s.pending := by
  simp [spdmRequest, apply_ite State.pending, apply_ite Act.s, foldl_pending]
@[simp] theorem contended_pending (h : Hdr) (d8 : List Byte) (s : State) : (contended h d8 s).s.pending = s.pending := by
  simp [contended]
@[simp] theorem beginSession_pending (h : Hdr) (m : Manifest) (len : Nat) (bytes : List Byte) (s : State) : (beginSession h m len bytes s).pending = s.pending := by
  simp [beginSession, apply_ite State.pending, apply_ite Act.s, foldl_pending]
@[simp] theorem beginAct_pending (h : Hdr) (addr : Nat) (len : Nat) (whole : Bool) (found : List Byte) (s : State) : (beginAct h addr len whole found s).s.pending = s.pending := by
  simp [beginAct, apply_ite State.pending, apply_ite Act.s, foldl_pending]
@[simp] theorem selectParts_pending (mask : Nat) (j : Nat) (s : State) : (selectParts mask j s).pending = s.pending := by rfl
@[simp] theorem applyAct_pending (h : Hdr) (mask : Nat) (peers : List Nat) (j : Nat) (s : State) : (applyAct h mask peers j s).s.pending = s.pending := by
  unfold applyAct; (repeat' (first | with_reducible rfl | (simp [apply_ite State.pending, apply_ite Act.s, foldl_pending]; done) | split | (rw [foldl_pending] <;> intros)))
@[simp] theorem wroteStep_pending (t : Nat) (s : State) : (wroteStep t s).pending = s.pending := by
  unfold wroteStep; (try dsimp only); (repeat' (first | with_reducible rfl | (simp [apply_ite State.pending, apply_ite Act.s, foldl_pending]; done) | split | (rw [foldl_pending] <;> intros) | dsimp only | (simp [apply_ite State.pending, foldl_pending])))
@[simp] theorem activateFails_pending (t : Nat) (s : State) : (activateFails t s).pending = s.pending := by
  unfold activateFails; (repeat' (first | with_reducible rfl | (simp [apply_ite State.pending, apply_ite Act.s, foldl_pending]; done) | split | (rw [foldl_pending] <;> intros)))
@[simp] theorem stepDone_pending (t : Nat) (ok : Bool) (s : State) : (stepDone t ok s).pending = s.pending := by
  unfold stepDone; (try dsimp only); (repeat' (first | with_reducible rfl | (simp [apply_ite State.pending, apply_ite Act.s, foldl_pending]; done) | split | (rw [foldl_pending] <;> intros) | dsimp only | (simp [apply_ite State.pending, foldl_pending])))
@[simp] theorem confirmPart_pending (t : Nat) (s : State) : (confirmPart t s).pending = s.pending := by
  simp [confirmPart]
@[simp] theorem resumeHalted_pending (level : Nat) (s : State) : (resumeHalted level s).pending = s.pending := by
  simp [resumeHalted, apply_ite State.pending, apply_ite Act.s, foldl_pending]
@[simp] theorem setLevel_pending (level : Nat) (slot : Nat) (s : State) : (setLevel level slot s).pending = s.pending := by
  simp [setLevel]
@[simp] theorem unlockAct_pending (addr : Nat) (len : Nat) (found : List Byte) (s : State) : (unlockAct addr len found s).s.pending = s.pending := by
  simp [unlockAct, apply_ite State.pending, apply_ite Act.s, foldl_pending]

end Sys2Proof.Machine
end

