-- ==== Sys2Proof/Laws/State.lean ====
section
/-!
SUPPORT. One lemma for each operation that changes one part of the state and each part it leaves alone.
-/

set_option linter.all false

namespace Sys2Proof.Machine

@[simp] theorem setReg_part (off : Nat) (v : Nat) (s : State) : (setReg off v s).part = s.part := by rfl
@[simp] theorem setReg_dev (off : Nat) (v : Nat) (s : State) : (setReg off v s).dev = s.dev := by rfl
@[simp] theorem setReg_ctl (off : Nat) (v : Nat) (s : State) : (setReg off v s).ctl = s.ctl := by rfl
@[simp] theorem setReg_host (off : Nat) (v : Nat) (s : State) : (setReg off v s).host = s.host := by rfl
@[simp] theorem setReg_time (off : Nat) (v : Nat) (s : State) : (setReg off v s).time = s.time := by rfl
@[simp] theorem setReg_fe (off : Nat) (v : Nat) (s : State) : (setReg off v s).fe = s.fe := by rfl
@[simp] theorem setReg_comb (off : Nat) (v : Nat) (s : State) : (setReg off v s).comb = s.comb := by rfl
@[simp] theorem setReg_t2 (off : Nat) (v : Nat) (s : State) : (setReg off v s).t2 = s.t2 := by rfl
@[simp] theorem setReg_acq (off : Nat) (v : Nat) (s : State) : (setReg off v s).acq = s.acq := by rfl
@[simp] theorem setReg_eng (off : Nat) (v : Nat) (s : State) : (setReg off v s).eng = s.eng := by rfl
@[simp] theorem setReg_grid (off : Nat) (v : Nat) (s : State) : (setReg off v s).grid = s.grid := by rfl
@[simp] theorem setReg_fab (off : Nat) (v : Nat) (s : State) : (setReg off v s).fab = s.fab := by rfl
@[simp] theorem setReg_flt (off : Nat) (v : Nat) (s : State) : (setReg off v s).flt = s.flt := by rfl
@[simp] theorem setReg_upd (off : Nat) (v : Nat) (s : State) : (setReg off v s).upd = s.upd := by rfl
@[simp] theorem setReg_pwr (off : Nat) (v : Nat) (s : State) : (setReg off v s).pwr = s.pwr := by rfl
@[simp] theorem setReg_images (off : Nat) (v : Nat) (s : State) : (setReg off v s).images = s.images := by rfl
@[simp] theorem setReg_restoring (off : Nat) (v : Nat) (s : State) : (setReg off v s).restoring = s.restoring := by rfl
@[simp] theorem setReg_free (off : Nat) (v : Nat) (s : State) : (setReg off v s).free = s.free := by rfl
@[simp] theorem seeRaw_part (r : Nat) (s : State) : (seeRaw r s).part = s.part := by rfl
@[simp] theorem seeRaw_dev (r : Nat) (s : State) : (seeRaw r s).dev = s.dev := by rfl
@[simp] theorem seeRaw_regs (r : Nat) (s : State) : (seeRaw r s).regs = s.regs := by rfl
@[simp] theorem seeRaw_ctl (r : Nat) (s : State) : (seeRaw r s).ctl = s.ctl := by rfl
@[simp] theorem seeRaw_host (r : Nat) (s : State) : (seeRaw r s).host = s.host := by rfl
@[simp] theorem seeRaw_fe (r : Nat) (s : State) : (seeRaw r s).fe = s.fe := by rfl
@[simp] theorem seeRaw_comb (r : Nat) (s : State) : (seeRaw r s).comb = s.comb := by rfl
@[simp] theorem seeRaw_t2 (r : Nat) (s : State) : (seeRaw r s).t2 = s.t2 := by rfl
@[simp] theorem seeRaw_acq (r : Nat) (s : State) : (seeRaw r s).acq = s.acq := by rfl
@[simp] theorem seeRaw_eng (r : Nat) (s : State) : (seeRaw r s).eng = s.eng := by rfl
@[simp] theorem seeRaw_grid (r : Nat) (s : State) : (seeRaw r s).grid = s.grid := by rfl
@[simp] theorem seeRaw_fab (r : Nat) (s : State) : (seeRaw r s).fab = s.fab := by rfl
@[simp] theorem seeRaw_flt (r : Nat) (s : State) : (seeRaw r s).flt = s.flt := by rfl
@[simp] theorem seeRaw_upd (r : Nat) (s : State) : (seeRaw r s).upd = s.upd := by rfl
@[simp] theorem seeRaw_pwr (r : Nat) (s : State) : (seeRaw r s).pwr = s.pwr := by rfl
@[simp] theorem seeRaw_images (r : Nat) (s : State) : (seeRaw r s).images = s.images := by rfl
@[simp] theorem seeRaw_restoring (r : Nat) (s : State) : (seeRaw r s).restoring = s.restoring := by rfl
@[simp] theorem seeRaw_free (r : Nat) (s : State) : (seeRaw r s).free = s.free := by rfl
@[simp] theorem raiseEv_part (e : Ev) (s : State) : (raiseEv e s).part = s.part := by rfl
@[simp] theorem raiseEv_dev (e : Ev) (s : State) : (raiseEv e s).dev = s.dev := by rfl
@[simp] theorem raiseEv_regs (e : Ev) (s : State) : (raiseEv e s).regs = s.regs := by rfl
@[simp] theorem raiseEv_ctl (e : Ev) (s : State) : (raiseEv e s).ctl = s.ctl := by rfl
@[simp] theorem raiseEv_time (e : Ev) (s : State) : (raiseEv e s).time = s.time := by rfl
@[simp] theorem raiseEv_fe (e : Ev) (s : State) : (raiseEv e s).fe = s.fe := by rfl
@[simp] theorem raiseEv_comb (e : Ev) (s : State) : (raiseEv e s).comb = s.comb := by rfl
@[simp] theorem raiseEv_t2 (e : Ev) (s : State) : (raiseEv e s).t2 = s.t2 := by rfl
@[simp] theorem raiseEv_acq (e : Ev) (s : State) : (raiseEv e s).acq = s.acq := by rfl
@[simp] theorem raiseEv_eng (e : Ev) (s : State) : (raiseEv e s).eng = s.eng := by rfl
@[simp] theorem raiseEv_grid (e : Ev) (s : State) : (raiseEv e s).grid = s.grid := by rfl
@[simp] theorem raiseEv_fab (e : Ev) (s : State) : (raiseEv e s).fab = s.fab := by rfl
@[simp] theorem raiseEv_flt (e : Ev) (s : State) : (raiseEv e s).flt = s.flt := by rfl
@[simp] theorem raiseEv_upd (e : Ev) (s : State) : (raiseEv e s).upd = s.upd := by rfl
@[simp] theorem raiseEv_pwr (e : Ev) (s : State) : (raiseEv e s).pwr = s.pwr := by rfl
@[simp] theorem raiseEv_images (e : Ev) (s : State) : (raiseEv e s).images = s.images := by rfl
@[simp] theorem raiseEv_restoring (e : Ev) (s : State) : (raiseEv e s).restoring = s.restoring := by rfl
@[simp] theorem raiseEv_free (e : Ev) (s : State) : (raiseEv e s).free = s.free := by rfl
@[simp] theorem send_part (x : Sent) (s : State) : (send x s).part = s.part := by rfl
@[simp] theorem send_dev (x : Sent) (s : State) : (send x s).dev = s.dev := by rfl
@[simp] theorem send_regs (x : Sent) (s : State) : (send x s).regs = s.regs := by rfl
@[simp] theorem send_ctl (x : Sent) (s : State) : (send x s).ctl = s.ctl := by rfl
@[simp] theorem send_time (x : Sent) (s : State) : (send x s).time = s.time := by rfl
@[simp] theorem send_fe (x : Sent) (s : State) : (send x s).fe = s.fe := by rfl
@[simp] theorem send_comb (x : Sent) (s : State) : (send x s).comb = s.comb := by rfl
@[simp] theorem send_t2 (x : Sent) (s : State) : (send x s).t2 = s.t2 := by rfl
@[simp] theorem send_acq (x : Sent) (s : State) : (send x s).acq = s.acq := by rfl
@[simp] theorem send_eng (x : Sent) (s : State) : (send x s).eng = s.eng := by rfl
@[simp] theorem send_grid (x : Sent) (s : State) : (send x s).grid = s.grid := by rfl
@[simp] theorem send_fab (x : Sent) (s : State) : (send x s).fab = s.fab := by rfl
@[simp] theorem send_flt (x : Sent) (s : State) : (send x s).flt = s.flt := by rfl
@[simp] theorem send_upd (x : Sent) (s : State) : (send x s).upd = s.upd := by rfl
@[simp] theorem send_pwr (x : Sent) (s : State) : (send x s).pwr = s.pwr := by rfl
@[simp] theorem send_images (x : Sent) (s : State) : (send x s).images = s.images := by rfl
@[simp] theorem send_restoring (x : Sent) (s : State) : (send x s).restoring = s.restoring := by rfl
@[simp] theorem send_free (x : Sent) (s : State) : (send x s).free = s.free := by rfl
@[simp] theorem setDev_part (st : DevSt) (s : State) : (setDev st s).part = s.part := by unfold setDev; split <;> simp
@[simp] theorem setDev_regs (st : DevSt) (s : State) : (setDev st s).regs = s.regs := by unfold setDev; split <;> simp
@[simp] theorem setDev_ctl (st : DevSt) (s : State) : (setDev st s).ctl = s.ctl := by unfold setDev; split <;> simp
@[simp] theorem setDev_time (st : DevSt) (s : State) : (setDev st s).time = s.time := by unfold setDev; split <;> simp
@[simp] theorem setDev_fe (st : DevSt) (s : State) : (setDev st s).fe = s.fe := by unfold setDev; split <;> simp
@[simp] theorem setDev_comb (st : DevSt) (s : State) : (setDev st s).comb = s.comb := by unfold setDev; split <;> simp
@[simp] theorem setDev_t2 (st : DevSt) (s : State) : (setDev st s).t2 = s.t2 := by unfold setDev; split <;> simp
@[simp] theorem setDev_acq (st : DevSt) (s : State) : (setDev st s).acq = s.acq := by unfold setDev; split <;> simp
@[simp] theorem setDev_eng (st : DevSt) (s : State) : (setDev st s).eng = s.eng := by unfold setDev; split <;> simp
@[simp] theorem setDev_grid (st : DevSt) (s : State) : (setDev st s).grid = s.grid := by unfold setDev; split <;> simp
@[simp] theorem setDev_fab (st : DevSt) (s : State) : (setDev st s).fab = s.fab := by unfold setDev; split <;> simp
@[simp] theorem setDev_flt (st : DevSt) (s : State) : (setDev st s).flt = s.flt := by unfold setDev; split <;> simp
@[simp] theorem setDev_upd (st : DevSt) (s : State) : (setDev st s).upd = s.upd := by unfold setDev; split <;> simp
@[simp] theorem setDev_pwr (st : DevSt) (s : State) : (setDev st s).pwr = s.pwr := by unfold setDev; split <;> simp
@[simp] theorem setDev_images (st : DevSt) (s : State) : (setDev st s).images = s.images := by unfold setDev; split <;> simp
@[simp] theorem setDev_restoring (st : DevSt) (s : State) : (setDev st s).restoring = s.restoring := by unfold setDev; split <;> simp
@[simp] theorem setDev_free (st : DevSt) (s : State) : (setDev st s).free = s.free := by unfold setDev; split <;> simp
@[simp] theorem setQuad_part (q : Nat) (st : QuadSt) (s : State) : (setQuad q st s).part = s.part := by unfold setQuad; split <;> simp
@[simp] theorem setQuad_regs (q : Nat) (st : QuadSt) (s : State) : (setQuad q st s).regs = s.regs := by unfold setQuad; split <;> simp
@[simp] theorem setQuad_ctl (q : Nat) (st : QuadSt) (s : State) : (setQuad q st s).ctl = s.ctl := by unfold setQuad; split <;> simp
@[simp] theorem setQuad_time (q : Nat) (st : QuadSt) (s : State) : (setQuad q st s).time = s.time := by unfold setQuad; split <;> simp
@[simp] theorem setQuad_fe (q : Nat) (st : QuadSt) (s : State) : (setQuad q st s).fe = s.fe := by unfold setQuad; split <;> simp
@[simp] theorem setQuad_comb (q : Nat) (st : QuadSt) (s : State) : (setQuad q st s).comb = s.comb := by unfold setQuad; split <;> simp
@[simp] theorem setQuad_t2 (q : Nat) (st : QuadSt) (s : State) : (setQuad q st s).t2 = s.t2 := by unfold setQuad; split <;> simp
@[simp] theorem setQuad_acq (q : Nat) (st : QuadSt) (s : State) : (setQuad q st s).acq = s.acq := by unfold setQuad; split <;> simp
@[simp] theorem setQuad_eng (q : Nat) (st : QuadSt) (s : State) : (setQuad q st s).eng = s.eng := by unfold setQuad; split <;> simp
@[simp] theorem setQuad_grid (q : Nat) (st : QuadSt) (s : State) : (setQuad q st s).grid = s.grid := by unfold setQuad; split <;> simp
@[simp] theorem setQuad_fab (q : Nat) (st : QuadSt) (s : State) : (setQuad q st s).fab = s.fab := by unfold setQuad; split <;> simp
@[simp] theorem setQuad_flt (q : Nat) (st : QuadSt) (s : State) : (setQuad q st s).flt = s.flt := by unfold setQuad; split <;> simp
@[simp] theorem setQuad_upd (q : Nat) (st : QuadSt) (s : State) : (setQuad q st s).upd = s.upd := by unfold setQuad; split <;> simp
@[simp] theorem setQuad_pwr (q : Nat) (st : QuadSt) (s : State) : (setQuad q st s).pwr = s.pwr := by unfold setQuad; split <;> simp
@[simp] theorem setQuad_images (q : Nat) (st : QuadSt) (s : State) : (setQuad q st s).images = s.images := by unfold setQuad; split <;> simp
@[simp] theorem setQuad_restoring (q : Nat) (st : QuadSt) (s : State) : (setQuad q st s).restoring = s.restoring := by unfold setQuad; split <;> simp
@[simp] theorem setQuad_free (q : Nat) (st : QuadSt) (s : State) : (setQuad q st s).free = s.free := by unfold setQuad; split <;> simp
@[simp] theorem addCnt_part (k : Nat) (n : Nat) (s : State) : (addCnt k n s).part = s.part := by rfl
@[simp] theorem addCnt_dev (k : Nat) (n : Nat) (s : State) : (addCnt k n s).dev = s.dev := by rfl
@[simp] theorem addCnt_regs (k : Nat) (n : Nat) (s : State) : (addCnt k n s).regs = s.regs := by rfl
@[simp] theorem addCnt_ctl (k : Nat) (n : Nat) (s : State) : (addCnt k n s).ctl = s.ctl := by rfl
@[simp] theorem addCnt_host (k : Nat) (n : Nat) (s : State) : (addCnt k n s).host = s.host := by rfl
@[simp] theorem addCnt_time (k : Nat) (n : Nat) (s : State) : (addCnt k n s).time = s.time := by rfl
@[simp] theorem addCnt_fe (k : Nat) (n : Nat) (s : State) : (addCnt k n s).fe = s.fe := by rfl
@[simp] theorem addCnt_t2 (k : Nat) (n : Nat) (s : State) : (addCnt k n s).t2 = s.t2 := by rfl
@[simp] theorem addCnt_acq (k : Nat) (n : Nat) (s : State) : (addCnt k n s).acq = s.acq := by rfl
@[simp] theorem addCnt_eng (k : Nat) (n : Nat) (s : State) : (addCnt k n s).eng = s.eng := by rfl
@[simp] theorem addCnt_grid (k : Nat) (n : Nat) (s : State) : (addCnt k n s).grid = s.grid := by rfl
@[simp] theorem addCnt_fab (k : Nat) (n : Nat) (s : State) : (addCnt k n s).fab = s.fab := by rfl
@[simp] theorem addCnt_flt (k : Nat) (n : Nat) (s : State) : (addCnt k n s).flt = s.flt := by rfl
@[simp] theorem addCnt_upd (k : Nat) (n : Nat) (s : State) : (addCnt k n s).upd = s.upd := by rfl
@[simp] theorem addCnt_pwr (k : Nat) (n : Nat) (s : State) : (addCnt k n s).pwr = s.pwr := by rfl
@[simp] theorem addCnt_images (k : Nat) (n : Nat) (s : State) : (addCnt k n s).images = s.images := by rfl
@[simp] theorem addCnt_restoring (k : Nat) (n : Nat) (s : State) : (addCnt k n s).restoring = s.restoring := by rfl
@[simp] theorem addCnt_free (k : Nat) (n : Nat) (s : State) : (addCnt k n s).free = s.free := by rfl
@[simp] theorem hbmWrite_part (a : Nat) (bs : List Byte) (s : State) : (hbmWrite a bs s).part = s.part := by rfl
@[simp] theorem hbmWrite_dev (a : Nat) (bs : List Byte) (s : State) : (hbmWrite a bs s).dev = s.dev := by rfl
@[simp] theorem hbmWrite_regs (a : Nat) (bs : List Byte) (s : State) : (hbmWrite a bs s).regs = s.regs := by rfl
@[simp] theorem hbmWrite_ctl (a : Nat) (bs : List Byte) (s : State) : (hbmWrite a bs s).ctl = s.ctl := by rfl
@[simp] theorem hbmWrite_host (a : Nat) (bs : List Byte) (s : State) : (hbmWrite a bs s).host = s.host := by rfl
@[simp] theorem hbmWrite_time (a : Nat) (bs : List Byte) (s : State) : (hbmWrite a bs s).time = s.time := by rfl
@[simp] theorem hbmWrite_fe (a : Nat) (bs : List Byte) (s : State) : (hbmWrite a bs s).fe = s.fe := by rfl
@[simp] theorem hbmWrite_comb (a : Nat) (bs : List Byte) (s : State) : (hbmWrite a bs s).comb = s.comb := by rfl
@[simp] theorem hbmWrite_t2 (a : Nat) (bs : List Byte) (s : State) : (hbmWrite a bs s).t2 = s.t2 := by rfl
@[simp] theorem hbmWrite_acq (a : Nat) (bs : List Byte) (s : State) : (hbmWrite a bs s).acq = s.acq := by rfl
@[simp] theorem hbmWrite_eng (a : Nat) (bs : List Byte) (s : State) : (hbmWrite a bs s).eng = s.eng := by rfl
@[simp] theorem hbmWrite_grid (a : Nat) (bs : List Byte) (s : State) : (hbmWrite a bs s).grid = s.grid := by rfl
@[simp] theorem hbmWrite_fab (a : Nat) (bs : List Byte) (s : State) : (hbmWrite a bs s).fab = s.fab := by rfl
@[simp] theorem hbmWrite_flt (a : Nat) (bs : List Byte) (s : State) : (hbmWrite a bs s).flt = s.flt := by rfl
@[simp] theorem hbmWrite_upd (a : Nat) (bs : List Byte) (s : State) : (hbmWrite a bs s).upd = s.upd := by rfl
@[simp] theorem hbmWrite_pwr (a : Nat) (bs : List Byte) (s : State) : (hbmWrite a bs s).pwr = s.pwr := by rfl
@[simp] theorem hbmWrite_images (a : Nat) (bs : List Byte) (s : State) : (hbmWrite a bs s).images = s.images := by rfl
@[simp] theorem hbmWrite_restoring (a : Nat) (bs : List Byte) (s : State) : (hbmWrite a bs s).restoring = s.restoring := by rfl
@[simp] theorem hbmWrite_free (a : Nat) (bs : List Byte) (s : State) : (hbmWrite a bs s).free = s.free := by rfl
@[simp] theorem setTile_part (q : Nat) (col : Nat) (row : Nat) (t : Tile) (s : State) : (setTile q col row t s).part = s.part := by rfl
@[simp] theorem setTile_dev (q : Nat) (col : Nat) (row : Nat) (t : Tile) (s : State) : (setTile q col row t s).dev = s.dev := by rfl
@[simp] theorem setTile_regs (q : Nat) (col : Nat) (row : Nat) (t : Tile) (s : State) : (setTile q col row t s).regs = s.regs := by rfl
@[simp] theorem setTile_ctl (q : Nat) (col : Nat) (row : Nat) (t : Tile) (s : State) : (setTile q col row t s).ctl = s.ctl := by rfl
@[simp] theorem setTile_host (q : Nat) (col : Nat) (row : Nat) (t : Tile) (s : State) : (setTile q col row t s).host = s.host := by rfl
@[simp] theorem setTile_time (q : Nat) (col : Nat) (row : Nat) (t : Tile) (s : State) : (setTile q col row t s).time = s.time := by rfl
@[simp] theorem setTile_fe (q : Nat) (col : Nat) (row : Nat) (t : Tile) (s : State) : (setTile q col row t s).fe = s.fe := by rfl
@[simp] theorem setTile_comb (q : Nat) (col : Nat) (row : Nat) (t : Tile) (s : State) : (setTile q col row t s).comb = s.comb := by rfl
@[simp] theorem setTile_t2 (q : Nat) (col : Nat) (row : Nat) (t : Tile) (s : State) : (setTile q col row t s).t2 = s.t2 := by rfl
@[simp] theorem setTile_acq (q : Nat) (col : Nat) (row : Nat) (t : Tile) (s : State) : (setTile q col row t s).acq = s.acq := by rfl
@[simp] theorem setTile_eng (q : Nat) (col : Nat) (row : Nat) (t : Tile) (s : State) : (setTile q col row t s).eng = s.eng := by rfl
@[simp] theorem setTile_fab (q : Nat) (col : Nat) (row : Nat) (t : Tile) (s : State) : (setTile q col row t s).fab = s.fab := by rfl
@[simp] theorem setTile_flt (q : Nat) (col : Nat) (row : Nat) (t : Tile) (s : State) : (setTile q col row t s).flt = s.flt := by rfl
@[simp] theorem setTile_upd (q : Nat) (col : Nat) (row : Nat) (t : Tile) (s : State) : (setTile q col row t s).upd = s.upd := by rfl
@[simp] theorem setTile_pwr (q : Nat) (col : Nat) (row : Nat) (t : Tile) (s : State) : (setTile q col row t s).pwr = s.pwr := by rfl
@[simp] theorem setTile_images (q : Nat) (col : Nat) (row : Nat) (t : Tile) (s : State) : (setTile q col row t s).images = s.images := by rfl
@[simp] theorem setTile_restoring (q : Nat) (col : Nat) (row : Nat) (t : Tile) (s : State) : (setTile q col row t s).restoring = s.restoring := by rfl
@[simp] theorem setTile_free (q : Nat) (col : Nat) (row : Nat) (t : Tile) (s : State) : (setTile q col row t s).free = s.free := by rfl
@[simp] theorem setSec_part (h : Nat) (x : Sec) (s : State) : (setSec h x s).part = s.part := by rfl
@[simp] theorem setSec_dev (h : Nat) (x : Sec) (s : State) : (setSec h x s).dev = s.dev := by rfl
@[simp] theorem setSec_regs (h : Nat) (x : Sec) (s : State) : (setSec h x s).regs = s.regs := by rfl
@[simp] theorem setSec_ctl (h : Nat) (x : Sec) (s : State) : (setSec h x s).ctl = s.ctl := by rfl
@[simp] theorem setSec_host (h : Nat) (x : Sec) (s : State) : (setSec h x s).host = s.host := by rfl
@[simp] theorem setSec_time (h : Nat) (x : Sec) (s : State) : (setSec h x s).time = s.time := by rfl
@[simp] theorem setSec_fe (h : Nat) (x : Sec) (s : State) : (setSec h x s).fe = s.fe := by rfl
@[simp] theorem setSec_comb (h : Nat) (x : Sec) (s : State) : (setSec h x s).comb = s.comb := by rfl
@[simp] theorem setSec_t2 (h : Nat) (x : Sec) (s : State) : (setSec h x s).t2 = s.t2 := by rfl
@[simp] theorem setSec_acq (h : Nat) (x : Sec) (s : State) : (setSec h x s).acq = s.acq := by rfl
@[simp] theorem setSec_eng (h : Nat) (x : Sec) (s : State) : (setSec h x s).eng = s.eng := by rfl
@[simp] theorem setSec_fab (h : Nat) (x : Sec) (s : State) : (setSec h x s).fab = s.fab := by rfl
@[simp] theorem setSec_flt (h : Nat) (x : Sec) (s : State) : (setSec h x s).flt = s.flt := by rfl
@[simp] theorem setSec_upd (h : Nat) (x : Sec) (s : State) : (setSec h x s).upd = s.upd := by rfl
@[simp] theorem setSec_pwr (h : Nat) (x : Sec) (s : State) : (setSec h x s).pwr = s.pwr := by rfl
@[simp] theorem setSec_images (h : Nat) (x : Sec) (s : State) : (setSec h x s).images = s.images := by rfl
@[simp] theorem setSec_restoring (h : Nat) (x : Sec) (s : State) : (setSec h x s).restoring = s.restoring := by rfl
@[simp] theorem setSec_free (h : Nat) (x : Sec) (s : State) : (setSec h x s).free = s.free := by rfl
@[simp] theorem setLink_part (l : Nat) (x : Link) (s : State) : (setLink l x s).part = s.part := by rfl
@[simp] theorem setLink_dev (l : Nat) (x : Link) (s : State) : (setLink l x s).dev = s.dev := by rfl
@[simp] theorem setLink_regs (l : Nat) (x : Link) (s : State) : (setLink l x s).regs = s.regs := by rfl
@[simp] theorem setLink_ctl (l : Nat) (x : Link) (s : State) : (setLink l x s).ctl = s.ctl := by rfl
@[simp] theorem setLink_host (l : Nat) (x : Link) (s : State) : (setLink l x s).host = s.host := by rfl
@[simp] theorem setLink_time (l : Nat) (x : Link) (s : State) : (setLink l x s).time = s.time := by rfl
@[simp] theorem setLink_fe (l : Nat) (x : Link) (s : State) : (setLink l x s).fe = s.fe := by rfl
@[simp] theorem setLink_comb (l : Nat) (x : Link) (s : State) : (setLink l x s).comb = s.comb := by rfl
@[simp] theorem setLink_t2 (l : Nat) (x : Link) (s : State) : (setLink l x s).t2 = s.t2 := by rfl
@[simp] theorem setLink_acq (l : Nat) (x : Link) (s : State) : (setLink l x s).acq = s.acq := by rfl
@[simp] theorem setLink_eng (l : Nat) (x : Link) (s : State) : (setLink l x s).eng = s.eng := by rfl
@[simp] theorem setLink_grid (l : Nat) (x : Link) (s : State) : (setLink l x s).grid = s.grid := by rfl
@[simp] theorem setLink_flt (l : Nat) (x : Link) (s : State) : (setLink l x s).flt = s.flt := by rfl
@[simp] theorem setLink_upd (l : Nat) (x : Link) (s : State) : (setLink l x s).upd = s.upd := by rfl
@[simp] theorem setLink_pwr (l : Nat) (x : Link) (s : State) : (setLink l x s).pwr = s.pwr := by rfl
@[simp] theorem setLink_images (l : Nat) (x : Link) (s : State) : (setLink l x s).images = s.images := by rfl
@[simp] theorem setLink_restoring (l : Nat) (x : Link) (s : State) : (setLink l x s).restoring = s.restoring := by rfl
@[simp] theorem setLink_free (l : Nat) (x : Link) (s : State) : (setLink l x s).free = s.free := by rfl
@[simp] theorem setEng_part (e : Nat) (x : Eng) (s : State) : (setEng e x s).part = s.part := by rfl
@[simp] theorem setEng_dev (e : Nat) (x : Eng) (s : State) : (setEng e x s).dev = s.dev := by rfl
@[simp] theorem setEng_regs (e : Nat) (x : Eng) (s : State) : (setEng e x s).regs = s.regs := by rfl
@[simp] theorem setEng_ctl (e : Nat) (x : Eng) (s : State) : (setEng e x s).ctl = s.ctl := by rfl
@[simp] theorem setEng_host (e : Nat) (x : Eng) (s : State) : (setEng e x s).host = s.host := by rfl
@[simp] theorem setEng_time (e : Nat) (x : Eng) (s : State) : (setEng e x s).time = s.time := by rfl
@[simp] theorem setEng_fe (e : Nat) (x : Eng) (s : State) : (setEng e x s).fe = s.fe := by rfl
@[simp] theorem setEng_comb (e : Nat) (x : Eng) (s : State) : (setEng e x s).comb = s.comb := by rfl
@[simp] theorem setEng_t2 (e : Nat) (x : Eng) (s : State) : (setEng e x s).t2 = s.t2 := by rfl
@[simp] theorem setEng_acq (e : Nat) (x : Eng) (s : State) : (setEng e x s).acq = s.acq := by rfl
@[simp] theorem setEng_grid (e : Nat) (x : Eng) (s : State) : (setEng e x s).grid = s.grid := by rfl
@[simp] theorem setEng_fab (e : Nat) (x : Eng) (s : State) : (setEng e x s).fab = s.fab := by rfl
@[simp] theorem setEng_flt (e : Nat) (x : Eng) (s : State) : (setEng e x s).flt = s.flt := by rfl
@[simp] theorem setEng_upd (e : Nat) (x : Eng) (s : State) : (setEng e x s).upd = s.upd := by rfl
@[simp] theorem setEng_pwr (e : Nat) (x : Eng) (s : State) : (setEng e x s).pwr = s.pwr := by rfl
@[simp] theorem setEng_images (e : Nat) (x : Eng) (s : State) : (setEng e x s).images = s.images := by rfl
@[simp] theorem setEng_restoring (e : Nat) (x : Eng) (s : State) : (setEng e x s).restoring = s.restoring := by rfl
@[simp] theorem setEng_free (e : Nat) (x : Eng) (s : State) : (setEng e x s).free = s.free := by rfl
@[simp] theorem setCtx_part (c : Nat) (x : Ctx) (s : State) : (setCtx c x s).part = s.part := by rfl
@[simp] theorem setCtx_dev (c : Nat) (x : Ctx) (s : State) : (setCtx c x s).dev = s.dev := by rfl
@[simp] theorem setCtx_regs (c : Nat) (x : Ctx) (s : State) : (setCtx c x s).regs = s.regs := by rfl
@[simp] theorem setCtx_ctl (c : Nat) (x : Ctx) (s : State) : (setCtx c x s).ctl = s.ctl := by rfl
@[simp] theorem setCtx_host (c : Nat) (x : Ctx) (s : State) : (setCtx c x s).host = s.host := by rfl
@[simp] theorem setCtx_time (c : Nat) (x : Ctx) (s : State) : (setCtx c x s).time = s.time := by rfl
@[simp] theorem setCtx_fe (c : Nat) (x : Ctx) (s : State) : (setCtx c x s).fe = s.fe := by rfl
@[simp] theorem setCtx_comb (c : Nat) (x : Ctx) (s : State) : (setCtx c x s).comb = s.comb := by rfl
@[simp] theorem setCtx_acq (c : Nat) (x : Ctx) (s : State) : (setCtx c x s).acq = s.acq := by rfl
@[simp] theorem setCtx_eng (c : Nat) (x : Ctx) (s : State) : (setCtx c x s).eng = s.eng := by rfl
@[simp] theorem setCtx_grid (c : Nat) (x : Ctx) (s : State) : (setCtx c x s).grid = s.grid := by rfl
@[simp] theorem setCtx_fab (c : Nat) (x : Ctx) (s : State) : (setCtx c x s).fab = s.fab := by rfl
@[simp] theorem setCtx_flt (c : Nat) (x : Ctx) (s : State) : (setCtx c x s).flt = s.flt := by rfl
@[simp] theorem setCtx_upd (c : Nat) (x : Ctx) (s : State) : (setCtx c x s).upd = s.upd := by rfl
@[simp] theorem setCtx_pwr (c : Nat) (x : Ctx) (s : State) : (setCtx c x s).pwr = s.pwr := by rfl
@[simp] theorem setCtx_images (c : Nat) (x : Ctx) (s : State) : (setCtx c x s).images = s.images := by rfl
@[simp] theorem setCtx_restoring (c : Nat) (x : Ctx) (s : State) : (setCtx c x s).restoring = s.restoring := by rfl
@[simp] theorem setCtx_free (c : Nat) (x : Ctx) (s : State) : (setCtx c x s).free = s.free := by rfl
@[simp] theorem setPass_part (h : Nat) (x : Pass) (s : State) : (setPass h x s).part = s.part := by rfl
@[simp] theorem setPass_dev (h : Nat) (x : Pass) (s : State) : (setPass h x s).dev = s.dev := by rfl
@[simp] theorem setPass_regs (h : Nat) (x : Pass) (s : State) : (setPass h x s).regs = s.regs := by rfl
@[simp] theorem setPass_ctl (h : Nat) (x : Pass) (s : State) : (setPass h x s).ctl = s.ctl := by rfl
@[simp] theorem setPass_host (h : Nat) (x : Pass) (s : State) : (setPass h x s).host = s.host := by rfl
@[simp] theorem setPass_time (h : Nat) (x : Pass) (s : State) : (setPass h x s).time = s.time := by rfl
@[simp] theorem setPass_fe (h : Nat) (x : Pass) (s : State) : (setPass h x s).fe = s.fe := by rfl
@[simp] theorem setPass_comb (h : Nat) (x : Pass) (s : State) : (setPass h x s).comb = s.comb := by rfl
@[simp] theorem setPass_acq (h : Nat) (x : Pass) (s : State) : (setPass h x s).acq = s.acq := by rfl
@[simp] theorem setPass_eng (h : Nat) (x : Pass) (s : State) : (setPass h x s).eng = s.eng := by rfl
@[simp] theorem setPass_grid (h : Nat) (x : Pass) (s : State) : (setPass h x s).grid = s.grid := by rfl
@[simp] theorem setPass_fab (h : Nat) (x : Pass) (s : State) : (setPass h x s).fab = s.fab := by rfl
@[simp] theorem setPass_flt (h : Nat) (x : Pass) (s : State) : (setPass h x s).flt = s.flt := by rfl
@[simp] theorem setPass_upd (h : Nat) (x : Pass) (s : State) : (setPass h x s).upd = s.upd := by rfl
@[simp] theorem setPass_pwr (h : Nat) (x : Pass) (s : State) : (setPass h x s).pwr = s.pwr := by rfl
@[simp] theorem setPass_images (h : Nat) (x : Pass) (s : State) : (setPass h x s).images = s.images := by rfl
@[simp] theorem setPass_restoring (h : Nat) (x : Pass) (s : State) : (setPass h x s).restoring = s.restoring := by rfl
@[simp] theorem setPass_free (h : Nat) (x : Pass) (s : State) : (setPass h x s).free = s.free := by rfl
@[simp] theorem setQueue_part (q : Nat) (x : QueueSt) (s : State) : (setQueue q x s).part = s.part := by rfl
@[simp] theorem setQueue_dev (q : Nat) (x : QueueSt) (s : State) : (setQueue q x s).dev = s.dev := by rfl
@[simp] theorem setQueue_regs (q : Nat) (x : QueueSt) (s : State) : (setQueue q x s).regs = s.regs := by rfl
@[simp] theorem setQueue_host (q : Nat) (x : QueueSt) (s : State) : (setQueue q x s).host = s.host := by rfl
@[simp] theorem setQueue_time (q : Nat) (x : QueueSt) (s : State) : (setQueue q x s).time = s.time := by rfl
@[simp] theorem setQueue_fe (q : Nat) (x : QueueSt) (s : State) : (setQueue q x s).fe = s.fe := by rfl
@[simp] theorem setQueue_comb (q : Nat) (x : QueueSt) (s : State) : (setQueue q x s).comb = s.comb := by rfl
@[simp] theorem setQueue_t2 (q : Nat) (x : QueueSt) (s : State) : (setQueue q x s).t2 = s.t2 := by rfl
@[simp] theorem setQueue_acq (q : Nat) (x : QueueSt) (s : State) : (setQueue q x s).acq = s.acq := by rfl
@[simp] theorem setQueue_eng (q : Nat) (x : QueueSt) (s : State) : (setQueue q x s).eng = s.eng := by rfl
@[simp] theorem setQueue_grid (q : Nat) (x : QueueSt) (s : State) : (setQueue q x s).grid = s.grid := by rfl
@[simp] theorem setQueue_fab (q : Nat) (x : QueueSt) (s : State) : (setQueue q x s).fab = s.fab := by rfl
@[simp] theorem setQueue_flt (q : Nat) (x : QueueSt) (s : State) : (setQueue q x s).flt = s.flt := by rfl
@[simp] theorem setQueue_upd (q : Nat) (x : QueueSt) (s : State) : (setQueue q x s).upd = s.upd := by rfl
@[simp] theorem setQueue_pwr (q : Nat) (x : QueueSt) (s : State) : (setQueue q x s).pwr = s.pwr := by rfl
@[simp] theorem setQueue_images (q : Nat) (x : QueueSt) (s : State) : (setQueue q x s).images = s.images := by rfl
@[simp] theorem setQueue_restoring (q : Nat) (x : QueueSt) (s : State) : (setQueue q x s).restoring = s.restoring := by rfl
@[simp] theorem setQueue_free (q : Nat) (x : QueueSt) (s : State) : (setQueue q x s).free = s.free := by rfl
@[simp] theorem journalAdd_part (e : JEntry) (s : State) : (journalAdd e s).part = s.part := by rfl
@[simp] theorem journalAdd_dev (e : JEntry) (s : State) : (journalAdd e s).dev = s.dev := by rfl
@[simp] theorem journalAdd_regs (e : JEntry) (s : State) : (journalAdd e s).regs = s.regs := by rfl
@[simp] theorem journalAdd_host (e : JEntry) (s : State) : (journalAdd e s).host = s.host := by rfl
@[simp] theorem journalAdd_time (e : JEntry) (s : State) : (journalAdd e s).time = s.time := by rfl
@[simp] theorem journalAdd_fe (e : JEntry) (s : State) : (journalAdd e s).fe = s.fe := by rfl
@[simp] theorem journalAdd_comb (e : JEntry) (s : State) : (journalAdd e s).comb = s.comb := by rfl
@[simp] theorem journalAdd_t2 (e : JEntry) (s : State) : (journalAdd e s).t2 = s.t2 := by rfl
@[simp] theorem journalAdd_acq (e : JEntry) (s : State) : (journalAdd e s).acq = s.acq := by rfl
@[simp] theorem journalAdd_eng (e : JEntry) (s : State) : (journalAdd e s).eng = s.eng := by rfl
@[simp] theorem journalAdd_grid (e : JEntry) (s : State) : (journalAdd e s).grid = s.grid := by rfl
@[simp] theorem journalAdd_fab (e : JEntry) (s : State) : (journalAdd e s).fab = s.fab := by rfl
@[simp] theorem journalAdd_flt (e : JEntry) (s : State) : (journalAdd e s).flt = s.flt := by rfl
@[simp] theorem journalAdd_upd (e : JEntry) (s : State) : (journalAdd e s).upd = s.upd := by rfl
@[simp] theorem journalAdd_pwr (e : JEntry) (s : State) : (journalAdd e s).pwr = s.pwr := by rfl
@[simp] theorem journalAdd_images (e : JEntry) (s : State) : (journalAdd e s).images = s.images := by rfl
@[simp] theorem journalAdd_restoring (e : JEntry) (s : State) : (journalAdd e s).restoring = s.restoring := by rfl
@[simp] theorem journalAdd_free (e : JEntry) (s : State) : (journalAdd e s).free = s.free := by rfl
@[simp] theorem journalUpd_part (j : Nat) (f : JEntry → JEntry) (s : State) : (journalUpd j f s).part = s.part := by rfl
@[simp] theorem journalUpd_dev (j : Nat) (f : JEntry → JEntry) (s : State) : (journalUpd j f s).dev = s.dev := by rfl
@[simp] theorem journalUpd_regs (j : Nat) (f : JEntry → JEntry) (s : State) : (journalUpd j f s).regs = s.regs := by rfl
@[simp] theorem journalUpd_host (j : Nat) (f : JEntry → JEntry) (s : State) : (journalUpd j f s).host = s.host := by rfl
@[simp] theorem journalUpd_time (j : Nat) (f : JEntry → JEntry) (s : State) : (journalUpd j f s).time = s.time := by rfl
@[simp] theorem journalUpd_fe (j : Nat) (f : JEntry → JEntry) (s : State) : (journalUpd j f s).fe = s.fe := by rfl
@[simp] theorem journalUpd_comb (j : Nat) (f : JEntry → JEntry) (s : State) : (journalUpd j f s).comb = s.comb := by rfl
@[simp] theorem journalUpd_t2 (j : Nat) (f : JEntry → JEntry) (s : State) : (journalUpd j f s).t2 = s.t2 := by rfl
@[simp] theorem journalUpd_acq (j : Nat) (f : JEntry → JEntry) (s : State) : (journalUpd j f s).acq = s.acq := by rfl
@[simp] theorem journalUpd_eng (j : Nat) (f : JEntry → JEntry) (s : State) : (journalUpd j f s).eng = s.eng := by rfl
@[simp] theorem journalUpd_grid (j : Nat) (f : JEntry → JEntry) (s : State) : (journalUpd j f s).grid = s.grid := by rfl
@[simp] theorem journalUpd_fab (j : Nat) (f : JEntry → JEntry) (s : State) : (journalUpd j f s).fab = s.fab := by rfl
@[simp] theorem journalUpd_flt (j : Nat) (f : JEntry → JEntry) (s : State) : (journalUpd j f s).flt = s.flt := by rfl
@[simp] theorem journalUpd_upd (j : Nat) (f : JEntry → JEntry) (s : State) : (journalUpd j f s).upd = s.upd := by rfl
@[simp] theorem journalUpd_pwr (j : Nat) (f : JEntry → JEntry) (s : State) : (journalUpd j f s).pwr = s.pwr := by rfl
@[simp] theorem journalUpd_images (j : Nat) (f : JEntry → JEntry) (s : State) : (journalUpd j f s).images = s.images := by rfl
@[simp] theorem journalUpd_restoring (j : Nat) (f : JEntry → JEntry) (s : State) : (journalUpd j f s).restoring = s.restoring := by rfl
@[simp] theorem journalUpd_free (j : Nat) (f : JEntry → JEntry) (s : State) : (journalUpd j f s).free = s.free := by rfl
@[simp] theorem journalInternal_part (role : Nat) (op : Nat) (result : List Byte) (s : State) : (journalInternal role op result s).part = s.part := by simp [journalInternal]
@[simp] theorem journalInternal_dev (role : Nat) (op : Nat) (result : List Byte) (s : State) : (journalInternal role op result s).dev = s.dev := by simp [journalInternal]
@[simp] theorem journalInternal_regs (role : Nat) (op : Nat) (result : List Byte) (s : State) : (journalInternal role op result s).regs = s.regs := by simp [journalInternal]
@[simp] theorem journalInternal_host (role : Nat) (op : Nat) (result : List Byte) (s : State) : (journalInternal role op result s).host = s.host := by simp [journalInternal]
@[simp] theorem journalInternal_time (role : Nat) (op : Nat) (result : List Byte) (s : State) : (journalInternal role op result s).time = s.time := by simp [journalInternal]
@[simp] theorem journalInternal_fe (role : Nat) (op : Nat) (result : List Byte) (s : State) : (journalInternal role op result s).fe = s.fe := by simp [journalInternal]
@[simp] theorem journalInternal_comb (role : Nat) (op : Nat) (result : List Byte) (s : State) : (journalInternal role op result s).comb = s.comb := by simp [journalInternal]
@[simp] theorem journalInternal_t2 (role : Nat) (op : Nat) (result : List Byte) (s : State) : (journalInternal role op result s).t2 = s.t2 := by simp [journalInternal]
@[simp] theorem journalInternal_acq (role : Nat) (op : Nat) (result : List Byte) (s : State) : (journalInternal role op result s).acq = s.acq := by simp [journalInternal]
@[simp] theorem journalInternal_eng (role : Nat) (op : Nat) (result : List Byte) (s : State) : (journalInternal role op result s).eng = s.eng := by simp [journalInternal]
@[simp] theorem journalInternal_grid (role : Nat) (op : Nat) (result : List Byte) (s : State) : (journalInternal role op result s).grid = s.grid := by simp [journalInternal]
@[simp] theorem journalInternal_fab (role : Nat) (op : Nat) (result : List Byte) (s : State) : (journalInternal role op result s).fab = s.fab := by simp [journalInternal]
@[simp] theorem journalInternal_flt (role : Nat) (op : Nat) (result : List Byte) (s : State) : (journalInternal role op result s).flt = s.flt := by simp [journalInternal]
@[simp] theorem journalInternal_upd (role : Nat) (op : Nat) (result : List Byte) (s : State) : (journalInternal role op result s).upd = s.upd := by simp [journalInternal]
@[simp] theorem journalInternal_pwr (role : Nat) (op : Nat) (result : List Byte) (s : State) : (journalInternal role op result s).pwr = s.pwr := by simp [journalInternal]
@[simp] theorem journalInternal_images (role : Nat) (op : Nat) (result : List Byte) (s : State) : (journalInternal role op result s).images = s.images := by simp [journalInternal]
@[simp] theorem journalInternal_restoring (role : Nat) (op : Nat) (result : List Byte) (s : State) : (journalInternal role op result s).restoring = s.restoring := by simp [journalInternal]
@[simp] theorem journalInternal_free (role : Nat) (op : Nat) (result : List Byte) (s : State) : (journalInternal role op result s).free = s.free := by simp [journalInternal]
@[simp] theorem sendReply_part (r : Reply) (s : State) : (sendReply r s).part = s.part := by unfold sendReply; split <;> simp
@[simp] theorem sendReply_dev (r : Reply) (s : State) : (sendReply r s).dev = s.dev := by unfold sendReply; split <;> simp
@[simp] theorem sendReply_regs (r : Reply) (s : State) : (sendReply r s).regs = s.regs := by unfold sendReply; split <;> simp
@[simp] theorem sendReply_time (r : Reply) (s : State) : (sendReply r s).time = s.time := by unfold sendReply; split <;> simp
@[simp] theorem sendReply_fe (r : Reply) (s : State) : (sendReply r s).fe = s.fe := by unfold sendReply; split <;> simp
@[simp] theorem sendReply_comb (r : Reply) (s : State) : (sendReply r s).comb = s.comb := by unfold sendReply; split <;> simp
@[simp] theorem sendReply_t2 (r : Reply) (s : State) : (sendReply r s).t2 = s.t2 := by unfold sendReply; split <;> simp
@[simp] theorem sendReply_acq (r : Reply) (s : State) : (sendReply r s).acq = s.acq := by unfold sendReply; split <;> simp
@[simp] theorem sendReply_eng (r : Reply) (s : State) : (sendReply r s).eng = s.eng := by unfold sendReply; split <;> simp
@[simp] theorem sendReply_grid (r : Reply) (s : State) : (sendReply r s).grid = s.grid := by unfold sendReply; split <;> simp
@[simp] theorem sendReply_flt (r : Reply) (s : State) : (sendReply r s).flt = s.flt := by unfold sendReply; split <;> simp
@[simp] theorem sendReply_upd (r : Reply) (s : State) : (sendReply r s).upd = s.upd := by unfold sendReply; split <;> simp
@[simp] theorem sendReply_pwr (r : Reply) (s : State) : (sendReply r s).pwr = s.pwr := by unfold sendReply; split <;> simp
@[simp] theorem sendReply_images (r : Reply) (s : State) : (sendReply r s).images = s.images := by unfold sendReply; split <;> simp
@[simp] theorem sendReply_restoring (r : Reply) (s : State) : (sendReply r s).restoring = s.restoring := by unfold sendReply; split <;> simp
@[simp] theorem sendReply_free (r : Reply) (s : State) : (sendReply r s).free = s.free := by unfold sendReply; split <;> simp
@[simp] theorem logAdd_part (e : LogEntry) (s : State) : (logAdd e s).part = s.part := by unfold logAdd; split <;> simp
@[simp] theorem logAdd_dev (e : LogEntry) (s : State) : (logAdd e s).dev = s.dev := by unfold logAdd; split <;> simp
@[simp] theorem logAdd_regs (e : LogEntry) (s : State) : (logAdd e s).regs = s.regs := by unfold logAdd; split <;> simp
@[simp] theorem logAdd_ctl (e : LogEntry) (s : State) : (logAdd e s).ctl = s.ctl := by unfold logAdd; split <;> simp
@[simp] theorem logAdd_host (e : LogEntry) (s : State) : (logAdd e s).host = s.host := by unfold logAdd; split <;> simp
@[simp] theorem logAdd_time (e : LogEntry) (s : State) : (logAdd e s).time = s.time := by unfold logAdd; split <;> simp
@[simp] theorem logAdd_fe (e : LogEntry) (s : State) : (logAdd e s).fe = s.fe := by unfold logAdd; split <;> simp
@[simp] theorem logAdd_comb (e : LogEntry) (s : State) : (logAdd e s).comb = s.comb := by unfold logAdd; split <;> simp
@[simp] theorem logAdd_t2 (e : LogEntry) (s : State) : (logAdd e s).t2 = s.t2 := by unfold logAdd; split <;> simp
@[simp] theorem logAdd_eng (e : LogEntry) (s : State) : (logAdd e s).eng = s.eng := by unfold logAdd; split <;> simp
@[simp] theorem logAdd_grid (e : LogEntry) (s : State) : (logAdd e s).grid = s.grid := by unfold logAdd; split <;> simp
@[simp] theorem logAdd_fab (e : LogEntry) (s : State) : (logAdd e s).fab = s.fab := by unfold logAdd; split <;> simp
@[simp] theorem logAdd_flt (e : LogEntry) (s : State) : (logAdd e s).flt = s.flt := by unfold logAdd; split <;> simp
@[simp] theorem logAdd_upd (e : LogEntry) (s : State) : (logAdd e s).upd = s.upd := by unfold logAdd; split <;> simp
@[simp] theorem logAdd_pwr (e : LogEntry) (s : State) : (logAdd e s).pwr = s.pwr := by unfold logAdd; split <;> simp
@[simp] theorem logAdd_images (e : LogEntry) (s : State) : (logAdd e s).images = s.images := by unfold logAdd; split <;> simp
@[simp] theorem logAdd_restoring (e : LogEntry) (s : State) : (logAdd e s).restoring = s.restoring := by unfold logAdd; split <;> simp
@[simp] theorem logAdd_free (e : LogEntry) (s : State) : (logAdd e s).free = s.free := by unfold logAdd; split <;> simp
@[simp] theorem logCmd_part (eff : Eff) (op : Nat) (h : Hdr) (j : Nat) (annex : List Byte) (s : State) : (logCmd eff op h j annex s).part = s.part := by simp [logCmd]
@[simp] theorem logCmd_dev (eff : Eff) (op : Nat) (h : Hdr) (j : Nat) (annex : List Byte) (s : State) : (logCmd eff op h j annex s).dev = s.dev := by simp [logCmd]
@[simp] theorem logCmd_regs (eff : Eff) (op : Nat) (h : Hdr) (j : Nat) (annex : List Byte) (s : State) : (logCmd eff op h j annex s).regs = s.regs := by simp [logCmd]
@[simp] theorem logCmd_ctl (eff : Eff) (op : Nat) (h : Hdr) (j : Nat) (annex : List Byte) (s : State) : (logCmd eff op h j annex s).ctl = s.ctl := by simp [logCmd]
@[simp] theorem logCmd_host (eff : Eff) (op : Nat) (h : Hdr) (j : Nat) (annex : List Byte) (s : State) : (logCmd eff op h j annex s).host = s.host := by simp [logCmd]
@[simp] theorem logCmd_time (eff : Eff) (op : Nat) (h : Hdr) (j : Nat) (annex : List Byte) (s : State) : (logCmd eff op h j annex s).time = s.time := by simp [logCmd]
@[simp] theorem logCmd_fe (eff : Eff) (op : Nat) (h : Hdr) (j : Nat) (annex : List Byte) (s : State) : (logCmd eff op h j annex s).fe = s.fe := by simp [logCmd]
@[simp] theorem logCmd_comb (eff : Eff) (op : Nat) (h : Hdr) (j : Nat) (annex : List Byte) (s : State) : (logCmd eff op h j annex s).comb = s.comb := by simp [logCmd]
@[simp] theorem logCmd_t2 (eff : Eff) (op : Nat) (h : Hdr) (j : Nat) (annex : List Byte) (s : State) : (logCmd eff op h j annex s).t2 = s.t2 := by simp [logCmd]
@[simp] theorem logCmd_eng (eff : Eff) (op : Nat) (h : Hdr) (j : Nat) (annex : List Byte) (s : State) : (logCmd eff op h j annex s).eng = s.eng := by simp [logCmd]
@[simp] theorem logCmd_grid (eff : Eff) (op : Nat) (h : Hdr) (j : Nat) (annex : List Byte) (s : State) : (logCmd eff op h j annex s).grid = s.grid := by simp [logCmd]
@[simp] theorem logCmd_fab (eff : Eff) (op : Nat) (h : Hdr) (j : Nat) (annex : List Byte) (s : State) : (logCmd eff op h j annex s).fab = s.fab := by simp [logCmd]
@[simp] theorem logCmd_flt (eff : Eff) (op : Nat) (h : Hdr) (j : Nat) (annex : List Byte) (s : State) : (logCmd eff op h j annex s).flt = s.flt := by simp [logCmd]
@[simp] theorem logCmd_upd (eff : Eff) (op : Nat) (h : Hdr) (j : Nat) (annex : List Byte) (s : State) : (logCmd eff op h j annex s).upd = s.upd := by simp [logCmd]
@[simp] theorem logCmd_pwr (eff : Eff) (op : Nat) (h : Hdr) (j : Nat) (annex : List Byte) (s : State) : (logCmd eff op h j annex s).pwr = s.pwr := by simp [logCmd]
@[simp] theorem logCmd_images (eff : Eff) (op : Nat) (h : Hdr) (j : Nat) (annex : List Byte) (s : State) : (logCmd eff op h j annex s).images = s.images := by simp [logCmd]
@[simp] theorem logCmd_restoring (eff : Eff) (op : Nat) (h : Hdr) (j : Nat) (annex : List Byte) (s : State) : (logCmd eff op h j annex s).restoring = s.restoring := by simp [logCmd]
@[simp] theorem logCmd_free (eff : Eff) (op : Nat) (h : Hdr) (j : Nat) (annex : List Byte) (s : State) : (logCmd eff op h j annex s).free = s.free := by simp [logCmd]
@[simp] theorem logDone_part (eff : Eff) (op : Nat) (h : Hdr) (j : Nat) (status : Nat) (s : State) : (logDone eff op h j status s).part = s.part := by unfold logDone; split <;> simp
@[simp] theorem logDone_dev (eff : Eff) (op : Nat) (h : Hdr) (j : Nat) (status : Nat) (s : State) : (logDone eff op h j status s).dev = s.dev := by unfold logDone; split <;> simp
@[simp] theorem logDone_regs (eff : Eff) (op : Nat) (h : Hdr) (j : Nat) (status : Nat) (s : State) : (logDone eff op h j status s).regs = s.regs := by unfold logDone; split <;> simp
@[simp] theorem logDone_ctl (eff : Eff) (op : Nat) (h : Hdr) (j : Nat) (status : Nat) (s : State) : (logDone eff op h j status s).ctl = s.ctl := by unfold logDone; split <;> simp
@[simp] theorem logDone_host (eff : Eff) (op : Nat) (h : Hdr) (j : Nat) (status : Nat) (s : State) : (logDone eff op h j status s).host = s.host := by unfold logDone; split <;> simp
@[simp] theorem logDone_time (eff : Eff) (op : Nat) (h : Hdr) (j : Nat) (status : Nat) (s : State) : (logDone eff op h j status s).time = s.time := by unfold logDone; split <;> simp
@[simp] theorem logDone_fe (eff : Eff) (op : Nat) (h : Hdr) (j : Nat) (status : Nat) (s : State) : (logDone eff op h j status s).fe = s.fe := by unfold logDone; split <;> simp
@[simp] theorem logDone_comb (eff : Eff) (op : Nat) (h : Hdr) (j : Nat) (status : Nat) (s : State) : (logDone eff op h j status s).comb = s.comb := by unfold logDone; split <;> simp
@[simp] theorem logDone_t2 (eff : Eff) (op : Nat) (h : Hdr) (j : Nat) (status : Nat) (s : State) : (logDone eff op h j status s).t2 = s.t2 := by unfold logDone; split <;> simp
@[simp] theorem logDone_eng (eff : Eff) (op : Nat) (h : Hdr) (j : Nat) (status : Nat) (s : State) : (logDone eff op h j status s).eng = s.eng := by unfold logDone; split <;> simp
@[simp] theorem logDone_grid (eff : Eff) (op : Nat) (h : Hdr) (j : Nat) (status : Nat) (s : State) : (logDone eff op h j status s).grid = s.grid := by unfold logDone; split <;> simp
@[simp] theorem logDone_fab (eff : Eff) (op : Nat) (h : Hdr) (j : Nat) (status : Nat) (s : State) : (logDone eff op h j status s).fab = s.fab := by unfold logDone; split <;> simp
@[simp] theorem logDone_flt (eff : Eff) (op : Nat) (h : Hdr) (j : Nat) (status : Nat) (s : State) : (logDone eff op h j status s).flt = s.flt := by unfold logDone; split <;> simp
@[simp] theorem logDone_upd (eff : Eff) (op : Nat) (h : Hdr) (j : Nat) (status : Nat) (s : State) : (logDone eff op h j status s).upd = s.upd := by unfold logDone; split <;> simp
@[simp] theorem logDone_pwr (eff : Eff) (op : Nat) (h : Hdr) (j : Nat) (status : Nat) (s : State) : (logDone eff op h j status s).pwr = s.pwr := by unfold logDone; split <;> simp
@[simp] theorem logDone_images (eff : Eff) (op : Nat) (h : Hdr) (j : Nat) (status : Nat) (s : State) : (logDone eff op h j status s).images = s.images := by unfold logDone; split <;> simp
@[simp] theorem logDone_restoring (eff : Eff) (op : Nat) (h : Hdr) (j : Nat) (status : Nat) (s : State) : (logDone eff op h j status s).restoring = s.restoring := by unfold logDone; split <;> simp
@[simp] theorem logDone_free (eff : Eff) (op : Nat) (h : Hdr) (j : Nat) (status : Nat) (s : State) : (logDone eff op h j status s).free = s.free := by unfold logDone; split <;> simp
@[simp] theorem cacheReply_part (r : Reply) (s : State) : (cacheReply r s).part = s.part := by rfl
@[simp] theorem cacheReply_dev (r : Reply) (s : State) : (cacheReply r s).dev = s.dev := by rfl
@[simp] theorem cacheReply_regs (r : Reply) (s : State) : (cacheReply r s).regs = s.regs := by rfl
@[simp] theorem cacheReply_host (r : Reply) (s : State) : (cacheReply r s).host = s.host := by rfl
@[simp] theorem cacheReply_time (r : Reply) (s : State) : (cacheReply r s).time = s.time := by rfl
@[simp] theorem cacheReply_fe (r : Reply) (s : State) : (cacheReply r s).fe = s.fe := by rfl
@[simp] theorem cacheReply_comb (r : Reply) (s : State) : (cacheReply r s).comb = s.comb := by rfl
@[simp] theorem cacheReply_t2 (r : Reply) (s : State) : (cacheReply r s).t2 = s.t2 := by rfl
@[simp] theorem cacheReply_acq (r : Reply) (s : State) : (cacheReply r s).acq = s.acq := by rfl
@[simp] theorem cacheReply_eng (r : Reply) (s : State) : (cacheReply r s).eng = s.eng := by rfl
@[simp] theorem cacheReply_grid (r : Reply) (s : State) : (cacheReply r s).grid = s.grid := by rfl
@[simp] theorem cacheReply_fab (r : Reply) (s : State) : (cacheReply r s).fab = s.fab := by rfl
@[simp] theorem cacheReply_flt (r : Reply) (s : State) : (cacheReply r s).flt = s.flt := by rfl
@[simp] theorem cacheReply_upd (r : Reply) (s : State) : (cacheReply r s).upd = s.upd := by rfl
@[simp] theorem cacheReply_pwr (r : Reply) (s : State) : (cacheReply r s).pwr = s.pwr := by rfl
@[simp] theorem cacheReply_images (r : Reply) (s : State) : (cacheReply r s).images = s.images := by rfl
@[simp] theorem cacheReply_restoring (r : Reply) (s : State) : (cacheReply r s).restoring = s.restoring := by rfl
@[simp] theorem cacheReply_free (r : Reply) (s : State) : (cacheReply r s).free = s.free := by rfl
@[simp] theorem finishEff_part (eff : Eff) (op : Nat) (h : Hdr) (j : Nat) (status : Nat) (detail : Nat) (result : List Byte) (jres : List Byte) (s : State) : (finishEff eff op h j status detail result jres s).part = s.part := by simp [finishEff]
@[simp] theorem finishEff_dev (eff : Eff) (op : Nat) (h : Hdr) (j : Nat) (status : Nat) (detail : Nat) (result : List Byte) (jres : List Byte) (s : State) : (finishEff eff op h j status detail result jres s).dev = s.dev := by simp [finishEff]
@[simp] theorem finishEff_regs (eff : Eff) (op : Nat) (h : Hdr) (j : Nat) (status : Nat) (detail : Nat) (result : List Byte) (jres : List Byte) (s : State) : (finishEff eff op h j status detail result jres s).regs = s.regs := by simp [finishEff]
@[simp] theorem finishEff_time (eff : Eff) (op : Nat) (h : Hdr) (j : Nat) (status : Nat) (detail : Nat) (result : List Byte) (jres : List Byte) (s : State) : (finishEff eff op h j status detail result jres s).time = s.time := by simp [finishEff]
@[simp] theorem finishEff_fe (eff : Eff) (op : Nat) (h : Hdr) (j : Nat) (status : Nat) (detail : Nat) (result : List Byte) (jres : List Byte) (s : State) : (finishEff eff op h j status detail result jres s).fe = s.fe := by simp [finishEff]
@[simp] theorem finishEff_comb (eff : Eff) (op : Nat) (h : Hdr) (j : Nat) (status : Nat) (detail : Nat) (result : List Byte) (jres : List Byte) (s : State) : (finishEff eff op h j status detail result jres s).comb = s.comb := by simp [finishEff]
@[simp] theorem finishEff_t2 (eff : Eff) (op : Nat) (h : Hdr) (j : Nat) (status : Nat) (detail : Nat) (result : List Byte) (jres : List Byte) (s : State) : (finishEff eff op h j status detail result jres s).t2 = s.t2 := by simp [finishEff]
@[simp] theorem finishEff_eng (eff : Eff) (op : Nat) (h : Hdr) (j : Nat) (status : Nat) (detail : Nat) (result : List Byte) (jres : List Byte) (s : State) : (finishEff eff op h j status detail result jres s).eng = s.eng := by simp [finishEff]
@[simp] theorem finishEff_grid (eff : Eff) (op : Nat) (h : Hdr) (j : Nat) (status : Nat) (detail : Nat) (result : List Byte) (jres : List Byte) (s : State) : (finishEff eff op h j status detail result jres s).grid = s.grid := by simp [finishEff]
@[simp] theorem finishEff_flt (eff : Eff) (op : Nat) (h : Hdr) (j : Nat) (status : Nat) (detail : Nat) (result : List Byte) (jres : List Byte) (s : State) : (finishEff eff op h j status detail result jres s).flt = s.flt := by simp [finishEff]
@[simp] theorem finishEff_upd (eff : Eff) (op : Nat) (h : Hdr) (j : Nat) (status : Nat) (detail : Nat) (result : List Byte) (jres : List Byte) (s : State) : (finishEff eff op h j status detail result jres s).upd = s.upd := by simp [finishEff]
@[simp] theorem finishEff_pwr (eff : Eff) (op : Nat) (h : Hdr) (j : Nat) (status : Nat) (detail : Nat) (result : List Byte) (jres : List Byte) (s : State) : (finishEff eff op h j status detail result jres s).pwr = s.pwr := by simp [finishEff]
@[simp] theorem finishEff_images (eff : Eff) (op : Nat) (h : Hdr) (j : Nat) (status : Nat) (detail : Nat) (result : List Byte) (jres : List Byte) (s : State) : (finishEff eff op h j status detail result jres s).images = s.images := by simp [finishEff]
@[simp] theorem finishEff_restoring (eff : Eff) (op : Nat) (h : Hdr) (j : Nat) (status : Nat) (detail : Nat) (result : List Byte) (jres : List Byte) (s : State) : (finishEff eff op h j status detail result jres s).restoring = s.restoring := by simp [finishEff]
@[simp] theorem finishEff_free (eff : Eff) (op : Nat) (h : Hdr) (j : Nat) (status : Nat) (detail : Nat) (result : List Byte) (jres : List Byte) (s : State) : (finishEff eff op h j status detail result jres s).free = s.free := by simp [finishEff]
@[simp] theorem finish_part (op : Nat) (h : Hdr) (j : Nat) (status : Nat) (detail : Nat) (result : List Byte) (jres : List Byte) (s : State) : (finish op h j status detail result jres s).part = s.part := by simp [finish]
@[simp] theorem finish_dev (op : Nat) (h : Hdr) (j : Nat) (status : Nat) (detail : Nat) (result : List Byte) (jres : List Byte) (s : State) : (finish op h j status detail result jres s).dev = s.dev := by simp [finish]
@[simp] theorem finish_regs (op : Nat) (h : Hdr) (j : Nat) (status : Nat) (detail : Nat) (result : List Byte) (jres : List Byte) (s : State) : (finish op h j status detail result jres s).regs = s.regs := by simp [finish]
@[simp] theorem finish_time (op : Nat) (h : Hdr) (j : Nat) (status : Nat) (detail : Nat) (result : List Byte) (jres : List Byte) (s : State) : (finish op h j status detail result jres s).time = s.time := by simp [finish]
@[simp] theorem finish_fe (op : Nat) (h : Hdr) (j : Nat) (status : Nat) (detail : Nat) (result : List Byte) (jres : List Byte) (s : State) : (finish op h j status detail result jres s).fe = s.fe := by simp [finish]
@[simp] theorem finish_comb (op : Nat) (h : Hdr) (j : Nat) (status : Nat) (detail : Nat) (result : List Byte) (jres : List Byte) (s : State) : (finish op h j status detail result jres s).comb = s.comb := by simp [finish]
@[simp] theorem finish_t2 (op : Nat) (h : Hdr) (j : Nat) (status : Nat) (detail : Nat) (result : List Byte) (jres : List Byte) (s : State) : (finish op h j status detail result jres s).t2 = s.t2 := by simp [finish]
@[simp] theorem finish_eng (op : Nat) (h : Hdr) (j : Nat) (status : Nat) (detail : Nat) (result : List Byte) (jres : List Byte) (s : State) : (finish op h j status detail result jres s).eng = s.eng := by simp [finish]
@[simp] theorem finish_grid (op : Nat) (h : Hdr) (j : Nat) (status : Nat) (detail : Nat) (result : List Byte) (jres : List Byte) (s : State) : (finish op h j status detail result jres s).grid = s.grid := by simp [finish]
@[simp] theorem finish_flt (op : Nat) (h : Hdr) (j : Nat) (status : Nat) (detail : Nat) (result : List Byte) (jres : List Byte) (s : State) : (finish op h j status detail result jres s).flt = s.flt := by simp [finish]
@[simp] theorem finish_upd (op : Nat) (h : Hdr) (j : Nat) (status : Nat) (detail : Nat) (result : List Byte) (jres : List Byte) (s : State) : (finish op h j status detail result jres s).upd = s.upd := by simp [finish]
@[simp] theorem finish_pwr (op : Nat) (h : Hdr) (j : Nat) (status : Nat) (detail : Nat) (result : List Byte) (jres : List Byte) (s : State) : (finish op h j status detail result jres s).pwr = s.pwr := by simp [finish]
@[simp] theorem finish_images (op : Nat) (h : Hdr) (j : Nat) (status : Nat) (detail : Nat) (result : List Byte) (jres : List Byte) (s : State) : (finish op h j status detail result jres s).images = s.images := by simp [finish]
@[simp] theorem finish_restoring (op : Nat) (h : Hdr) (j : Nat) (status : Nat) (detail : Nat) (result : List Byte) (jres : List Byte) (s : State) : (finish op h j status detail result jres s).restoring = s.restoring := by simp [finish]
@[simp] theorem finish_free (op : Nat) (h : Hdr) (j : Nat) (status : Nat) (detail : Nat) (result : List Byte) (jres : List Byte) (s : State) : (finish op h j status detail result jres s).free = s.free := by simp [finish]
@[simp] theorem refuse_part (op : Nat) (h : Hdr) (status : Nat) (detail : Nat) (result : List Byte) (s : State) : (refuse op h status detail result s).part = s.part := by simp [refuse]
@[simp] theorem refuse_dev (op : Nat) (h : Hdr) (status : Nat) (detail : Nat) (result : List Byte) (s : State) : (refuse op h status detail result s).dev = s.dev := by simp [refuse]
@[simp] theorem refuse_regs (op : Nat) (h : Hdr) (status : Nat) (detail : Nat) (result : List Byte) (s : State) : (refuse op h status detail result s).regs = s.regs := by simp [refuse]
@[simp] theorem refuse_time (op : Nat) (h : Hdr) (status : Nat) (detail : Nat) (result : List Byte) (s : State) : (refuse op h status detail result s).time = s.time := by simp [refuse]
@[simp] theorem refuse_fe (op : Nat) (h : Hdr) (status : Nat) (detail : Nat) (result : List Byte) (s : State) : (refuse op h status detail result s).fe = s.fe := by simp [refuse]
@[simp] theorem refuse_comb (op : Nat) (h : Hdr) (status : Nat) (detail : Nat) (result : List Byte) (s : State) : (refuse op h status detail result s).comb = s.comb := by simp [refuse]
@[simp] theorem refuse_t2 (op : Nat) (h : Hdr) (status : Nat) (detail : Nat) (result : List Byte) (s : State) : (refuse op h status detail result s).t2 = s.t2 := by simp [refuse]
@[simp] theorem refuse_acq (op : Nat) (h : Hdr) (status : Nat) (detail : Nat) (result : List Byte) (s : State) : (refuse op h status detail result s).acq = s.acq := by simp [refuse]
@[simp] theorem refuse_eng (op : Nat) (h : Hdr) (status : Nat) (detail : Nat) (result : List Byte) (s : State) : (refuse op h status detail result s).eng = s.eng := by simp [refuse]
@[simp] theorem refuse_grid (op : Nat) (h : Hdr) (status : Nat) (detail : Nat) (result : List Byte) (s : State) : (refuse op h status detail result s).grid = s.grid := by simp [refuse]
@[simp] theorem refuse_flt (op : Nat) (h : Hdr) (status : Nat) (detail : Nat) (result : List Byte) (s : State) : (refuse op h status detail result s).flt = s.flt := by simp [refuse]
@[simp] theorem refuse_upd (op : Nat) (h : Hdr) (status : Nat) (detail : Nat) (result : List Byte) (s : State) : (refuse op h status detail result s).upd = s.upd := by simp [refuse]
@[simp] theorem refuse_pwr (op : Nat) (h : Hdr) (status : Nat) (detail : Nat) (result : List Byte) (s : State) : (refuse op h status detail result s).pwr = s.pwr := by simp [refuse]
@[simp] theorem refuse_images (op : Nat) (h : Hdr) (status : Nat) (detail : Nat) (result : List Byte) (s : State) : (refuse op h status detail result s).images = s.images := by simp [refuse]
@[simp] theorem refuse_restoring (op : Nat) (h : Hdr) (status : Nat) (detail : Nat) (result : List Byte) (s : State) : (refuse op h status detail result s).restoring = s.restoring := by simp [refuse]
@[simp] theorem refuse_free (op : Nat) (h : Hdr) (status : Nat) (detail : Nat) (result : List Byte) (s : State) : (refuse op h status detail result s).free = s.free := by simp [refuse]
@[simp] theorem seeSeq_part (h : Hdr) (s : State) : (seeSeq h s).part = s.part := by rfl
@[simp] theorem seeSeq_dev (h : Hdr) (s : State) : (seeSeq h s).dev = s.dev := by rfl
@[simp] theorem seeSeq_regs (h : Hdr) (s : State) : (seeSeq h s).regs = s.regs := by rfl
@[simp] theorem seeSeq_host (h : Hdr) (s : State) : (seeSeq h s).host = s.host := by rfl
@[simp] theorem seeSeq_time (h : Hdr) (s : State) : (seeSeq h s).time = s.time := by rfl
@[simp] theorem seeSeq_fe (h : Hdr) (s : State) : (seeSeq h s).fe = s.fe := by rfl
@[simp] theorem seeSeq_comb (h : Hdr) (s : State) : (seeSeq h s).comb = s.comb := by rfl
@[simp] theorem seeSeq_t2 (h : Hdr) (s : State) : (seeSeq h s).t2 = s.t2 := by rfl
@[simp] theorem seeSeq_acq (h : Hdr) (s : State) : (seeSeq h s).acq = s.acq := by rfl
@[simp] theorem seeSeq_eng (h : Hdr) (s : State) : (seeSeq h s).eng = s.eng := by rfl
@[simp] theorem seeSeq_grid (h : Hdr) (s : State) : (seeSeq h s).grid = s.grid := by rfl
@[simp] theorem seeSeq_fab (h : Hdr) (s : State) : (seeSeq h s).fab = s.fab := by rfl
@[simp] theorem seeSeq_flt (h : Hdr) (s : State) : (seeSeq h s).flt = s.flt := by rfl
@[simp] theorem seeSeq_upd (h : Hdr) (s : State) : (seeSeq h s).upd = s.upd := by rfl
@[simp] theorem seeSeq_pwr (h : Hdr) (s : State) : (seeSeq h s).pwr = s.pwr := by rfl
@[simp] theorem seeSeq_images (h : Hdr) (s : State) : (seeSeq h s).images = s.images := by rfl
@[simp] theorem seeSeq_restoring (h : Hdr) (s : State) : (seeSeq h s).restoring = s.restoring := by rfl
@[simp] theorem seeSeq_free (h : Hdr) (s : State) : (seeSeq h s).free = s.free := by rfl
@[simp] theorem renewLease_part (h : Hdr) (s : State) : (renewLease h s).part = s.part := by unfold renewLease; split <;> simp
@[simp] theorem renewLease_dev (h : Hdr) (s : State) : (renewLease h s).dev = s.dev := by unfold renewLease; split <;> simp
@[simp] theorem renewLease_regs (h : Hdr) (s : State) : (renewLease h s).regs = s.regs := by unfold renewLease; split <;> simp
@[simp] theorem renewLease_host (h : Hdr) (s : State) : (renewLease h s).host = s.host := by unfold renewLease; split <;> simp
@[simp] theorem renewLease_time (h : Hdr) (s : State) : (renewLease h s).time = s.time := by unfold renewLease; split <;> simp
@[simp] theorem renewLease_fe (h : Hdr) (s : State) : (renewLease h s).fe = s.fe := by unfold renewLease; split <;> simp
@[simp] theorem renewLease_comb (h : Hdr) (s : State) : (renewLease h s).comb = s.comb := by unfold renewLease; split <;> simp
@[simp] theorem renewLease_t2 (h : Hdr) (s : State) : (renewLease h s).t2 = s.t2 := by unfold renewLease; split <;> simp
@[simp] theorem renewLease_acq (h : Hdr) (s : State) : (renewLease h s).acq = s.acq := by unfold renewLease; split <;> simp
@[simp] theorem renewLease_eng (h : Hdr) (s : State) : (renewLease h s).eng = s.eng := by unfold renewLease; split <;> simp
@[simp] theorem renewLease_grid (h : Hdr) (s : State) : (renewLease h s).grid = s.grid := by unfold renewLease; split <;> simp
@[simp] theorem renewLease_fab (h : Hdr) (s : State) : (renewLease h s).fab = s.fab := by unfold renewLease; split <;> simp
@[simp] theorem renewLease_flt (h : Hdr) (s : State) : (renewLease h s).flt = s.flt := by unfold renewLease; split <;> simp
@[simp] theorem renewLease_upd (h : Hdr) (s : State) : (renewLease h s).upd = s.upd := by unfold renewLease; split <;> simp
@[simp] theorem renewLease_pwr (h : Hdr) (s : State) : (renewLease h s).pwr = s.pwr := by unfold renewLease; split <;> simp
@[simp] theorem renewLease_images (h : Hdr) (s : State) : (renewLease h s).images = s.images := by unfold renewLease; split <;> simp
@[simp] theorem renewLease_restoring (h : Hdr) (s : State) : (renewLease h s).restoring = s.restoring := by unfold renewLease; split <;> simp
@[simp] theorem renewLease_free (h : Hdr) (s : State) : (renewLease h s).free = s.free := by unfold renewLease; split <;> simp
@[simp] theorem untake_part (h : Hdr) (s : State) : (untake h s).part = s.part := by unfold untake; split <;> simp
@[simp] theorem untake_dev (h : Hdr) (s : State) : (untake h s).dev = s.dev := by unfold untake; split <;> simp
@[simp] theorem untake_regs (h : Hdr) (s : State) : (untake h s).regs = s.regs := by unfold untake; split <;> simp
@[simp] theorem untake_host (h : Hdr) (s : State) : (untake h s).host = s.host := by unfold untake; split <;> simp
@[simp] theorem untake_time (h : Hdr) (s : State) : (untake h s).time = s.time := by unfold untake; split <;> simp
@[simp] theorem untake_fe (h : Hdr) (s : State) : (untake h s).fe = s.fe := by unfold untake; split <;> simp
@[simp] theorem untake_comb (h : Hdr) (s : State) : (untake h s).comb = s.comb := by unfold untake; split <;> simp
@[simp] theorem untake_t2 (h : Hdr) (s : State) : (untake h s).t2 = s.t2 := by unfold untake; split <;> simp
@[simp] theorem untake_acq (h : Hdr) (s : State) : (untake h s).acq = s.acq := by unfold untake; split <;> simp
@[simp] theorem untake_eng (h : Hdr) (s : State) : (untake h s).eng = s.eng := by unfold untake; split <;> simp
@[simp] theorem untake_grid (h : Hdr) (s : State) : (untake h s).grid = s.grid := by unfold untake; split <;> simp
@[simp] theorem untake_fab (h : Hdr) (s : State) : (untake h s).fab = s.fab := by unfold untake; split <;> simp
@[simp] theorem untake_flt (h : Hdr) (s : State) : (untake h s).flt = s.flt := by unfold untake; split <;> simp
@[simp] theorem untake_upd (h : Hdr) (s : State) : (untake h s).upd = s.upd := by unfold untake; split <;> simp
@[simp] theorem untake_pwr (h : Hdr) (s : State) : (untake h s).pwr = s.pwr := by unfold untake; split <;> simp
@[simp] theorem untake_images (h : Hdr) (s : State) : (untake h s).images = s.images := by unfold untake; split <;> simp
@[simp] theorem untake_restoring (h : Hdr) (s : State) : (untake h s).restoring = s.restoring := by unfold untake; split <;> simp
@[simp] theorem untake_free (h : Hdr) (s : State) : (untake h s).free = s.free := by unfold untake; split <;> simp
@[simp] theorem waitOver_part (j : Nat) (s : State) : (waitOver j s).part = s.part := by rfl
@[simp] theorem waitOver_dev (j : Nat) (s : State) : (waitOver j s).dev = s.dev := by rfl
@[simp] theorem waitOver_regs (j : Nat) (s : State) : (waitOver j s).regs = s.regs := by rfl
@[simp] theorem waitOver_host (j : Nat) (s : State) : (waitOver j s).host = s.host := by rfl
@[simp] theorem waitOver_time (j : Nat) (s : State) : (waitOver j s).time = s.time := by rfl
@[simp] theorem waitOver_fe (j : Nat) (s : State) : (waitOver j s).fe = s.fe := by rfl
@[simp] theorem waitOver_comb (j : Nat) (s : State) : (waitOver j s).comb = s.comb := by rfl
@[simp] theorem waitOver_t2 (j : Nat) (s : State) : (waitOver j s).t2 = s.t2 := by rfl
@[simp] theorem waitOver_acq (j : Nat) (s : State) : (waitOver j s).acq = s.acq := by rfl
@[simp] theorem waitOver_eng (j : Nat) (s : State) : (waitOver j s).eng = s.eng := by rfl
@[simp] theorem waitOver_grid (j : Nat) (s : State) : (waitOver j s).grid = s.grid := by rfl
@[simp] theorem waitOver_fab (j : Nat) (s : State) : (waitOver j s).fab = s.fab := by rfl
@[simp] theorem waitOver_flt (j : Nat) (s : State) : (waitOver j s).flt = s.flt := by rfl
@[simp] theorem waitOver_upd (j : Nat) (s : State) : (waitOver j s).upd = s.upd := by rfl
@[simp] theorem waitOver_pwr (j : Nat) (s : State) : (waitOver j s).pwr = s.pwr := by rfl
@[simp] theorem waitOver_images (j : Nat) (s : State) : (waitOver j s).images = s.images := by rfl
@[simp] theorem waitOver_restoring (j : Nat) (s : State) : (waitOver j s).restoring = s.restoring := by rfl
@[simp] theorem waitOver_free (j : Nat) (s : State) : (waitOver j s).free = s.free := by rfl
@[simp] theorem finishWait_part (w : Waiting) (status : Nat) (s : State) : (finishWait w status s).part = s.part := by simp [finishWait]
@[simp] theorem finishWait_dev (w : Waiting) (status : Nat) (s : State) : (finishWait w status s).dev = s.dev := by simp [finishWait]
@[simp] theorem finishWait_regs (w : Waiting) (status : Nat) (s : State) : (finishWait w status s).regs = s.regs := by simp [finishWait]
@[simp] theorem finishWait_time (w : Waiting) (status : Nat) (s : State) : (finishWait w status s).time = s.time := by simp [finishWait]
@[simp] theorem finishWait_fe (w : Waiting) (status : Nat) (s : State) : (finishWait w status s).fe = s.fe := by simp [finishWait]
@[simp] theorem finishWait_comb (w : Waiting) (status : Nat) (s : State) : (finishWait w status s).comb = s.comb := by simp [finishWait]
@[simp] theorem finishWait_t2 (w : Waiting) (status : Nat) (s : State) : (finishWait w status s).t2 = s.t2 := by simp [finishWait]
@[simp] theorem finishWait_eng (w : Waiting) (status : Nat) (s : State) : (finishWait w status s).eng = s.eng := by simp [finishWait]
@[simp] theorem finishWait_grid (w : Waiting) (status : Nat) (s : State) : (finishWait w status s).grid = s.grid := by simp [finishWait]
@[simp] theorem finishWait_flt (w : Waiting) (status : Nat) (s : State) : (finishWait w status s).flt = s.flt := by simp [finishWait]
@[simp] theorem finishWait_upd (w : Waiting) (status : Nat) (s : State) : (finishWait w status s).upd = s.upd := by simp [finishWait]
@[simp] theorem finishWait_pwr (w : Waiting) (status : Nat) (s : State) : (finishWait w status s).pwr = s.pwr := by simp [finishWait]
@[simp] theorem finishWait_images (w : Waiting) (status : Nat) (s : State) : (finishWait w status s).images = s.images := by simp [finishWait]
@[simp] theorem finishWait_restoring (w : Waiting) (status : Nat) (s : State) : (finishWait w status s).restoring = s.restoring := by simp [finishWait]
@[simp] theorem finishWait_free (w : Waiting) (status : Nat) (s : State) : (finishWait w status s).free = s.free := by simp [finishWait]
@[simp] theorem finishLong_part (j : Nat) (status : Nat) (detail : Nat) (result : List Byte) (s : State) : (finishLong j status detail result s).part = s.part := by unfold finishLong; split <;> simp
@[simp] theorem finishLong_dev (j : Nat) (status : Nat) (detail : Nat) (result : List Byte) (s : State) : (finishLong j status detail result s).dev = s.dev := by unfold finishLong; split <;> simp
@[simp] theorem finishLong_regs (j : Nat) (status : Nat) (detail : Nat) (result : List Byte) (s : State) : (finishLong j status detail result s).regs = s.regs := by unfold finishLong; split <;> simp
@[simp] theorem finishLong_time (j : Nat) (status : Nat) (detail : Nat) (result : List Byte) (s : State) : (finishLong j status detail result s).time = s.time := by unfold finishLong; split <;> simp
@[simp] theorem finishLong_fe (j : Nat) (status : Nat) (detail : Nat) (result : List Byte) (s : State) : (finishLong j status detail result s).fe = s.fe := by unfold finishLong; split <;> simp
@[simp] theorem finishLong_comb (j : Nat) (status : Nat) (detail : Nat) (result : List Byte) (s : State) : (finishLong j status detail result s).comb = s.comb := by unfold finishLong; split <;> simp
@[simp] theorem finishLong_t2 (j : Nat) (status : Nat) (detail : Nat) (result : List Byte) (s : State) : (finishLong j status detail result s).t2 = s.t2 := by unfold finishLong; split <;> simp
@[simp] theorem finishLong_eng (j : Nat) (status : Nat) (detail : Nat) (result : List Byte) (s : State) : (finishLong j status detail result s).eng = s.eng := by unfold finishLong; split <;> simp
@[simp] theorem finishLong_grid (j : Nat) (status : Nat) (detail : Nat) (result : List Byte) (s : State) : (finishLong j status detail result s).grid = s.grid := by unfold finishLong; split <;> simp
@[simp] theorem finishLong_flt (j : Nat) (status : Nat) (detail : Nat) (result : List Byte) (s : State) : (finishLong j status detail result s).flt = s.flt := by unfold finishLong; split <;> simp
@[simp] theorem finishLong_upd (j : Nat) (status : Nat) (detail : Nat) (result : List Byte) (s : State) : (finishLong j status detail result s).upd = s.upd := by unfold finishLong; split <;> simp
@[simp] theorem finishLong_pwr (j : Nat) (status : Nat) (detail : Nat) (result : List Byte) (s : State) : (finishLong j status detail result s).pwr = s.pwr := by unfold finishLong; split <;> simp
@[simp] theorem finishLong_images (j : Nat) (status : Nat) (detail : Nat) (result : List Byte) (s : State) : (finishLong j status detail result s).images = s.images := by unfold finishLong; split <;> simp
@[simp] theorem finishLong_restoring (j : Nat) (status : Nat) (detail : Nat) (result : List Byte) (s : State) : (finishLong j status detail result s).restoring = s.restoring := by unfold finishLong; split <;> simp
@[simp] theorem finishLong_free (j : Nat) (status : Nat) (detail : Nat) (result : List Byte) (s : State) : (finishLong j status detail result s).free = s.free := by unfold finishLong; split <;> simp
@[simp] theorem longEff_part (eff : Eff) (h : Hdr) (op : Nat) (j : Nat) (s : State) : (longEff eff h op j s).part = s.part := by rfl
@[simp] theorem longEff_dev (eff : Eff) (h : Hdr) (op : Nat) (j : Nat) (s : State) : (longEff eff h op j s).dev = s.dev := by rfl
@[simp] theorem longEff_regs (eff : Eff) (h : Hdr) (op : Nat) (j : Nat) (s : State) : (longEff eff h op j s).regs = s.regs := by rfl
@[simp] theorem longEff_host (eff : Eff) (h : Hdr) (op : Nat) (j : Nat) (s : State) : (longEff eff h op j s).host = s.host := by rfl
@[simp] theorem longEff_time (eff : Eff) (h : Hdr) (op : Nat) (j : Nat) (s : State) : (longEff eff h op j s).time = s.time := by rfl
@[simp] theorem longEff_fe (eff : Eff) (h : Hdr) (op : Nat) (j : Nat) (s : State) : (longEff eff h op j s).fe = s.fe := by rfl
@[simp] theorem longEff_comb (eff : Eff) (h : Hdr) (op : Nat) (j : Nat) (s : State) : (longEff eff h op j s).comb = s.comb := by rfl
@[simp] theorem longEff_t2 (eff : Eff) (h : Hdr) (op : Nat) (j : Nat) (s : State) : (longEff eff h op j s).t2 = s.t2 := by rfl
@[simp] theorem longEff_acq (eff : Eff) (h : Hdr) (op : Nat) (j : Nat) (s : State) : (longEff eff h op j s).acq = s.acq := by rfl
@[simp] theorem longEff_eng (eff : Eff) (h : Hdr) (op : Nat) (j : Nat) (s : State) : (longEff eff h op j s).eng = s.eng := by rfl
@[simp] theorem longEff_grid (eff : Eff) (h : Hdr) (op : Nat) (j : Nat) (s : State) : (longEff eff h op j s).grid = s.grid := by rfl
@[simp] theorem longEff_fab (eff : Eff) (h : Hdr) (op : Nat) (j : Nat) (s : State) : (longEff eff h op j s).fab = s.fab := by rfl
@[simp] theorem longEff_flt (eff : Eff) (h : Hdr) (op : Nat) (j : Nat) (s : State) : (longEff eff h op j s).flt = s.flt := by rfl
@[simp] theorem longEff_upd (eff : Eff) (h : Hdr) (op : Nat) (j : Nat) (s : State) : (longEff eff h op j s).upd = s.upd := by rfl
@[simp] theorem longEff_pwr (eff : Eff) (h : Hdr) (op : Nat) (j : Nat) (s : State) : (longEff eff h op j s).pwr = s.pwr := by rfl
@[simp] theorem longEff_images (eff : Eff) (h : Hdr) (op : Nat) (j : Nat) (s : State) : (longEff eff h op j s).images = s.images := by rfl
@[simp] theorem longEff_restoring (eff : Eff) (h : Hdr) (op : Nat) (j : Nat) (s : State) : (longEff eff h op j s).restoring = s.restoring := by rfl
@[simp] theorem longEff_free (eff : Eff) (h : Hdr) (op : Nat) (j : Nat) (s : State) : (longEff eff h op j s).free = s.free := by rfl
@[simp] theorem longCmd_part (h : Hdr) (op : Nat) (j : Nat) (s : State) : (longCmd h op j s).part = s.part := by simp [longCmd]
@[simp] theorem longCmd_dev (h : Hdr) (op : Nat) (j : Nat) (s : State) : (longCmd h op j s).dev = s.dev := by simp [longCmd]
@[simp] theorem longCmd_regs (h : Hdr) (op : Nat) (j : Nat) (s : State) : (longCmd h op j s).regs = s.regs := by simp [longCmd]
@[simp] theorem longCmd_host (h : Hdr) (op : Nat) (j : Nat) (s : State) : (longCmd h op j s).host = s.host := by simp [longCmd]
@[simp] theorem longCmd_time (h : Hdr) (op : Nat) (j : Nat) (s : State) : (longCmd h op j s).time = s.time := by simp [longCmd]
@[simp] theorem longCmd_fe (h : Hdr) (op : Nat) (j : Nat) (s : State) : (longCmd h op j s).fe = s.fe := by simp [longCmd]
@[simp] theorem longCmd_comb (h : Hdr) (op : Nat) (j : Nat) (s : State) : (longCmd h op j s).comb = s.comb := by simp [longCmd]
@[simp] theorem longCmd_t2 (h : Hdr) (op : Nat) (j : Nat) (s : State) : (longCmd h op j s).t2 = s.t2 := by simp [longCmd]
@[simp] theorem longCmd_acq (h : Hdr) (op : Nat) (j : Nat) (s : State) : (longCmd h op j s).acq = s.acq := by simp [longCmd]
@[simp] theorem longCmd_eng (h : Hdr) (op : Nat) (j : Nat) (s : State) : (longCmd h op j s).eng = s.eng := by simp [longCmd]
@[simp] theorem longCmd_grid (h : Hdr) (op : Nat) (j : Nat) (s : State) : (longCmd h op j s).grid = s.grid := by simp [longCmd]
@[simp] theorem longCmd_fab (h : Hdr) (op : Nat) (j : Nat) (s : State) : (longCmd h op j s).fab = s.fab := by simp [longCmd]
@[simp] theorem longCmd_flt (h : Hdr) (op : Nat) (j : Nat) (s : State) : (longCmd h op j s).flt = s.flt := by simp [longCmd]
@[simp] theorem longCmd_upd (h : Hdr) (op : Nat) (j : Nat) (s : State) : (longCmd h op j s).upd = s.upd := by simp [longCmd]
@[simp] theorem longCmd_pwr (h : Hdr) (op : Nat) (j : Nat) (s : State) : (longCmd h op j s).pwr = s.pwr := by simp [longCmd]
@[simp] theorem longCmd_images (h : Hdr) (op : Nat) (j : Nat) (s : State) : (longCmd h op j s).images = s.images := by simp [longCmd]
@[simp] theorem longCmd_restoring (h : Hdr) (op : Nat) (j : Nat) (s : State) : (longCmd h op j s).restoring = s.restoring := by simp [longCmd]
@[simp] theorem longCmd_free (h : Hdr) (op : Nat) (j : Nat) (s : State) : (longCmd h op j s).free = s.free := by simp [longCmd]
@[simp] theorem changeHolder_part (new : Option Nat) (cause : Nat) (s : State) : (changeHolder new cause s).part = s.part := by simp [changeHolder]
@[simp] theorem changeHolder_dev (new : Option Nat) (cause : Nat) (s : State) : (changeHolder new cause s).dev = s.dev := by simp [changeHolder]
@[simp] theorem changeHolder_regs (new : Option Nat) (cause : Nat) (s : State) : (changeHolder new cause s).regs = s.regs := by simp [changeHolder]
@[simp] theorem changeHolder_time (new : Option Nat) (cause : Nat) (s : State) : (changeHolder new cause s).time = s.time := by simp [changeHolder]
@[simp] theorem changeHolder_fe (new : Option Nat) (cause : Nat) (s : State) : (changeHolder new cause s).fe = s.fe := by simp [changeHolder]
@[simp] theorem changeHolder_comb (new : Option Nat) (cause : Nat) (s : State) : (changeHolder new cause s).comb = s.comb := by simp [changeHolder]
@[simp] theorem changeHolder_t2 (new : Option Nat) (cause : Nat) (s : State) : (changeHolder new cause s).t2 = s.t2 := by simp [changeHolder]
@[simp] theorem changeHolder_acq (new : Option Nat) (cause : Nat) (s : State) : (changeHolder new cause s).acq = s.acq := by simp [changeHolder]
@[simp] theorem changeHolder_eng (new : Option Nat) (cause : Nat) (s : State) : (changeHolder new cause s).eng = s.eng := by simp [changeHolder]
@[simp] theorem changeHolder_grid (new : Option Nat) (cause : Nat) (s : State) : (changeHolder new cause s).grid = s.grid := by simp [changeHolder]
@[simp] theorem changeHolder_fab (new : Option Nat) (cause : Nat) (s : State) : (changeHolder new cause s).fab = s.fab := by simp [changeHolder]
@[simp] theorem changeHolder_flt (new : Option Nat) (cause : Nat) (s : State) : (changeHolder new cause s).flt = s.flt := by simp [changeHolder]
@[simp] theorem changeHolder_upd (new : Option Nat) (cause : Nat) (s : State) : (changeHolder new cause s).upd = s.upd := by simp [changeHolder]
@[simp] theorem changeHolder_pwr (new : Option Nat) (cause : Nat) (s : State) : (changeHolder new cause s).pwr = s.pwr := by simp [changeHolder]
@[simp] theorem changeHolder_images (new : Option Nat) (cause : Nat) (s : State) : (changeHolder new cause s).images = s.images := by simp [changeHolder]
@[simp] theorem changeHolder_restoring (new : Option Nat) (cause : Nat) (s : State) : (changeHolder new cause s).restoring = s.restoring := by simp [changeHolder]
@[simp] theorem changeHolder_free (new : Option Nat) (cause : Nat) (s : State) : (changeHolder new cause s).free = s.free := by simp [changeHolder]
@[simp] theorem startSave_part (cause : Nat) (s : State) : (startSave cause s).part = s.part := by unfold startSave; split <;> simp
@[simp] theorem startSave_dev (cause : Nat) (s : State) : (startSave cause s).dev = s.dev := by unfold startSave; split <;> simp
@[simp] theorem startSave_regs (cause : Nat) (s : State) : (startSave cause s).regs = s.regs := by unfold startSave; split <;> simp
@[simp] theorem startSave_ctl (cause : Nat) (s : State) : (startSave cause s).ctl = s.ctl := by unfold startSave; split <;> simp
@[simp] theorem startSave_host (cause : Nat) (s : State) : (startSave cause s).host = s.host := by unfold startSave; split <;> simp
@[simp] theorem startSave_time (cause : Nat) (s : State) : (startSave cause s).time = s.time := by unfold startSave; split <;> simp
@[simp] theorem startSave_fe (cause : Nat) (s : State) : (startSave cause s).fe = s.fe := by unfold startSave; split <;> simp
@[simp] theorem startSave_comb (cause : Nat) (s : State) : (startSave cause s).comb = s.comb := by unfold startSave; split <;> simp
@[simp] theorem startSave_t2 (cause : Nat) (s : State) : (startSave cause s).t2 = s.t2 := by unfold startSave; split <;> simp
@[simp] theorem startSave_acq (cause : Nat) (s : State) : (startSave cause s).acq = s.acq := by unfold startSave; split <;> simp
@[simp] theorem startSave_eng (cause : Nat) (s : State) : (startSave cause s).eng = s.eng := by unfold startSave; split <;> simp
@[simp] theorem startSave_grid (cause : Nat) (s : State) : (startSave cause s).grid = s.grid := by unfold startSave; split <;> simp
@[simp] theorem startSave_fab (cause : Nat) (s : State) : (startSave cause s).fab = s.fab := by unfold startSave; split <;> simp
@[simp] theorem startSave_flt (cause : Nat) (s : State) : (startSave cause s).flt = s.flt := by unfold startSave; split <;> simp
@[simp] theorem startSave_upd (cause : Nat) (s : State) : (startSave cause s).upd = s.upd := by unfold startSave; split <;> simp
@[simp] theorem startSave_images (cause : Nat) (s : State) : (startSave cause s).images = s.images := by unfold startSave; split <;> simp
@[simp] theorem startSave_restoring (cause : Nat) (s : State) : (startSave cause s).restoring = s.restoring := by unfold startSave; split <;> simp
@[simp] theorem startSave_free (cause : Nat) (s : State) : (startSave cause s).free = s.free := by unfold startSave; split <;> simp
@[simp] theorem safeDev_part (cause : Nat) (s : State) : (safeDev cause s).part = s.part := by simp [safeDev]
@[simp] theorem safeDev_regs (cause : Nat) (s : State) : (safeDev cause s).regs = s.regs := by simp [safeDev]
@[simp] theorem safeDev_ctl (cause : Nat) (s : State) : (safeDev cause s).ctl = s.ctl := by simp [safeDev]
@[simp] theorem safeDev_time (cause : Nat) (s : State) : (safeDev cause s).time = s.time := by simp [safeDev]
@[simp] theorem safeDev_fe (cause : Nat) (s : State) : (safeDev cause s).fe = s.fe := by simp [safeDev]
@[simp] theorem safeDev_comb (cause : Nat) (s : State) : (safeDev cause s).comb = s.comb := by simp [safeDev]
@[simp] theorem safeDev_t2 (cause : Nat) (s : State) : (safeDev cause s).t2 = s.t2 := by simp [safeDev]
@[simp] theorem safeDev_acq (cause : Nat) (s : State) : (safeDev cause s).acq = s.acq := by simp [safeDev]
@[simp] theorem safeDev_eng (cause : Nat) (s : State) : (safeDev cause s).eng = s.eng := by simp [safeDev]
@[simp] theorem safeDev_grid (cause : Nat) (s : State) : (safeDev cause s).grid = s.grid := by simp [safeDev]
@[simp] theorem safeDev_fab (cause : Nat) (s : State) : (safeDev cause s).fab = s.fab := by simp [safeDev]
@[simp] theorem safeDev_flt (cause : Nat) (s : State) : (safeDev cause s).flt = s.flt := by simp [safeDev]
@[simp] theorem safeDev_upd (cause : Nat) (s : State) : (safeDev cause s).upd = s.upd := by simp [safeDev]
@[simp] theorem safeDev_pwr (cause : Nat) (s : State) : (safeDev cause s).pwr = s.pwr := by simp [safeDev]
@[simp] theorem safeDev_images (cause : Nat) (s : State) : (safeDev cause s).images = s.images := by simp [safeDev]
@[simp] theorem safeDev_restoring (cause : Nat) (s : State) : (safeDev cause s).restoring = s.restoring := by simp [safeDev]
@[simp] theorem safeDev_free (cause : Nat) (s : State) : (safeDev cause s).free = s.free := by simp [safeDev]
@[simp] theorem busyAll_part (s : State) : (busyAll s).part = s.part := by rfl
@[simp] theorem busyAll_dev (s : State) : (busyAll s).dev = s.dev := by rfl
@[simp] theorem busyAll_regs (s : State) : (busyAll s).regs = s.regs := by rfl
@[simp] theorem busyAll_ctl (s : State) : (busyAll s).ctl = s.ctl := by rfl
@[simp] theorem busyAll_host (s : State) : (busyAll s).host = s.host := by rfl
@[simp] theorem busyAll_time (s : State) : (busyAll s).time = s.time := by rfl
@[simp] theorem busyAll_fe (s : State) : (busyAll s).fe = s.fe := by rfl
@[simp] theorem busyAll_t2 (s : State) : (busyAll s).t2 = s.t2 := by rfl
@[simp] theorem busyAll_acq (s : State) : (busyAll s).acq = s.acq := by rfl
@[simp] theorem busyAll_eng (s : State) : (busyAll s).eng = s.eng := by rfl
@[simp] theorem busyAll_grid (s : State) : (busyAll s).grid = s.grid := by rfl
@[simp] theorem busyAll_fab (s : State) : (busyAll s).fab = s.fab := by rfl
@[simp] theorem busyAll_flt (s : State) : (busyAll s).flt = s.flt := by rfl
@[simp] theorem busyAll_upd (s : State) : (busyAll s).upd = s.upd := by rfl
@[simp] theorem busyAll_pwr (s : State) : (busyAll s).pwr = s.pwr := by rfl
@[simp] theorem busyAll_images (s : State) : (busyAll s).images = s.images := by rfl
@[simp] theorem busyAll_restoring (s : State) : (busyAll s).restoring = s.restoring := by rfl
@[simp] theorem busyAll_free (s : State) : (busyAll s).free = s.free := by rfl
@[simp] theorem endPasses_part (s : State) : (endPasses s).part = s.part := by rfl
@[simp] theorem endPasses_dev (s : State) : (endPasses s).dev = s.dev := by rfl
@[simp] theorem endPasses_regs (s : State) : (endPasses s).regs = s.regs := by rfl
@[simp] theorem endPasses_ctl (s : State) : (endPasses s).ctl = s.ctl := by rfl
@[simp] theorem endPasses_host (s : State) : (endPasses s).host = s.host := by rfl
@[simp] theorem endPasses_time (s : State) : (endPasses s).time = s.time := by rfl
@[simp] theorem endPasses_fe (s : State) : (endPasses s).fe = s.fe := by rfl
@[simp] theorem endPasses_comb (s : State) : (endPasses s).comb = s.comb := by rfl
@[simp] theorem endPasses_acq (s : State) : (endPasses s).acq = s.acq := by rfl
@[simp] theorem endPasses_eng (s : State) : (endPasses s).eng = s.eng := by rfl
@[simp] theorem endPasses_grid (s : State) : (endPasses s).grid = s.grid := by rfl
@[simp] theorem endPasses_fab (s : State) : (endPasses s).fab = s.fab := by rfl
@[simp] theorem endPasses_flt (s : State) : (endPasses s).flt = s.flt := by rfl
@[simp] theorem endPasses_upd (s : State) : (endPasses s).upd = s.upd := by rfl
@[simp] theorem endPasses_pwr (s : State) : (endPasses s).pwr = s.pwr := by rfl
@[simp] theorem endPasses_images (s : State) : (endPasses s).images = s.images := by rfl
@[simp] theorem endPasses_restoring (s : State) : (endPasses s).restoring = s.restoring := by rfl
@[simp] theorem endPasses_free (s : State) : (endPasses s).free = s.free := by rfl
@[simp] theorem setPart_part (t : Nat) (p : UpPart) (s : State) : (setPart t p s).part = s.part := by rfl
@[simp] theorem setPart_dev (t : Nat) (p : UpPart) (s : State) : (setPart t p s).dev = s.dev := by rfl
@[simp] theorem setPart_regs (t : Nat) (p : UpPart) (s : State) : (setPart t p s).regs = s.regs := by rfl
@[simp] theorem setPart_ctl (t : Nat) (p : UpPart) (s : State) : (setPart t p s).ctl = s.ctl := by rfl
@[simp] theorem setPart_host (t : Nat) (p : UpPart) (s : State) : (setPart t p s).host = s.host := by rfl
@[simp] theorem setPart_time (t : Nat) (p : UpPart) (s : State) : (setPart t p s).time = s.time := by rfl
@[simp] theorem setPart_fe (t : Nat) (p : UpPart) (s : State) : (setPart t p s).fe = s.fe := by rfl
@[simp] theorem setPart_comb (t : Nat) (p : UpPart) (s : State) : (setPart t p s).comb = s.comb := by rfl
@[simp] theorem setPart_t2 (t : Nat) (p : UpPart) (s : State) : (setPart t p s).t2 = s.t2 := by rfl
@[simp] theorem setPart_acq (t : Nat) (p : UpPart) (s : State) : (setPart t p s).acq = s.acq := by rfl
@[simp] theorem setPart_eng (t : Nat) (p : UpPart) (s : State) : (setPart t p s).eng = s.eng := by rfl
@[simp] theorem setPart_grid (t : Nat) (p : UpPart) (s : State) : (setPart t p s).grid = s.grid := by rfl
@[simp] theorem setPart_fab (t : Nat) (p : UpPart) (s : State) : (setPart t p s).fab = s.fab := by rfl
@[simp] theorem setPart_flt (t : Nat) (p : UpPart) (s : State) : (setPart t p s).flt = s.flt := by rfl
@[simp] theorem setPart_pwr (t : Nat) (p : UpPart) (s : State) : (setPart t p s).pwr = s.pwr := by rfl
@[simp] theorem setPart_images (t : Nat) (p : UpPart) (s : State) : (setPart t p s).images = s.images := by rfl
@[simp] theorem setPart_restoring (t : Nat) (p : UpPart) (s : State) : (setPart t p s).restoring = s.restoring := by rfl
@[simp] theorem setPart_free (t : Nat) (p : UpPart) (s : State) : (setPart t p s).free = s.free := by rfl
@[simp] theorem setLease_part (ms : Nat) (s : State) : (setLease ms s).part = s.part := by rfl
@[simp] theorem setLease_dev (ms : Nat) (s : State) : (setLease ms s).dev = s.dev := by rfl
@[simp] theorem setLease_regs (ms : Nat) (s : State) : (setLease ms s).regs = s.regs := by rfl
@[simp] theorem setLease_host (ms : Nat) (s : State) : (setLease ms s).host = s.host := by rfl
@[simp] theorem setLease_time (ms : Nat) (s : State) : (setLease ms s).time = s.time := by rfl
@[simp] theorem setLease_fe (ms : Nat) (s : State) : (setLease ms s).fe = s.fe := by rfl
@[simp] theorem setLease_comb (ms : Nat) (s : State) : (setLease ms s).comb = s.comb := by rfl
@[simp] theorem setLease_t2 (ms : Nat) (s : State) : (setLease ms s).t2 = s.t2 := by rfl
@[simp] theorem setLease_acq (ms : Nat) (s : State) : (setLease ms s).acq = s.acq := by rfl
@[simp] theorem setLease_eng (ms : Nat) (s : State) : (setLease ms s).eng = s.eng := by rfl
@[simp] theorem setLease_grid (ms : Nat) (s : State) : (setLease ms s).grid = s.grid := by rfl
@[simp] theorem setLease_fab (ms : Nat) (s : State) : (setLease ms s).fab = s.fab := by rfl
@[simp] theorem setLease_flt (ms : Nat) (s : State) : (setLease ms s).flt = s.flt := by rfl
@[simp] theorem setLease_upd (ms : Nat) (s : State) : (setLease ms s).upd = s.upd := by rfl
@[simp] theorem setLease_pwr (ms : Nat) (s : State) : (setLease ms s).pwr = s.pwr := by rfl
@[simp] theorem setLease_images (ms : Nat) (s : State) : (setLease ms s).images = s.images := by rfl
@[simp] theorem setLease_restoring (ms : Nat) (s : State) : (setLease ms s).restoring = s.restoring := by rfl
@[simp] theorem setLease_free (ms : Nat) (s : State) : (setLease ms s).free = s.free := by rfl
@[simp] theorem setStream_part (m : Nat) (x : Stream) (s : State) : (setStream m x s).part = s.part := by rfl
@[simp] theorem setStream_dev (m : Nat) (x : Stream) (s : State) : (setStream m x s).dev = s.dev := by rfl
@[simp] theorem setStream_regs (m : Nat) (x : Stream) (s : State) : (setStream m x s).regs = s.regs := by rfl
@[simp] theorem setStream_ctl (m : Nat) (x : Stream) (s : State) : (setStream m x s).ctl = s.ctl := by rfl
@[simp] theorem setStream_host (m : Nat) (x : Stream) (s : State) : (setStream m x s).host = s.host := by rfl
@[simp] theorem setStream_time (m : Nat) (x : Stream) (s : State) : (setStream m x s).time = s.time := by rfl
@[simp] theorem setStream_fe (m : Nat) (x : Stream) (s : State) : (setStream m x s).fe = s.fe := by rfl
@[simp] theorem setStream_comb (m : Nat) (x : Stream) (s : State) : (setStream m x s).comb = s.comb := by rfl
@[simp] theorem setStream_t2 (m : Nat) (x : Stream) (s : State) : (setStream m x s).t2 = s.t2 := by rfl
@[simp] theorem setStream_eng (m : Nat) (x : Stream) (s : State) : (setStream m x s).eng = s.eng := by rfl
@[simp] theorem setStream_grid (m : Nat) (x : Stream) (s : State) : (setStream m x s).grid = s.grid := by rfl
@[simp] theorem setStream_fab (m : Nat) (x : Stream) (s : State) : (setStream m x s).fab = s.fab := by rfl
@[simp] theorem setStream_flt (m : Nat) (x : Stream) (s : State) : (setStream m x s).flt = s.flt := by rfl
@[simp] theorem setStream_upd (m : Nat) (x : Stream) (s : State) : (setStream m x s).upd = s.upd := by rfl
@[simp] theorem setStream_pwr (m : Nat) (x : Stream) (s : State) : (setStream m x s).pwr = s.pwr := by rfl
@[simp] theorem setStream_images (m : Nat) (x : Stream) (s : State) : (setStream m x s).images = s.images := by rfl
@[simp] theorem setStream_restoring (m : Nat) (x : Stream) (s : State) : (setStream m x s).restoring = s.restoring := by rfl
@[simp] theorem setStream_free (m : Nat) (x : Stream) (s : State) : (setStream m x s).free = s.free := by rfl

end Sys2Proof.Machine
end

