-- ==== Sys2Proof/Laws/Commands.lean ====
section
/-!
SUPPORT. The path of a command packet: what an accepted control command and a served observe command do, once for all of them.
-/

namespace Sys2Proof.Machine

open Sys2Proof.Claims

theorem sendReply_host (r : Reply) (s : State) : (sendReply r s).host = { s.host with out := (sendReply r s).host.out } := by
  unfold sendReply; split <;> rfl
theorem sendReply_fab (r : Reply) (s : State) : (sendReply r s).fab = { s.fab with out2 := (sendReply r s).fab.out2 } := by
  unfold sendReply; split <;> rfl
@[simp] theorem sendReply_jnext (r : Reply) (s : State) : (sendReply r s).ctl.jnext = s.ctl.jnext := by
  unfold sendReply; split <;> rfl
@[simp] theorem sendReply_journal (r : Reply) (s : State) : (sendReply r s).ctl.journal = s.ctl.journal := by
  unfold sendReply; split <;> rfl

theorem path_refl (s : State) : Traces s s := rfl

theorem path_trans {s t u : State} (h : Traces s t) (k : Traces t u) : Traces s u := by
  unfold Traces at *
  rw [k, h]

theorem path_seeRaw (r : Nat) (s : State) : Traces s (seeRaw r s) := rfl
theorem path_seeSeq (h : Hdr) (s : State) : Traces s (seeSeq h s) := rfl
theorem path_untake (h : Hdr) (s : State) : Traces s (untake h s) := by unfold untake; split <;> rfl
theorem path_renewLease (h : Hdr) (s : State) : Traces s (renewLease h s) := by unfold renewLease; split <;> rfl
theorem path_journalAdd (e : JEntry) (s : State) : Traces s (journalAdd e s) := rfl
theorem path_journalUpd (j : Nat) (f : JEntry → JEntry) (s : State) : Traces s (journalUpd j f s) := rfl
theorem path_cacheReply (r : Reply) (s : State) : Traces s (cacheReply r s) := rfl
theorem path_logAdd (e : LogEntry) (s : State) : Traces s (logAdd e s) := by unfold logAdd; split <;> rfl
theorem path_logDone (eff : Eff) (op : Nat) (h : Hdr) (j st : Nat) (s : State) : Traces s (logDone eff op h j st s) := by
  unfold logDone; split
  · exact path_logAdd _ _
  · rfl
theorem path_sendReply (r : Reply) (s : State) : Traces s (sendReply r s) := by unfold sendReply; split <;> rfl
theorem path_finishEff (eff : Eff) (op : Nat) (h : Hdr) (j st d : Nat) (res jres : List Byte) (s : State) :
    Traces s (finishEff eff op h j st d res jres s) :=
  path_trans (path_trans (path_logDone _ _ _ _ _ _) (path_journalUpd _ _ _)) (path_trans (path_cacheReply _ _) (path_sendReply _ _))

theorem path_begun (op : Nat) (h : Hdr) (s : State) : Traces s (begun op h s) :=
  path_trans (path_trans (path_trans (path_seeRaw _ _) (path_untake _ _)) (path_seeSeq _ _)) (path_trans (path_renewLease _ _) (path_journalAdd _ _))

@[simp] theorem begun_part (op : Nat) (h : Hdr) (s : State) : (begun op h s).part = s.part := by rw [path_begun op h s]
@[simp] theorem begun_dev (op : Nat) (h : Hdr) (s : State) : (begun op h s).dev = s.dev := by rw [path_begun op h s]
@[simp] theorem begun_regs (op : Nat) (h : Hdr) (s : State) : (begun op h s).regs = s.regs := by rw [path_begun op h s]

theorem journalAdd_head (e : JEntry) (s : State) : ∃ x, (journalAdd e s).ctl.journal.head? = some x ∧ x.jseq = s.ctl.jnext ∧
    x.source = e.source ∧ x.cseq = e.cseq ∧ x.opcode = e.opcode ∧ x.status = e.status ∧ x.final = e.final :=
  ⟨_, rfl, rfl, rfl, rfl, rfl, rfl, rfl⟩

theorem begun_head (op : Nat) (h : Hdr) (s : State) : ∃ e, (begun op h s).ctl.journal.head? = some e ∧ e.jseq = s.ctl.jnext ∧
    e.source = srcOf h ∧ e.cseq = h.seq ∧ e.opcode = op ∧ e.status = 0 ∧ e.final = false := by
  have hj : (renewLease h (seeSeq h (untake h (seeRaw h.stamp s)))).ctl.jnext = s.ctl.jnext := by
    unfold renewLease untake; split <;> split <;> rfl
  have := journalAdd_head (cmdEntry op h false 0 []) (renewLease h (seeSeq h (untake h (seeRaw h.stamp s))))
  rw [hj] at this
  exact this

theorem begun_pdigest (op : Nat) (h : Hdr) (s : State) :
    ∃ e, (begun op h s).ctl.journal.head? = some e ∧ e.pdigest = slice 0 16 (sha3 h.raw) := ⟨_, rfl, rfl⟩

theorem begun_jnext (op : Nat) (h : Hdr) (s : State) : (begun op h s).ctl.jnext = s.ctl.jnext + 1 := by
  unfold begun journalAdd renewLease untake; dsimp only; split <;> split <;> rfl

theorem formOk_of (c : CmdSpec) (h : Hdr) (h1 : h.ok = true ∧ h.raw.length ≤ 4064 ∧ (h.transport = 1 → h.indirect = false))
    (hb : Carried c.bc h) : formOk c h = true := by
  obtain ⟨h2, h3, h4⟩ := h1
  unfold formOk
  simp only [h2, h3, decide_true, Bool.and_self, Bool.true_and, Bool.and_eq_true, Bool.not_eq_true']
  constructor
  · by_cases ht : h.transport = 1
    · simp [ht, h4 ht]
    · simp [ht]
  · by_cases ht : h.transport = 3
    · have := hb ht; simp only [ht, this.1]; simpa using this.2
    · simp [ht]

/-- An accepted control command: its own checks and effect run on the state begun. -/
theorem control_reach (c : CmdSpec) (h : Hdr) (act : Nat → State → Act) (s : State)
    (ha : Accepted c.op c.states c.anyone c.cfg h s) (hb : Carried c.bc h) :
    control c h act s = controlEnd c h (renewLease h (seeSeq h (untake h (seeRaw h.stamp s)))) (act s.ctl.jnext (begun c.op h s)) := by
  obtain ⟨h1, hform, h5, h6, h7, h8, h9⟩ := ha
  have hf : formOk c h = true := formOk_of c h hform hb
  have hd : (renewLease h (seeSeq h (untake h (seeRaw h.stamp s)))).dev = s.dev := by simp
  have hu : (renewLease h (seeSeq h (untake h (seeRaw h.stamp s)))).upd = s.upd := by simp
  have hq : (renewLease h (seeSeq h (untake h (seeRaw h.stamp s)))).acq = s.acq := by simp
  have hh : (renewLease h (seeSeq h (untake h (seeRaw h.stamp s)))).ctl.holder = s.ctl.holder := by
    unfold renewLease untake; split <;> split <;> rfl
  have hj : (renewLease h (seeSeq h (untake h (seeRaw h.stamp s)))).ctl.jnext = s.ctl.jnext := by
    unfold renewLease untake; split <;> split <;> rfl
  have hw : seqCase (winAt (untake h (seeRaw h.stamp s)) (srcOf h)) h.seq = .new := by
    rw [← h5]; unfold untake; split <;> rfl
  have hg : gate c h (renewLease h (seeSeq h (untake h (seeRaw h.stamp s)))) = none := by
    unfold gate owns replaying
    rw [hd, hu, hq, hh, hf]
    have e1 : (!c.anyone && !(s.ctl.holder == some (srcOf h))) = false := by rcases h6 with h6 | h6 <;> simp [h6]
    have e3 : (s.upd.overlay && (c.op / 256 == 2 || c.op / 256 == 6 || c.op / 256 == 7)) = false := by
      cases ho : s.upd.overlay
      · rfl
      · have := h8 ho; simp [this.1, this.2.1, this.2.2]
    have e4 : (c.cfg && s.acq.replay.running) = false := by
      cases hc : c.cfg
      · rfl
      · simp [h9 hc]
    simp [e1, e3, e4, h7]
  unfold control
  simp only [h1, if_false, hf, if_true, hw, hg, hj]
  rfl

theorem pre_jnext (h : Hdr) (s : State) : (renewLease h (seeSeq h (untake h (seeRaw h.stamp s)))).ctl.jnext = s.ctl.jnext := by
  unfold renewLease untake; split <;> split <;> rfl

/-- What an accepted control command does when its own part does not fail. -/
theorem control_accepted (c : CmdSpec) (h : Hdr) (act : Nat → State → Act) (s : State)
    (ha : Accepted c.op c.states c.anyone c.cfg h s) (hb : Carried c.bc h) (hs : (act s.ctl.jnext (begun c.op h s)).status = 0) :
    control c h act s =
      (let a := act s.ctl.jnext (begun c.op h s)
       let s2 := if h.notify then sendReply { mkReply c.op h (some s.ctl.jnext) 0 0 [] with final := false } a.s else a.s
       if a.wait then s2 else finishEff a.eff c.op h s.ctl.jnext 0 a.detail a.result (a.jres.getD a.result) s2) := by
  rw [control_reach c h act s ha hb]
  generalize act s.ctl.jnext (begun c.op h s) = a at *
  unfold controlEnd
  rw [pre_jnext, if_neg (by rw [hs]; decide)]

theorem sendReply_last (r : Reply) (s : State) (h : r.source / 2 ^ 28 = 0) : (sendReply r s).ctl.replies.getLast? = some r := by
  unfold sendReply; rw [h]; simp

theorem srcOf_transport (h : Hdr) (ht : h.transport = 0) : srcOf h / 2 ^ 28 = 0 := by
  unfold srcOf; rw [ht]; omega

theorem finishEff_jnext (eff : Eff) (op : Nat) (h : Hdr) (j st d : Nat) (res jres : List Byte) (s : State) :
    (finishEff eff op h j st d res jres s).ctl.jnext = s.ctl.jnext := by
  simp [finishEff, cacheReply, journalUpd]

theorem finishEff_journal (eff : Eff) (op : Nat) (h : Hdr) (j st d : Nat) (res jres : List Byte) (s : State) :
    (finishEff eff op h j st d res jres s).ctl.journal = s.ctl.journal.map fun e => if e.jseq = j then entryDone st d jres e else e := by
  simp [finishEff, cacheReply, journalUpd]

/-- An accepted command that ends at once: what it leaves, from what its effect leaves. -/
theorem control_done (c : CmdSpec) (h : Hdr) (act : Nat → State → Act) (s E : State)
    (ha : Accepted c.op c.states c.anyone c.cfg h s) (hb : Carried c.bc h) (hs : (act s.ctl.jnext (begun c.op h s)).status = 0)
    (hd : (act s.ctl.jnext (begun c.op h s)).detail = 0) (hw : (act s.ctl.jnext (begun c.op h s)).wait = false)
    (hE : Traces E (act s.ctl.jnext (begun c.op h s)).s)
    (hj : (act s.ctl.jnext (begun c.op h s)).s.ctl.journal = (begun c.op h s).ctl.journal)
    (hn : (act s.ctl.jnext (begun c.op h s)).s.ctl.jnext = (begun c.op h s).ctl.jnext) :
    ∃ t, goes (control c h act s) = .next t ∧ Traces E t ∧ Journaled c.op h true s t ∧
      (h.transport = 0 → t.ctl.replies.getLast? = some (mkReply c.op h (some s.ctl.jnext) 0 0 (act s.ctl.jnext (begun c.op h s)).result)) := by
  refine ⟨_, rfl, ?_⟩
  rw [control_accepted c h act s ha hb hs]
  generalize act s.ctl.jnext (begun c.op h s) = a at *
  simp only [hw, Bool.false_eq_true, if_false, hd]
  have h2 : Traces a.s (if h.notify = true then sendReply { mkReply c.op h (some s.ctl.jnext) 0 0 [] with final := false } a.s else a.s) := by
    split
    · exact path_sendReply _ _
    · exact path_refl _
  have h3 : (if h.notify = true then sendReply { mkReply c.op h (some s.ctl.jnext) 0 0 [] with final := false } a.s else a.s).ctl.journal
      = (begun c.op h s).ctl.journal := by
    split
    · rw [sendReply_journal]; exact hj
    · exact hj
  have h4 : (if h.notify = true then sendReply { mkReply c.op h (some s.ctl.jnext) 0 0 [] with final := false } a.s else a.s).ctl.jnext
      = s.ctl.jnext + 1 := by
    split
    · rw [sendReply_jnext, ← begun_jnext c.op h s]; exact hn
    · rw [← begun_jnext c.op h s]; exact hn
  generalize (if h.notify = true then sendReply { mkReply c.op h (some s.ctl.jnext) 0 0 [] with final := false } a.s else a.s) = u at *
  refine ⟨path_trans (path_trans hE h2) (path_finishEff _ _ _ _ _ _ _ _ _), ⟨by rw [finishEff_jnext, h4], ?_⟩, fun ht => ?_⟩
  · obtain ⟨e, he, h5, h6, h7, h8, h9, -⟩ := begun_head c.op h s
    rw [finishEff_journal, List.head?_map, h3, he]
    refine ⟨_, rfl, ?_⟩
    simp [h5, h6, h7, h8, entryDone]
  · exact sendReply_last _ _ (srcOf_transport h ht)

theorem path_readBy (h : Hdr) (s : State) : Traces s (readBy h s) :=
  path_trans (path_trans (path_seeRaw _ _) (path_untake _ _)) (path_seeSeq _ _)

theorem readBy_journal (h : Hdr) (s : State) : (readBy h s).ctl.journal = s.ctl.journal ∧ (readBy h s).ctl.jnext = s.ctl.jnext := by
  unfold readBy untake; split <;> exact ⟨rfl, rfl⟩

/-- A served observe command: what it leaves, from what its own part leaves. -/
theorem observe_answers (c : CmdSpec) (h : Hdr) (act : State → Act) (s E : State) (ho : Observed c.states h s) (hb : Carried c.bc h)
    (hs : (act (readBy h s)).status = 0) (hd : (act (readBy h s)).detail = 0) (hw : (act (readBy h s)).wait = false)
    (hE : Traces E (act (readBy h s)).s) (hj : (act (readBy h s)).s.ctl.journal = (readBy h s).ctl.journal)
    (hn : (act (readBy h s)).s.ctl.jnext = (readBy h s).ctl.jnext) :
    ∃ t, goes (observe c h act s) = .next t ∧ Traces E t ∧ t.ctl.journal = s.ctl.journal ∧ t.ctl.jnext = s.ctl.jnext ∧
      (h.transport = 0 → t.ctl.replies.getLast? = some (mkReply c.op h none 0 0 (act (readBy h s)).result)) := by
  obtain ⟨h1, h2, h3, h4⟩ := ho
  have hf := formOk_of c h h2 hb
  have hw' : winAt (untake h (seeRaw h.stamp s)) (srcOf h) = winAt s (srcOf h) := by unfold untake; split <;> rfl
  have hst : (readBy h s).dev = s.dev := by simp [readBy]
  have ho : seeSeq h (untake h (seeRaw h.stamp s)) = readBy h s := rfl
  have e2 : c.states.contains s.dev.st = true := by simpa using h4
  have he : observe c h act s = sendReply (mkReply c.op h none 0 0 (act (readBy h s)).result) (act (readBy h s)).s := by
    unfold observe
    simp only [h1, if_false, hf, Bool.not_true, Bool.false_eq_true, hw', hst, ho]
    generalize seqCase (winAt s (srcOf h)) h.seq = q at *
    cases q
    · simp [h4, hw, hs, hd]
    · simp [h4, hw, hs, hd]
    · exact absurd rfl h3
  refine ⟨_, rfl, ?_⟩
  rw [he]
  refine ⟨path_trans hE (path_sendReply _ _), ?_, ?_, fun ht => sendReply_last _ _ (srcOf_transport h ht)⟩
  · rw [sendReply_journal, hj, (readBy_journal h s).1]
  · rw [sendReply_jnext, hn, (readBy_journal h s).2]

/-- The same, from the result of the command's own part. -/
theorem observe_with (c : CmdSpec) (h : Hdr) (act : State → Act) (s E E' : State) (R : List Byte) (ho : Observed c.states h s)
    (hb : Carried c.bc h) (ha : act (readBy h s) = { s := E', result := R }) (hE : Traces E E')
    (hj : E'.ctl.journal = (readBy h s).ctl.journal) (hn : E'.ctl.jnext = (readBy h s).ctl.jnext) :
    ∃ t, goes (observe c h act s) = .next t ∧ Traces E t ∧ t.ctl.journal = s.ctl.journal ∧ t.ctl.jnext = s.ctl.jnext ∧
      (h.transport = 0 → t.ctl.replies.getLast? = some (mkReply c.op h none 0 0 R)) := by
  have := observe_answers c h act s E ho hb
  rw [ha] at this
  exact this rfl rfl rfl hE hj hn

theorem control_with (c : CmdSpec) (h : Hdr) (act : Nat → State → Act) (s E E' : State) (R : List Byte) (jr : Option (List Byte)) (eff : Eff)
    (hacc : Accepted c.op c.states c.anyone c.cfg h s) (hb : Carried c.bc h)
    (ha : act s.ctl.jnext (begun c.op h s) = { s := E', result := R, jres := jr, eff := eff }) (hE : Traces E E')
    (hj : E'.ctl.journal = (begun c.op h s).ctl.journal) (hn : E'.ctl.jnext = (begun c.op h s).ctl.jnext) :
    ∃ t, goes (control c h act s) = .next t ∧ Traces E t ∧ Journaled c.op h true s t ∧
      (h.transport = 0 → t.ctl.replies.getLast? = some (mkReply c.op h (some s.ctl.jnext) 0 0 R)) := by
  have := control_done c h act s E hacc hb
  rw [ha] at this
  exact this rfl rfl rfl hE hj hn

/-- An accepted command that waits. -/
theorem control_waits (c : CmdSpec) (h : Hdr) (act : Nat → State → Act) (s F E' : State) (R : List Byte) (jr : Option (List Byte)) (eff : Eff)
    (hacc : Accepted c.op c.states c.anyone c.cfg h s) (hb : Carried c.bc h)
    (ha : act s.ctl.jnext (begun c.op h s) = { s := E', result := R, jres := jr, eff := eff, wait := true }) (hE : Traces F E')
    (hj : E'.ctl.journal = (begun c.op h s).ctl.journal) (hn : E'.ctl.jnext = (begun c.op h s).ctl.jnext) :
    ∃ t, goes (control c h act s) = .next t ∧ Traces F t ∧ Journaled c.op h false s t := by
  refine ⟨_, rfl, ?_⟩
  rw [control_accepted c h act s hacc hb (by rw [ha]), ha]
  simp only [if_true]
  obtain ⟨e, he, h5, h6, h7, h8, h9, h10⟩ := begun_head c.op h s
  split
  · exact ⟨path_trans hE (path_sendReply _ _), by rw [sendReply_jnext, hn, begun_jnext], e, by rw [sendReply_journal, hj]; exact he, h5, h6, h7, h8, h9, h10⟩
  · exact ⟨hE, by rw [hn, begun_jnext], e, by rw [hj]; exact he, h5, h6, h7, h8, h9, h10⟩

theorem readBy_eq {α : Type} (h : Hdr) (s : State) (f : State → α) (hf : ∀ t, Traces s t → f t = f s) : f (readBy h s) = f s := hf _ (path_readBy h s)
theorem begun_eq {α : Type} (op : Nat) (h : Hdr) (s : State) (f : State → α) (hf : ∀ t, Traces s t → f t = f s) : f (begun op h s) = f s :=
  hf _ (path_begun op h s)

theorem control_of (i : Instr) (c : CmdSpec) (h : Hdr) (hc : commandOf i = some (true, c, h)) :
    ∃ act, ∀ s, exec i s = goes (control c h act s) := by
  cases i
  case registerWrite via e => 
    cases via
    · simp [commandOf] at hc
    · simp only [commandOf, Option.some.injEq, Prod.mk.injEq, true_and] at hc; obtain ⟨rfl, rfl⟩ := hc; exact ⟨_, fun s => rfl⟩
  case fabricForward h d b =>
    simp only [commandOf, Option.some.injEq, Prod.mk.injEq] at hc
    obtain ⟨h1, rfl, rfl⟩ := hc
    refine ⟨forwardAct h d b, fun s => ?_⟩
    · show goes (if observeOps.contains (unle (slice 2 2 b)) then _ else _) = _
      rw [if_neg (by simpa using h1)]
  all_goals first
    | (simp only [commandOf, Option.some.injEq, Prod.mk.injEq, true_and] at hc; obtain ⟨rfl, rfl⟩ := hc; exact ⟨_, fun s => rfl⟩)
    | (simp only [commandOf, Option.some.injEq, Prod.mk.injEq, Bool.false_eq_true, false_and, reduceCtorEq] at hc)

theorem formOk_iff (c : CmdSpec) (h : Hdr) : formOk c h = true ↔ Formed c h := by
  constructor
  · intro hf
    unfold formOk at hf
    simp only [Bool.and_eq_true, decide_eq_true_eq, Bool.not_eq_true', Bool.and_eq_false_imp, beq_iff_eq, Bool.or_eq_false_iff, decide_eq_false_iff_not, Bool.not_eq_false'] at hf
    obtain ⟨⟨⟨h1, h2⟩, h3⟩, h4⟩ := hf
    exact ⟨⟨h1, h2, h3⟩, fun ht => ⟨(h4 ht).1, by have := (h4 ht).2; omega⟩⟩
  · intro hf; exact formOk_of c h hf.1 hf.2

theorem refuse_refused (op : Nat) (h : Hdr) (st d : Nat) (res : List Byte) (s u : State) (hu : Traces s u) (hj : u.ctl.jnext = s.ctl.jnext)
   (hd : d < 2^32) :
    ∃ t, goes (refuse op h st d res u) = .next t ∧ Traces s t ∧ t.ctl.jnext = s.ctl.jnext + 1 ∧
    (∃ e, t.ctl.journal.head? = some e ∧ e.jseq = s.ctl.jnext ∧ e.source = srcOf h ∧ e.cseq = h.seq ∧ e.opcode = op ∧
      e.status = st ∧ e.final = true ∧ e.result = le 4 d ++ le 4 0) ∧
    (h.transport = 0 → t.ctl.replies.getLast? = some (mkReply op h (some s.ctl.jnext) st d res)) := by
  refine ⟨_, rfl, path_trans (path_trans hu (path_journalAdd _ _)) (path_trans (path_cacheReply _ _) (path_sendReply _ _)), ?_, ?_, ?_⟩
  · unfold refuse; rw [sendReply_jnext]; show u.ctl.jnext + 1 = _; rw [hj]
  · unfold refuse; rw [sendReply_journal]
    refine ⟨_, rfl, hj, rfl, rfl, rfl, rfl, rfl, ?_⟩
    show slice 0 8 (le 4 d) = le 4 d ++ le 4 0
    simp [slice, le, List.replicate]
  · intro ht; unfold refuse; rw [hj]; exact sendReply_last _ _ (srcOf_transport h ht)

theorem win_untake (h : Hdr) (r : Nat) (s : State) : winAt (untake h (seeRaw r s)) (srcOf h) = winAt s (srcOf h) := by
  unfold untake; split <;> rfl

theorem pre_path (h : Hdr) (s : State) : Traces s (renewLease h (seeSeq h (untake h (seeRaw h.stamp s)))) :=
  path_trans (path_trans (path_trans (path_seeRaw _ _) (path_untake _ _)) (path_seeSeq _ _)) (path_renewLease _ _)
theorem pre_ctl (h : Hdr) (s : State) : (renewLease h (seeSeq h (untake h (seeRaw h.stamp s)))).ctl.jnext = s.ctl.jnext ∧
   (renewLease h (seeSeq h (untake h (seeRaw h.stamp s)))).ctl.holder = s.ctl.holder := by
  unfold renewLease untake; split <;> split <;> exact ⟨rfl, rfl⟩

theorem control_gate (c : CmdSpec) (h : Hdr) (act : Nat → State → Act) (s : State) (st d : Nat) (h1 : s.dev.st ≠ .off) (hf : formOk c h = true)
    (hw : seqCase (winAt s (srcOf h)) h.seq = .new) (hg : gate c h (renewLease h (seeSeq h (untake h (seeRaw h.stamp s)))) = some (st, d)) :
    control c h act s = refuse c.op h st d (if st = stNotOwner then c.denied.2 else []) (renewLease h (seeSeq h (untake h (seeRaw h.stamp s)))) := by
  unfold control
  simp only [h1, if_false, hf, if_true, win_untake, hw, hg]
/-- DETAIL of a command turned away for want of control (R196, R375). -/
theorem commandOf_denied (i : Instr) (c : CmdSpec) (h : Hdr) (hc : commandOf i = some (true, c, h)) : c.denied.1 < 2 ^ 32 := by
  cases i
  case registerWrite via e =>
    cases via
    · simp [commandOf] at hc
    · simp only [commandOf, Option.some.injEq, Prod.mk.injEq, true_and] at hc; obtain ⟨rfl, rfl⟩ := hc; decide
  case fabricForward h d b =>
    simp only [commandOf, Option.some.injEq, Prod.mk.injEq] at hc
    obtain ⟨h1, rfl, rfl⟩ := hc
    decide
  all_goals first
    | (simp only [commandOf, Option.some.injEq, Prod.mk.injEq, true_and] at hc; obtain ⟨rfl, rfl⟩ := hc; exact (by decide : (0 : Nat) < 2 ^ 32))
    | (simp only [commandOf, Option.some.injEq, Prod.mk.injEq, true_and] at hc; obtain ⟨rfl, rfl⟩ := hc; exact (by decide : (1 : Nat) < 2 ^ 32))
    | (simp only [commandOf, Option.some.injEq, Prod.mk.injEq, Bool.false_eq_true, false_and, reduceCtorEq] at hc)
theorem observe_of (i : Instr) (c : CmdSpec) (h : Hdr) (hc : commandOf i = some (false, c, h)) :
    ∃ act, ∀ s, exec i s = goes (observe c h act s) := by
  cases i
  case registerWrite via e => cases via <;> simp [commandOf] at hc
  case fabricForward h d b =>
    simp only [commandOf, Option.some.injEq, Prod.mk.injEq] at hc
    obtain ⟨h1, rfl, rfl⟩ := hc
    refine ⟨forwardAct h d b 0, fun s => ?_⟩
    · show goes (if observeOps.contains (unle (slice 2 2 b)) then _ else _) = _
      rw [if_pos (by simpa using h1)]
  all_goals first
    | (simp only [commandOf, Option.some.injEq, Prod.mk.injEq, true_and] at hc; obtain ⟨rfl, rfl⟩ := hc; exact ⟨_, fun s => rfl⟩)
    | (simp only [commandOf, Option.some.injEq, Prod.mk.injEq, Bool.true_eq_false, false_and, reduceCtorEq] at hc)
theorem answerDup_path (op : Nat) (h : Hdr) (s : State) : Traces s (answerDup op h s) := by
  unfold answerDup
  split
  · exact path_refl _
  · exact path_trans (path_journalUpd _ _ _) (path_sendReply _ _)
theorem observe_bad (c : CmdSpec) (h : Hdr) (act : State → Act) (s : State) (st : Nat) (h1 : s.dev.st ≠ .off)
  (hq : (¬ Formed c h ∧ st = 3) ∨ (Formed c h ∧ seqCase (winAt s (srcOf h)) h.seq = .below ∧ st = 3) ∨
        (Formed c h ∧ seqCase (winAt s (srcOf h)) h.seq ≠ .below ∧ s.dev.st ∉ c.states ∧ st = 2)) :
  ∃ u, Traces s u ∧ u.ctl.journal = s.ctl.journal ∧ u.ctl.jnext = s.ctl.jnext ∧ u.ctl.holder = s.ctl.holder ∧ u.ctl.waiting = s.ctl.waiting ∧
    observe c h act s = sendReply (mkReply c.op h none st 0 []) u := by
  have hu : Traces s (untake h (seeRaw h.stamp s)) := path_trans (path_seeRaw _ _) (path_untake _ _)
  have hu2 : (untake h (seeRaw h.stamp s)).ctl.journal = s.ctl.journal ∧ (untake h (seeRaw h.stamp s)).ctl.jnext = s.ctl.jnext ∧ 
    (untake h (seeRaw h.stamp s)).ctl.holder = s.ctl.holder ∧ (untake h (seeRaw h.stamp s)).ctl.waiting = s.ctl.waiting := by
    unfold untake; split <;> exact ⟨rfl, rfl, rfl, rfl⟩
  rcases hq with ⟨hf, rfl⟩ | ⟨hf, hw, rfl⟩ | ⟨hf, hw, hs, rfl⟩
  · have hf : formOk c h = false := by
      cases hx : formOk c h
      · rfl
      · exact absurd ((formOk_iff c h).1 hx) hf
    refine ⟨_, hu, hu2.1, hu2.2.1, hu2.2.2.1, hu2.2.2.2, ?_⟩
    unfold observe; simp [h1, hf, stParam]
  · refine ⟨_, hu, hu2.1, hu2.2.1, hu2.2.2.1, hu2.2.2.2, ?_⟩
    unfold observe; simp [h1, (formOk_iff c h).2 hf, stParam, win_untake, hw]
  · refine ⟨seeSeq h (untake h (seeRaw h.stamp s)), path_trans hu (path_seeSeq _ _), hu2.1, hu2.2.1, hu2.2.2.1, hu2.2.2.2, ?_⟩
    have hst : (seeSeq h (untake h (seeRaw h.stamp s))).dev.st = s.dev.st := by rw [path_trans hu (path_seeSeq h _)]
    unfold observe; simp only [h1, (formOk_iff c h).2 hf, win_untake, hst]
    generalize seqCase (winAt s (srcOf h)) h.seq = q at *
    cases q <;> simp_all [stState]

/-- An accepted command that ends at once, with any facts about where its effect leads. -/
theorem control_ends (c : CmdSpec) (h : Hdr) (act : Nat → State → Act) (s E' : State) (R : List Byte) (jr : Option (List Byte)) (eff : Eff)
    (hacc : Accepted c.op c.states c.anyone c.cfg h s) (hb : Carried c.bc h)
    (ha : act s.ctl.jnext (begun c.op h s) = { s := E', result := R, jres := jr, eff := eff })
    (hj : ∃ e, E'.ctl.journal.head? = some e ∧ e.jseq = s.ctl.jnext ∧ e.source = srcOf h ∧ e.cseq = h.seq ∧ e.opcode = c.op)
    (hn : E'.ctl.jnext = s.ctl.jnext + 1) :
    ∃ t, goes (control c h act s) = .next t ∧ Traces E' t ∧ t.ctl.wins = E'.ctl.wins ∧ t.ctl.leaseAt = E'.ctl.leaseAt ∧ t.time = E'.time ∧ Journaled c.op h true s t ∧
      (h.transport = 0 → t.ctl.replies.getLast? = some (mkReply c.op h (some s.ctl.jnext) 0 0 R)) := by
  refine ⟨_, rfl, ?_⟩
  rw [control_accepted c h act s hacc hb (by rw [ha]), ha]
  simp only [Bool.false_eq_true, if_false]
  have hsr : ∀ r u, (sendReply r u).ctl.wins = u.ctl.wins ∧ (sendReply r u).ctl.leaseAt = u.ctl.leaseAt ∧ (sendReply r u).time = u.time := by
    intro r u; unfold sendReply; split <;> exact ⟨rfl, rfl, rfl⟩
  have h2 : ∃ u, Traces E' u ∧ u.ctl.journal = E'.ctl.journal ∧ u.ctl.jnext = E'.ctl.jnext ∧ u.ctl.wins = E'.ctl.wins ∧ u.ctl.leaseAt = E'.ctl.leaseAt ∧ u.time = E'.time ∧
    (if h.notify = true then sendReply { mkReply c.op h (some s.ctl.jnext) 0 0 [] with final := false } E' else E') = u := by
    refine ⟨_, ?_, ?_, ?_, ?_, ?_, ?_, rfl⟩
    all_goals split
    all_goals first | rfl | exact path_refl _ | exact path_sendReply _ _ | simp [(hsr _ _).1, (hsr _ _).2.1, (hsr _ _).2.2]
  obtain ⟨u, p1, p2, p3, p4, p5, p6, p7⟩ := h2
  rw [p7]
  have hw : ∀ st res jres, (finishEff eff c.op h s.ctl.jnext st 0 res jres u).ctl.wins = u.ctl.wins ∧ (finishEff eff c.op h s.ctl.jnext st 0 res jres u).ctl.leaseAt = u.ctl.leaseAt ∧
     (finishEff eff c.op h s.ctl.jnext st 0 res jres u).time = u.time := by
    intro st res jres; unfold finishEff; simp only [hsr]
    unfold cacheReply journalUpd logDone logCmd logAdd
    split <;> (try split) <;> exact ⟨rfl, rfl, rfl⟩
  refine ⟨path_trans p1 (path_finishEff _ _ _ _ _ _ _ _ _), by rw [(hw _ _ _).1, p4], by rw [(hw _ _ _).2.1, p5], by rw [(hw _ _ _).2.2, p6], ⟨by rw [finishEff_jnext, p3, hn], ?_⟩, fun ht => sendReply_last _ _ (srcOf_transport h ht)⟩
  rw [finishEff_journal, p2]
  obtain ⟨e, he, q1, q2, q3, q4⟩ := hj
  refine ⟨_, by rw [List.head?_map, he]; rfl, ?_⟩
  simp [q1, q2, q3, q4, entryDone]

theorem control_fails (c : CmdSpec) (h : Hdr) (act : Nat → State → Act) (s : State) (st d : Nat) (R : List Byte) (i : Instr)
    (hacc : Accepted c.op c.states c.anyone c.cfg h s) (hb : Carried c.bc h)
    (hi : exec i s = goes (control c h act s))
    (h0 : (act s.ctl.jnext (begun c.op h s)).status = st) (h1 : (act s.ctl.jnext (begun c.op h s)).detail = d) (h2 : (act s.ctl.jnext (begun c.op h s)).result = R)
    (h3 : (act s.ctl.jnext (begun c.op h s)).keep = false) (hst0 : st ≠ 0) (hd : d < 2 ^ 32) :
    Refused c.op h st d R s i := by
  unfold Refused; rw [hi]
  have hp := pre_path h s
  have hpj := pre_ctl h s
  have e : control c h act s = refuse c.op h st d R (renewLease h (seeSeq h (untake h (seeRaw h.stamp s)))) := by
    rw [control_reach c h act s hacc hb]
    generalize act s.ctl.jnext (begun c.op h s) = a at *
    unfold controlEnd
    rw [if_pos (by rw [h0]; exact hst0), if_neg (by rw [h3]; decide), h0, h1, h2]
  rw [e]
  exact refuse_refused _ _ _ _ _ _ _ hp hpj.1 hd

theorem begun_ctl (op : Nat) (h : Hdr) (s : State) : (begun op h s).ctl.holder = s.ctl.holder ∧ (begun op h s).ctl.epoch = s.ctl.epoch ∧ (begun op h s).ctl.waiting = s.ctl.waiting := by
  rw [path_begun op h s]; exact ⟨rfl, rfl, rfl⟩

theorem path_waiting {s t : State} (h : Traces s t) : t.ctl.waiting = s.ctl.waiting := by rw [h]
theorem path_dev {s t : State} (h : Traces s t) : t.dev = s.dev := by rw [h]
/-- An entry keeps what names its command. -/
def SameJ (e e' : JEntry) : Prop := e'.jseq = e.jseq ∧ e'.source = e.source ∧ e'.cseq = e.cseq ∧ e'.opcode = e.opcode ∧ e'.internal = e.internal ∧ e'.pdigest = e.pdigest
theorem same_trans {a b c : JEntry} (h : SameJ a b) (k : SameJ b c) : SameJ a c := ⟨k.1.trans h.1, k.2.1.trans h.2.1, k.2.2.1.trans h.2.2.1, k.2.2.2.1.trans h.2.2.2.1, k.2.2.2.2.1.trans h.2.2.2.2.1, k.2.2.2.2.2.trans h.2.2.2.2.2⟩
/-- The newest entry is of the same command. -/
def HeadSame (l m : List JEntry) : Prop := ∀ e, l.head? = some e → ∃ e', m.head? = some e' ∧ SameJ e e'
theorem head_upd (l : List JEntry) (j : Nat) (f : JEntry → JEntry) (hf : ∀ e, SameJ e (f e)) : HeadSame l (l.map fun e => if e.jseq = j then f e else e) := by
  intro e he
  refine ⟨_, by rw [List.head?_map, he]; rfl, ?_⟩
  show SameJ e (if e.jseq = j then f e else e)
  split
  · exact hf _
  · exact ⟨rfl, rfl, rfl, rfl, rfl, rfl⟩
/-- What the end of one waiting command leaves. -/
structure Expired (w : Nat) (s t : State) : Prop where
  jnext : t.ctl.jnext = s.ctl.jnext
  head : HeadSame s.ctl.journal t.ctl.journal
  waiting : t.ctl.waiting = s.ctl.waiting.filter (fun x => x.jseq != w)
theorem expire_one (w : Waiting) (st : Nat) (s : State) : Expired w.jseq s (finishWait w st s) := by
  unfold finishWait
  constructor
  · exact finishEff_jnext _ _ _ _ _ _ _ _ _
  · rw [finishEff_journal]; exact head_upd _ _ _ (fun e => ⟨rfl, rfl, rfl, rfl, rfl, rfl⟩)
  · exact path_waiting (path_finishEff _ _ _ _ _ _ _ _ _)
theorem expire_fold (l : List Waiting) : ∀ s : State, (l.foldl (fun s w => finishWait w stExpired s) s).ctl.jnext = s.ctl.jnext ∧
   HeadSame s.ctl.journal (l.foldl (fun s w => finishWait w stExpired s) s).ctl.journal ∧
   (∀ x, x ∈ (l.foldl (fun s w => finishWait w stExpired s) s).ctl.waiting → x ∈ s.ctl.waiting ∧ ∀ w ∈ l, x.jseq ≠ w.jseq) := by
  induction l with
  | nil => intro s; exact ⟨rfl, fun e he => ⟨e, he, rfl, rfl, rfl, rfl, rfl, rfl⟩, fun x hx => ⟨hx, by simp⟩⟩
  | cons w l ih =>
    intro s
    have h1 := expire_one w stExpired s
    obtain ⟨i1, i2, i3⟩ := ih (finishWait w stExpired s)
    simp only [List.foldl_cons]
    refine ⟨i1.trans h1.jnext, ?_, ?_⟩
    · intro e he
      obtain ⟨e1, h2, h3⟩ := h1.head e he
      obtain ⟨e2, h4, h5⟩ := i2 e1 h2
      exact ⟨e2, h4, same_trans h3 h5⟩
    · intro x hx
      obtain ⟨h2, h3⟩ := i3 x hx
      rw [h1.waiting] at h2
      simp at h2
      refine ⟨h2.1, ?_⟩
      intro y hy
      rcases List.mem_cons.1 hy with rfl | hy
      · exact h2.2
      · exact h3 y hy
theorem expire_facts (s : State) : (expireWaiting s).ctl.jnext = s.ctl.jnext ∧ HeadSame s.ctl.journal (expireWaiting s).ctl.journal ∧
   (∀ w ∈ (expireWaiting s).ctl.waiting, w.tick = none) := by
  obtain ⟨h1, h2, h3⟩ := expire_fold (s.ctl.waiting.filter fun w => w.tick.isSome) s
  refine ⟨h1, h2, fun w hw => ?_⟩
  obtain ⟨h4, h5⟩ := h3 w hw
  cases ht : w.tick with
  | none => rfl
  | some t => exact absurd rfl (h5 w (List.mem_filter.2 ⟨h4, by simp [ht]⟩))
theorem path_waits {s t : State} (h : Traces s t) (l : List Waiting) : Traces { s with ctl := { s.ctl with waiting := l } } { t with ctl := { t.ctl with waiting := l } } := by
  unfold Traces at *; rw [h]
theorem path_expire_fold (l : List Waiting) : ∀ s : State, ∃ ws, Traces { s with ctl := { s.ctl with waiting := ws } } (l.foldl (fun s w => finishWait w stExpired s) s) := by
  induction l with
  | nil => intro s; exact ⟨s.ctl.waiting, rfl⟩
  | cons w l ih =>
    intro s
    obtain ⟨ws, hws⟩ := ih (finishWait w stExpired s)
    refine ⟨ws, path_trans ?_ hws⟩
    have h1 : Traces (waitOver w.jseq s) (finishWait w stExpired s) := path_finishEff _ _ _ _ _ _ _ _ _
    exact path_waits h1 ws
theorem path_expire (s : State) : ∃ ws, Traces { s with ctl := { s.ctl with waiting := ws } } (expireWaiting s) := path_expire_fold _ s

/-- A command that its own checks accept and that ends at once, whatever its effect journals besides. -/
theorem control_then (c : CmdSpec) (h : Hdr) (act : Nat → State → Act) (s E' : State) (R : List Byte) (jr : Option (List Byte)) (eff : Eff)
    (hacc : Accepted c.op c.states c.anyone c.cfg h s) (hb : Carried c.bc h)
    (ha : act s.ctl.jnext (begun c.op h s) = { s := E', result := R, jres := jr, eff := eff }) :
    ∃ t, goes (control c h act s) = .next t ∧ Traces E' t ∧ t.ctl.jnext = E'.ctl.jnext ∧ HeadSame E'.ctl.journal t.ctl.journal ∧
      (h.transport = 0 → t.ctl.replies.getLast? = some (mkReply c.op h (some s.ctl.jnext) 0 0 R)) := by
  refine ⟨_, rfl, ?_⟩
  rw [control_accepted c h act s hacc hb (by rw [ha]), ha]
  simp only [Bool.false_eq_true, if_false]
  have h2 : ∃ u, Traces E' u ∧ u.ctl.journal = E'.ctl.journal ∧ u.ctl.jnext = E'.ctl.jnext ∧
    (if h.notify = true then sendReply { mkReply c.op h (some s.ctl.jnext) 0 0 [] with final := false } E' else E') = u := by
    refine ⟨_, ?_, ?_, ?_, rfl⟩
    all_goals split
    all_goals first | rfl | exact path_refl _ | exact path_sendReply _ _ | simp
  obtain ⟨u, p1, p2, p3, p7⟩ := h2
  rw [p7]
  refine ⟨path_trans p1 (path_finishEff _ _ _ _ _ _ _ _ _), by rw [finishEff_jnext, p3], ?_, fun ht => sendReply_last _ _ (srcOf_transport h ht)⟩
  rw [finishEff_journal, p2]
  exact head_upd _ _ _ (fun e => ⟨rfl, rfl, rfl, rfl, rfl, rfl⟩)

theorem avs_fold (mv : Nat) (l : List Nat) : ∀ x : State, ∃ out, l.foldl (fun s q => avsSend q mv s) x =
    { x with host := { x.host with out := out }, pwr := { x.pwr with avsMv := l.foldl (fun l q => l.set q mv) x.pwr.avsMv } } := by
  induction l with
  | nil => intro x; exact ⟨x.host.out, rfl⟩
  | cons q l ih =>
    intro x
    obtain ⟨out, h⟩ := ih (avsSend q mv x)
    exact ⟨out, by rw [List.foldl_cons, h]; rfl⟩
theorem railsDown_eq (x : State) : ∃ out, railsDown x =
    { x with host := { x.host with out := out }, pwr := { x.pwr with avsMv := (List.range 4).foldl (fun l q => l.set q 600) x.pwr.avsMv } } := avs_fold 600 _ x

theorem waits_of (c : CmdSpec) (h : Hdr) (act : Nat → State → Act) (s E : State) (tick : Option Nat) (i : Instr) (eff : Eff)
    (hi : exec i s = goes (control c h act s))
    (hacc : Accepted c.op c.states c.anyone c.cfg h s) (hb : Carried c.bc h) (w : Waiting) (hw : w.jseq = s.ctl.jnext ∧ w.h = h ∧ w.opcode = c.op ∧ w.tick = tick)
    (E' : State) (ha : act s.ctl.jnext (begun c.op h s) = { s := E', eff := eff, wait := true })
    (hE : Traces { E with ctl := { E.ctl with waiting := E.ctl.waiting ++ [w] } } E')
    (hj : E'.ctl.journal = (begun c.op h s).ctl.journal) (hn : E'.ctl.jnext = (begun c.op h s).ctl.jnext) : Waits c.op h tick s E i := by
  obtain ⟨t, t1, t2, t3⟩ := control_waits c h act s _ E' [] none eff hacc hb ha hE hj hn
  exact ⟨t, by rw [hi]; exact t1, ⟨w, hw.1, hw.2.1, hw.2.2.1, hw.2.2.2, t2⟩, t3⟩
/-- A relation that every step keeps holds over a fold. -/
theorem foldl_rel {α β : Type} (R : State → State → Prop) (hr : ∀ s, R s s) (ht : ∀ a b c, R a b → R b c → R a c) (f : State → α → State) (hf : ∀ s a, R s (f s a)) (l : List α) (s : State) : R s (l.foldl f s) := by
  induction l generalizing s with
  | nil => exact hr s
  | cons a l ih => exact ht _ _ _ (hf s a) (ih _)
/-- What a register's own effect leaves alone. -/
structure CfgKeeps (s t : State) : Prop where
  regs : t.regs = s.regs
  hbm : t.hbm = s.hbm
  grid : t.grid = s.grid
  t2 : t.t2 = s.t2
  acq : t.acq = s.acq
  dev : t.dev = s.dev
  journal : t.ctl.journal = s.ctl.journal
  jnext : t.ctl.jnext = s.ctl.jnext
  waiting : t.ctl.waiting = s.ctl.waiting
theorem ck_refl (s : State) : CfgKeeps s s := ⟨rfl, rfl, rfl, rfl, rfl, rfl, rfl, rfl, rfl⟩
theorem ck_trans (a b c : State) (h : CfgKeeps a b) (k : CfgKeeps b c) : CfgKeeps a c :=
  ⟨k.regs.trans h.regs, k.hbm.trans h.hbm, k.grid.trans h.grid, k.t2.trans h.t2, k.acq.trans h.acq, k.dev.trans h.dev, k.journal.trans h.journal, k.jnext.trans h.jnext, k.waiting.trans h.waiting⟩
theorem ck_train (l : Nat) (s : State) : CfgKeeps s (startTrain l s) := ⟨rfl, rfl, rfl, rfl, rfl, rfl, rfl, rfl, rfl⟩
theorem ck_raise (e : Ev) (s : State) : CfgKeeps s (raiseEv e s) := ⟨rfl, rfl, rfl, rfl, rfl, rfl, rfl, rfl, rfl⟩
theorem ck_link (l : Nat) (x : Link) (s : State) : CfgKeeps s (setLink l x s) := ⟨rfl, rfl, rfl, rfl, rfl, rfl, rfl, rfl, rfl⟩
theorem ck_fall (l : Nat) (s : State) : CfgKeeps s (linkFall l s) := by
  unfold linkFall; dsimp only; split
  · exact ck_trans _ _ _ (ck_trans _ _ _ (ck_link _ _ _) (ck_raise _ _)) (ck_train _ _)
  · exact ck_trans _ _ _ (ck_link _ _ _) (ck_raise _ _)
theorem ck_ticks (s : State) : CfgKeeps s (startTicks s) := by
  unfold startTicks; split <;> exact ⟨rfl, rfl, rfl, rfl, rfl, rfl, rfl, rfl, rfl⟩
theorem ck_c (s : State) : CfgKeeps s (recomputeC s) := ⟨rfl, rfl, rfl, rfl, rfl, rfl, rfl, rfl, rfl⟩
theorem ck_effect (off old : Nat) (e : CfgEntry) (s : State) : CfgKeeps s (entryEffect off old e s) := by
  unfold entryEffect
  split
  · exact ck_refl s
  · dsimp only
    split
    all_goals (repeat' split)
    all_goals first
      | exact ck_refl _
      | exact ck_train _ _
      | exact ck_fall _ _
      | exact ck_ticks _
      | exact ck_c _
      | exact ck_trans _ _ _ (ck_ticks _) (ck_c _)
      | exact ⟨rfl, rfl, rfl, rfl, rfl, rfl, rfl, rfl, rfl⟩
      | (unfold memberUpdate; dsimp only; split <;> exact ⟨rfl, rfl, rfl, rfl, rfl, rfl, rfl, rfl, rfl⟩)
theorem ck_apply (es : List CfgEntry) (s : State) : CfgKeeps (cfgStore es s) (cfgApply es s) := by
  unfold cfgApply; dsimp only
  have : CfgKeeps (cfgStore es s) (es.foldl (fun t e => entryEffect e.off (regAt s e.off) e t) (cfgStore es s)) :=
    foldl_rel (β := Nat) CfgKeeps ck_refl ck_trans _ (fun s a => ck_effect _ _ _ _) _ _
  split
  · exact ck_trans _ _ _ this ⟨rfl, rfl, rfl, rfl, rfl, rfl, rfl, rfl, rfl⟩
  · exact this
/-- Stored registers only. -/
theorem cfgStore_eq (es : List CfgEntry) : ∀ s : State, cfgStore es s = { s with regs := (cfgStore es s).regs } := by
  unfold cfgStore
  induction es with
  | nil => intro s; rfl
  | cons e es ih =>
    intro s
    simp only [List.foldl_cons]
    split
    · rw [ih]; rfl
    · exact ih s
theorem apply_keeps (es : List CfgEntry) (s : State) : (cfgApply es s).ctl.journal = s.ctl.journal ∧ (cfgApply es s).ctl.jnext = s.ctl.jnext ∧ (cfgApply es s).ctl.waiting = s.ctl.waiting := by
  have h := ck_apply es s
  rw [h.journal, h.jnext, h.waiting, cfgStore_eq]; exact ⟨rfl, rfl, rfl⟩

theorem stops_keep (j : Nat) (l : List Nat) (s : State) : CfgKeeps s (l.foldl (fun t e => setEng e { engAt t e with stopReply := some j } t) s) :=
  foldl_rel (β := Nat) CfgKeeps ck_refl ck_trans (fun t e => setEng e { engAt t e with stopReply := some j } t) (fun s a => ⟨rfl, rfl, rfl, rfl, rfl, rfl, rfl, rfl, rfl⟩) _ _

theorem cfg_of (i : Instr) (h : Hdr) (es : List CfgEntry) (hi : cfgEntriesOf i = some (h, es)) (s : State) :
    exec i s = goes (control { op := 0x105, states := anySt } h (cfgAct h es) s) := by
  cases i
  case registerWrite via e => cases via <;> simp [cfgEntriesOf] at hi; obtain ⟨rfl, rfl⟩ := hi; rfl
  all_goals first
    | (simp only [cfgEntriesOf, Option.some.injEq, Prod.mk.injEq] at hi; obtain ⟨rfl, rfl⟩ := hi; rfl)
    | (simp only [cfgEntriesOf, reduceCtorEq] at hi)

theorem tick_edge (c : CmdSpec) (h : Hdr) (act : Nat → State → Act) (eff : Eff) (check : State → Option (Nat × Nat)) (app : State → State) (s : State) (i : Instr)
    (hi : exec i s = goes (control c h act s)) (ha : act s.ctl.jnext (begun c.op h s) = tickCmd h c.op s.ctl.jnext eff check app (begun c.op h s))
    (hacc : Accepted c.op c.states c.anyone c.cfg h s) (hb : Carried c.bc h) (hc : check (begun c.op h s) = none)
    (hj : (app (begun c.op h s)).ctl.journal = (begun c.op h s).ctl.journal) (hn : (app (begun c.op h s)).ctl.jnext = (begun c.op h s).ctl.jnext) :
    AtEdge c.op h eff (app (begun c.op h s)) s i := by
  have hP := path_begun c.op h s
  have e : inReady (begun c.op h s) = inReady s ∧ nowTick (begun c.op h s) = nowTick s ∧ (begun c.op h s).ctl.waiting = s.ctl.waiting := by rw [hP]; exact ⟨rfl, rfl, rfl⟩
  constructor
  · intro h1 h2
    unfold Done; rw [hi]
    refine control_with c h act s _ _ _ (some (le8 (nowTick s))) eff hacc hb ?_ (path_refl _) hj hn
    rw [ha]; unfold tickCmd; rw [e.1, h1, h2, hc, e.2.1]; rfl
  · intro t ht hw
    rw [hi]
    refine control_waits c h act s _ { begun c.op h s with ctl := { (begun c.op h s).ctl with waiting := (begun c.op h s).ctl.waiting ++
      [{ jseq := s.ctl.jnext, h := h, opcode := c.op, tick := some t, eff := eff }] } } [] none .none hacc hb ?_ ?_ rfl rfl
    · rw [ha]; unfold tickCmd; rw [e.1, hc, e.2.2]
      rcases ht with ⟨h1, h2⟩ | ⟨h1, h2, rfl⟩
      · simp [h1, h2]; omega
      · simp [h1, h2]; omega
    · rw [e.2.2]; unfold Traces; rw [hP]

theorem ends_of (c : CmdSpec) (h : Hdr) (act : Nat → State → Act) (s E' : State) (R : List Byte) (jr : Option (List Byte)) (eff : Eff) (i : Instr)
    (hi : exec i s = goes (control c h act s))
    (hacc : Accepted c.op c.states c.anyone c.cfg h s) (hb : Carried c.bc h)
    (ha : act s.ctl.jnext (begun c.op h s) = { s := E', result := R, jres := jr, eff := eff }) : Ends c.op h R s E' i := by
  obtain ⟨t, t1, t2, -, -, t5⟩ := control_then c h act s E' R jr eff hacc hb ha
  exact ⟨t, by rw [hi]; exact t1, t2, t5⟩

/-- What has left the part stays among what has left it, and the time stands. -/
def Kept (s t : State) : Prop := (∀ x ∈ s.host.out, x ∈ t.host.out) ∧ (∀ x ∈ s.fab.out2, x ∈ t.fab.out2) ∧ t.time = s.time
theorem kept_refl (s : State) : Kept s s := ⟨fun _ h => h, fun _ h => h, rfl⟩
theorem kept_trans {s t u : State} (h : Kept s t) (k : Kept t u) : Kept s u :=
  ⟨fun x hx => k.1 x (h.1 x hx), fun x hx => k.2.1 x (h.2.1 x hx), k.2.2.trans h.2.2⟩
theorem kept_sendReply (r : Reply) (s : State) : Kept s (sendReply r s) := by
  unfold sendReply
  split
  · exact kept_refl _
  · exact ⟨fun x hx => List.mem_cons_of_mem _ hx, fun x hx => hx, rfl⟩
  · exact ⟨fun x hx => hx, fun x hx => List.mem_cons_of_mem _ hx, rfl⟩
  · exact ⟨fun x hx => List.mem_cons_of_mem _ hx, fun x hx => hx, rfl⟩
  · exact kept_refl _
theorem kept_logDone (eff : Eff) (op : Nat) (h : Hdr) (j st : Nat) (s : State) : Kept s (logDone eff op h j st s) := by
  unfold logDone; split
  · unfold logCmd logAdd; split <;> exact kept_refl _
  · exact kept_refl _
theorem kept_journalUpd (j : Nat) (f : JEntry → JEntry) (s : State) : Kept s (journalUpd j f s) := kept_refl _
theorem kept_cacheReply (r : Reply) (s : State) : Kept s (cacheReply r s) := kept_refl _
theorem kept_finishEff (eff : Eff) (op : Nat) (h : Hdr) (j st d : Nat) (res jres : List Byte) (s : State) :
    Kept s (finishEff eff op h j st d res jres s) := by
  unfold finishEff
  exact kept_trans (kept_logDone eff op h j st s) (kept_trans (kept_journalUpd _ _ _) (kept_trans (kept_cacheReply _ _) (kept_sendReply _ _)))

/-- An accepted command, whether it ends or waits: the path's traces on its effect's state, and nothing sent is lost. -/
theorem control_next (c : CmdSpec) (h : Hdr) (act : Nat → State → Act) (s E' : State) (R : List Byte) (jr : Option (List Byte)) (eff : Eff) (w : Bool)
    (hacc : Accepted c.op c.states c.anyone c.cfg h s) (hb : Carried c.bc h)
    (ha : act s.ctl.jnext (begun c.op h s) = { s := E', result := R, jres := jr, eff := eff, wait := w }) :
    ∃ t, goes (control c h act s) = .next t ∧ Traces E' t ∧ Kept E' t := by
  refine ⟨_, rfl, ?_⟩
  rw [control_accepted c h act s hacc hb (by rw [ha]), ha]
  dsimp only
  have h2 : Traces E' (if h.notify = true then sendReply { mkReply c.op h (some s.ctl.jnext) 0 0 [] with final := false } E' else E') ∧
      Kept E' (if h.notify = true then sendReply { mkReply c.op h (some s.ctl.jnext) 0 0 [] with final := false } E' else E') := by
    split
    · exact ⟨path_sendReply _ _, kept_sendReply _ _⟩
    · exact ⟨path_refl _, kept_refl _⟩
  split
  · exact h2
  · exact ⟨path_trans h2.1 (path_finishEff _ _ _ _ _ _ _ _ _), kept_trans h2.2 (kept_finishEff _ _ _ _ _ _ _ _ _)⟩

/-- A served observe command whose reply comes later. -/
theorem observe_waits (c : CmdSpec) (h : Hdr) (act : State → Act) (s E' : State) (R : List Byte) (ho : Observed c.states h s)
    (hb : Carried c.bc h) (ha : act (readBy h s) = { s := E', result := R, wait := true }) :
    ∃ t, goes (observe c h act s) = .next t ∧ Traces E' t ∧ Kept E' t ∧ t.ctl.journal = E'.ctl.journal := by
  obtain ⟨q1, q2, q3, q4⟩ := ho
  have hf := formOk_of c h q2 hb
  have hst : (readBy h s).dev = s.dev := by rw [path_readBy h s]
  refine ⟨_, rfl, ?_⟩
  have e0 : seeSeq h (untake h (seeRaw h.stamp s)) = readBy h s := rfl
  have he : observe c h act s = E' := by
    unfold observe
    simp only [q1, if_false, hf, Bool.not_true, Bool.false_eq_true, win_untake, e0, hst]
    generalize seqCase (winAt s (srcOf h)) h.seq = q at *
    cases q <;> simp_all
  rw [he]
  exact ⟨path_refl _, kept_refl _, rfl⟩

/-- A command that fails and leaves what the spec lets it leave. -/
theorem control_keeps (c : CmdSpec) (h : Hdr) (act : Nat → State → Act) (s E' : State) (st d : Nat) (R : List Byte)
    (hacc : Accepted c.op c.states c.anyone c.cfg h s) (hb : Carried c.bc h) (h0 : st ≠ 0)
    (ha : act s.ctl.jnext (begun c.op h s) = { s := E', status := st, detail := d, result := R, keep := true }) :
    goes (control c h act s) = .next (finishEff .none c.op h s.ctl.jnext st d R [] E') := by
  rw [control_reach c h act s hacc hb, ha]
  unfold controlEnd
  rw [if_pos h0, if_pos (show (true : Bool) = true from rfl), pre_jnext]
  dsimp only [goes]

end Sys2Proof.Machine
end

