-- ==== Sys2Proof/Safety.lean ====
section
/-!
DEFINITION. What counts as a safe step: the block goes on.
-/

namespace Sys2Proof

/-- A step is safe when it answers a next state. -/
def SafeStep (s : Machine.State) : Prop := ∃ t, Machine.step s = .next t

end Sys2Proof
end

