-- ==== Sys2Proof/WellFormed.lean ====
section
/-!
DEFINITION. Well-formed commands: every operand fits the field that carries it. Values that a field can carry and the spec
refuses are well-formed; the meaning answers them with the status the spec gives.
-/

namespace Sys2Proof

/-- v fits a field of n bits. -/
def fits (n v : Nat) : Bool := decide (v < 2 ^ n)
/-- v fits a two's-complement field of n bits. -/
def fitsI (n : Nat) (v : Int) : Bool := decide (-(2 ^ (n - 1) : Nat) ≤ v ∧ v < (2 ^ (n - 1) : Nat))
/-- Every number fits n bits. -/
def allFit (n : Nat) (l : List Nat) : Bool := l.all (fits n)

/-- A header of R372 with the transports and instances of R377. -/
def Hdr.wf (h : Hdr) : Bool :=
  decide (h.transport ≤ 3) && fits 12 h.inst && fits 16 h.tag && fits 32 h.seq && h.at_.all (fits 64) && fits 64 h.raddr &&
  fits 32 h.rsize && decide (h.raw.length ≤ 4064)

/-- A device identifier has 10 bits: a fabric holds at most 1,024 devices (R339). -/
def devWf (d : Nat) : Bool := fits 10 d
/-- One of the 36 fabric links (R320). -/
def linkWf (l : Nat) : Bool := decide (l < 36)
/-- One of the 32 D2H and 8 H2D engines (R288). -/
def engWf (e : Nat) : Bool := decide (e < 40)
/-- One of the 64 command queues (R380). -/
def queueWf (q : Nat) : Bool := decide (q < 64)
/-- A section handle (R196). -/
def handleWf (h : Nat) : Bool := fits 4 h

/-- A register write of R389. -/
def CfgEntry.wf (e : CfgEntry) : Bool := fits 32 e.off && fits 64 e.mask && fits 64 e.value
/-- A time of day of R352. -/
def Tod.wf (t : Tod) : Bool := fits 64 t.sec && fits 32 t.ns && fits 16 t.frac
/-- A site: the virtual grid of each of the four quadrants is 12 x 12 (R17). -/
def siteWf (vq col row : Nat) : Bool := decide (vq < 4 ∧ col < 12 ∧ row < 12)
/-- A descriptor of R290. -/
def DmaDesc.wf (d : DmaDesc) : Bool := fits 64 d.addr && fits 32 d.len && fits 32 d.user && fits 64 d.addr2
/-- The place of a schedule word: a site, one of two banks, one of 1,024 words (R179, R180). -/
def TileAt.wf (a : TileAt) : Bool := siteWf a.q a.col a.row && decide (a.bank < 2 ∧ a.i < 1024)
/-- The settings of R362. -/
def PtpCfg.wf (p : PtpCfg) : Bool :=
  fits 8 p.prio1 && fits 8 p.prio2 && fits 8 p.domain && fits 8 p.transport && fitsI 8 p.syncLog && fitsI 8 p.delayLog && fitsI 8 p.annLog
/-- A line descriptor of R237. -/
def LineDesc.wf (d : LineDesc) : Bool :=
  fits 2 d.kind && fits 4 d.prio && fits 2 d.hoMode && fits 24 d.p && fits 24 d.n && fits 6 d.template && fits 4 d.t2 && fits 2 d.cls &&
  decide (d.in1.length = 6 ∧ d.in2.length = 6) && allFit 12 d.in1 && allFit 12 d.in2 && fits 64 d.lut1 && fits 64 d.lut2 && fits 32 d.mark
/-- A template of R266: PRE and POST are sent less one, the ranges as first and count less one. -/
def TemplateDesc.wf (d : TemplateDesc) : Bool :=
  fits 2 d.dest && fits 4 d.digSec && fits 16 d.destId && decide (1 ≤ d.pre) && fits 16 (d.pre - 1) && decide (1 ≤ d.post) && fits 16 (d.post - 1) &&
  decide (d.cr.length ≤ 16 ∧ d.er.length ≤ 4) && d.cr.all (fun r => fits 12 r.1 && decide (1 ≤ r.2) && fits 12 (r.2 - 1)) &&
  d.er.all (fun r => fits 10 r.1 && decide (1 ≤ r.2) && fits 10 (r.2 - 1))
/-- A primitive unit of R224. -/
def PrimDesc.wf (d : PrimDesc) : Bool :=
  fits 3 d.kind && fits 3 d.mode && decide (1 ≤ d.k ∧ d.k ≤ 16) && fits 16 d.hyst && fitsI 32 d.ta && fitsI 32 d.tb && fits 16 d.wmin && fits 16 d.wmax &&
  decide (d.orsel.length ≤ 4) && allFit 9 d.orsel
/-- A measurement engine of R228. -/
def MeasDesc.wf (d : MeasDesc) : Bool :=
  fits 12 d.chan && fits 4 d.nbExp && fitsI 32 d.i0 && fitsI 32 d.i1 && fitsI 32 d.tTot && fitsI 32 d.lPer && fits 16 d.hyst
/-- A channel group of R215. -/
def GroupDesc.wf (d : GroupDesc) : Bool :=
  fits 16 d.first && fits 16 d.count && fits 2 d.feature && fits 2 d.miss && fits 4 d.fmt && fits 4 d.zp && fitsI 8 d.lo && fitsI 8 d.hi &&
  fits 2 d.head && fits 3 d.win && fits 8 d.driftK && fits 16 d.sFloor && fits 16 d.sSeed && fits 16 d.satThresh && fits 16 d.flatTicks && fits 8 d.dec
/-- A calibration entry of R221. -/
def CalEntry.wf (e : CalEntry) : Bool := fits 16 e.item && fits 16 e.index && fitsI 32 e.value
/-- A window of R289. -/
def Window.wf (w : Window) : Bool := fits 2 w.target && fits 64 w.base && fits 8 w.size && fits 16 w.owner
/-- A timed event of R369. -/
def TimedDesc.wf (d : TimedDesc) : Bool := d.start.wf && fits 16 d.width && fits 64 d.period && fits 16 d.phase
/-- The outcomes of start-up: one per part, core, stack and quadrant (R511). -/
def BootIn.wf (b : BootIn) : Bool :=
  decide (b.opOk.length = 5 ∧ b.fbOk.length = 5 ∧ b.coresOk.length = 8 ∧ b.stacksOk.length = 4 ∧ b.quadsOk.length = 4) &&
  b.badTiles.all (fun x => decide (x.1 < 4 ∧ x.2 < 160))
/-- A power sample of R499 to R501: 16 grid, 4 I/O die and 4 HBM sensors, 15 voltages, 4 currents. -/
def Sample.wf (m : Sample) : Bool := decide (m.grid.length ≤ 16 ∧ m.iod.length ≤ 4 ∧ m.hbm.length ≤ 4 ∧ m.volts.length ≤ 15 ∧ m.amps.length ≤ 4)
/-- A request of R458. -/
def Spdm.wf (r : Spdm) : Bool := fits 8 r.version && fits 8 r.slot && fits 8 r.index && fits 16 r.offset && fits 16 r.length

/-- Every operand of the command fits its field. -/
def Instr.wf : Instr → Bool
  | .deviceId h => h.wf
  | .deviceState h => h.wf
  | .controlClaim h leaseMs _ => h.wf && fits 32 leaseMs
  | .controlRelease h => h.wf
  | .cfgWrite h es => h.wf && es.all CfgEntry.wf
  | .cfgRead h offs => h.wf && allFit 32 offs
  | .arm h ta _ => h.wf && fits 64 ta
  | .pause h => h.wf
  | .resume h tr => h.wf && fits 64 tr
  | .stop h => h.wf
  | .deviceReset h => h.wf
  | .safeStop h cause => h.wf && fits 16 cause
  | .telemetryRead h => h.wf
  | .memWrite h addr data => h.wf && fits 64 addr && decide (data.length ≤ 4056)
  | .memRead h addr len _ => h.wf && fits 64 addr && fits 32 len
  | .sectionLoad h r => h.wf && fits 64 r.addr && fits 32 r.len && fits 32 r.place && fits 64 r.seed && fits 8 r.stallExp
  | .sectionUnload h hd => h.wf && fits 8 hd
  | .sectionSwap h outs ins => h.wf && allFit 8 outs && allFit 8 ins
  | .sectionInfo h hd => h.wf && fits 8 hd
  | .stateSave h addr len => h.wf && fits 64 addr && fits 32 len
  | .stateRestore h _ _ => h.wf
  | .tableSwitch h es => h.wf && es.all (fun e => fits 8 e.hd && fits 8 e.vq && fits 4 e.col && fits 4 e.row && fits 8 e.mask)
  | .tileWrite h hd vq col row line data _ => h.wf && fits 8 hd && fits 8 vq && fits 4 col && fits 4 row && fits 32 line && decide (data.length ≤ 4056)
  | .tileRead h hd vq col row line _ => h.wf && fits 8 hd && fits 8 vq && fits 4 col && fits 4 row && fits 32 line
  | .probeSet h n _ => h.wf && fits 8 n
  | .probeRead h n => h.wf && fits 8 n
  | .digestRead h hd first count => h.wf && fits 8 hd && fits 64 first && fits 16 count
  | .digestVerify h hd => h.wf && fits 8 hd
  | .chanSet h first vals => h.wf && fits 16 first && allFit 32 vals
  | .groupSet h g d => h.wf && fits 16 g && d.wf
  | .primSet h first ds => h.wf && fits 16 first && ds.all PrimDesc.wf
  | .measSet h e d => h.wf && fits 16 e && d.wf
  | .calWrite h es => h.wf && es.all CalEntry.wf
  | .calCommit h version => h.wf && fits 32 version
  | .calRead h item first count => h.wf && fits 16 item && fits 16 first && fits 16 count
  | .combLineSet h n d => h.wf && fits 8 n && d.wf
  | .templateSet h k d => h.wf && fits 8 k && d.wf
  | .windowSet h n w => h.wf && fits 16 n && w.wf
  | .ringExtract h t k => h.wf && fits 64 t && fits 8 k
  | .dmaResume h e mode => h.wf && fits 8 e && fits 8 mode
  | .culletRead h part => h.wf && fits 8 part
  | .recordInputsSet h area size endTick _ _ => h.wf && fits 64 area && fits 64 size && fits 64 endTick
  | .replaySet h area _ _ _ => h.wf && fits 64 area
  | .replayExport h e area addr => h.wf && fits 8 e && fits 64 area && fits 64 addr
  | .replayImport h e _ size => h.wf && fits 8 e && fits 64 size
  | .timeSet h t => h.wf && t.wf
  | .timeRate h rate => h.wf && fitsI 64 rate
  | .timeAdj h d => h.wf && fitsI 64 d
  | .timeGet h => h.wf
  | .timedSet h e d => h.wf && fits 8 e && d.wf
  | .tickAlign h tick t => h.wf && fits 64 tick && t.wf
  | .ptpConfig h cfg => h.wf && cfg.wf
  | .mgmtTx h _ tsId bytes => h.wf && fits 16 tsId && decide (bytes.length ≤ 4064)
  | .fabricDiscover h => h.wf
  | .fabricIdmap h ids => h.wf && ids.all (fun p => fits 64 p.1 && fits 16 p.2)
  | .fabricPlan h p => h.wf && decide (p.devs.length ≤ 1024) && p.devs.all (fun d => devWf d.id && fits 64 d.uid)
  | .fabricBarrierStart h tb => h.wf && fits 64 tb
  | .fabricState h => h.wf
  | .fabricTimeRoot h dev => h.wf && fits 16 dev
  | .collectCfg h e => h.wf && fits 8 e
  | .fabricForward h dest bytes => h.wf && fits 16 dest && decide (bytes.length ≤ 4062)
  | .maintStart h r => h.wf && fits 8 r.act && fits 8 r.quad && fits 8 r.core && fits 16 r.share && fits 32 r.ticks && allFit 8 r.lines
  | .maintStop h act => h.wf && fits 32 act
  | .maintStatus h => h.wf
  | .quadPower h q rq => h.wf && fits 8 q && fits 8 rq
  | .standbySet h q => h.wf && q.all (fits 8)
  | .healthRead h => h.wf
  | .updateBegin h addr len _ _ _ => h.wf && fits 64 addr && fits 32 len
  | .updateData h off bytes => h.wf && fits 64 off && decide (bytes.length ≤ 4064)
  | .updateApply h mask peers => h.wf && fits 32 mask && peers.all devWf
  | .updateStatus h => h.wf
  | .updateAbort h => h.wf
  | .debugChallenge h => h.wf
  | .debugUnlock h addr len magic level slot uid _ _ => h.wf && fits 64 addr && fits 32 len && fits 32 magic && fits 8 level && fits 8 slot && fits 64 uid
  | .journalRead h from_ max => h.wf && fits 64 from_ && fits 16 max
  | .journalNote h => h.wf
  | .errqRead h => h.wf
  | .badPacket h opcode => h.wf && fits 16 opcode
  | .cmdDenied => true
  | .namedTickApply => true
  | .leaseExpired => true
  | .registerWrite via e => via.all Hdr.wf && e.wf
  | .mmioDenied off size => fits 64 off && fits 64 size
  | .rcRead off size => fits 64 off && fits 64 size
  | .txtsHeadRead off size => fits 64 off && fits 64 size
  | .errqOvfClear h => h.wf
  | .txtsOvfClear h => h.wf
  | .queueEnable q size vector => queueWf q && fits 4 size && fits 8 vector
  | .queueDisable q => queueWf q
  | .eventRingEnable h _ size minSev vector => h.wf && fits 4 size && fits 3 minSev && fits 8 vector
  | .dmaEngineEnable h e src stream rsize => h.wf && engWf e && fits 2 src && fits 5 stream && fits 4 rsize
  | .dmaEngineDisable h e => h.wf && engWf e
  | .dmaEngineStopped e => engWf e
  | .dmaRingBaseWrite h e _ addr => h.wf && engWf e && fits 64 addr
  | .linkEnable h l => h.wf && linkWf l
  | .ladderDisable h => h.wf
  | .ladderMaxLower h max => h.wf && fits 4 max
  | .tickSourceWrite h es => h.wf && es.all CfgEntry.wf
  | .timingModeWrite h _ => h.wf
  | .alignDepthWrite h depth => h.wf && fits 16 depth
  | .bar2CfgWrite h _ ofs => h.wf && fits 64 ofs
  | .bar2Resize size => fits 64 size
  | .msixTableWrite vec addr data _ => fits 8 vec && fits 64 addr && fits 32 data
  | .sqDoorbell q v size => queueWf q && fits 64 v && fits 64 size
  | .cqDoorbell q v size => queueWf q && fits 64 v && fits 64 size
  | .dmaDoorbell e v size => engWf e && fits 64 v && fits 64 size
  | .evqDoorbell v size => fits 64 v && fits 64 size
  | .submissionTake q bytes => queueWf q && decide (bytes.length = 64)
  | .completionWrite q => queueWf q
  | .eventWrite => true
  | .irqHoldoffEnd vec => fits 8 vec
  | .bar2Read off len => fits 64 off && fits 32 len
  | .bar2Write off _ => fits 64 off
  | .perst _ => true
  | .hotReset => true
  | .flr => true
  | .pcieLinkDown => true
  | .d3hotEntry => true
  | .pcieLinkTrain speed width _ => fits 4 speed && fits 6 width
  | .tickEdge raw => fits 64 raw
  | .ladderChange => true
  | .frame lane _ _ => decide (lane < 96)
  | .laneDown lane => decide (lane < 96)
  | .alignmentPoint t => fits 48 t.t
  | .trgInEdge k _ => decide (k < 8)
  | .combineDecision t => fits 48 t.t
  | .trgOutPulseEnd k => decide (k < 8)
  | .candidateQueued c => fits 12 c
  | .passDispatch hd _ => handleWf hd
  | .passEnd hd _ => handleWf hd
  | .verdictMissing hd _ => handleWf hd
  | .passBoundary hd _ => handleWf hd
  | .candidateExpire c _ => fits 12 c
  | .deliverRequest c => fits 12 c
  | .stallLimit hd _ => handleWf hd
  | .pauseEffect => true
  | .drainDone => true
  | .swapEnd => true
  | .creditReturn hd _ => handleWf hd
  | .hbmLineReturn hd _ _ => handleWf hd
  | .ringWrite t => fits 48 t
  | .recordAssemble _ _ => true
  | .recordDeliver _ _ => true
  | .streamRelease => true
  | .dmaTransfer e d _ _ _ => engWf e && d.wf
  | .dmaCompletion e _ => engWf e
  | .replayLogStop => true
  | .mvm at_ => at_.wf
  | .mvmAcc at_ => at_.wf
  | .chainPass at_ => at_.wf
  | .req at_ => at_.wf
  | .idle at_ => at_.wf
  | .rd at_ => at_.wf
  | .wr at_ => at_.wf
  | .rdWr at_ => at_.wf
  | .rd2 at_ => at_.wf
  | .rd2Wr at_ => at_.wf
  | .lut4 at_ => at_.wf
  | .lut8 at_ => at_.wf
  | .cmp at_ => at_.wf
  | .thr at_ => at_.wf
  | .add at_ => at_.wf
  | .sub at_ => at_.wf
  | .shl at_ => at_.wf
  | .sra at_ => at_.wf
  | .narrow at_ => at_.wf
  | .resadd at_ => at_.wf
  | .maxe at_ => at_.wf
  | .maxr at_ => at_.wf
  | .topk at_ => at_.wf
  | .sort64 at_ => at_.wf
  | .merge at_ => at_.wf
  | .meanvar at_ => at_.wf
  | .norm at_ => at_.wf
  | .softmax at_ => at_.wf
  | .cluster at_ => at_.wf
  | .hist at_ => at_.wf
  | .token at_ => at_.wf
  | .select at_ => at_.wf
  | .route at_ => at_.wf
  | .inRd at_ => at_.wf
  | .inCtx at_ => at_.wf
  | .outScore at_ => at_.wf
  | .outVerdict at_ => at_.wf
  | .hbmRd at_ => at_.wf
  | .hbmWr at_ => at_.wf
  | .ringRd at_ => at_.wf
  | .fabTx at_ => at_.wf
  | .fabRx at_ => at_.wf
  | .fabEtx at_ => at_.wf
  | .fabErx at_ => at_.wf
  | .fireWordBuild t => fits 48 t
  | .fslotTake t n => fits 48 t && fits 12 n
  | .fslotGive t n => fits 48 t && fits 12 n
  | .codeword l _ _ raw => linkWf l && fits 64 raw
  | .nakTimeout l => linkWf l
  | .elasticPacket l vc => linkWf l && decide (vc < 3)
  | .collectorRecord src recseq => devWf src && fits 32 recseq
  | .linkTrainDone l _ _ => linkWf l
  | .probe l id _ _ => linkWf l && fits 4 id
  | .echo l id _ _ => linkWf l && fits 4 id
  | .linkCalDone l => linkWf l
  | .linkTrainTimeout l => linkWf l
  | .linkDown l => linkWf l
  | .hello l _ => linkWf l
  | .elect l _ => linkWf l
  | .discQuiet => true
  | .topo l _ => linkWf l
  | .assign l _ => linkWf l
  | .assignAck l _ => linkWf l
  | .heartbeat l _ => linkWf l
  | .hbTimeout dev => devWf dev
  | .masterLoss => true
  | .erouteUpdate table => table.all (fun e => devWf e.1 && fits 16 e.2)
  | .barrier b => fits 48 b.tick
  | .updateToken dev kind => devWf dev && decide (kind < 3)
  | .fabricTimeSteer l => linkWf l
  | .fabricTimeLoss => true
  | .tickInEdge raw tick _ => fits 64 raw && fits 48 tick
  | .tickHoldover _ => true
  | .ppsInEdge raw => fits 64 raw
  | .ppsOutPulse raw => fits 64 raw
  | .ptpFrameRx raw kind _ _ => fits 64 raw && decide (kind ≤ 8)
  | .timeHoldover => true
  | .slewEnd raw => fits 64 raw
  | .txTimestamp id raw => fits 16 id && fits 64 raw
  | .timedEventFire e _ => decide (e < 16)
  | .timedOutPulseEnd e => decide (e < 16)
  | .handlerStep core _ => decide (core < 8)
  | .errqScan core => decide (core < 8)
  | .ceWindowEnd => true
  | .confirmExpire _ => true
  | .remapSwitch => true
  | .rotationWarmupEnd _ k => decide (k < 16)
  | .recomputeDecision _ k _ _ => decide (k < 16)
  | .rotationSwap _ k => decide (k < 16)
  | .quadTakeover => true
  | .coreWatchdog core _ => decide (core < 8)
  | .coreTakeover => true
  | .hbmStackLoss stack => decide (stack < 4)
  | .patrolScrub q col row line _ _ _ => siteWf q col row && fits 16 line
  | .scratchWindowTest core w _ _ => decide (core < 8 ∧ w < 256)
  | .clearingDone q => decide (q < 4)
  | .quadSelfTestDone q _ => decide (q < 4)
  | .updateStepDone _ _ => true
  | .coreRestartDone core _ => decide (core < 8)
  | .healthConfirmation type _ => decide (1 ≤ type ∧ type ≤ 5)
  | .lehrEnd type => decide (1 ≤ type ∧ type ≤ 5)
  | .updateIdle => true
  | .debugNonceExpire => true
  | .getVersion r => r.wf
  | .getCapabilities r => r.wf
  | .negotiateAlgorithms r => r.wf
  | .getDigests r => r.wf
  | .getCertificate r => r.wf
  | .challenge r => r.wf
  | .getMeasurements r => r.wf
  | .respondIfReady r => r.wf
  | .chunkGet r => r.wf
  | .jtagInstruction (.halt core) => decide (core < 8)
  | .jtagInstruction _ => true
  | .powerSample m => m.wf
  | .capStep => true
  | .avsTransaction rail mv _ => decide (rail < 4) && fits 16 mv
  | .railFault rail => decide (rail < 15)
  | .pwrfail => true
  | .saveEnd => true
  | .powerRestart b => b.wf
  | .resetFall => true
  | .resetRise b => b.wf
  | .codewordSend l _ => linkWf l
  | .linkTest q lane idx _ => decide (q < 4 ∧ lane < 16 ∧ idx < 1024)
  | .heartbeatSend => true
  | .ptpMessageSend kind => decide (kind ≤ 8)
  | .fabricForwardTimeout => true
  | .completionTimeout e where_ => engWf e && decide (where_ < 3)
  | .ppsOutPulseEnd => true

end Sys2Proof
end

