-- ==== Sys2Proof/Tests/Slice0.lean ====
section
/-!
SUPPORT. Tests: ill-formed commands that WellFormed refuses, one step on small states, and for every statement with hypotheses a
state and operands that meet them.
-/

namespace Sys2Proof.Tests

set_option Elab.async false

open Sys2Proof Sys2Proof.Machine Sys2Proof.Claims

/-- A device in state st: out of reset, control held by host queue 0, quadrants ACTIVE, edges given, newest tick 10. -/
def base (st : DevSt) : State :=
  { State.reset with
    dev := { State.reset.dev with st := st, resetN := true, perstN := true, quads := [.active, .active, .active, .active] }
    ctl := { State.reset.ctl with holder := some 0 }
    time := { State.reset.time with tick := some 10, next := some 11, tickSt := .locked }
    pwr := { State.reset.pwr with saveOk := true } }

/-- A first packet on host queue 0. -/
def hdr : Hdr := { seq := 1 }

/-- The state a command leads to. -/
def run (c : Instr) (s : State) : State := match exec c s with | .next t => t | _ => s

/-- Section 15 resident in Q3 with one memory tile, at the last column and row of its class; digests kept of tick 7. -/
def sec15 : Sec := { resident := true, img := { kind := 0, ii := 256, tiles := [{ vq := 0, col := 11, row := 9 }] }, placed := [{ vq := 3, col := 11, row := 9 }], place := [3], digests := [(7, 1#512)] }
def placed (st : DevSt) : State := { base st with grid := { (base st).grid with secs := [(15, sec15)] } }

/-- DMA engine e enabled with one descriptor waiting. -/
def busyEngine (e : Nat) : State :=
  let s := setReg (0x30000 + 0x40 * e) (2 ^ 63) (base .ready)
  { s with eng := [(e, { pi := 1 })] }

/-- A group of the last channel. -/
def oneChannel : GroupDesc := { first := 4095, count := 1, lo := -7, hi := 7, win := 4, head := 1, sFloor := 1024, sSeed := 1024 }

/-- The last window of the table: 4 KiB of HBM at its base, readable and writable. -/
def windowed (st : DevSt) : State :=
  setReg (0x40008 + 16 * 1023) (windowCtl { valid := true, target := 1, rd := true, wr := true, size := 12 })
    (setReg (0x40000 + 16 * 1023) 0x1000 (base st))

/-- The master of a fabric of two devices. -/
def member (st : DevSt) : State :=
  { base st with fab := { (base st).fab with member := true, isMaster := true, given_ids := [(1, 0), (2, 1023)], masterUid := 1, timeRoot := some 0 } }

/-- n zero bytes. -/
def zeros (n : Nat) : List Byte := List.replicate n 0#8

/-- Ill-formed operands, and the site and line on which they are formed. -/
def site0 : TileAt := { q := 0, col := 0, row := 0, bank := 0, i := 0, c := 0 }
def badSite : TileAt := { site0 with q := 4 }
def six : LineDesc := { in1 := List.replicate 6 0, in2 := List.replicate 6 0 }
def badHdr : Hdr := { transport := 4 }
def badReg : CfgEntry := { off := 2 ^ 32, mask := 0, value := 0 }

theorem test_refused_Hdr : ∀ x ∈ [({ transport := 4 } : Hdr),
    { inst := 4096 }, { tag := 2 ^ 16 }, { seq := 2 ^ 32 }, { at_ := some (2 ^ 64) }, { raddr := 2 ^ 64 }, { rsize := 2 ^ 32 }, { raw := zeros 4065 }], x.wf = false := by decide +kernel

theorem test_refused_CfgEntry : ∀ x ∈ [({ off := 2 ^ 32, mask := 0, value := 0 } : CfgEntry),
    { off := 0, mask := 2 ^ 64, value := 0 }, { off := 0, mask := 0, value := 2 ^ 64 }], x.wf = false := by decide +kernel

theorem test_refused_Tod : ∀ x ∈ [({ sec := 2 ^ 64 } : Tod),
    { ns := 2 ^ 32 }, { frac := 2 ^ 16 }], x.wf = false := by decide +kernel

theorem test_refused_DmaDesc : ∀ x ∈ [({ addr := 2 ^ 64 } : DmaDesc),
    { len := 2 ^ 32 }, { user := 2 ^ 32 }, { addr2 := 2 ^ 64 }], x.wf = false := by decide +kernel

theorem test_refused_TileAt : ∀ x ∈ [({ site0 with q := 4 } : TileAt),
    { site0 with col := 12 }, { site0 with row := 12 }, { site0 with bank := 2 }, { site0 with i := 1024 }], x.wf = false := by decide +kernel

theorem test_refused_PtpCfg : ∀ x ∈ [({ prio1 := 256 } : PtpCfg),
    { prio2 := 256 }, { domain := 256 }, { transport := 256 }, { syncLog := 128 }, { delayLog := 128 }, { annLog := -129 }], x.wf = false := by decide +kernel

theorem test_refused_LineDesc : ∀ x ∈ [({ six with kind := 4 } : LineDesc),
    { six with prio := 16 }, { six with hoMode := 4 }, { six with p := 2 ^ 24 }, { six with n := 2 ^ 24 }, { six with template := 64 },
    { six with t2 := 16 }, { six with cls := 4 }, { six with in1 := [] }, { six with in2 := [0, 0, 0, 0, 0, 4096] },
    { six with in1 := [0, 0, 0, 0, 0, 4096] }, { six with lut1 := 2 ^ 64 }, { six with lut2 := 2 ^ 64 }, { six with mark := 2 ^ 32 }], x.wf = false := by decide +kernel

theorem test_refused_TemplateDesc : ∀ x ∈ [({ dest := 4 } : TemplateDesc),
    { digSec := 16 }, { destId := 2 ^ 16 }, { pre := 0 }, { pre := 65537 }, { post := 0 }, { post := 65537 }, { cr := List.replicate 17 (0, 1) },
    { er := List.replicate 5 (0, 1) }, { cr := [(4096, 1)] }, { cr := [(0, 0)] }, { cr := [(0, 4097)] }, { er := [(1024, 1)] }, { er := [(0, 0)] },
    { er := [(0, 1025)] }], x.wf = false := by decide +kernel

theorem test_refused_PrimDesc : ∀ x ∈ [({ kind := 8 } : PrimDesc),
    { mode := 8 }, { k := 0 }, { k := 17 }, { hyst := 2 ^ 16 }, { ta := 2 ^ 31 }, { tb := 2 ^ 31 }, { wmin := 2 ^ 16 }, { wmax := 2 ^ 16 },
    { orsel := [0, 0, 0, 0, 0] }, { orsel := [512] }], x.wf = false := by decide +kernel

theorem test_refused_MeasDesc : ∀ x ∈ [({ chan := 4096 } : MeasDesc),
    { nbExp := 16 }, { i0 := 2 ^ 31 }, { i1 := 2 ^ 31 }, { tTot := 2 ^ 31 }, { lPer := 2 ^ 31 }, { hyst := 2 ^ 16 }], x.wf = false := by decide +kernel

theorem test_refused_GroupDesc : ∀ x ∈ [({ first := 2 ^ 16 } : GroupDesc),
    { count := 2 ^ 16 }, { feature := 4 }, { miss := 4 }, { fmt := 16 }, { zp := 16 }, { lo := 128 }, { hi := -129 }, { head := 4 }, { win := 8 },
    { driftK := 256 }, { sFloor := 2 ^ 16 }, { sSeed := 2 ^ 16 }, { satThresh := 2 ^ 16 }, { flatTicks := 2 ^ 16 }, { dec := 256 }], x.wf = false := by decide +kernel

theorem test_refused_CalEntry : ∀ x ∈ [({ item := 2 ^ 16, index := 0, value := 0 } : CalEntry),
    { item := 1, index := 2 ^ 16, value := 0 }, { item := 1, index := 0, value := 2 ^ 31 }], x.wf = false := by decide +kernel

theorem test_refused_Window : ∀ x ∈ [({ target := 4 } : Window),
    { base := 2 ^ 64 }, { size := 256 }, { owner := 2 ^ 16 }], x.wf = false := by decide +kernel

theorem test_refused_TimedDesc : ∀ x ∈ [({ start := { ns := 2 ^ 32 } } : TimedDesc),
    { width := 2 ^ 16 }, { period := 2 ^ 64 }, { phase := 2 ^ 16 }], x.wf = false := by decide +kernel

theorem test_refused_BootIn : ∀ x ∈ [({ opOk := [] } : BootIn),
    { fbOk := [] }, { coresOk := [] }, { stacksOk := [] }, { quadsOk := [] }, { badTiles := [(4, 0)] }, { badTiles := [(0, 160)] }], x.wf = false := by decide +kernel

theorem test_refused_Sample : ∀ x ∈ [({ grid := List.replicate 17 0 } : Sample),
    { iod := List.replicate 5 0 }, { hbm := List.replicate 5 0 }, { volts := List.replicate 16 0 }, { amps := List.replicate 5 0 }], x.wf = false := by decide +kernel

theorem test_refused_Spdm : ∀ x ∈ [({ version := 256 } : Spdm),
    { slot := 256 }, { index := 256 }, { offset := 2 ^ 16 }, { length := 2 ^ 16 }], x.wf = false := by decide +kernel

theorem test_refused_commands_1 : ∀ i ∈ [Instr.deviceId badHdr,
    .deviceState badHdr, .controlClaim badHdr 1 false, .controlClaim {} (2 ^ 32) false, .controlRelease badHdr, .cfgWrite badHdr [],
    .cfgWrite {} [badReg], .cfgRead badHdr [], .cfgRead {} [2 ^ 32], .arm badHdr 1 false, .arm {} (2 ^ 64) false, .pause badHdr, .resume badHdr 1,
    .resume {} (2 ^ 64), .stop badHdr, .deviceReset badHdr, .safeStop badHdr 1, .safeStop {} (2 ^ 16), .telemetryRead badHdr, .memWrite badHdr 1 [],
    .memWrite {} (2 ^ 64) [], .memWrite {} 1 (zeros 4057), .memRead badHdr 1 1 [], .memRead {} (2 ^ 64) 1 [], .memRead {} 1 (2 ^ 32) [],
    .sectionLoad badHdr {}, .sectionLoad {} { addr := 2 ^ 64 }, .sectionLoad {} { len := 2 ^ 32 }, .sectionLoad {} { place := 2 ^ 32 },
    .sectionLoad {} { seed := 2 ^ 64 }, .sectionLoad {} { stallExp := 2 ^ 8 }, .sectionUnload badHdr 1, .sectionUnload {} (2 ^ 8),
    .sectionSwap badHdr [] [], .sectionSwap {} [2 ^ 8] [], .sectionSwap {} [] [2 ^ 8], .sectionInfo badHdr 1, .sectionInfo {} (2 ^ 8),
    .stateSave badHdr 1 1, .stateSave {} (2 ^ 64) 1], i.wf = false := by decide +kernel

theorem test_refused_commands_2 : ∀ i ∈ [Instr.stateSave {} 1 (2 ^ 32),
    .stateRestore badHdr {} false, .tableSwitch badHdr [], .tableSwitch {} [{ hd := 256, vq := 0, col := 0, row := 0, mask := 0 }],
    .tableSwitch {} [{ hd := 0, vq := 256, col := 0, row := 0, mask := 0 }], .tableSwitch {} [{ hd := 0, vq := 0, col := 16, row := 0, mask := 0 }],
    .tableSwitch {} [{ hd := 0, vq := 0, col := 0, row := 16, mask := 0 }], .tableSwitch {} [{ hd := 0, vq := 0, col := 0, row := 0, mask := 256 }],
    .tileWrite badHdr 1 1 1 1 1 [] .ok, .tileWrite {} (2 ^ 8) 1 1 1 1 [] .ok, .tileWrite {} 1 (2 ^ 8) 1 1 1 [] .ok,
    .tileWrite {} 1 1 (2 ^ 4) 1 1 [] .ok, .tileWrite {} 1 1 1 (2 ^ 4) 1 [] .ok, .tileWrite {} 1 1 1 1 (2 ^ 32) [] .ok,
    .tileWrite {} 1 1 1 1 1 (zeros 4057) .ok, .tileRead badHdr 1 1 1 1 1 .ok, .tileRead {} (2 ^ 8) 1 1 1 1 .ok,
    .tileRead {} 1 (2 ^ 8) 1 1 1 .ok, .tileRead {} 1 1 (2 ^ 4) 1 1 .ok, .tileRead {} 1 1 1 (2 ^ 4) 1 .ok, .tileRead {} 1 1 1 1 (2 ^ 32) .ok,
    .probeSet badHdr 1 {}, .probeSet {} (2 ^ 8) {}, .probeRead badHdr 1, .probeRead {} (2 ^ 8), .digestRead badHdr 1 1 1, .digestRead {} (2 ^ 8) 1 1,
    .digestRead {} 1 (2 ^ 64) 1, .digestRead {} 1 1 (2 ^ 16), .digestVerify badHdr 1, .digestVerify {} (2 ^ 8), .chanSet badHdr 1 [],
    .chanSet {} (2 ^ 16) [], .chanSet {} 1 [2 ^ 32], .groupSet badHdr 1 {}, .groupSet {} (2 ^ 16) {}, .groupSet {} 1 { fmt := 16 },
    .primSet badHdr 1 [], .primSet {} (2 ^ 16) [], .primSet {} 1 [{ kind := 8 }]], i.wf = false := by decide +kernel

theorem test_refused_commands_3 : ∀ i ∈ [Instr.measSet badHdr 1 {},
    .measSet {} (2 ^ 16) {}, .measSet {} 1 { nbExp := 16 }, .calWrite badHdr [], .calWrite {} [{ item := 2 ^ 16, index := 0, value := 0 }],
    .calCommit badHdr 1, .calCommit {} (2 ^ 32), .calRead badHdr 1 1 1, .calRead {} (2 ^ 16) 1 1, .calRead {} 1 (2 ^ 16) 1, .calRead {} 1 1 (2 ^ 16),
    .combLineSet badHdr 1 {}, .combLineSet {} (2 ^ 8) {}, .combLineSet {} 1 { kind := 4 }, .templateSet badHdr 1 {}, .templateSet {} (2 ^ 8) {},
    .templateSet {} 1 { dest := 4 }, .windowSet badHdr 1 {}, .windowSet {} (2 ^ 16) {}, .windowSet {} 1 { target := 4 }, .ringExtract badHdr 1 1,
    .ringExtract {} (2 ^ 64) 1, .ringExtract {} 1 (2 ^ 8), .dmaResume badHdr 1 1, .dmaResume {} (2 ^ 8) 1, .dmaResume {} 1 (2 ^ 8),
    .culletRead badHdr 1, .culletRead {} (2 ^ 8), .recordInputsSet badHdr 1 1 1 false false, .recordInputsSet {} (2 ^ 64) 1 1 false false,
    .recordInputsSet {} 1 (2 ^ 64) 1 false false, .recordInputsSet {} 1 1 (2 ^ 64) false false, .replaySet badHdr 1 false false [],
    .replaySet {} (2 ^ 64) false false [], .replayExport badHdr 1 1 1, .replayExport {} (2 ^ 8) 1 1, .replayExport {} 1 (2 ^ 64) 1,
    .replayExport {} 1 1 (2 ^ 64), .replayImport badHdr 1 {} 1, .replayImport {} (2 ^ 8) {} 1], i.wf = false := by decide +kernel

theorem test_refused_commands_4 : ∀ i ∈ [Instr.replayImport {} 1 {} (2 ^ 64),
    .timeSet badHdr {}, .timeSet {} { ns := 2 ^ 32 }, .timeRate badHdr 0, .timeRate {} (2 ^ 63), .timeAdj badHdr 0, .timeAdj {} (2 ^ 63),
    .timeGet badHdr, .timedSet badHdr 1 {}, .timedSet {} (2 ^ 8) {}, .timedSet {} 1 { width := 2 ^ 16 }, .tickAlign badHdr 1 {},
    .tickAlign {} (2 ^ 64) {}, .tickAlign {} 1 { ns := 2 ^ 32 }, .ptpConfig badHdr {}, .ptpConfig {} { prio1 := 256 }, .mgmtTx badHdr false 1 [],
    .mgmtTx {} false (2 ^ 16) [], .mgmtTx {} false 1 (zeros 4065), .fabricDiscover badHdr, .fabricIdmap badHdr [], .fabricIdmap {} [(2 ^ 64, 0)],
    .fabricIdmap {} [(0, 2 ^ 16)], .fabricPlan badHdr {}, .fabricPlan {} { devs := List.replicate 1025 { id := 0 } },
    .fabricPlan {} { devs := [{ id := 1024 }] }, .fabricPlan {} { devs := [{ id := 0, uid := 2 ^ 64 }] }, .fabricBarrierStart badHdr 1,
    .fabricBarrierStart {} (2 ^ 64), .fabricState badHdr, .fabricTimeRoot badHdr 1, .fabricTimeRoot {} (2 ^ 16), .collectCfg badHdr 1,
    .collectCfg {} (2 ^ 8), .fabricForward badHdr 1 [], .fabricForward {} (2 ^ 16) [], .fabricForward {} 1 (zeros 4063),
    .maintStart badHdr { act := 1 }, .maintStart {} { act := 2 ^ 8 }, .maintStart {} { act := 1, quad := 2 ^ 8 }], i.wf = false := by decide +kernel

theorem test_refused_commands_5 : ∀ i ∈ [Instr.maintStart {} { act := 1, core := 2 ^ 8 },
    .maintStart {} { act := 1, share := 2 ^ 16 }, .maintStart {} { act := 1, ticks := 2 ^ 32 }, .maintStart {} { act := 1, lines := [256] },
    .maintStop badHdr 1, .maintStop {} (2 ^ 32), .maintStatus badHdr, .quadPower badHdr 1 1, .quadPower {} (2 ^ 8) 1, .quadPower {} 1 (2 ^ 8),
    .standbySet badHdr none, .standbySet {} (some 256), .healthRead badHdr, .updateBegin badHdr 1 1 false [] [],
    .updateBegin {} (2 ^ 64) 1 false [] [], .updateBegin {} 1 (2 ^ 32) false [] [], .updateData badHdr 1 [], .updateData {} (2 ^ 64) [],
    .updateData {} 1 (zeros 4065), .updateApply badHdr 1 [], .updateApply {} (2 ^ 32) [], .updateApply {} 1 [1024], .updateStatus badHdr,
    .updateAbort badHdr, .debugChallenge badHdr, .debugUnlock badHdr 1 1 1 1 1 1 0 [],
    .debugUnlock {} (2 ^ 64) 1 1 1 1 1 0 [], .debugUnlock {} 1 (2 ^ 32) 1 1 1 1 0 [], .debugUnlock {} 1 1 (2 ^ 32) 1 1 1 0 [],
    .debugUnlock {} 1 1 1 256 1 1 0 [], .debugUnlock {} 1 1 1 1 256 1 0 [], .debugUnlock {} 1 1 1 1 1 (2 ^ 64) 0 [], .journalRead badHdr 1 1,
    .journalRead {} (2 ^ 64) 1, .journalRead {} 1 (2 ^ 16), .journalNote badHdr, .errqRead badHdr, .badPacket badHdr 1, .badPacket {} (2 ^ 16),
    .registerWrite (some badHdr) { off := 0, mask := 0, value := 0 }, .registerWrite none badReg, .mmioDenied (2 ^ 64) 1], i.wf = false := by decide +kernel

theorem test_refused_commands_6 : ∀ i ∈ [Instr.mmioDenied 1 (2 ^ 64),
    .rcRead (2 ^ 64) 1, .rcRead 1 (2 ^ 64), .txtsHeadRead (2 ^ 64) 1, .txtsHeadRead 1 (2 ^ 64), .errqOvfClear badHdr, .txtsOvfClear badHdr,
    .queueEnable 64 1 1, .queueEnable 1 (2 ^ 4) 1, .queueEnable 1 1 (2 ^ 8), .queueDisable 64, .eventRingEnable badHdr false 1 1 1,
    .eventRingEnable {} false (2 ^ 4) 1 1, .eventRingEnable {} false 1 (2 ^ 3) 1, .eventRingEnable {} false 1 1 (2 ^ 8),
    .dmaEngineEnable badHdr 1 1 1 1, .dmaEngineEnable {} 40 1 1 1, .dmaEngineEnable {} 1 (2 ^ 2) 1 1, .dmaEngineEnable {} 1 1 (2 ^ 5) 1,
    .dmaEngineEnable {} 1 1 1 (2 ^ 4), .dmaEngineDisable badHdr 1, .dmaEngineDisable {} 40, .dmaEngineStopped 40, .dmaRingBaseWrite badHdr 1 false 1,
    .dmaRingBaseWrite {} 40 false 1, .dmaRingBaseWrite {} 1 false (2 ^ 64), .linkEnable badHdr 1, .linkEnable {} 36, .ladderDisable badHdr,
    .ladderMaxLower badHdr 1, .ladderMaxLower {} (2 ^ 4), .tickSourceWrite badHdr [], .tickSourceWrite {} [badReg], .timingModeWrite badHdr false,
    .alignDepthWrite badHdr 1, .alignDepthWrite {} (2 ^ 16), .bar2CfgWrite badHdr false 1, .bar2CfgWrite {} false (2 ^ 64), .bar2Resize (2 ^ 64),
    .msixTableWrite (2 ^ 8) 1 1 false], i.wf = false := by decide +kernel

theorem test_refused_commands_7 : ∀ i ∈ [Instr.msixTableWrite 1 (2 ^ 64) 1 false,
    .msixTableWrite 1 1 (2 ^ 32) false, .sqDoorbell 64 1 1, .sqDoorbell 1 (2 ^ 64) 1, .sqDoorbell 1 1 (2 ^ 64), .cqDoorbell 64 1 1,
    .cqDoorbell 1 (2 ^ 64) 1, .cqDoorbell 1 1 (2 ^ 64), .dmaDoorbell 40 1 1, .dmaDoorbell 1 (2 ^ 64) 1, .dmaDoorbell 1 1 (2 ^ 64),
    .evqDoorbell (2 ^ 64) 1, .evqDoorbell 1 (2 ^ 64), .submissionTake 64 [], .submissionTake 1 (zeros 63), .completionWrite 64,
    .irqHoldoffEnd (2 ^ 8), .bar2Read (2 ^ 64) 1, .bar2Read 1 (2 ^ 32), .bar2Write (2 ^ 64) [], .pcieLinkTrain (2 ^ 4) 1 false,
    .pcieLinkTrain 1 (2 ^ 6) false, .tickEdge (2 ^ 64), .frame 96 [] 1, .laneDown 96, .alignmentPoint { t := 2 ^ 48 }, .trgInEdge 8 1,
    .combineDecision { t := 2 ^ 48 }, .trgOutPulseEnd 8, .candidateQueued (2 ^ 12), .passDispatch 16 1, .passEnd 16 1, .verdictMissing 16 1,
    .passBoundary 16 1, .candidateExpire (2 ^ 12) 1, .deliverRequest (2 ^ 12), .stallLimit 16 1, .creditReturn 16 1, .hbmLineReturn 16 false false,
    .ringWrite (2 ^ 48)], i.wf = false := by decide +kernel

theorem test_refused_commands_8 : ∀ i ∈ [Instr.dmaTransfer 40 {} false [] none, .dmaTransfer 1 { len := 2 ^ 32 } false [] none, .dmaCompletion 40 false, .mvm badSite, .mvmAcc badSite,
    .chainPass badSite, .req badSite, .idle badSite, .rd badSite, .wr badSite, .rdWr badSite, .rd2 badSite, .rd2Wr badSite, .lut4 badSite,
    .lut8 badSite, .cmp badSite, .thr badSite, .add badSite, .sub badSite, .shl badSite, .sra badSite, .narrow badSite, .resadd badSite,
    .maxe badSite, .maxr badSite, .topk badSite, .sort64 badSite, .merge badSite, .meanvar badSite, .norm badSite, .softmax badSite,
    .cluster badSite, .hist badSite, .token badSite, .select badSite, .route badSite, .inRd badSite, .inCtx badSite, .outScore badSite], i.wf = false := by decide +kernel

theorem test_refused_commands_9 : ∀ i ∈ [Instr.outVerdict badSite,
    .hbmRd badSite, .hbmWr badSite, .ringRd badSite, .fabTx badSite, .fabRx badSite, .fabEtx badSite, .fabErx badSite, .fireWordBuild (2 ^ 48),
    .fslotTake (2 ^ 48) 1, .fslotTake 1 (2 ^ 12), .fslotGive (2 ^ 48) 1, .fslotGive 1 (2 ^ 12), .codeword 36 1 0#5140 1,
    .codeword 1 1 0#5140 (2 ^ 64), .nakTimeout 36, .elasticPacket 36 1, .elasticPacket 1 3, .collectorRecord 1024 1, .collectorRecord 1 (2 ^ 32),
    .linkTrainDone 36 1 1, .probe 36 1 1 1, .probe 1 (2 ^ 4) 1 1, .echo 36 1 1 1, .echo 1 (2 ^ 4) 1 1, .linkCalDone 36, .linkTrainTimeout 36,
    .linkDown 36, .hello 36 (.heartbeat 0 0 0), .elect 36 (.heartbeat 0 0 0), .topo 36 (.heartbeat 0 0 0), .assign 36 (.heartbeat 0 0 0),
    .assignAck 36 (.heartbeat 0 0 0), .heartbeat 36 (.heartbeat 0 0 0), .hbTimeout 1024, .erouteUpdate [(1024, 0)], .erouteUpdate [(0, 2 ^ 16)],
    .barrier { tick := 2 ^ 48 }, .updateToken 1024 1, .updateToken 1 3], i.wf = false := by decide +kernel

theorem test_refused_commands_10 : ∀ i ∈ [Instr.fabricTimeSteer 36,
    .tickInEdge (2 ^ 64) 1 0, .tickInEdge 1 (2 ^ 48) 0, .ppsInEdge (2 ^ 64), .ppsOutPulse (2 ^ 64), .ptpFrameRx (2 ^ 64) 1 1 [],
    .ptpFrameRx 1 9 1 [], .slewEnd (2 ^ 64), .txTimestamp (2 ^ 16) 1, .txTimestamp 1 (2 ^ 64), .timedEventFire 16 1, .timedOutPulseEnd 16,
    .handlerStep 8 {}, .errqScan 8, .rotationWarmupEnd 1 16, .recomputeDecision 1 16 false false, .rotationSwap 1 16, .coreWatchdog 8 false,
    .hbmStackLoss 4, .patrolScrub 4 1 1 1 false false false, .patrolScrub 1 12 1 1 false false false, .patrolScrub 1 1 12 1 false false false,
    .patrolScrub 1 1 1 (2 ^ 16) false false false, .scratchWindowTest 8 1 false false, .scratchWindowTest 1 256 false false, .clearingDone 4,
    .quadSelfTestDone 4 false, .coreRestartDone 8 false, .healthConfirmation 0 false, .healthConfirmation 6 false, .lehrEnd 0, .lehrEnd 6,
    .getVersion { version := 256 }, .getCapabilities { version := 256 }, .negotiateAlgorithms { version := 256 }, .getDigests { version := 256 },
    .getCertificate { version := 256 }, .challenge { version := 256 }, .getMeasurements { version := 256 }, .respondIfReady { version := 256 }], i.wf = false := by decide +kernel

theorem test_refused_commands_11 : ∀ i ∈ [Instr.chunkGet { version := 256 },
    .jtagInstruction (.halt 8), .powerSample { grid := List.replicate 17 0 }, .avsTransaction 4 1 false, .avsTransaction 1 (2 ^ 16) false,
    .railFault 15, .powerRestart { opOk := [] }, .resetRise { opOk := [] }, .codewordSend 36 1, .linkTest 4 1 1 false, .linkTest 1 16 1 false,
    .linkTest 1 1 1024 false, .ptpMessageSend 9, .completionTimeout 40 1, .completionTimeout 1 3], i.wf = false := by decide +kernel

/-- Commands at the last value of their fields are well-formed. -/
theorem test_wellformed : ∀ i ∈ [Instr.chanSet { tag := 65535, seq := 2 ^ 32 - 1, at_ := some (2 ^ 64 - 1) } 4095 [2 ^ 32 - 1], .combLineSet {} 255 { six with kind := 3, p := 2 ^ 24 - 1 },
    .dmaDoorbell 39 65535 2, .codeword 35 15 0#5140 0, .linkTest 3 15 1023 true, .mvm { site0 with q := 3, col := 11, row := 11, bank := 1, i := 1023 }, .scratchWindowTest 7 255 true true,
    .memWrite {} (2 ^ 64 - 1) (zeros 4056), .timeAdj {} (-(2 ^ 63)), .railFault 14, .candidateQueued 4095, .resetRise {}], i.wf = true := by decide +kernel

/-- Expected results of the spec's worked examples. Chapter 02, one sum in every output format: −5.5 (−11 in doubled units) with generator word 0x9E37_79B9. -/
theorem test_round_one_sum : [(⟨.int4, .rne, -8, 7, 0⟩, 24), (⟨.int4, .rtz, -8, 7, 0⟩, 24), (⟨.int4, .srSeeded, -8, 7, 0⟩, 24), (⟨.uint4, .rne, 0, 15, 8⟩, 24),
      (⟨.int3, .rne, -4, 3, 0⟩, 24), (⟨.int2, .rne, -2, 1, 0⟩, 24), (⟨.tern, .rne, -1, 1, 0⟩, 24), (⟨.bin1, .rne, -1, 1, 0⟩, 24), (⟨.fp4, .rne, -12, 12, 0⟩, 23),
      (⟨.fp4, .rtz, -12, 12, 0⟩, 23), ((⟨.fp4, .srSeeded, -12, 12, 0⟩ : OutSpec), 23)].map (fun o => requant o.1 32768 o.2 0x9E3779B9 (-2816)) =
    [(10, false), (11, false), (10, false), (2, false), (12, true), (2, true), (3, true), (1, false), (15, false), (14, false), (15, false)] := by decide +kernel

/-- Chapter 03, one channel group: peaks 312, 298, 405, 377 with N = 4 and H = 1.25 give 0x9486, with 455 in place of 312 0x9514. -/
def hist517 (l : List Nat) : ScaleEntry := { hist := l ++ List.replicate 12 0, sFloor := 0x7C00, sSeed := 0x8800, head := 1, win := 2, hptr := 4, fill := 16 }

theorem test_scale_derived : (deriveScale .int4 0 (hist517 [0x9CE0, 0x9CA8, 0x9E54, 0x9DE4])).sCur = 0x9486 ∧
    (deriveScale .int4 0 (hist517 [0x9CA8, 0x9E54, 0x9DE4, 0x9F1C])).sCur = 0x9514 ∧ (deriveScale .int4 0 (hist517 [0x9E54, 0x9DE4, 0x9F1C, 0xA178])).sCur = 0x97D0 ∧
    scaleWord (blockTag 1000000 36 8) 0 0 0x9486 = 0x20009486 ∧ scaleWord (blockTag 1000001 36 8) 0 0 0x9514 = 0xB0009514 := by decide +kernel

theorem test_multiplier_codes : buildMult .int4 0x7C00 0x7C00 0x9486 = ⟨14835712, 30, false, false⟩ ∧ buildMult .int4 0x7C00 0x7C00 0x9514 = ⟨13213696, 30, false, false⟩ ∧
    ([388, -21, 455, 140, 12, -40, 3, 0].map fun c => requant {} 14835712 30 0 c) = [(5, false), (0, false), (6, false), (2, false), (0, false), (15, false), (0, false), (0, false)] ∧
    ([700, 512, 230, -15].map fun c => requant {} 13213696 30 0 c) = [(7, true), (6, false), (3, false), (0, false)] := by decide +kernel

/-- Chapter 03, zero-point correction. -/
theorem test_zero_point : correctedSum 125 22 36 4 3 8 = -63 ∧ buildMult .int4 0x6C00 0x6400 0x6080 = ⟨14909440, 27, false, false⟩ ∧
    requant {} 14909440 27 0 (-63) = (9, false) ∧ requant ⟨.uint4, .rne, 0, 15, 8⟩ 14909440 27 0 (-63) = (1, false) := by decide +kernel

/-- Chapter 05, SOFTMAX on one word. -/
theorem test_softmax_tables : log2t 862 = 226 ∧ buildMult .int8 0x5C00 0x7C00 0x6C00 = ⟨2 ^ 23, 27, false, false⟩ ∧
    ([-226, -482, -2146].map fun w => requant ⟨.int8, .rne, -128, 127, 0⟩ (2 ^ 23) 27 0 w) = [(0xF2, false), (0xE2, false), (0x80, true)] := by decide +kernel

/-- Chapter 06, the side-band of a scale word of tick 1,000,000. -/
theorem test_side_band : sideBand { v := true, k := true, tick := 1000000, btag := 8 } = 0x15008 := by decide +kernel

/-- Chapter 08, channel 517: units 1,034 and 1,035 over ticks t - 1 to t + 1. -/
def unit1034 : PrimUnit := { d := { en := true, hyst := 100, ta := 200, wmin := 4, wmax := 6 }, n := 2, hist := [25, 20] }
def unit1035 : PrimUnit := { d := { en := true, kind := 3, mode := 3, k := 2, ta := 400 }, n := 2, hist := [25, 20] }
def firings (u : PrimUnit) (l : List Int) : List Bool := (l.foldl (fun (p : PrimUnit × List Bool) c => let r := unitSample p.1 c; (r.1, p.2 ++ [r.2])) (u, [])).2

theorem test_primitives : firings unit1034 [377, 210, 12, 30, 388, -21, 455, 140, 700, 512, 230, -15] = List.replicate 11 false ++ [true] ∧
    firings unit1035 [377, 210, 12, 30, 388, -21, 455, 140, 700, 512, 230, -15] = List.replicate 10 false ++ [true, false] := by decide +kernel

/-- Chapter 09, the decision of Example sky: LUT1 is true at index 1 only, input 1 is poisoned. -/
theorem test_doubtful_line : lutOut 2 [some false, none, some false, some false, some false, some false] = some false ∧
    lutOut 2 [some true, none, some false, some false, some false, some false] = none ∧ classOutcome true false false = .void := by decide +kernel

/-- Chapter 10, the ring of Example wall (36 lanes of 64 channels of 4 x 12 bits, 448 GiB), and chapter 17, its tick 40,000,000. -/
def wall : State := (List.range 36).foldl (fun s l => setReg (0x81000 + 16 * l) (2 ^ 31 + 2 ^ 30 + 4 * 2 ^ 25 + 3 * 2 ^ 21 + 64 * 2 ^ 13) s) (setReg 0x1010 (2 ^ 63 + 448) (base .running))

theorem test_ring_depth : slotBytes wall = 13856 ∧ ringDepth wall = 34716825 ∧ slotAddr wall 40000000 = 0x110B4766E0 ∧ laneOfs wall 8 = 0xC20 ∧ gatherDepth (regAt wall) = 2427 := by
  decide +kernel

/-- Chapter 13, a converter start: 1,000 ns at RATE +12 ppm. -/
theorem test_slew : slewFor (1000 * 65536) 13194139 = 206708186 := by decide +kernel

/-- One row each: a claim of free control succeeds (R385), a masked register write (R389), a doorbell (R480), PWRFAIL_N starts a save once start-up has come
that far (R505). -/
theorem test_claim : (run (.controlClaim { inst := 5, seq := 1 } 0 false) { base .ready with ctl := { (base .ready).ctl with holder := none } }).ctl.holder.isSome = true := by decide +kernel

theorem test_cfg_write : regAt (run (.cfgWrite hdr [{ off := 0x58, mask := 2 ^ 63, value := 2 ^ 64 - 1 }]) (base .ready)) 0x58 = 2 ^ 63 := by decide +kernel

theorem test_doorbell : (engAt (run (.dmaDoorbell 39 7 4) (busyEngine 39)) 39).pi = 7 := by decide +kernel

theorem test_pwrfail : (run .pwrfail (base .running)).pwr.saving = some 0 ∧ (run .pwrfail (base .off)).pwr.saving = none := by decide +kernel

theorem test_words_spell_none : decodeTableWord 128 0 = none ∧ (State.reset.withFetchWord 128 0).pending = [] := by decide

theorem test_step_in_turn : step { base .running with pending := [.pwrfail, .resetFall] } = exec .pwrfail { base .running with pending := [.resetFall] } := rfl
theorem witness_StatusReadsAnswer : Carried true { hdr with transport := 3, raw := List.replicate 223 0 } ∧
    Observed bootAny { hdr with transport := 3, raw := List.replicate 223 0 } (base .boot) ∧ Carried true hdr ∧ Carried false hdr ∧
    Observed anySt hdr (base .ready) ∧ Observed anySt hdr (base .safe) := by and_intros <;> decide +kernel

theorem witness_PartReadsAnswer : Carried false hdr ∧ Observed anySt hdr (placed .running) ∧ Observed stLAUP hdr (placed .running) ∧
    8 * (List.replicate 508 0).length ≤ 4064 ∧ ((secAt (placed .running) 15).resident || (secAt (placed .running) 15).staged) = true ∧
    siteIn (placed .running) 15 0 11 9 = some (3, 11, 9) ∧ siteClass 11 9 = some .memory ∧
    (∀ t ∈ rangeFrom 7 1, (keptDigest (placed .running) 15 t).isSome = true) ∧ (secAt (placed .running) 15).resident = true ∧
    (∃ c, calItem 1 = some c ∧ 0 + 1 ≤ c.n) := by and_intros <;> decide +kernel

theorem witness_ChecksFailInOrder : ∃ c h, commandOf (.arm hdr 20 false) = some (true, c, h) ∧ (base .ready).dev.st ≠ .off ∧ Formed c h ∧
    ¬ Formed c { h with ok := false } ∧ seqCase (winAt (base .ready) (srcOf h)) h.seq = .new ∧
    seqCase (winAt { base .ready with ctl := { (base .ready).ctl with wins := [(0, { h := 100, seen := 1 })] } } (srcOf h)) h.seq = .below ∧
    (c.anyone = false ∧ { base .ready with ctl := { (base .ready).ctl with holder := none } }.ctl.holder ≠ some (srcOf h)) ∧
    (base .ready).ctl.holder = some (srcOf h) ∧ (base .running).dev.st ∉ c.states := ⟨_, _, rfl, by decide +kernel⟩

theorem witness_ChecksFailInOrder_overlay : ∃ c h, commandOf (.sectionUnload hdr 0) = some (true, c, h) ∧ Formed c h ∧
    (base .ready).ctl.holder = some (srcOf h) ∧ (base .ready).dev.st ∈ c.states ∧
    { base .ready with upd := { (base .ready).upd with overlay := true } }.upd.overlay = true ∧ c.op / 256 ∈ [2, 6, 7] := ⟨_, _, rfl, by decide +kernel⟩

/-- A device whose first command is journaled and cached, and whose window has seen number 1. -/
def seen (final : Bool) (cached : List Reply) : State :=
  { base .ready with ctl := { (base .ready).ctl with
      wins := [(0, { h := 1, seen := 1 })], journal := [{ jseq := 1, cseq := 1, final := final }], jnext := 2, cache := cached } }

theorem witness_DuplicateNotRepeated : (seen true []).dev.st ≠ .off ∧ hdr.transport = 0 ∧
    (∃ c h, commandOf (.journalNote hdr) = some (true, c, h) ∧ Formed c h ∧ h = hdr) ∧ seqCase (winAt (seen true []) 0) 1 = .dup ∧ srcOf hdr = 0 ∧
    ((seen true []).ctl.journal.find? (fun e => e.source == 0 && e.cseq == 1)).map (fun e => (e.final, e.status)) = some (true, 0) ∧
    ((seen false []).ctl.journal.find? (fun e => e.source == 0 && e.cseq == 1)).map (·.final) = some false ∧
    (seen true []).ctl.cache.find? (fun r => r.source == 0 && r.seq == 1) = none ∧
    ((seen true [{ source := 0, seq := 1, opcode := 0x902 }]).ctl.cache.find? (fun r => r.source == 0 && r.seq == 1)).isSome = true :=
  ⟨by decide +kernel, rfl, ⟨_, _, rfl, by decide +kernel, rfl⟩, by decide +kernel, by decide +kernel, by decide +kernel, by decide +kernel, by decide +kernel, by decide +kernel⟩

theorem witness_ObserveNeverJournaled : ∃ c h, commandOf (.timeGet hdr) = some (false, c, h) ∧ (base .ready).dev.st ≠ .off ∧ Formed c h ∧
    ¬ Formed c { h with transport := 3 } ∧ seqCase (winAt (base .ready) (srcOf h)) h.seq ≠ .below ∧ (base .boot).dev.st ∉ c.states := ⟨_, _, rfl, by decide +kernel⟩

/-- A device whose holder is h. -/
def heldBy (h : Option Nat) (st : DevSt) : State := { base st with ctl := { (base st).ctl with holder := h, leaseMs := 100 } }

theorem witness_ClaimTakesControl : Accepted 0x103 anySt true false hdr (heldBy none .ready) ∧ Carried true hdr ∧
    (heldBy none .ready).ctl.holder = none ∧ Accepted 0x103 anySt true false { hdr with transport := 3 } (heldBy (some 5) .safe) ∧
    (∃ o, (heldBy (some 5) .safe).ctl.holder = some o ∧ o ≠ srcOf { hdr with transport := 3 }) ∧ (heldBy (some 0) .ready).ctl.holder = some (srcOf hdr) ∧
    isMasterSrc { hdr with transport := 2 } { base .ready with fab := { (base .ready).fab with member := true, plan := some {} } } = true :=
  ⟨by decide +kernel, by decide +kernel, rfl, by decide +kernel, ⟨5, rfl, by decide +kernel⟩, rfl, by decide +kernel⟩

theorem witness_ControlBecomesFree : Accepted 0x104 anySt false false hdr (heldBy (some 0) .ready) ∧ Carried true hdr ∧
    (heldBy (some 0) .ready).ctl.holder = some 0 ∧ (heldBy (some 0) .ready).ctl.leaseMs ≠ 0 ∧ (heldBy (some 0) .ready).dev.st ≠ .off := by and_intros <;> decide +kernel

theorem witness_RunCommandsTaken : Carried false hdr ∧ Accepted 0x107 stRL false false hdr (placed .loaded) ∧ (placed .loaded).fab.member = false ∧
    leadOk (begun 0x107 hdr (placed .loaded)) 27 = true ∧ replayElsewhere (placed .loaded) 27 = false ∧ (placed .loaded).fe.cal.isDefault = false ∧
    placesActive (placed .loaded) = true ∧ ticking (placed .loaded) = true ∧ startFit (placed .loaded) = true ∧
    Accepted 0x108 [.running] false false hdr (base .running) ∧ (base .running).dev.pauseReq = false ∧
    Accepted 0x109 [.paused] false false hdr (base .paused) ∧ nowTick (base .paused) < 11 ∧ replayElsewhere (base .paused) 11 = false ∧
    (base .paused).dev.draining = false ∧ (base .paused).dev.resumeAt = none ∧ Accepted 0x10A stAUP false false hdr (base .armed) ∧
    Accepted 0x10A stAUP false false hdr (base .running) ∧ Accepted 0x10A stAUP false false hdr (base .paused) ∧ (base .armed).dev.stopReq = false := by
  and_intros <;> decide +kernel

theorem witness_SafeStopEntered : Accepted 0x10C stRLAUP false false hdr (base .running) ∧ Carried true hdr ∧ (0x7FFF < 0x8000 ∨ 0xFFFF < 0x7FFF) ∧
    (0x8000 ≤ 0x8000 ∧ 0xFFFF ≤ 0xFFFF) ∧ (base .running).pwr.saving = none ∧ (base .running).pwr.saveOk = true ∧
    { base .running with pwr := { (base .running).pwr with saving := some 4 } }.pwr.saving ≠ none := by and_intros <;> decide +kernel

theorem witness_PlainControlCommands : Accepted 0x10B anySt false false hdr (base .safe) ∧ Carried true hdr ∧
    Accepted 0x902 anySt false false { hdr with raw := List.replicate 16 0 } (base .ready) ∧ Carried false { hdr with raw := List.replicate 16 0 } ∧
    Accepted 0x10E anySt false false hdr (windowed .ready) ∧ (windowed .ready).pwr.saving = none ∧ (windowAt (windowed .ready) 1023).valid = true ∧
    (windowAt (windowed .ready) 1023).wr = true ∧ (windowAt (windowed .ready) 1023).target ≠ 0 ∧ 4095 % 4096 + [0#8].length ≤ 4096 ∧
    4095 + [0#8].length ≤ 2 ^ (windowAt (windowed .ready) 1023).size ∧
    (windowAt (windowed .ready) 1023).base + 4095 + [0#8].length ≤ hbmSize (windowed .ready) := by and_intros <;> decide +kernel

theorem witness_HeldDataReads : Carried false hdr ∧ Observed anySt hdr (windowed .safe) ∧ (windowAt (windowed .safe) 1023).valid = true ∧
    (windowAt (windowed .safe) 1023).rd = true ∧ (windowAt (windowed .safe) 1023).target ≠ 0 ∧ 32 % 4096 + 4064 ≤ 4096 ∧
    32 + 4064 ≤ 2 ^ (windowAt (windowed .safe) 1023).size ∧ (windowAt (windowed .safe) 1023).base + 32 + 4064 ≤ hbmSize (windowed .safe) ∧
    Carried true hdr ∧ Observed anySt hdr (base .ready) ∧ Observed bootAny hdr (base .boot) ∧ ticking (base .boot) = true ∧
    ticking { base .boot with time := { (base .boot).time with next := none } } = false := by and_intros <;> decide +kernel

/-- A write of ALIGN_DEPTH. -/
def depth (d : Nat) : CfgEntry := ⟨0x48, ones 47 32, d * 2 ^ 32⟩

theorem witness_ConfigWritesTakeEffect : cfgEntriesOf (.alignDepthWrite hdr 32) = some (hdr, [depth 32]) ∧
    Accepted 0x105 anySt false false hdr (base .ready) ∧ Carried false hdr ∧ (base .ready).acq.replay.running = false ∧ hdr.at_ = none ∧
    cfgTickBound [depth 32] = false ∧ cfgCheck (begun 0x105 hdr (base .ready)) [depth 32] = none ∧
    (∃ r ∈ (cfgCheck (begun 0x105 hdr (base .running)) [depth 32]).toList, r.1 ≠ 0 ∧ r.2 < 2 ^ 32) ∧
    cfgTickBound [⟨0x70300, 0xFFFF, 0⟩] = true ∧ cfgCheck (begun 0x105 hdr (base .ready)) [⟨0x70300, 0xFFFF, 0⟩] = none ∧
    (∃ e ∈ List.range 40, (engAt (cfgApply [⟨0x30000 + 0x40 * 39, 2 ^ 63, 0⟩] (begun 0x105 hdr (busyEngine 39))) e).stopping = true) := by and_intros <;> decide +kernel

theorem witness_RegisterWriteStores : (regKind 0x48).isSome = true ∧ regKind 0x4C = none := by and_intros <;> decide +kernel

/-- A load of the smallest image the loader places; its digest is SHA3-512 over its header (computed outside Lean). -/
def smallest : Image := { ii := 256, tileCounts := [0, 0, 0, 0], digest :=
  0x1e84c3dcb174605dffc3b42ee90775776e36b888c7265d058b4d52f1f900ffccffd63f6e8e66487bcc051ec9d298fa962e300046fcec9d2b7be80e59bcd935cb#512 }
def load (stall : Nat) : LoadReq := { place := 0xFFFFFFFF, stallExp := stall, img := smallest }

/-- The last handle holds a staged section without tiles. -/
def stagedSec (st : DevSt) : State := { base st with grid := { (base st).grid with secs := [(15, { staged := true })] } }

theorem witness_SectionsComeAndGo_load : Carried false hdr ∧ Accepted 0x201 anySt false true hdr (base .ready) ∧
    Accepted 0x201 anySt false true hdr (base .safe) ∧ (base .safe).dev.st ∉ stRLAUP ∧ (base .ready).dev.st ∈ stRLAUP ∧
    quadsReady (base .ready) (load 16) = true ∧ placeOk (load 16).img (load 16).place = true ∧
    ((load 32).stallExp = 0 ∨ (16 ≤ (load 32).stallExp ∧ (load 32).stallExp ≤ 32)) := by and_intros <;> decide +kernel

theorem witness_SectionsComeAndGo_placed : swapPending (base .ready) = false ∧ (base .ready).ctl.loadQueue = [] ∧
    (placeQuads (load 16)).any (shadowClaimed (begun 0x201 hdr (base .ready))) = false ∧
    (match (runLoader (begun 0x201 hdr (base .ready)) (stAUP.contains (base .ready).dev.st) (load 16)).2 with | .ok _ => true | .error _ => false) = true ∧
    swapPending { base .ready with grid := { (base .ready).grid with swap := some { ts := 20, outs := [], ins := [], endTick := 21 } } } = true := by
  and_intros <;> decide +kernel

theorem witness_SectionsComeAndGo_others : Accepted 0x202 stRL false false hdr (placed .loaded) ∧ (secAt (placed .loaded) 15).resident = true ∧
    Accepted 0x203 stAUP false true hdr (stagedSec .running) ∧ swapCheck [] [15] (begun 0x203 hdr (stagedSec .running)) = none := by
  and_intros <;> decide +kernel

theorem witness_SectionCommandsWrite_tiles : Carried false hdr ∧ Accepted 0x207 stLAUP false true hdr (placed .running) ∧
    tabOk (placed .running) { hd := 15, vq := 0, col := 11, row := 9, mask := 15 } = true ∧ Accepted 0x208 stLAUP false true hdr (placed .running) ∧
    siteIn (placed .running) 15 0 11 9 = some (3, 11, 9) ∧ siteClass 11 9 = some .memory ∧ running (placed .running) 15 = false ∧
    isFixed (secAt (placed .running) 15) = true ∧ lineInUse (tileAt (placed .running) 3 11 9) 65535 = false ∧
    lineInUse { tileAt (placed .running) 3 11 9 with ags := [{ len := 1 }] } 0 = true ∧
    bankFull (placed .running) 15 3 11 9 65535 = false ∧ writeWaits (placed .running) 15 = false ∧
    Accepted 0x20A stLAUP false false hdr (placed .running) ∧ (siteIn (placed .running) 15 0 11 9).isSome = true := by and_intros <;> decide +kernel

theorem witness_SectionCommandsWrite_images : Accepted 0x206 [.loaded, .paused] false true hdr (base .paused) ∧
    restoreStatus (begun 0x206 hdr (base .paused)) { digestOk := false } ≠ 0 ∧ Accepted 0x205 [.loaded, .paused] false false hdr (windowed .loaded) ∧
    ((windowed .loaded).t2.ctxs.any fun e => e.2.st == .deliver) = false ∧ (windowed .loaded).pwr.saving = none ∧
    rangeOk (begun 0x205 hdr (windowed .loaded)) true (1023 * 2 ^ 54) 160 = true := by and_intros <;> decide +kernel

theorem witness_SectionCommandsWrite_restore :
    restoreStatus (begun 0x206 hdr (base .paused)) { config := configDigest (begun 0x206 hdr (base .paused)) } = 0 := by
  have h : residents (begun 0x206 hdr (base .paused)) = [] := by decide +kernel
  simp [restoreStatus, h]


/-- The same site with an error of the line that cannot be corrected: the host reads it, and MEM_UE counts. -/
theorem test_tile_read_bad : cget (tileAt (run (.tileRead hdr 15 0 11 9 65535 .bad) (placed .running)) 3 11 9).cnt cMemUe = 1 := by decide +kernel
/-- Lane 0 enabled with 256 channels. -/
def laneOn (st : DevSt) : State := setReg (laneCfgOff 0) (2 ^ 31) (base st)

theorem witness_ZoneCommandsSet_front : Carried false hdr ∧ Accepted 0x301 stRL false true hdr (laneOn .ready) ∧ 4095 + [0].length ≤ 4096 ∧
    cfgCheck (begun 0x301 hdr (laneOn .ready)) ([0].zipIdx.map fun (v, i) => ({ off := ctxOff (4095 + i), mask := ones 31 16, value := v } : CfgEntry)) = none ∧
    Accepted 0x302 stRL false true hdr (setReg (ctxOff 4095) (2 ^ 31) (base .ready)) ∧
    groupOk (begun 0x302 hdr (setReg (ctxOff 4095) (2 ^ 31) (base .ready))) 1023 oneChannel = true ∧
    templatesFit (groupSet 1023 oneChannel (begun 0x302 hdr (setReg (ctxOff 4095) (2 ^ 31) (base .ready)))) = true ∧ Accepted 0x303 stRLAUP false true hdr (base .running) ∧
    8191 + [({} : PrimDesc)].length ≤ 8192 ∧ [({} : PrimDesc)].all primOk = true ∧ Accepted 0x304 stRLP false true hdr (base .paused) ∧
    measOk { en := true, chan := 4095 } = true := by and_intros <;> decide +kernel

theorem witness_ZoneCommandsSet_calibration : Accepted 0x305 anySt false true hdr (base .ready) ∧ [({ item := 1, index := 0, value := 0 } : CalEntry)].all calEntryOk = true ∧
    [({ item := 1, index := 0, value := 0 } : CalEntry)].any (fun e => calWhen e == 1) = false ∧ inReady (base .ready) = true ∧
    Accepted 0x306 stRLAUP false true hdr (base .running) ∧ calBlockOk (base .running).fe.cal.flash = false ∧
    Accepted 0x308 stRLAUP false true hdr (base .running) ∧
    combLineOk (begun 0x308 hdr (base .running)) 255 { in1 := List.replicate 6 0xFFE, in2 := List.replicate 6 0xFFE } = true := by
  and_intros <;> decide +kernel

/-- A block of the flash with no entry is whole and keeps its version. -/
theorem witness_ZoneCommandsSet_block : calBlockOk (calBlock 5 []) = true ∧ 5 ≤ calVersion (calBlock 5 []) ∧ calVersion (calBlock 5 []) < 6 := by
  and_intros <;> decide +kernel

/-- The deep ring on with 1 GiB, and the last template enabled for one channel. -/
def ringed (st : DevSt) : State :=
  let s := setReg 0x1010 (2 ^ 63 + 1) (base st)
  { s with acq := { s.acq with templates := [(63, { en := true, cr := [(0, 1)] })] } }

theorem witness_RecordCommandsSet_ring : Carried false hdr ∧ Accepted 0x401 stRLAUP false true hdr (base .running) ∧
    templateOk (begun 0x401 hdr (base .running)) 63 {} = true ∧ Accepted 0x402 stRLAUP false true hdr (base .ready) ∧
    windowBusy (base .ready) 1023 = false ∧
    windowOk (setReg (0x40008 + 16 * 1023) (windowCtl {}) (setReg (0x40000 + 16 * 1023) 0 (begun 0x402 hdr (base .ready)))) 1023 = true ∧
    windowBusy (setEng 39 { cur := some { addr2 := 1023 * 2 ^ 54 }, done := 1 } (setReg (0x30000 + 0x40 * 39) (2 ^ 63) (base .ready))) 1023 = true ∧
    Accepted 0x403 stAUP false false hdr (ringed .running) ∧ ringOn (ringed .running) = true ∧ (templateAt (ringed .running) 63).en = true ∧
    ringGone (begun 0x403 hdr (ringed .running)) (firstTick (begun 0x403 hdr (ringed .running)) (extractReq 9 63 (ringed .running))) = false ∧
    ringGone (begun 0x403 hdr { ringed .running with acq := { (ringed .running).acq with tStart := some 10 } })
      (firstTick (begun 0x403 hdr (ringed .running)) (extractReq 9 63 (ringed .running))) = true := by and_intros <;> decide +kernel

theorem witness_RecordCommandsSet_engines : Accepted 0x404 anySt false false hdr (base .ready) ∧ (engAt (base .ready) 39).park = none ∧
    (∃ p, (engAt (setEng 39 { park := some { cause := 4, index := 0, done := 0, addr := 0, user := 0 } } (base .ready)) 39).park = some p) ∧
    Observed anySt hdr (base .safe) ∧ ticking (base .safe) = true ∧ ticking { base .safe with time := {} } = false :=
  ⟨by and_intros <;> decide +kernel, by decide +kernel, ⟨_, rfl⟩, by and_intros <;> decide +kernel, by decide +kernel, by decide +kernel⟩

/-- A recording of one tick, held in the area at 2 GiB. -/
def recorded : Rec := { area := 2 ^ 31, size := 2 ^ 26, done := true }

theorem witness_RecordingCommands : Carried false hdr ∧ Accepted 0x406 [.loaded, .paused] false false hdr (ringed .loaded) ∧
    (ringed .loaded).acq.replay.running = false ∧
    areasOk { begun 0x406 hdr (ringed .loaded) with acq := { (begun 0x406 hdr (ringed .loaded)).acq with recg := recorded } } = true ∧
    (∀ l, l < 96 → (laneCfg (regAt (ringed .loaded)) l).en = true → (laneCfg (regAt (ringed .loaded)) l).ringEn = true) ∧
    usesFabRx (ringed .loaded) = false ∧ Accepted 0x407 [.loaded] false true hdr (ringed .loaded) ∧
    Accepted 0x408 [.ready, .loaded, .paused] false false hdr (setReg (0x30000 + 0x40 * 31) (2 * 2 ^ 61) (ringed .ready)) ∧
    engSrc (setReg (0x30000 + 0x40 * 31) (2 * 2 ^ 61) (ringed .ready)) 31 = 2 ∧ (engAt (ringed .ready) 31).cur = none ∧
    (engAt (ringed .ready) 31).park = none ∧ (ringed .ready).pwr.saving = none ∧ Accepted 0x409 stRL false true hdr (ringed .ready) ∧
    areasOk { begun 0x409 hdr (ringed .ready) with acq := { (begun 0x409 hdr (ringed .ready)).acq with recg := recorded } } = true ∧
    (∀ x ∈ [(5, List.replicate 32 0#8)], x.2.length = slotBytes (ringed .ready)) ∧ 1 ≤ ringDepth (ringed .ready) := by and_intros <;> decide +kernel

theorem unle_le (n v : Nat) : unle (le n v) = v % 256 ^ n := by
  induction n generalizing v with
  | zero => simp [le, unle, Nat.mod_one]
  | succ n ih =>
    simp only [le, unle, ih, BitVec.toNat_ofNat, Nat.reducePow]
    rw [Nat.pow_succ, Nat.mul_comm (256 ^ n) 256, Nat.mod_mul]

theorem unle_append_zero (l : List Byte) (n : Nat) : unle (l ++ List.replicate n 0#8) = unle l := by
  induction l with
  | nil => induction n with
    | zero => rfl
    | succ n ih => rw [List.replicate_succ]; simp only [List.nil_append] at ih ⊢; simp [unle, ih]
  | cons a t ih => simp [unle, ih]

theorem le_length (n v : Nat) : (le n v).length = n := by
  induction n generalizing v with
  | zero => rfl
  | succ n ih => simp [le, ih]

/-- A recording whose START entry names tick 0, II and a digest of the configuration. -/
def startedWith (d : BitVec 512) : Rec :=
  { recorded with log := [{ type := 1, tick := 0, body := le 4 0 ++ le 4 256, more := le 64 d.toNat }] }

/-- The ring of LOADED holds tick 0, and r is kept. -/
def keeping (r : Rec) : State :=
  { ringed .loaded with acq := { (ringed .loaded).acq with tStart := some 0, newest := some 0, recorded := [r] } }

theorem unle_digest (d : BitVec 512) : unle (slice 0 64 (le 64 d.toNat)) = d.toNat := by
  rw [slice, List.drop_zero, List.take_of_length_le (by simp [le_length]), le_length,
    show (List.replicate (64 - (64 - 0)) 0 : List Byte) = List.replicate 0 0#8 from rfl, unle_append_zero, unle_le]
  exact Nat.mod_eq_of_lt (lt_of_lt_of_eq d.isLt (Nat.pow_mul 2 8 64))

theorem witness_RecordingCommands_replay : ∃ r, (keeping r).acq.recorded.find? (fun x => x.area == 2 ^ 31) = some r ∧
    Accepted 0x407 [.loaded] false true hdr (keeping r) ∧ replayOk (begun 0x407 hdr (keeping r)) r [] = true := by
  refine ⟨startedWith (configDigest (ringed .loaded)), rfl, ?_, ?_⟩
  · generalize configDigest (ringed .loaded) = d
    exact (by and_intros <;> decide +kernel : Accepted 0x407 [.loaded] false true hdr (ringed .loaded))
  · have hc : ∀ r, configDigest (begun 0x407 hdr (keeping r)) = configDigest (ringed .loaded) := fun _ => rfl
    have hr : ∀ r, ringHolds (begun 0x407 hdr (keeping r)) 0 = true := fun r =>
      (show ringHolds (begun 0x407 hdr (keeping r)) 0 = ringHolds (begun 0x407 hdr (keeping recorded)) 0 from rfl).trans (by decide +kernel)
    have hi : ∀ r, iiOf (begun 0x407 hdr (keeping r)) = 256 := fun r =>
      (show iiOf (begun 0x407 hdr (keeping r)) = iiOf (begun 0x407 hdr (keeping recorded)) from rfl).trans (by decide +kernel)
    unfold replayOk
    simp only [hc, hi]
    generalize configDigest (ringed .loaded) = d
    simp only [startedWith, List.head?_cons, unle_digest, List.getLast?_singleton]
    simp only [logImages, List.filter_cons, List.filter_nil, hr]
    rw [show unle (slice 4 4 (le 4 0 ++ le 4 256)) = 256 by decide +kernel, show ((1 : Nat) == 5) = false from rfl]
    simp

/-- The device with SRC = PTP_CLIENT, which no command steers. -/
def steered : State := setReg 0x60000 (regAt (base .ready) 0x60000 / 8 * 8 + 1) (base .ready)

/-- The device whose rate is at its limit. -/
def limit : State := { base .running with time := { (base .running).time with rate := -219902325 } }

theorem witness_TimeCommands_set : Carried false hdr ∧ Accepted 0x501 stRL false false hdr (base .ready) ∧ steerable (base .ready) = true ∧
    Accepted 0x501 stRL false false hdr steered ∧ steerable steered = false ∧ Accepted 0x502 anySt false false hdr (base .running) ∧
    (-219902325 : Int).natAbs ≤ 219902325 ∧ steerable (base .running) = true ∧ Accepted 0x502 anySt false false hdr steered ∧
    Accepted 0x503 anySt false false hdr limit ∧ limit.time.rate.natAbs = 219902325 ∧ (1 : Int) ≠ 0 ∧
    (2 ^ 16 * 10 ^ 9 : Int).natAbs ≤ 2 ^ 16 * 10 ^ 9 ∧ ¬ (base .running).time.rate.natAbs = 219902325 := by and_intros <;> decide +kernel

theorem witness_TimeCommands_events : Accepted 0x505 anySt false false hdr (base .ready) ∧
    timedCheck (begun 0x505 hdr (base .ready)) 15 { en := true, periodic := true, period := 1, width := 65535, phase := 255 }
      (timedAt hdr (begun 0x505 hdr (base .ready))).1 (timedAt hdr (begun 0x505 hdr (base .ready))).2 = none ∧
    Accepted 0x506 stRL false false hdr (base .ready) ∧
    7 % max (bits (regAt (base .ready) 0x60010) 47 32) 1 = bits (regAt (base .ready) 0x60010) 31 16 ∧
    Accepted 0x507 stRL false false hdr (base .ready) ∧ ptpOk { syncLog := -7, delayLog := 6, annLog := 4 } = true ∧
    Accepted 0x508 anySt false false hdr (base .safe) ∧ (base .safe).time.tsWait.length < 16 := by and_intros <;> decide +kernel

/-- A plan of this device alone. -/
def alone : Plan := { fKHz := gridKHz (member .ready), ii := 256, waive := true, c := 12288, devs := [{ id := 0, uid := 1 }] }

theorem witness_FabricCommands_members : Carried false hdr ∧ Accepted 0x601 stRL false false hdr (base .ready) ∧ Accepted 0x602 stRL false false hdr (base .ready) ∧
    idMapOk [(1, 1), (2, 1023)] = true ∧ idMapOk [(1, 1024)] = false ∧ Accepted 0x603 stRL true false hdr (member .ready) ∧
    (member .ready).fab.discovering = false ∧ (member .ready).fab.member = true ∧ (member .ready).ctl.holder = some (srcOf hdr) ∧
    (member .ready).fab.isMaster = true ∧ planCheck (member .ready) alone = none ∧
    (∃ n ∈ (planCheck (member .ready) { alone with ii := 0 }).toList, n < 2 ^ 32) ∧
    Accepted 0x604 stRL false false hdr (member .loaded) ∧ startFit (member .loaded) = true ∧ placesActive (member .loaded) = true ∧
    ticking (member .loaded) = true ∧ leadOk (begun 0x604 hdr (member .loaded)) 20000 = true ∧
    nowL (begun 0x604 hdr (member .loaded)) + 2 * 10 ^ 6 * 65536 ≤ edgeL (begun 0x604 hdr (member .loaded)) 20000 := by and_intros <;> decide +kernel

/-- A member with a route to device 1023. -/
def routed : State := { member .ready with fab := { (member .ready).fab with eroute := [(1023, 2 ^ 15 + 35)] } }

theorem witness_FabricCommands_others : Accepted 0x606 stRL false false hdr (member .ready) ∧ (∃ e ∈ (member .ready).fab.given_ids, e.2 = 1023) ∧
    Accepted 0x607 stRLP false false hdr (base .paused) ∧ engSrc (base .paused) 31 = 0 ∧ Accepted 0x608 anySt false false hdr (base .safe) ∧
    observeOps.contains (unle (slice 2 2 (List.replicate 32 0#8))) = false ∧ erouteOf (base .safe) 5 = 0 ∧
    erouteOf routed 1023 ≠ 0 ∧ erouteOf routed 1023 ≠ 128 ∧ 1023 ∉ routed.fab.lost ∧ Accepted 0x608 anySt false false hdr routed ∧
    Observed anySt hdr routed ∧ observeOps.contains (unle (slice 2 2 ([0, 0, 4, 5] ++ List.replicate 28 0#8))) = true := by and_intros <;> decide +kernel

theorem witness_CareCommands_activities : Carried false hdr ∧ Accepted 0x701 anySt false false hdr (base .running) ∧
    maintOk (base .running) { act := 1, quad := 3, lines := [0, 15], ticks := 2 ^ 24 } = true ∧
    rotFit (base .running) { act := 1, quad := 3, lines := [0, 15], ticks := 2 ^ 24 } = true ∧
    claimed (base .running) { act := 1, quad := 3, lines := [0, 15], ticks := 2 ^ 24 } = false ∧ hdr.queue = false ∧
    claimed { base .running with flt := { (base .running).flt with takeover := some 3 } } { act := 6, quad := 3 } = true ∧
    claimed { base .running with flt := { (base .running).flt with acts := [{ h := 1, act := 3 }] } } { act := 3, share := 20 } = true ∧
    maintOk (base .running) { act := 3, share := 20 } = true ∧ Accepted 0x702 anySt false false hdr (base .safe) ∧
    ([{ h := 7, act := 5 }] : List Activity).find? (fun x => x.h == 7) = some { h := 7, act := 5 } := by and_intros <;> decide +kernel

/-- Q3 in the state q. -/
def quad3 (q : QuadSt) : State := { base .ready with dev := { (base .ready).dev with quads := [.active, .active, .active, q] } }

theorem witness_CareCommands_quadrants : Accepted 0x704 stRLAUP false false hdr (base .ready) ∧ quadMoveOk (base .ready) 3 0 = true ∧
    quadMoveOk (base .ready) 3 1 = true ∧ quadMoveOk (quad3 .idle) 3 2 = true ∧ quadMoveOk (quad3 .failed) 3 2 = true ∧ quadMoveOk (quad3 .standby) 3 0 = false ∧
    claimed (base .ready) { act := 6, quad := 3, core := 0 } = false ∧ claimed (quad3 .failed) { act := 6, quad := 3, core := 2 } = false ∧
    quadAt (quad3 .failed) 3 ≠ .idle ∧ Accepted 0x705 stRL false false hdr (base .ready) ∧ (base .ready).flt.takeover = none ∧
    quadRotating (base .ready) 3 = false ∧ (∀ r ∈ (base .ready).flt.remaps, r.q ≠ 3) ∧ (base .ready).dev.standby ≠ some 3 ∧
    quadAt (base .ready) 3 = .active ∧ sectionsOn (base .ready) 3 = [] ∧ sectionsOn (placed .loaded) 3 ≠ [] := by and_intros <;> decide +kernel

/-- A manifest of one part and one recipient that this device's OTP accepts. -/
def oneEntry : PartEntry := { type := 5, svn := 64, length := 64, digest := 3#512, compat := [(0, 0), (0, 0), (0, 0), (0, 0), (0, 0)] }
def bundle : Manifest := { bundleLen := 64, rootSlot := 3, rootPub := 9#512, parts := [oneEntry], rcpts := [(0, 1)] }
def rooted (st : DevSt) : State := { base st with part := { (base st).part with rootHash := [0#512, 0#512, 0#512, 9#512] } }

/-- The bytes of a manifest of one empty part and one recipient, device 1. -/
def manBytes1 : List Byte :=
  le 4 0x4E414D43 ++ le 2 1 ++ le 2 0x101 ++ le 4 9280 ++ le 4 9280 ++ le 8 0 ++ le 1 3 ++ zeros 103 ++
  (le 2 0x4005 ++ zeros 14 ++ le 4 9280 ++ zeros 236) ++ (zeros 8 ++ le 8 1 ++ zeros 1616) ++ zeros 7264

/-- The last window of the table over 16 KiB of host memory, and the root key of a manifest in OTP. -/
def keyed (m : List Byte) : State :=
  let s := setReg (0x40008 + 16 * 1023) (windowCtl { valid := true, target := 0, rd := true, wr := true, size := 14 })
    (setReg (0x40000 + 16 * 1023) 0x4000 (base .running))
  { s with part := { s.part with rootHash := [0#512, 0#512, 0#512, (manifestOf m).rootPub] } }

/-- Consecutive slices give the list back. -/
theorem slice_append (a b c : Nat) (l : List Byte) (h : a + b + c = l.length) : slice 0 a l ++ (slice a b l ++ (slice (a + b) c l ++ [])) = l := by
  have h1 : a - (l.length - 0) = 0 := by omega
  have h2 : b - (l.length - a) = 0 := by omega
  have h3 : c - (l.length - (a + b)) = 0 := by omega
  have h4 : (l.drop (a + b)).take c = l.drop (a + b) := List.take_of_length_le (by rw [List.length_drop]; omega)
  simp only [slice, h1, h2, h3, h4, List.replicate_zero, List.append_nil, List.drop_zero]
  rw [← List.drop_drop, List.take_append_drop, List.take_append_drop]

theorem le_len (n v : Nat) : (le n v).length = n := by
  induction n generalizing v with
  | zero => rfl
  | succ k ih => simp [le, ih]

theorem test_manifest_read : manBytes (begun 0x801 hdr (keyed manBytes1)) (1023 * 2 ^ 54) manBytes1 = manBytes1 := by
  have h1 : manLenAt (begun 0x801 hdr (keyed manBytes1)) (1023 * 2 ^ 54) manBytes1 = 9280 := by decide +kernel
  have h2 : chunksOf (begun 0x801 hdr (keyed manBytes1)) false (9280 / 4096 + 2) (1023 * 2 ^ 54) 0 9280 =
      [(.host 0x4000, 0, 4096), (.host 0x5000, 4096, 4096), (.host 0x6000, 8192, 1088)] := by decide +kernel
  rw [manBytes, h1, bundleBytes, h2]
  exact slice_append 4096 4096 1088 manBytes1 (by simp only [manBytes1, zeros, List.length_append, List.length_replicate, le_len])

theorem witness_UpdateCommands_begin : Accepted 0x801 notSafe false false hdr (keyed manBytes1) ∧
    rangeOk (begun 0x801 hdr (keyed manBytes1)) false (1023 * 2 ^ 54) 128 = true ∧
    rangeOk (begun 0x801 hdr (keyed manBytes1)) false (1023 * 2 ^ 54) (givenLen (begun 0x801 hdr (keyed manBytes1)) (1023 * 2 ^ 54) 9280 false (manBytes1 ++ [])) = true ∧
    manifestOk (manBytes (begun 0x801 hdr (keyed manBytes1)) (1023 * 2 ^ 54) (manBytes1 ++ [])) 9280 = true ∧
    rcptOk (keyed manBytes1) (manifestOf (manBytes (begun 0x801 hdr (keyed manBytes1)) (1023 * 2 ^ 54) (manBytes1 ++ []))) = true ∧
    (keyed manBytes1).upd.holder = none ∧ midUpdate (keyed manBytes1) = false ∧ (∀ a ∈ (keyed manBytes1).flt.acts, a.act ≠ 0x83) := by
  and_intros <;> decide +kernel

/-- The root key of that manifest is the device's: its hash stands in slot 3. -/
theorem witness_UpdateCommands_root :
    rootOk (keyed manBytes1) (manifestOf (manBytes (begun 0x801 hdr (keyed manBytes1)) (1023 * 2 ^ 54) (manBytes1 ++ []))) = true := by
  have h1 : (manifestOf manBytes1).rootSlot = 3 := by decide +kernel
  have h2 : (keyed manBytes1).part.rootRevoke = 0 := rfl
  have h3 : (keyed manBytes1).part.rootHash = [0#512, 0#512, 0#512, (manifestOf manBytes1).rootPub] := rfl
  rw [List.append_nil, test_manifest_read]
  simp [rootOk, h1, h2, h3]

/-- The lock held by host queue 0 with that bundle. -/
def locked (st : DevSt) : State := { rooted st with upd := { (rooted st).upd with holder := some 0, man := bundle, stagedLen := 64, overlay := true } }

theorem witness_UpdateCommands_session : Accepted 0x802 notSafe false false hdr (locked .running) ∧ (locked .running).upd.holder = some (srcOf hdr) ∧
    60 + [0#8, 0#8, 0#8, 0#8].length ≤ (locked .running).upd.man.bundleLen ∧ touchesApplied (locked .running) 60 4 = false ∧
    Accepted 0x803 notSafe false false hdr (locked .ready) ∧ 32 % 2 = 0 ∧ bits 32 14 6 = 0 ∧ chosen (locked .ready) 32 ≠ [] ∧
    (chosen (locked .ready) 32).length = (setBits 6 (32 % 64)).length ∧ Accepted 0x805 anySt false false hdr (locked .safe) ∧
    midUpdate (locked .safe) = false ∧
    midUpdate { locked .running with upd := { (locked .running).upd with parts := [{ st := .trial }] } } = true ∧
    Accepted 0x802 notSafe false false hdr (base .running) ∧ (base .running).upd.holder ≠ some (srcOf hdr) := by and_intros <;> decide +kernel

/-- The bytes of a response of the second debug authority for level l of device 1, nonce 1. -/
def respBytes (l : Nat) : List Byte := responseBytes 0x47554244 l 1 1 1#256 (zeros 7219)

/-- A challenge outstanding, the hash of the authority's key in OTP, the response in host memory. -/
def respond (l : Nat) : State :=
  let s := keyed manBytes1
  { s with part := { s.part with debugHash := [0#512, (responseOf (respBytes l)).pub] }, upd := { s.upd with nonce := some 1#256, refusals := 7 } }

theorem test_response_read (l : Nat) (hl : l = 0 ∨ l = 2) :
    bundleBytes (begun 0x807 hdr (respond l)) (1023 * 2 ^ 54) 7267 (respBytes l) = respBytes l := by
  have h2 : chunksOf (begun 0x807 hdr (respond l)) false (7267 / 4096 + 2) (1023 * 2 ^ 54) 0 7267 =
      [(.host 0x4000, 0, 4096), (.host 0x5000, 4096, 3171)] := by rcases hl with rfl | rfl <;> decide +kernel
  rw [bundleBytes, h2]
  have h := slice_append 4096 3171 0 (respBytes l) (by simp only [respBytes, responseBytes, zeros, List.length_append, List.length_replicate, le_len])
  simpa [slice] using h

/-- That the hash of the authority's key is not zero is a hypothesis here: it would need the hash itself. -/
theorem witness_UpdateCommands_debug (hk : (responseOf (respBytes 2)).pub ≠ 0#512) : Accepted 0x806 anySt false false hdr (base .running) ∧
    (base .running).upd.spdmBusy = false ∧ Accepted 0x807 anySt false false hdr (respond 2) ∧ (respond 2).upd.spdmBusy = false ∧
    (respond 2).upd.refusals < 8 ∧ rangeOk (begun 0x807 hdr (respond 2)) false (1023 * 2 ^ 54) 7267 = true ∧
    responseForm 7267 (responseOf (respBytes 2)) = true ∧ (responseOf (respBytes 2)).level ≠ 0 ∧
    (respond 2).upd.nonce = some (responseOf (respBytes 2)).nonce ∧ (responseOf (respBytes 2)).uid = (respond 2).part.uid ∧
    (respond 2).part.debugHash.getD (responseOf (respBytes 2)).slot 0#512 = (responseOf (respBytes 2)).pub ∧
    (respond 2).part.debugHash.getD (responseOf (respBytes 2)).slot 0#512 ≠ 0#512 ∧
    responseForm 8 (responseOf (respBytes 0)) = true ∧ (responseOf (respBytes 0)).level = 0 := by
  have hs : (responseOf (respBytes 2)).slot = 1 := by decide +kernel
  have hd : (respond 2).part.debugHash = [0#512, (responseOf (respBytes 2)).pub] := rfl
  refine ⟨by decide +kernel, by decide +kernel, by decide +kernel, by decide +kernel, by decide +kernel, by decide +kernel, by decide +kernel, by decide +kernel,
    by decide +kernel, by decide +kernel, ?_, ?_, by decide +kernel, by decide +kernel⟩
  · rw [hs, hd]; rfl
  · rw [hs, hd]; exact hk

/-- SHA3-512 of the empty message, as FIPS 202 gives it. -/
theorem test_sha3_empty : sha3Num [] = 0x26cd1d2886857501e3d3b6959d1900f558c53a2c40e9e3114cf9f5f13a12b215a6805c47c1dcd1e05958e24f1682c9976e755a18dc67b5c8c59a3aa2cc739fa6#512 := by
  decide +kernel

/-- The lock held with a bundle whose one part is empty, with digest d. -/
def emptyPart (d : BitVec 512) : PartEntry := { oneEntry with length := 0, digest := d }
def lockedEmpty (d : BitVec 512) : State :=
  { rooted .ready with upd := { (rooted .ready).upd with holder := some 0, man := { bundle with parts := [emptyPart d] } } }

/-- Whether a GCM tag verifies is free (Config), so that hypothesis is taken as it is. -/
theorem witness_UpdateCommands_apply (d : BitVec 512) (hd : sha3Num [] = d) (hg : Config.gcmOk bundle.digest 5 [] = true) :
    applyCheck 32 [] (lockedEmpty d) = none := by
  have hp : partVerifies (lockedEmpty d) (emptyPart d) = true := by
    have hr : rootOk (lockedEmpty d) (lockedEmpty d).upd.man = true :=
      (show rootOk (lockedEmpty d) (lockedEmpty d).upd.man = rootOk (rooted .ready) bundle from rfl).trans (by decide +kernel)
    have hc : rcptOk (lockedEmpty d) (lockedEmpty d).upd.man = true :=
      (show rcptOk (lockedEmpty d) (lockedEmpty d).upd.man = rcptOk (rooted .ready) bundle from rfl).trans (by decide +kernel)
    unfold partVerifies
    simp only [Bool.and_eq_true]
    refine ⟨⟨⟨⟨rfl, hr⟩, hc⟩, ?_⟩, hg⟩
    show (sha3Num [] == d) = true
    rw [hd, beq_self_eq_true]
  have hc : chosen (lockedEmpty d) 32 = [emptyPart d] := List.filter_cons_of_pos (show bit 32 5 = true by decide)
  unfold applyCheck
  simp only [hc, List.all_cons, List.all_nil, hp]
  have h1 : ¬ (!(decide ((lockedEmpty d).part.svn.getD ((emptyPart d).type - 1) 0 ≤ (emptyPart d).svn) && true)) = true :=
    (by decide : ¬ (!(decide ((rooted .ready).part.svn.getD (oneEntry.type - 1) 0 ≤ oneEntry.svn) && true)) = true)
  have h2 : orderOk [emptyPart d] ((lockedEmpty d).upd.parts.map (·.version)) ((lockedEmpty d).upd.parts.map (·.compat)) = true :=
    (show _ = (setOk [0, 0, 0, 0, 0] [[], [], [], [], oneEntry.compat] && true) from rfl).trans (by decide +kernel)
  have h3 : midUpdate (lockedEmpty d) = false := (show _ = midUpdate (rooted .ready) from rfl).trans (by decide +kernel)
  have h4 : inFabric (lockedEmpty d) = false := rfl
  rw [if_neg (by simp), if_neg h1, if_neg (by simp [h2]), if_neg (by simp [h4]), if_neg (by simp [emptyPart, oneEntry]), if_neg (by simp [h3]),
    if_neg (by simp [h4]), if_neg (by simp [emptyPart, oneEntry])]

/-- Queue 63 enabled with 4,096 entries, one submitted, one reply waiting. -/
def queued (st : DevSt) : State :=
  let s := setReg (0x10010 + 0x40 * 63) (2 ^ 63 + 8 * 2 ^ 59) (base st)
  { s with ctl := { s.ctl with queues := [(63, { tail := 1 })], replies := [{ source := 63 * 65536, seq := 1, opcode := 0x101 }] } }

theorem witness_HostRegisterAccess : (base .ready).dev.st ≠ .off ∧ regKind (0x10000 + 0x40 * 63) = some (.sqBase, 63) ∧
    regKind (0x10008 + 0x40 * 63) = some (.qcqBase, 63) ∧ regKind 0x48 = some (.decision, 0) ∧ regKind 4 = none ∧
    bit (regAt (queued .ready) (0x10010 + 0x40 * 63)) 63 = true ∧ bits (regAt (queued .ready) (0x10010 + 0x40 * 63)) 62 59 ≤ 8 ∧
    ¬ (0x2000000 ≤ 0x1FFFFFF ∧ 0x1FFFFFF < 0x2100000) ∧ ¬ (0x2000000 ≤ 0x2100000 ∧ 0x2100000 < 0x2100000) ∧
    (0x2000000 ≤ 0x20FFFFF ∧ 0x20FFFFF < 0x2100000) ∧ ((2 ≠ 4 ∧ 2 ≠ 8) ∨ 0 % 2 ≠ 0) ∧ ((8 ≠ 4 ∧ 8 ≠ 8) ∨ 4 % 8 ≠ 0) ∧
    (0x5FFF8 % 8 = 0 ∧ 0x5FFF8 < 0x60000) ∧ (base .ready).dev.st ≠ .boot ∧ (base .ready).host.latch = none ∧ 255 ∉ (base .ready).host.pba ∧
    255 ∈ { base .ready with host := { (base .ready).host with pba := [255] } }.host.pba := by and_intros <;> decide +kernel

theorem witness_DoorbellsMove_queues : (queued .running).dev.st ≠ .off ∧ (queued .running).pwr.saveOk = true ∧
    bit (regAt (queued .running) (0x10010 + 0x40 * 63)) 63 = true ∧ 2 ^ (bits (regAt (queued .running) (0x10010 + 0x40 * 63)) 62 59 + 4) = 4096 ∧
    dist16 4096 (queueAt (queued .running) 63).head ≤ 4096 ∧ dist16 4096 (queueAt (queued .running) 63).tail ≤ 4096 - 1 ∧
    ¬ dist16 4097 (queueAt (queued .running) 63).head ≤ 4096 ∧
    dist16 0 (queueAt (queued .running) 63).ci ≤ (queueAt (queued .running) 63).wr - (queueAt (queued .running) 63).ci ∧
    ¬ dist16 1 (queueAt (queued .running) 63).ci ≤ (queueAt (queued .running) 63).wr - (queueAt (queued .running) 63).ci := by and_intros <;> decide +kernel

/-- The event ring enabled for every severity, with one unit written. -/
def eventful : State :=
  let s := setReg 0x20008 (2 ^ 63) (base .running)
  { s with host := { s.host with evHead := 1, raised := [{ eseq := 2, tick := 9, sec := 0, ns := 0, e := { code := 0x71, sev := 0 } }] } }

theorem witness_DoorbellsMove_rings : (engEn (busyEngine 39) 39 = true ∧ dist16 2 (engAt (busyEngine 39) 39).ci ≤ engSize (busyEngine 39) 39 ∧
    (engAt (busyEngine 39) 39).pi - (engAt (busyEngine 39) 39).ci ≤ dist16 2 (engAt (busyEngine 39) 39).ci) ∧ (busyEngine 39).pwr.saveOk = true ∧
    evqEn eventful = true ∧ dist16 1 eventful.host.evTail ≤ eventful.host.evHead - eventful.host.evTail ∧
    ¬ dist16 2 eventful.host.evTail ≤ eventful.host.evHead - eventful.host.evTail ∧ eventful.pwr.saveOk = true := by and_intros <;> decide +kernel

theorem witness_QueuesServe_queues : (queued .running).pwr.saveOk = true ∧ canTake (queued .running) 63 = true ∧ 63 ∉ (queued .running).ctl.served ∧
    (0 ∈ { queued .running with ctl := { (queued .running).ctl with served := [0] } }.ctl.served) ∧
    ((queued .running).ctl.replies.find? (fun r => r.source / 65536 % 4096 == 63)).isSome = true ∧
    bit (regAt (queued .running) (0x10010 + 0x40 * 63)) 63 = true ∧ (queueAt (queued .running) 63).wr - (queueAt (queued .running) 63).ci < 4096 ∧
    4096 ≤ (queueAt (setQueue 63 { wr := 4096 } (queued .running)) 63).wr := by and_intros <;> decide +kernel

theorem witness_QueuesServe_events : eventful.host.raised ≠ [] ∧ evqEn eventful = true ∧ bits (regAt eventful 0x20008) 58 56 ≤ 0 ∧
    eventful.host.evLostMark = 0 ∧ ceilDiv 32 64 ≤ evRoom eventful ∧ evqEn (base .running) = false ∧
    evRoom { eventful with host := { eventful.host with evHead := 63 } } < ceilDiv 32 64 ∧ 3 ∉ eventful.host.merged ∧
    (msixAt { eventful with host := { eventful.host with msix := [(3, { masked := false })], merged := [3] } } 3).masked = false ∧
    (engAt (setEng 39 { stopping := true } (base .running)) 39).stopping = true ∧ (engAt (setEng 39 { stopping := true } (base .running)) 39).cur = none := by
  and_intros <;> decide +kernel

theorem witness_ApertureAccess : (base .running).dev.st ≠ .off ∧ 268435452 + 4 ≤ (base .running).host.bar2Size ∧
    bar2Local (base .running) 268435452 + 3 < loaderBase (base .running) ∧
    loaderBase (setReg 0x58 (2038 * 2 ^ 28) (base .running)) ≤ bar2Local (setReg 0x58 (2038 * 2 ^ 28) (base .running)) 0 ∧
    (base .running).pwr.saving = none ∧ bar2May (setReg 0x58 (2 ^ 63) (base .running)) (areaOf (setReg 0x58 (2 ^ 63) (base .running)) 0) = true ∧
    bar2May (base .running) (areaOf (base .running) 0) = false ∧
    regAt (setReg 0x58 (2 ^ 28) (base .running)) 0x58 % 2 ^ 63 % 2 ^ 39 ≠ 0 ∧ regAt (base .running) 0x58 % 2 ^ 63 % 2 ^ 28 = 0 := by and_intros <;> decide +kernel

theorem witness_HostLossContained : (busyEngine 39).dev.st ≠ .off ∧ (engAt (busyEngine 39) 39).park = none ∧
    (engAt (busyEngine 39) 39).ci < (engAt (busyEngine 39) 39).pi ∧ engLive (busyEngine 39) 39 = true := by and_intros <;> decide +kernel

theorem witness_LinkTrains : (base .ready).dev.st ≠ .off ∧ (base .ready).dev.perstN = true ∧ bits (regAt (base .ready) 0x28) 2 0 = 7 ∧
    16 ≤ bits (regAt (base .ready) 0x28) 7 3 ∧ 16 ∈ [1, 2, 4, 8, 16] := by and_intros <;> decide +kernel

/-- One forwarded command waits for its reply, and one accepted command waits for tick 10. -/
def waiting (st : DevSt) : State :=
  { base st with ctl := { (base st).ctl with
      forwards := [{ jseq := 0, h := hdr, opcode := 0x608 }]
      waiting := [{ jseq := 1, h := hdr, opcode := 0x105, tick := some 10, eff := .cfg [⟨0x70300, 0xFFFF, 0⟩] }] } }

theorem witness_PacketServices : (waiting .running).ctl.forwards ≠ [] ∧ (waiting .running).dev.st ≠ .paused ∧ 5 ∉ (waiting .running).flt.roleWait ∧
    (∃ w ∈ (waiting .running).ctl.waiting, w.eff ≠ .none ∧ w.tick = some 10 ∧ 10 ≤ nowTick (waiting .running)) ∧ (waiting .paused).dev.st = .paused ∧
    5 ∈ { base .running with flt := { (base .running).flt with roleWait := [5] } }.flt.roleWait ∧
    (∀ w ∈ (base .running).ctl.waiting, w.eff ≠ .none → False) := by and_intros <;> decide +kernel

theorem witness_BadPacketHandled : (base .ready).dev.st ≠ .off ∧ hdr.transport = 0 ∧ { hdr with transport := 3 }.transport ≠ 0 := by decide +kernel

theorem witness_TickBegins : (base .running).time.next = some 11 ∧ (base .running).dev.st ≠ .off ∧ (base .running).dev.st ≠ .boot ∧
    (base .running).time.tickSt = .locked ∧ (base .running).dev.st ≠ .safe ∧ (base .safe).dev.st = .safe ∧
    { base .safe with dev := { (base .safe).dev with safeCause := 0x21 } }.dev.safeCause = 0x21 := by and_intros <;> decide +kernel

theorem witness_RunBegins : ∃ s u : State, s.dev.st = .armed ∧ s.dev.armAt = some 11 ∧ 10 < 11 ∧ 11 ≤ 11 ∧ u.dev.st = .paused ∧ u.dev.resumeAt = some 11 ∧
    u.restoring = none ∧ (base .running).dev.st ≠ .armed ∧ (base .running).dev.st ≠ .paused :=
  ⟨{ base .armed with dev := { (base .armed).dev with armAt := some 11 } }, { base .paused with dev := { (base .paused).dev with resumeAt := some 11 } },
    by and_intros <;> decide +kernel⟩

/-- The ladder at level k with a pressure of p shown, low for f edges. -/
def ladder (k p f : Nat) : State :=
  { base .running with acq := { (base .running).acq with level := k, shownPressure := p, lowRun := f } }

theorem witness_LadderMoves : counted (ladder 7 192 0) 10 = true ∧ nowTick (ladder 7 192 0) = 10 ∧ saving (ladder 7 192 0) = false ∧
    recordedFeedback (ladder 7 192 0) = false ∧ ladHi (ladder 7 192 0) ≤ (ladder 7 192 0).acq.shownPressure ∧
    (ladder 7 192 0).acq.level < ladMax (ladder 7 192 0) ∧ riseFree 10 (ladder 7 192 0) = true ∧
    (ladder 1 64 65536).acq.shownPressure < ladHi (ladder 1 64 65536) ∧ ladFall (ladder 1 64 65536) ≤ (ladder 1 64 65536).acq.lowRun ∧
    (ladder 1 64 65536).acq.shownPressure ≤ ladLo (ladder 1 64 65536) ∧ (ladder 1 64 65536).acq.lastChange ≠ some 10 ∧
    (ladder 1 64 65535).acq.lowRun < ladFall (ladder 1 64 65535) := by and_intros <;> decide +kernel

theorem witness_PauseDrainSwap : ∃ s u v : State, s.dev.pauseReq = true ∧ s.dev.st = .running ∧ s.dev.pauseAt = none ∧ noPass s = true ∧ nextDecided s < nowTick s ∧
    u.dev.pauseReq = true ∧ u.dev.st = .running ∧ u.dev.pauseAt = none ∧ noPass u = true ∧ nowTick u ≤ nextDecided u ∧
    v.dev.st = .paused ∧ v.dev.draining = true ∧ ctxInUse v = 0 ∧ devCnt v 19 = devCnt v 20 :=
  ⟨{ base .running with dev := { (base .running).dev with pauseReq := true } },
    { base .running with dev := { (base .running).dev with pauseReq := true }, comb := { (base .running).comb with decided := some 9 } },
    { base .paused with dev := { (base .paused).dev with draining := true } }, by and_intros <;> decide +kernel⟩

theorem witness_PauseDrainSwap_others : ∃ s u : State, s.dev.pauseReq = true ∧ noPass s = false ∧ 0 < ctxInUse s ∧
    ∃ w, u.grid.swap = some w ∧ (w.outs ≠ [] ∨ w.ins ≠ []) ∧ nowTick u < w.endTick :=
  ⟨{ placed .running with dev := { (placed .running).dev with pauseReq := true }, t2 := { (placed .running).t2 with passes := [(15, { ctx := some 0 })], ctxs := [(0, { st := .running })] } },
    { base .running with grid := { (base .running).grid with swap := some { ts := 9, outs := [1], ins := [], endTick := 11 } } },
    by decide +kernel, by decide +kernel, by decide +kernel, _, rfl, by decide +kernel, by decide +kernel⟩

/-- The last lane enabled with one 8-bit channel, up. -/
def laned : State :=
  let s := setReg (laneCfgOff 95) (2 ^ 31 + 2 ^ 13) (base .running)
  { s with fe := setLane s.fe 95 { up := true } }

/-- Its frame for the low tick bits t. -/
def frameOf (t : Nat) : List (BitVec 32) :=
  let body : List (BitVec 32) := [BitVec.ofNat 32 (2 ^ 24 + t), 65536#32, 5#32]
  sofWord :: body ++ [crc32c (wordBytes body)]

theorem witness_LaneRows_frames : (frameOf 1).headD 0#32 = sofWord ∧ ([0#32, 0#32, 0#32, 0#32, 1#32] : List (BitVec 32)).headD 0#32 ≠ sofWord ∧
    zoneOn laned = true ∧ (laneCfg (regAt laned) 95).en = true ∧ (laneAt laned.fe 95).up = true ∧
    lanePlen (laneCfg (regAt laned) 95) = 1 ∧ crc32c (wordBytes (((frameOf 1).drop 1).take 3)) = (frameOf 1).getD 4 0#32 ∧
    headerOk (laneCfg (regAt laned) 95) ((frameOf 1).getD 1 0#32).toNat ((frameOf 1).getD 2 0#32).toNat = true ∧
    oldestOpen (iiOf laned) (alignOf laned) 0 = 0 ∧ bits ((frameOf 1).getD 1 0#32).toNat 15 0 = 1 ∧
    bits ((frameOf 2).getD 1 0#32).toNat 15 0 = 2 ∧ bits ((frameOf 32767).getD 1 0#32).toNat 15 0 = 32767 ∧
    bits ((frameOf 32768).getD 1 0#32).toNat 15 0 = 32768 ∧ (∀ h ∈ (laneAt laned.fe 95).held, h.tick % 65536 ≠ 1) ∧
    ¬ crc32c (wordBytes (([0#32, 0#32, 0#32, 0#32, 1#32].drop 1).take 3)) = ([0#32, 0#32, 0#32, 0#32, 1#32] : List (BitVec 32)).getD 4 0#32 ∧
    headerOk (laneCfg (regAt laned) 95) 0 0 = false ∧ (laneAt (base .running).fe 95).up = false := by and_intros <;> decide +kernel

theorem witness_LaneRows_edges : zoneOn (base .running) = true ∧ 0 < iiOf (base .running) ∧
    (∀ p : Nat × Nat, p = (127999, 0) ∨ p = (128000, 1) →
      let ps : Int := (p.1 : Int) - (calEffective (base .running) 2 7).1
      let g := ps.toNat * 2 ^ 32 * iiOf (base .running) / (max (periodOf (base .running)) 1 * 1000)
      (p.2 = 0 ∧ g < alignOf (base .running)) ∨ (0 < p.2 ∧ alignOf (base .running) + iiOf (base .running) * p.2 ≤ g + iiOf (base .running) ∧
        g < alignOf (base .running) + iiOf (base .running) * p.2)) := by
  refine ⟨by decide +kernel, by decide +kernel, fun p h => ?_⟩
  rcases h with rfl | rfl <;> decide +kernel

theorem witness_AlignmentTakesTick : zoneOn (base .running) = true ∧ (base .running).time.tick = some 10 ∧ 10 < 11 ∧ 10 ≤ 10 ∧
    counted (base .ready) 10 = false := by and_intros <;> decide +kernel

theorem witness_DecisionRows : counted (base .running) 0 = true ∧ 0 = nextDecided (base .running) ∧ counted (base .running) 11 = false ∧
    bit (regAt (base .running) (0x70200 + 4 * 7)) 31 = false := by and_intros <;> decide +kernel

/-- A tier-two section with the last handle, and its candidate in the state c, of tick 9. -/
def tierTwo (c : CtxSt) : State :=
  { base .running with
    grid := { (base .running).grid with secs := [(15, { resident := true, img := { kind := 1 }, place := [3], stallLimit := 65536 })] }
    t2 := { (base .running).t2 with ctxs := [(5, { st := c, tick := 9, handle := 15, entry := 100 })] } }

theorem witness_QueueRows_queue : (ctxAt (tierTwo .alloc) 5).st = .alloc ∧ (tierTwo .alloc).dev.st ≠ .safe ∧ (secAt (tierTwo .alloc) 15).resident = true ∧
    isFixed (secAt (tierTwo .alloc) 15) = false ∧ (secAt (tierTwo .alloc) 15).stopped = false ∧
    (secAt { base .running with t2 := (tierTwo .alloc).t2 } (ctxAt (tierTwo .alloc) 5).handle).resident = false ∧
    dispatchable (tierTwo .queued) 15 = true ∧ recordedFeedback (tierTwo .queued) = false ∧ (bestOf (queuedFor (tierTwo .queued) 15)).map (·.1) = some 5 ∧
    ringGone (tierTwo .queued) 9 = false ∧ ringGone { tierTwo .queued with acq := { (tierTwo .queued).acq with tStart := some 10 } } 9 = true ∧
    123 < earliest (tierTwo .queued) 15 5 ∧ earliest (tierTwo .queued) 15 5 ≤ 124 ∧ dispatchable (tierTwo .queued) 14 = false ∧
    queuedFor (tierTwo .alloc) 15 = [] ∧ counted (tierTwo .queued) 10 = true ∧ (ctxAt (tierTwo .queued) 5).st = .queued ∧
    10 ≤ (ctxAt (tierTwo .queued) 5).tick + bits (regFor (tierTwo .queued) 10 0x70100) 31 0 ∧
    (ctxAt (tierTwo .queued) 5).tick + bits (regFor (setReg 0x70100 0 (tierTwo .queued)) 10 0x70100) 31 0 ≤ 9 := by and_intros <;> decide +kernel

/-- A pass of that section, begun at cycle 124. -/
def passing (v : Option Nat) (gone : Bool) : State :=
  { tierTwo .running with t2 := { (tierTwo .running).t2 with passes := [(15, { ctx := if gone then none else some 5, start := 124, verdict := v, abandoned := gone })] } }

/-- A line is owed to it. -/
def owing (gone : Bool) : State :=
  { passing none gone with grid := { (passing none gone).grid with asks := [{ h := 15, q := 3, col := 9, row := 1, ag := 0, loop := 0, lines := [{}] }] } }

theorem witness_QueueRows_passes : running (passing (some 1) false) 15 = true ∧ (passAt (passing (some 1) false) 15).verdict = some 1 ∧
    (passAt (passing none false) 15).verdict = none ∧ (passAt (passing none true) 15).abandoned = true ∧ owedWords (passing none true) 15 = 0 ∧
    owedWords (owing true) 15 ≠ 0 ∧ (ctxAt (tierTwo .deliver) 5).st = .deliver ∧ (tierTwo .deliver).acq.reqs.length < 4096 ∧
    (passAt (passing none false) 15).start + (secAt (passing none false) 15).stallLimit ≤ 65660 ∧
    65659 < (passAt (passing none false) 15).start + (secAt (passing none false) 15).stallLimit := by and_intros <;> decide +kernel

theorem witness_QueueRows_full (s : State) : ∃ t : State, 4096 ≤ t.acq.reqs.length ∧ t.dev = s.dev :=
  ⟨{ s with acq := { s.acq with reqs := List.replicate 4096 { tick := 0, template := 0 } } },
    Nat.le_of_eq (List.length_replicate (n := 4096) (a := ({ tick := 0, template := 0 } : RecReq))).symm, rfl⟩

theorem witness_ParisonEnds : parAccepts .suspect true = true ∧ parAccepts .reject true = false ∧ ({ en := true } : TemplateDesc).en = true := by
  and_intros <;> decide +kernel

theorem witness_ReturnRows : 0 < cget (secAt (setSec 15 { resident := true, credits := [(3, 2)], returning := [(3, 1)] } (base .running)) 15).returning 3 ∧
    cget (secAt (base .running) 15).returning 3 = 0 ∧ takeLine 15 (base .running) = none ∧ (takeLine 15 (owing false)).isSome = true ∧
    (passAt (owing false) 15).ctx ≠ none ∧ (passAt (owing true) 15).ctx = none := by and_intros <;> decide +kernel

/-- The ring on in RUNNING since tick 0, tick 9 written. -/
def ringing : State :=
  let s := setReg 0x1010 (2 ^ 63 + 1) (base .running)
  { s with acq := { s.acq with tStart := some 0, newest := some 9 } }

/-- A ladder mark for destination d, whose record is 64 bytes. -/
def mark (d : Nat × Nat) : RecReq := { tick := 3, template := 0, mark := some (0, 1), dest := some d }

/-- It is requested; it is staged with so many bytes sent. -/
def requested : State := { base .running with acq := { (base .running).acq with reqs := [mark (0, 31)] } }
def stagedFor (d : Nat × Nat) (sent : Nat) : State :=
  { base .running with acq := { (base .running).acq with staged := [{ req := mark d, bytes := List.replicate 64 0#8, sent := sent }] } }

theorem witness_RecordRows_records : ringReady ringing 10 = true ∧ ringReady ringing 11 = false ∧
    (requested.acq.reqs.find? (fun r => reqDest r == (0, 31))) = some (mark (0, 31)) ∧ elasticOff requested = false ∧ windowReady requested (mark (0, 31)) = true ∧
    stagedBytes requested + (recordBytes requested (mark (0, 31))).1.length ≤ stageSize requested ∧
    stageSize (setReg 0x1020 0 requested) < stagedBytes (setReg 0x1020 0 requested) + (recordBytes (setReg 0x1020 0 requested) (mark (0, 31))).1.length ∧
    ((stagedFor (0, 31) 64).acq.staged.find? (fun r => reqDest r.req == (0, 31))).map (fun r => (r.sent, r.bytes.length, r.foreign)) = some (64, 64, false) ∧
    ((stagedFor (0, 31) 63).acq.staged.find? (fun r => reqDest r.req == (0, 31))).map (fun r => (r.sent, r.bytes.length)) = some (63, 64) ∧
    ((stagedFor (1, 0) 0).acq.staged.find? (fun r => reqDest r.req == (1, 0))).map (fun r => r.bytes.length) = some 64 ∧
    saving (stagedFor (1, 0) 0) = false ∧ storeUsed (setReg 0x1030 65 (stagedFor (1, 0) 0)) + 64 < 65 ∧
    64 ≤ storeUsed (setReg 0x1030 64 (stagedFor (1, 0) 0)) + 64 := by and_intros <;> decide +kernel

/-- A recording that has come to its end tick; tick 9 is decided and to be released. -/
def released (p : Option Nat) : State :=
  { ringing with
    comb := { ringing.comb with decided := some 9 }
    dev := { ringing.dev with pauseAt := p, tP := 10 }
    acq := { ringing.acq with released := some 8, recg := { running := true, endTick := 9, size := 2 ^ 26 } } }

theorem witness_RecordRows_streams : nextRelease (released none) = some 9 ∧ elasticOff (released none) = false ∧ isDecided (released none) 9 = true ∧
    lastBeforePause (released none) 9 = false ∧ lastBeforePause (released (some 10)) 9 = true ∧ streamOn (released none) 31 = false ∧
    nextRelease (base .running) = none ∧ nextRelease { (released none) with comb := { (released none).comb with decided := some 8 } } = some 9 ∧
    isDecided { (released none) with comb := { (released none).comb with decided := some 8 } } 9 = false ∧ stopCause (released none) = some 0 ∧ stopCause ringing = none ∧
    stopCause { released none with acq := { (released none).acq with recg := { running := true, size := 0 } } } = some 1 := by and_intros <;> decide +kernel

/-- Engine e enabled with a descriptor waiting; its ring in window 0 of host memory, local memory through window 1. -/
def engined (e : Nat) (x : Eng) : State :=
  let s := setReg 0x40008 (windowCtl { valid := true, rd := true, wr := true, size := 46 }) (setReg (0x30000 + 0x40 * e) (2 ^ 63) (base .running))
  setEng e x (setReg 0x40018 (windowCtl { valid := true, target := 1, rd := true, wr := true, size := 39 }) s)

theorem witness_EngineRows_transfer : dmaReady (engined 39 { pi := 1, cur := some {} }) 39 = true ∧ (engAt (engined 39 { pi := 1, cur := some {} }) 39).cur = some {} ∧
    dmaReady (engined 39 { pi := 1 }) 39 = true ∧ (engAt (engined 39 { pi := 1 }) 39).cur = none ∧ (engAt (engined 39 { pi := 1 }) 39).stopping = false ∧
    translate (engined 39 { pi := 1 }) false true (descAddr (engined 39 { pi := 1 }) 39) = .host 0 ∧
    translate (busyEngine 39) false true (descAddr (busyEngine 39) 39) = .bad 1 ∧ dmaReady (busyEngine 39) 39 = true ∧
    (2 ^ 31 % 32 = 0 ∧ 32 ≤ 2 ^ 31 ∧ 2 ^ 31 ≤ 2 ^ 31) ∧ (33 % 32 ≠ 0 ∨ 33 < 32) ∧ 2 ^ 31 < 2 ^ 31 + 32 ∧
    translate (engined 39 { pi := 1 }) false true (2 ^ 54 + 64) = .hbm 64 ∧ translate (engined 39 { pi := 1 }) true true (2 ^ 54) = .hbm 0 := by
  and_intros <;> decide +kernel

theorem witness_EngineRows_completion : saving (engined 39 { pi := 1, owed := some {} }) = false ∧ elasticOff (engined 39 { pi := 1, owed := some {} }) = false ∧
    (engAt (engined 39 { pi := 1, owed := some {} }) 39).owed = some {} ∧ (engAt (engined 39 { pi := 1, owed := some {} }) 39).park = none ∧
    translate (engined 39 { pi := 1, owed := some {} }) true true (cplAddr (engined 39 { pi := 1, owed := some {} }) 39) = .host 0 ∧
    engLive (engined 39 { pi := 1 }) 39 = true ∧ (engAt (engined 39 { pi := 1 }) 39).park = none ∧
    (engAt (engined 39 { pi := 1 }) 39).ci < (engAt (engined 39 { pi := 1 }) 39).pi ∧ (engAt (engined 39 { pi := 1 }) 39).owed = none := by
  and_intros <;> decide +kernel

/-- A fixed-path section in RUNNING whose last function tile holds the word of opcode op; t tells how the tile is to be changed. -/
def wordy (op : Nat) (f : Tile → Tile) : State :=
  let w := writeCheck (BitVec.ofNat 128 (op * 2 ^ 120))
  let im : ImTile := { vq := 3, col := 9, row := 11, words := [w] }
  { base .running with grid := { (base .running).grid with
      secs := [(15, { resident := true, img := { kind := 0, tiles := [{ im with vq := 0 }] }, placed := [im], place := [3] })]
      tiles := [(siteNo 3 9 11, f { owner := 15, tsw := [(0, w)] })] } }

/-- Its first word, in tick 10. -/
def first : TileAt := { q := 3, col := 9, row := 11, bank := 0, i := 0, c := 2560 }

theorem witness_WordsExecute : (∃ x, wordOp (.token first) = some x ∧ x.1 = 0xD0) ∧
    (∃ r, rowCtx (wordy 0xD0 id) first = some r ∧ r.elastic = false ∧
      noCredit (wordy 0xD0 id) first r (writeCheck (BitVec.ofNat 128 (0xD0 * 2 ^ 120))) = none ∧
      (tokenOp (rowEnv first r (writeCheck (BitVec.ofNat 128 (0xD0 * 2 ^ 120))) (wordy 0xD0 id)) (rowTile first r (wordy 0xD0 id))).stall = false) ∧
    wOpcode (tswAt (tileAt (wordy 0xD0 id) 3 9 11) 0 0) = 0xD0 ∧
    readWord first (tileAt (wordy 0xD0 id) 3 9 11) = .good (writeCheck (BitVec.ofNat 128 (0xD0 * 2 ^ 120))) ∧
    readWord { first with hw := { flip := 3#128 } } (tileAt (wordy 0xD0 id) 3 9 11) = .bad ∧ rowCtx (base .running) first = none := by
  refine ⟨⟨_, rfl, rfl⟩, ⟨{ h := 15, elastic := false, slotBank := 0, tick := 10, tag := 10, key := 10, inc := false }, ?_⟩, ?_⟩ <;> and_intros <;> decide +kernel

theorem witness_WordsExecute_stall : ∃ r, rowCtx (wordy 0xF1 id) first = some r ∧
    (hbmWrOp first r (rowEnv first r (writeCheck (BitVec.ofNat 128 (0xF1 * 2 ^ 120))) (wordy 0xF1 id)) (rowTile first r (wordy 0xF1 id)) (wordy 0xF1 id)).1.stall = true := by
  refine ⟨{ h := 15, elastic := false, slotBank := 0, tick := 10, tag := 10, key := 10, inc := false }, ?_⟩; and_intros <;> decide +kernel

/-- A tile with A on its north port and B on its east port at cycle 2,560, and the environment of a word w that names them. -/
def fed (a b : LWord) : Tile := { inbox := [{ port := 0, a := 2560, b := 2560, w := a }, { port := 1, a := 2560, b := 2560, w := b }] }
def envOf (w : Nat) : Env := { elastic := false, tag := 10, tick := 10, seed := 0, c := 2560, w := BitVec.ofNat 128 (0x1000 * 2 ^ 96 + 0x2000 * 2 ^ 80 + w), hw := {}, free := fun _ => 0 }

theorem witness_LaneArithmetic : operand (fed { v := true, tick := 10 } { v := true, tick := 10 }) 2560 (wSrcA (envOf 0).w) = { v := true, tick := 10 } ∧
    operand (fed { v := true, tick := 10 } { v := true, tick := 10 }) 2560 (wSrcB (envOf 0).w) = { v := true, tick := 10 } ∧
    bit (wMod (envOf 0).w) 7 = false ∧ bit (wMod (envOf (2 ^ 119)).w) 7 = true ∧ bits (wMod (envOf (2 ^ 113)).w) 2 1 ≠ 0 ∧ bits (wMod (envOf 0).w) 2 1 = 0 := by
  and_intros <;> decide +kernel

theorem witness_PoisonSpreads : operand (fed { v := true, p := true } { v := true }) 2560 (wSrcA (envOf 0).w) = { v := true, p := true } ∧
    operand (fed { v := true, p := true } { v := true }) 2560 (wSrcB (envOf 0).w) = { v := true } := by and_intros <;> decide +kernel

theorem witness_SteerWords : (envOf 0).elastic = false ∧ ({ envOf 0 with elastic := true } : Env).elastic = true ∧ bit (wTagchk (envOf 0).w) 7 = false ∧
    ({ v := true, choice := true, tag := 10, vis := 2560 } : Token).vis ≤ (envOf 0).c ∧ (envOf 0).c < ({ vis := 2561 } : Token).vis ∧
    ({ v := true, choice := true, tag := 10, vis := 2560 } : Token).tag = (operand (fed { v := true, tick := 10 } { v := true, tick := 10 }) 2560 0x2000).tick := by
  and_intros <;> decide +kernel


/-- A device in state st whose link 35 is x, in the fabric as member, not its master, its uplink link 35; a plan of two devices, of which it is the second and
the deputy. -/
def fabricPlan : Plan := { master := 0, deputy := 1, devs := [{ id := 0 }, { id := 1 }] }
def linked (st : DevSt) (x : Link) : State :=
  let s := setLink 35 x (base st)
  { s with fab := { s.fab with member := true, id := 1, masterUid := 7, uplink := some 35, plan := some fabricPlan } }
def probed (k : Nat) : Link := { st := .cal, probes := List.replicate 64 5, peerUid := k, probeT := [(15, 100)] }

theorem witness_LinkRows_codewords : (linked .running { st := .up, lock := true, bad := 31 }).dev.st ≠ .off ∧ (linkAt (linked .running { st := .up, lock := true, bad := 31 }) 35).st ≠ .down ∧
    (linkAt (linked .running {}) 35).st = .down ∧ (linkAt (linked .running { st := .up }) 35).st = .up ∧ c1Mode (linked .running { st := .up }) = false ∧
    (linkAt (linked .running { st := .train }) 35).st = .train ∧ (linkAt (linked .running (probed 0)) 35).st = .cal := by and_intros <;> decide +kernel

theorem witness_LinkRows_measured : (probed 0).probeT.find? (fun e => e.1 == 31 % 16) = some (31 % 16, 100) ∧ 64 ≤ (probed 0).probes.length ∧ probeSpread (probed 0) = false ∧
    probeSpread { probed 0 with probes := 100 :: List.replicate 63 5 } = true ∧ drifted (linked .ready (probed 0)) (probed 0) (lambdaPs (probed 0)) = false ∧
    (base .ready).fab.plan = none ∧ (linkAt (setLink 35 (probed 0) (base .ready)) 35).st = .cal ∧
    drifted (base .ready) (probed 0) (lambdaPs (probed 0)) = false := by and_intros <;> decide +kernel

/-- A run whose fixed entry 4095 is e, in both banks, with word w waiting in the switch for tick 10. -/
def slotted (e : FSlot) (w : LWord) : State :=
  let s := base .running
  { s with fab := { s.fab with act := { fslot := [(4095, e)] }, prev := { fslot := [(4095, e)] }, sw := [(slotKey 10 4095, w)] }
           time := { s.time with tick := some 11, next := some 12 } }

theorem witness_FabricTraffic_slots : actsFor (slotted {} {}) 10 = true ∧ fireQuiet (slotted {} {}) = false ∧
    bit (regFor (slotted {} {}) 10 (0x70300 + 2 * 31)) 15 = false ∧ fslotAt (fbankFor (slotted {} {}) 10) 4095 = some {} ∧
    (∀ w ∈ (slotted {} {}).fab.sw, w.1 ≠ slotKey 11 4095) ∧ actsFor (slotted {} {}) 11 = true ∧
    (slotted {} {}).fab.tx.find? (fun w => w.1 == slotKey 11 4095) = none ∧
    (slotted { out := 3 } { v := true }).fab.sw.find? (fun w => w.1 == slotKey 10 4095) = some (slotKey 10 4095, { v := true }) ∧
    fslotAt (fbankFor (slotted { out := 3 } {}) 10) 4095 = some { out := 3 } ∧ fslotAt (fbankFor (slotted { out := 1 } {}) 10) 4095 = some { out := 1 } ∧
    fslotAt (fbankFor (slotted { out := 2 } {}) 10) 4095 = some { out := 2 } := by and_intros <;> decide +kernel

/-- A packet in the receive buffer of VC 2 of link 35, whole, then another's header. -/
def packeted (dest : Nat) : State :=
  let p : Packet := { vc := 2, dest := dest, src := 3 }
  linked .running { st := .up, buf := [[], [], [.head p, .pay 2 true {}, .head p], []] }

theorem witness_FabricTraffic_packets : wholePacket ((linkAt (packeted 9) 35).buf.getD 2 []) = some ({ vc := 2, dest := 9, src := 3, pay := [{}] }, [.head { vc := 2, dest := 9, src := 3 }]) ∧
    (packeted 9).dev.st ≠ .off ∧ erouteOf (packeted 9) 9 = 0 ∧ erouteOf (packeted 1) 1 = 128 ∧ (packetHere { vc := 2, dest := 1, src := 3, pay := [{}] } (packeted 1)).isSome = true ∧
    erouteOf { packeted 9 with fab := { (packeted 9).fab with eroute := [(9, 0x8005)] } } 9 = 69 := by and_intros <;> decide +kernel

/-- A collector in RUNNING whose engine 5 takes foreign records, holding one record of 64 bytes wholly received from device 3. -/
def collecting : State :=
  let s := base .running
  { s with acq := { s.acq with collect := some 5 }
           fab := { s.fab with coll := [{ src := 3, recseq := 0, bytes := (List.range 64).map fun k => if k = 20 then 2#8 else 0#8 }] } }

theorem witness_FabricTraffic_rest : collecting.fab.coll.find? (fun c => c.src == 3) = some { src := 3, recseq := 0, bytes := (List.range 64).map fun k => if k = 20 then 2#8 else 0#8 } ∧
    collecting.acq.collect = some 5 ∧ elasticOff collecting = false ∧
    64 = 32 * unle (slice 20 4 ((List.range 64).map fun k => if k = 20 then 2#8 else 0#8)) ∧ inFabric (linked .running {}) = true ∧ (linked .running {}).upd.holder = none ∧
    (linked .running {}).upd.applyJ = none ∧ (linked .running {}).dev.st ≠ .off ∧
    inFabric { linked .running {} with fab := { (linked .running {}).fab with isMaster := true } } = true := by and_intros <;> decide +kernel

/-- A device of UID u that hears link 35 and is in discovery; its best candidate is b. -/
def discovering (b : Nat × Nat × Nat) : State :=
  let s := setLink 35 { st := .up } (base .ready)
  { s with fab := { s.fab with discovering := true, best := some b, uplink := some 35 } }

theorem witness_FabricMembers_discovery : hears (discovering (7, 3, 2)) 35 = true ∧ 0 < { (discovering (7, 3, 2)) with fab := { (discovering (7, 3, 2)).fab with epoch := 1 } }.fab.epoch ∧
    inReady (discovering (7, 3, 2)) = true ∧ (discovering (7, 3, 2)).fab.epoch = 0 ∧ (discovering (7, 3, 2)).fab.discovering = true ∧
    betterThan (6, 3, 9 + 1) (7, 3, 2) = true ∧ betterThan (7, 3, 1 + 1) (7, 3, 3) = true ∧ betterThan (9, 4, 9) (7, 3, 2) = true ∧
    (discovering ((base .ready).part.uid, 3, 0)).fab.best = some ((discovering (7, 3, 2)).part.uid, 3, 0) ∧ (3 : Nat) ≠ 0 ∧ (discovering (7, 3, 2)).fab.isMaster = false ∧
    7 ≠ (discovering (7, 3, 2)).part.uid ∧ (discovering (7, 3, 2)).fab.uplink = some 35 ∧ (discovering (7, 3, 2)).fab.masterUid = 0 := by and_intros <;> decide +kernel

theorem witness_FabricMembers_members : hears (linked .running { st := .up }) 35 = true ∧ (linked .running { st := .up }).fab.member = true ∧
    (linked .running { st := .up }).fab.isMaster = false ∧ (linked .running { st := .up }).fab.plan = some fabricPlan ∧ nowTick (linked .running { st := .up }) < 11 ∧
    10 ≤ nowTick (linked .running { st := .up }) ∧ fabricPlan.deputy = (linked .running { st := .up }).fab.id := by and_intros <;> decide +kernel

/-- The same device as the master, its last ASSIGN_ACK out. -/
def mastered : State :=
  let s := linked .running { st := .up }
  { s with fab := { s.fab with isMaster := true, id := 0, acks := [9] } }

theorem witness_FabricMembers_master : hears mastered 35 = true ∧ mastered.fab.isMaster = true ∧ mastered.fab.acks = [9] ∧ mastered.fab.member = true ∧ 1 ≠ mastered.fab.id ∧
    mastered.fab.heard.find? (fun e => e.1 == 1) = none ∧ mastered.fab.plan = some fabricPlan ∧ (∃ d ∈ fabricPlan.devs, d.id = 1) ∧ 1 ∉ mastered.fab.lost := by
  and_intros <;> decide +kernel

/-- A time base of source src, slewing, in state st. -/
def timed (st : DevSt) (src : Nat) : State :=
  let s := setLink 35 { st := .up, thetaN := 4, thetaSum := 8, hops := 14, rootId := 5 } (setReg 0x60000 (src + 2 ^ 7) (base st))
  { s with fab := { s.fab with timeRoot := some 9 }, time := { s.time with slewing := true, slew := 2 ^ 30, rem := 10, raw := 2 ^ 20, tsWait := [65535] } }

theorem witness_DisciplinesSteer_steps : (timed .running 3).dev.st ≠ .off ∧ (65536000000 : Int).natAbs ≤ tuMs ∧ tuMs < (-65536000001 : Int).natAbs ∧
    inReady (timed .running 3) = false ∧ inReady (timed .loaded 3) = true ∧ (timed .running 3).time.slewing = true ∧ (timed .running 3).time.slew ≠ 0 ∧
    (timed .running 3).time.rem.natAbs ≤ (slewed (timed .running 3).time (2 ^ 20)).natAbs ∧ (timed .running 3).time.raw ≤ 2 ^ 20 ∧ (timed .running 3).time.r0 ≤ 2 ^ 20 := by
  and_intros <;> decide +kernel

theorem witness_DisciplinesSteer_sources : timeSrc (timed .running 3) = 3 ∧ (linkAt (timed .running 3) 35).st = .up ∧ (linkAt (timed .running 3) 35).thetaN ≠ 0 ∧
    (timed .running 3).fab.timeRoot ≠ some (timed .running 3).fab.id ∧ (linkAt (timed .running 3) 35).hops ≤ 14 ∧ (timed .running 3).time.holdover = false ∧
    timeSrc (timed .running 2) = 2 ∧ timeSrc (timed .running 1) = 1 ∧ timeSrc (timed .running 4) = 4 ∧ ptpEvent 7 = true ∧ (7 ≤ 8 ∧ 8 ≤ 8) := by
  and_intros <;> decide +kernel

theorem witness_DisciplinesSteer_ptp : { (timed .running 1).time with ptpMaster := true }.ptpMaster = true ∧ ({ slaveOnly := false } : PtpCfg).slaveOnly = false ∧
    (timed .running 1).time.ptp.p2p = false ∧ (timed .running 1).time.ptpMaster = false ∧ 65535 ∈ (timed .running 1).time.tsWait ∧
    (timed .running 1).time.txq.length < 16 ∧ 16 ≤ { (timed .running 1).time with txq := List.replicate 16 (0, {}) }.txq.length := by and_intros <;> decide +kernel

theorem witness_DisciplinesSteer_next : ∃ t, exec (.slewEnd (2 ^ 20)) (timed .running 3) = .next t := ⟨_, rfl⟩

/-- A run whose generator follows TICK_IN with modulus 7 and residue 3, timed event 31 armed for n, its pulse pending. -/
def pinned (st : DevSt) (next : Option Nat) (d : TimedDesc) (n : Nat) : State :=
  let s := setReg 0x60010 (1 + 3 * 2 ^ 16 + 7 * 2 ^ 32) (setReg 0x60000 (2 ^ 7) (base st))
  { s with time := { s.time with next := next, devRun := 15, timed := [(31, { d := d, next := some n, active := true })] } }

theorem witness_PinsAndTicks : (pinned .running (some 11) {} 0).dev.st ≠ .off ∧ bits (regAt (pinned .running (some 11) {} 0) 0x60010) 1 0 = 1 ∧
    (pinned .running none {} 0).time.next = none ∧ (pinned .running (some 11) {} 0).time.next ≠ none ∧
    11 % max (bits (regAt (pinned .running none {} 0) 0x60010) 47 32) 1 ≠ bits (regAt (pinned .running none {} 0) 0x60010) 31 16 ∧
    10 % max (bits (regAt (pinned .running none {} 0) 0x60010) 47 32) 1 = bits (regAt (pinned .running none {} 0) 0x60010) 31 16 ∧
    (pinned .running none {} 0).time.tickWin < (2001 : Int).natAbs ∧ (-2000 : Int).natAbs ≤ (pinned .running none {} 0).time.tickWin ∧
    inRun (pinned .running none {} 0) = true ∧ inRun (pinned .ready none {} 0) = false ∧ 15 ≤ (pinned .running none {} 0).time.devRun ∧
    bit (regAt (pinned .running none {} 0) 0x60000) 7 = true := by and_intros <;> decide +kernel

theorem witness_PinsAndTicks_fire : let d : TimedDesc := { en := true, tickBase := true, periodic := true, pinEn := true, width := 65535, period := 2 ^ 32 - 1, phase := 16383 }
    let v := tget (fun _ => ({} : TimedEv)) (pinned .running (some 11) d 10).time.timed 31
    v.next = some 10 ∧ (pinned .running (some 11) d 10).dev.st ≠ .safe ∧ v.d.en = true ∧ v.d.tickStart = false ∧ v.active = true := by and_intros <;> decide +kernel

/-- A device in RUNNING with a record of severity 3 in stage k of core 0's role, a memory tile of Q0, its confirmation ended. -/
def faultOf : FaultRec := { code := 0x0108, sev := 3, quad := 0, site := 0x02, unit := 1, fid := 5 }
def ailing (k : Nat) : State :=
  let s := base .running
  { s with flt := { s.flt with errq := [{ f := faultOf, stage := k }], confirms := [{ unit := unitOf faultOf, code := 0x0108, until_ := 10 }] } }

theorem witness_RepairsRun_steps : (ailing 0).dev.st ≠ .off ∧ (ailing 0).dev.st ≠ .boot ∧ ((ailing 0).flt.cores.getD 7 {}).alive = true ∧
    ((ailing 0).flt.cores.getD 7 {}).restarting = false ∧
    ((ailing 0).flt.errq.filter fun x => ((ailing 0).flt.cores.getD 7 {}).roles.contains (roleOf x.f) && hasStep (ailing 0) x) = [] ∧
    firstOf ((ailing 0).flt.errq.filter fun x => ((ailing 0).flt.cores.getD 0 {}).roles.contains (roleOf x.f) && hasStep (ailing 0) x) = some { f := faultOf } ∧
    rewriteCode faultOf.code = true ∧ faultOf.site ≠ 0xFF ∧ healthAt (ailing 0) (healthUnit (ailing 0) faultOf) % 16 < 3 := by and_intros <;> decide +kernel

theorem witness_RepairsRun_confirms : (ailing 2).flt.confirms.filter (fun c => c.unit == unitOf faultOf && decide (c.until_ ≤ nowTick (ailing 2))) = [{ unit := unitOf faultOf, code := 0x0108, until_ := 10 }] ∧
    (ailing 2).flt.errq.find? (fun x => x.stage == 2 && unitOf x.f == unitOf faultOf && x.f.code == 0x0108) = some { f := faultOf, stage := 2 } ∧ faultOf.rep ≤ 0 ∧
    isFailed (ailing 2) (healthUnit (ailing 2) faultOf) = false := by and_intros <;> decide +kernel

/-- Unit 1010 of the health map waits for a record (its bit 5); column 15 of Q0 is being remapped, its switch due in tick e. -/
def watched (e : Nat) : State :=
  let s := setHealth 1010 32 (base .running)
  { s with flt := { s.flt with remaps := [{ q := 0, k := 0, f := 2, b := 8, switch_ := some e }] } }

theorem witness_RepairsRun_remap : ((watched 10).flt.cores.getD 4 {}).alive = true ∧ (watched 10).flt.errq.length < 128 ∧
    (((watched 10).flt.health.map (·.1)).filter fun u => bit (healthAt (watched 10) u) 5 && ((watched 10).flt.cores.getD 4 {}).roles.contains (unitRole u).1) = [1010] ∧
    (((watched 10).flt.health.map (·.1)).filter fun u => bit (healthAt (watched 10) u) 5 && ((watched 10).flt.cores.getD 5 {}).roles.contains (unitRole u).1) = [] ∧
    ((watched 10).flt.cores.getD 5 {}).alive = true ∧ (watched 10).flt.remaps = [{ q := 0, k := 0, f := 2, b := 8, switch_ := some 10 }] ∧ 10 ≤ nowTick (watched 10) ∧
    nowTick (watched 10) < 11 ∧ ticking (watched 10) = true ∧
    (∃ c r, (lineOfSite (blamed { faultOf with site := c }).1 (blamed { faultOf with site := c }).2).isSome = true ∧
      remapOf { watched 10 with flt := { (watched 10).flt with remaps := r } } { f := { faultOf with site := c } } ≠ none) := by
  and_intros <;> first | decide +kernel | exact ⟨0x29, (List.range 16).map fun k => { q := 0, k := k, f := 2, b := 8 }, by decide +kernel⟩

/-- Rotation k of activity 1 in Q0, and that activity, stopping or not; the standby's takeover of Q2. -/
def rotating (r : Rot) (stopping : Bool) : State :=
  let s := base .running
  { s with dev := { s.dev with standby := some 3 }
           flt := { s.flt with rots := [r], acts := [{ h := 1, act := 1, stopping := stopping }, { h := 2, act := 0x82, req := { act := 0x82, quad := 2 } }], takeover := some 2 } }

theorem witness_RepairsRun_rotation : rotOf (rotating { act := 1, q := 0, k := 15, a := 8 } false) 1 15 = some { act := 1, q := 0, k := 15, a := 8 } ∧
    ({ act := 1, q := 0, k := 15, a := 8, until_ := 10 } : Rot).until_ ≤ nowTick (rotating { act := 1, q := 0, k := 15, a := 8 } false) ∧
    rotOf (rotating { act := 1, q := 0, k := 15, a := 8, mism := true, repeats := 1 } false) 1 15 = some { act := 1, q := 0, k := 15, a := 8, mism := true, repeats := 1 } ∧
    (let u := maintEv 0xA3 1 1 (setSkip 0 15 8 (rotating { act := 1, q := 0, k := 15, a := 8, comparing := true } false)); ∀ a ∈ u.flt.acts, a.h = 1 → a.stopping = false) ∧
    (let u := maintEv 0xA3 1 1 (setSkip 0 15 8 (rotating { act := 1, q := 0, k := 15, a := 8, comparing := true } true)); ∃ a ∈ u.flt.acts, a.h = 1 ∧ a.stopping = true) ∧
    (rotating {act := 1, q := 0, k := 15, a := 8 } false).flt.takeover = some 2 ∧ (rotating {act := 1, q := 0, k := 15, a := 8 } false).dev.standby = some 3 ∧
    (actOf (rotating {act := 1, q := 0, k := 15, a := 8 } false) 0x82 2).isSome = true := by and_intros <;> decide +kernel

theorem witness_RepairsRun_next : ∃ t, exec .ceWindowEnd (ailing 0) = .next t := ⟨_, rfl⟩

/-- A device whose maintenance activity act runs, Q3 waking from FAILED or not, a role waiting. -/
def tended (act : Nat) (failed : List Nat) : State :=
  let s := base .running
  { s with dev := { s.dev with quads := [.active, .active, .active, .waking] }
           flt := { s.flt with acts := [{ h := 1, act := act, req := { act := act, core := 7 } }], fromFailed := failed, roleWait := [6] } }

theorem witness_LossesAndTests : (tended 2 []).dev.st ≠ .off ∧ (tended 2 []).flt.cores.length = 8 ∧ ((tended 2 []).flt.cores.getD 7 {}).alive = true ∧
    (tended 2 []).upd.roll = none ∧ (tended 2 []).flt.roleWait ≠ [] ∧ 3 ∉ (tended 2 []).flt.stacksLost ∧ 3 ∉ (tended 2 []).flt.stackEdge ∧ (tended 2 []).dev.st ≠ .boot ∧
    (∃ a ∈ (tended 2 []).flt.acts, a.act = 2 ∧ a.queued = false) ∧ quadReads (tended 2 []) 2 = true ∧ siteClass 11 9 = some .memory ∧
    (∃ a ∈ (tended 5 []).flt.acts, a.act = 5 ∧ a.req.core = 7 ∧ a.queued = false) ∧
    healthAt (setHealth (1100 + 256 * 7 + 255) 192 (tended 5 [])) (1100 + 256 * 7 + 255) / 64 = 3 ∧ ((tended 5 []).flt.cores.getD 7 {}).windows < 16 ∧
    16 ≤ ((setCore 7 { windows := 16 } (tended 5 [])).flt.cores.getD 7 {}).windows ∧ quadAt (tended 2 []) 3 = .waking ∧ 3 ∉ (tended 2 []).flt.fromFailed ∧
    3 ∈ (tended 2 [3]).flt.fromFailed ∧ (∃ a ∈ (tended 4 []).flt.acts, a.act = 4 ∧ a.queued = false) ∧ quadReads (tended 4 []) 0 = true ∧
    (slotAt (tended 4 []) 0 15 0 1023).valid = false ∧ (slotAt (tended 4 []) 0 15 1 1023).valid = false := by and_intros <;> decide +kernel

/-- A device in RUNNING whose part t stands as p; an SPDM conversation in which VERSION, CAPABILITIES and ALGORITHMS have come. -/
def parted (t : Nat) (p : UpPart) : State :=
  let s := base .running
  { s with upd := { s.upd with parts := s.upd.parts.set (t - 1) p, holder := some 0, spdmVer := 0x13, spdmCaps := true, spdmAlgo := true } }

theorem witness_UpdatesAndTrust_steps : (parted 5 { st := .writing }).dev.st ≠ .off ∧ (parted 5 { st := .writing }).dev.st ≠ .boot ∧
    stepPart (parted 5 { st := .writing }) = some 5 ∧ (partAt (parted 5 { st := .writing }) 5).cause = 0 ∧ stepPart (parted 1 { st := .demoting }) = some 1 ∧
    (partAt (parted 1 { st := .demoting }) 1).st = .demoting ∧ (partAt (parted 5 { st := .writing, cause := 1 }) 5).cause ≠ 0 ∧
    stepPart (parted 3 { st := .activating }) = some 3 ∧ (parted 3 { st := .activating }).upd.roll = none ∧ stepPart (parted 4 { st := .fallingBack }) = some 4 ∧
    5 ≤ (parted 1 {}).upd.parts.length := by and_intros <;> decide +kernel

theorem witness_UpdatesAndTrust_roll : { (parted 1 { st := .activating }).upd with roll := some 7 }.roll = some 7 ∧ (partAt (parted 1 { st := .activating }) 1).cause = 0 ∧
    (partAt (parted 5 { st := .trial }) 5).st = .trial ∧ (partAt (parted 5 { st := .trial }) 5).confirmedOk = false ∧
    (partAt (parted 5 { st := .trial, confirmedOk := true }) 5).confirmedOk = true ∧ (partAt (parted 5 { st := .trial, confirmedOk := true }) 5).cause = 0 ∧
    (parted 1 {}).upd.holder ≠ none ∧ midUpdate (parted 1 {}) = false ∧ (parted 1 {}).upd.applyJ = none := by and_intros <;> decide +kernel

/-- The certificate chain is opaque; where it has a byte, its certificate can be read. -/
theorem witness_UpdatesAndTrust_chain (h : 0 < Config.certChain.length) : ({ slot := 0, offset := 0 } : Spdm).slot = 0 ∧ ({ offset := 0 } : Spdm).offset < Config.certChain.length :=
  ⟨rfl, h⟩

theorem witness_UpdatesAndTrust_spdm : (parted 1 {}).upd.spdmBusy = false ∧ ({ version := 0x13 } : Spdm).version = 0x13 ∧ (parted 1 {}).upd.spdmVer ≠ 0 ∧
    (parted 1 {}).upd.spdmCaps = true ∧ (parted 1 {}).upd.spdmAlgo = true ∧ bit ({} : Spdm).hashes 5 = true ∧ (3, 1) ∈ ({} : Spdm).asym ∧ ({ index := 11, signed := true } : Spdm).index ≤ 11 ∧
    { (parted 1 {}).upd with deferred := some (0xE0, {}) }.deferred = some (0xE0, {}) ∧ (parted 1 {}).upd.deferred = none ∧
    { (parted 1 {}).upd with chunk := [1#8, 2#8, 3#8] }.chunk ≠ [] ∧ 0 < ({ index := 1, max := 2 } : Spdm).max ∧ 1 * 2 < [1#8, 2#8, 3#8].length ∧
    [1#8, 2#8, 3#8].length ≤ (1 + 1) * 2 ∧ { (parted 1 {}).upd with spdmBusy := true }.spdmBusy = true := by and_intros <;> decide +kernel

theorem witness_UpdatesAndTrust_jtag : jtagOpen (base .running) .scan = false ∧ jtagOpen (base .running) .idcode = true ∧
    jtagOpen { base .running with upd := { (base .running).upd with level := 1 } } (.halt 7) = false := by and_intros <;> decide +kernel

/-- A device in RUNNING whose save is under way with cause c. -/
def savedBy (c : Nat) : State := { base .running with pwr := { (base .running).pwr with saving := some c } }

theorem witness_PowerRows_saves : (base .running).dev.st ≠ .off ∧ (base .running).pwr.saving = none ∧ (base .running).pwr.saveOk = true ∧
    (savedBy 4).pwr.saving = some 4 ∧ (savedBy 4).dev.resetReq = false ∧ (savedBy 4).dev.resetN = true ∧ (savedBy 0).pwr.saving = some 0 ∧ (0 : Nat) ≠ 4 ∧
    { (savedBy 4).dev with resetReq := true }.resetReq = true := by and_intros <;> decide +kernel

theorem witness_PowerRows_boot : State.reset.dev.st = .off ∧ State.reset.dev.resetN = false ∧ State.reset.dev.pwrfailN = true ∧ (base .off).dev.resetN = true ∧
    ({ otpOk := false } : BootIn).otpOk = false ∧ ({ loaderOk := false } : BootIn).loaderOk = false ∧
    choose { opOk := [true, true, true, true, false], fbOk := [true, true, true, true, false] } (persist State.reset) 5 = .none_ ∧
    (∃ t ∈ [1, 2, 3, 4, 5], choose { opOk := [true, true, true, true, false], fbOk := [true, true, true, true, false] } (persist State.reset) t = .none_) := by
  and_intros <;> decide +kernel

/-- A device in RUNNING that is capped at step k, the last sample low; and one with nine samples gathered. -/
def capped (k low : Nat) (hot : Int) : State :=
  { base .running with pwr := { (base .running).pwr with cap := true, step := k, lowMs := low, temps := { grid := List.replicate 16 hot, iod := [hot], hbm := [320] } } }
def nine : State := { base .running with pwr := { (base .running).pwr with sum := List.replicate 9 5000, avsFail := [0, 0, 0, 2] } }

theorem witness_PowerRows_sample : awake nine = true ∧ c1Mode nine = false ∧ 9 ≤ nine.pwr.sum.length ∧ (nine.pwr.dieT.trip = false) ∧ nine.dev.st ≠ .safe ∧
    (thermLevels 95 100 110 (dieSensors nine (corrected' nine { grid := [1760] })) nine.pwr.dieT).trip = true ∧
    (thermLevels 95 100 110 (dieSensors nine (corrected' nine { grid := [1600] })) nine.pwr.dieT).cap = true ∧
    (thermLevels 95 100 110 (dieSensors nine (corrected' nine { grid := [1600] })) nine.pwr.dieT).trip = false ∧
    (thermLevels 85 90 100 (corrected' nine { grid := [1600] }).hbm nine.pwr.hbmT).trip = false := by and_intros <;> decide +kernel

theorem witness_PowerRows_rest : awake (capped 1 9 320) = true ∧ c1Mode (capped 1 9 320) = false ∧ (capped 1 9 320).pwr.cap = true ∧ capLow (capped 1 9 320) = true ∧
    9 ≤ (capped 1 9 320).pwr.lowMs ∧ capLow (capped 7 0 1552) = false ∧ (600 ≤ 800 ∧ 800 ≤ 800 ∧ 800 % 5 = 0) ∧ nine.pwr.avsFail.getD 3 0 = 2 ∧
    nine.pwr.saving = none ∧ nine.pwr.saveOk = true := by and_intros <;> decide +kernel
/-- A change of GRID_CFG, and one of a register without a state rule, tied to tick 10. -/
def tied (off : Nat) : Waiting := { jseq := 1, h := hdr, opcode := 0x105, tick := some 10, eff := .cfg [⟨off, 0xFFFF, 100⟩] }

theorem witness_ServiceRowsComplete_ticks : { (base .running).ctl with waiting := [tied 0x40] }.waiting = [tied 0x40] ∧ (tied 0x40).eff ≠ .none ∧ (10 : Nat) ≤ nowTick (base .running) ∧
    (∃ x, stateFail (base .running) (tied 0x40) = some x) ∧ stateFail (base .ready) (tied 0x40) = none ∧
    (∀ w ∈ [{ tied 0x40 with tick := some 11 }], w.eff ≠ .none → ∀ t, w.tick = some t → nowTick (base .ready) < t) :=
  ⟨rfl, by decide +kernel, by decide +kernel, ⟨_, rfl⟩, by decide +kernel, by decide +kernel⟩

/-- A lease of 5 ms, one event to write, one forward of each kind. -/
def served : State :=
  { base .running with
    ctl := { (base .running).ctl with leaseMs := 5, forwards := [{ jseq := 7, h := hdr, opcode := 0x608 }] }
    host := { (base .running).host with raised := [{ eseq := 2, tick := 9, sec := 0, ns := 0, e := { code := 0x71, sev := 0 } }] } }

theorem witness_ServiceRowsComplete_rows : served.dev.st ≠ .off ∧ served.ctl.leaseMs ≠ 0 ∧ served.ctl.holder ≠ none ∧ served.host.raised ≠ [] ∧
    (∃ w l, served.ctl.forwards = w :: l ∧ w.jseq ≠ 0) ∧
    ∃ w : Swap, { (base .running).grid with swap := some { ts := 9, outs := [1], ins := [], endTick := 10 } }.swap = some w ∧
      (w.outs ≠ [] ∨ w.ins ≠ []) ∧ w.endTick ≤ nowTick (base .running) :=
  ⟨by decide +kernel, by decide +kernel, by decide +kernel, by decide +kernel, ⟨_, _, rfl, by decide +kernel⟩, _, rfl, by decide +kernel, by decide +kernel⟩

/-- A member of a fabric of two that is not its master but its deputy. -/
def deputy : State :=
  { base .ready with fab := { (base .ready).fab with member := true, id := 1, plan := some { master := 0, deputy := 1, devs := [{ id := 0 }, { id := 1 }] } } }

/-- The standby Q3 takes over Q2: activity 2 with code 0x82. -/
def takes : State :=
  { base .running with
    dev := { (base .running).dev with standby := some 3 }
    flt := { (base .running).flt with takeover := some 2, acts := [{ h := 2, act := 0x82, req := { act := 0x82, quad := 2 } }] } }

theorem witness_UnitRowsComplete : (∃ p, deputy.fab.plan = some p ∧ p.deputy = deputy.fab.id) ∧ deputy.fab.member = true ∧ deputy.fab.isMaster = false ∧
    takes.flt.takeover = some 2 ∧ takes.dev.standby = some 3 ∧ (∃ a, actOf takes 0x82 2 = some a) ∧
    (1 ≤ timeSrc (setReg 0x60000 3 (base .ready)) ∧ timeSrc (setReg 0x60000 3 (base .ready)) ≤ 3) ∧ (base .ready).time.holdover = false ∧
    (base .ready).upd.applyJ = none ∧ capLow (capped 6 0 1552) = false ∧ awake (capped 6 0 1552) = true ∧ (capped 6 0 1552).pwr.cap = true ∧
    { (base .running).pwr with saving := some 4 }.saving ≠ none ∧ Carried true hdr ∧ Accepted 0x10C stRLAUP false false hdr (base .running) ∧ 0x8000 ≤ 0x8001 ∧ 0x8001 ≤ 0xFFFF :=
  ⟨⟨_, rfl, by decide +kernel⟩, by decide +kernel, by decide +kernel, by decide +kernel, by decide +kernel, ⟨_, rfl⟩, by decide +kernel, by decide +kernel,
    by decide +kernel, by decide +kernel, by decide +kernel, by decide +kernel, by decide +kernel, by decide +kernel, by decide +kernel, by decide +kernel, by decide +kernel⟩

/-- A sample whose clock has failed, one whose clock runs. -/
theorem witness_PowerRows_clock : ({ clockBad := true } : Sample).clockBad = true ∧ ({} : Sample).clockBad = false := ⟨rfl, rfl⟩

theorem witness_StepRunsFront : { base .running with pending := [Instr.pwrfail, .resetFall] }.pending = .pwrfail :: [.resetFall] ∧ (base .running).pending = [] := ⟨rfl, rfl⟩

theorem witness_HbmCanonicalKept : Memory.wf { base .running with hbm := [(5, 1#8), (2 ^ 39 - 1, 7#8)], pending := [.pwrfail] }.hbm ∧
    ∃ t, step { base .running with hbm := [(5, 1#8), (2 ^ 39 - 1, 7#8)], pending := [.pwrfail] } = .next t := ⟨by decide +kernel, _, rfl⟩

theorem witness_QueueUntouched : { base .running with pending := [Instr.pwrfail] }.pending = .pwrfail :: [] := rfl

end Sys2Proof.Tests
end

section
/-!
The outcome of a tick (R10, R11): what `classOutcome` and `pendOutcome` answer in each case, in the order of R10.
-/

namespace Sys2Proof

/-- The classes of a tick decide in the order void, held off, shed, and a tick of no class is rejected. -/
theorem classOutcome_cases (v h s : Bool) :
    (v = true ∧ classOutcome v h s = .void) ∨
    (v = false ∧ h = true ∧ classOutcome v h s = .heldOff) ∨
    (v = false ∧ h = false ∧ s = true ∧ classOutcome v h s = .shed) ∨
    (v = false ∧ h = false ∧ s = false ∧ classOutcome v h s = .rejected) := by
  cases v with
  | true => exact .inl ⟨rfl, rfl⟩
  | false =>
    cases h with
    | true => exact .inr (.inl ⟨rfl, rfl, rfl⟩)
    | false =>
      cases s with
      | true => exact .inr (.inr (.inl ⟨rfl, rfl, rfl, rfl⟩))
      | false => exact .inr (.inr (.inr ⟨rfl, rfl, rfl, rfl⟩))

/-- A pass that made the tick void counts as the class void does (R11): only acceptance comes before it. -/
theorem pendOutcome_eq_classOutcome (p : Pend) :
    pendOutcome p = if p.acc then .accepted else classOutcome (p.void || p.v) p.h p.s := by
  unfold pendOutcome
  cases p.void with
  | true => rfl
  | false => rfl

/-- The five outcomes of a tick whose parisons have ended, each with what excludes the ones before it in R10. -/
theorem pendOutcome_cases (p : Pend) :
    (p.acc = true ∧ pendOutcome p = .accepted) ∨
    (p.acc = false ∧ (p.void || p.v) = true ∧ pendOutcome p = .void) ∨
    (p.acc = false ∧ (p.void || p.v) = false ∧ p.h = true ∧ pendOutcome p = .heldOff) ∨
    (p.acc = false ∧ (p.void || p.v) = false ∧ p.h = false ∧ p.s = true ∧ pendOutcome p = .shed) ∨
    (p.acc = false ∧ (p.void || p.v) = false ∧ p.h = false ∧ p.s = false ∧ pendOutcome p = .rejected) := by
  rw [pendOutcome_eq_classOutcome]
  cases p.acc with
  | true => exact .inl ⟨rfl, rfl⟩
  | false => simpa using classOutcome_cases (p.void || p.v) p.h p.s

/-- Settles O35: the void flag and the void class give the same outcome, and `pendOutcome_cases` gives each outcome's condition. -/
theorem outcomeOrder : Obligations.OutcomeOrder := by
  unfold Obligations.OutcomeOrder
  intro a v h s
  refine ⟨by simp [pendOutcome_eq_classOutcome], ?_⟩
  obtain ⟨ha, ho⟩ | ⟨ha, hv, ho⟩ | ⟨ha, hv, hh, ho⟩ | ⟨ha, hv, hh, hs, ho⟩ | ⟨ha, hv, hh, hs, ho⟩ :=
    pendOutcome_cases { acc := a, void := v, h := h, s := s }
  all_goals simp_all

end Sys2Proof
end

section
/-!
A packet that fails its check or cannot be read (R378): the two rules of a counter table, and what `execBadPacket` does on each transport.
-/

namespace Sys2Proof

/-- A counter raised is read back raised, saturating. -/
@[simp] theorem cget_cadd_same (w : Nat) (t : Tbl Nat) (k n : Nat) : cget (cadd w t k n) k = satAdd w (cget t k) n :=
  tget_tset_same _ _ _ _

/-- Raising a counter leaves every other counter as it was. -/
theorem cget_cadd_ne (w : Nat) (t : Tbl Nat) {k j : Nat} (n : Nat) (h : j ≠ k) : cget (cadd w t k n) j = cget t j :=
  tget_tset_ne _ _ _ h

namespace Machine

/-- A reply to a source on a host ring waits for its completion ring (R373), and nothing else changes. -/
theorem sendReply_of_ring {r : Reply} (s : State) (hr : r.source / 2 ^ 28 = 0) :
    sendReply r s = { s with ctl := { s.ctl with replies := s.ctl.replies ++ [r] } } := by
  unfold sendReply
  rw [hr]
  rfl

/-- On a host ring a bad packet is answered with ST_PARAM and DETAIL 1 (R378). -/
theorem execBadPacket_of_ring {h : Hdr} (opcode : Nat) {s : State} (hon : s.dev.st ≠ .off) (ht : h.transport = 0) :
    execBadPacket h opcode s = .next (sendReply (mkReply opcode h none stParam 1 []) (seeRaw h.stamp s)) := by
  rw [execBadPacket, if_neg hon, if_pos ht, goes]

/-- On any other transport a bad packet is dropped, and only CMD_CRC_ERR of that transport changes (R378). -/
theorem execBadPacket_of_not_ring {h : Hdr} (opcode : Nat) {s : State} (hon : s.dev.st ≠ .off) (ht : h.transport ≠ 0) :
    execBadPacket h opcode s = .next { s with ctl := { s.ctl with crcErr := cadd 32 s.ctl.crcErr h.transport 1 } } := by
  rw [execBadPacket, if_neg hon, if_neg ht, goes]

end Machine

open Machine

/-- Settles O28: on a host ring the reply's source is of transport 0, so it joins the replies; elsewhere the counter rules say
which count rises and that the others stay. -/
theorem badPacketHandled : Obligations.BadPacketHandled := by
  unfold Obligations.BadPacketHandled
  intro h opcode s hon
  constructor
  · intro ht
    have hsrc : (mkReply opcode h none stParam 1 []).source / 2 ^ 28 = 0 := srcOf_transport h ht
    rw [exec_badPacket, execBadPacket_of_ring opcode hon ht, sendReply_of_ring _ hsrc]
    rfl
  · intro ht
    rw [exec_badPacket, execBadPacket_of_not_ring opcode hon ht]
    exact ⟨_, rfl, rfl, cget_cadd_same 32 s.ctl.crcErr h.transport 1, fun _ hk => cget_cadd_ne 32 s.ctl.crcErr 1 hk⟩

end Sys2Proof
end

section
/-!
The checks of a control command (R374 to R379, R391, R392): what `control` answers at each check that does not pass, and the answer to a duplicate.
-/

namespace Sys2Proof

namespace Machine

open Claims

/-- The packet seen and its ring entry taken: the state on which form and number are tested. -/
theorem traces_untake_seeRaw (h : Hdr) (s : State) : Traces s (untake h (seeRaw h.stamp s)) :=
  path_trans (path_seeRaw _ _) (path_untake _ _)

theorem formOk_eq_false {c : CmdSpec} {h : Hdr} (hf : ¬ Formed c h) : formOk c h = false :=
  Bool.eq_false_iff.2 fun ht => hf ((formOk_iff c h).1 ht)

/-- Check 1: a packet of bad form is refused with ST_PARAM before its number is noted. -/
theorem control_of_not_formed {c : CmdSpec} {h : Hdr} (act : Nat → State → Act) {s : State} (hon : s.dev.st ≠ .off)
    (hf : ¬ Formed c h) : control c h act s = refuse c.op h stParam 0 [] (untake h (seeRaw h.stamp s)) := by
  have hff := formOk_eq_false hf
  unfold control
  simp only [hon, if_false, hff, Bool.false_eq_true]
  simp [gate, hff, stParam, stNotOwner]

/-- Check 2: a number below the window is refused with ST_PARAM. -/
theorem control_of_below {c : CmdSpec} {h : Hdr} (act : Nat → State → Act) {s : State} (hon : s.dev.st ≠ .off) (hf : Formed c h)
    (hw : seqCase (winAt s (srcOf h)) h.seq = .below) :
    control c h act s = refuse c.op h stParam 0 [] (untake h (seeRaw h.stamp s)) := by
  unfold control
  simp only [hon, if_false, (formOk_iff c h).2 hf, if_true, win_untake, hw]

/-- A duplicate is answered from the journal and the cache. -/
theorem control_of_dup {c : CmdSpec} {h : Hdr} (act : Nat → State → Act) {s : State} (hon : s.dev.st ≠ .off) (hf : Formed c h)
    (hw : seqCase (winAt s (srcOf h)) h.seq = .dup) :
    control c h act s = answerDup c.op h (untake h (seeRaw h.stamp s)) := by
  unfold control
  simp only [hon, if_false, (formOk_iff c h).2 hf, if_true, win_untake, hw]

/-- The gate reads only the holder, the device state, the overlay and the replay, which the packet's traces leave. -/
theorem gate_pre (c : CmdSpec) (h : Hdr) (s : State) :
    gate c h (renewLease h (seeSeq h (untake h (seeRaw h.stamp s)))) = gate c h s := by
  have hp := pre_path h s
  unfold gate owns replaying
  rw [(pre_ctl h s).2, hp]

/-- Check 3: control is not held by the packet's source. -/
theorem gate_of_denied {c : CmdSpec} {h : Hdr} {s : State} (hf : Formed c h) (ha : c.anyone = false)
    (ho : s.ctl.holder ≠ some (srcOf h)) : gate c h s = some (stNotOwner, c.denied.1) := by
  simp [gate, (formOk_iff c h).2 hf, ha, owns, ho]

/-- The source holds control, or the command asks for none. -/
theorem owns_check {c : CmdSpec} {h : Hdr} {s : State} (ho : c.anyone = true ∨ s.ctl.holder = some (srcOf h)) :
    (!c.anyone && !owns h s) = false := by
  rcases ho with ho | ho <;> simp [owns, ho]

/-- Check 4: the device state is not one of the command's. -/
theorem gate_of_state {c : CmdSpec} {h : Hdr} {s : State} (hf : Formed c h)
    (ho : c.anyone = true ∨ s.ctl.holder = some (srcOf h)) (hs : s.dev.st ∉ c.states) : gate c h s = some (stState, 0) := by
  simp [gate, (formOk_iff c h).2 hf, owns_check ho, hs]

/-- The UPDATE overlay turns away the classes 0x02, 0x06 and 0x07. -/
theorem gate_of_overlay {c : CmdSpec} {h : Hdr} {s : State} (hf : Formed c h)
    (ho : c.anyone = true ∨ s.ctl.holder = some (srcOf h)) (hs : s.dev.st ∈ c.states) (hu : s.upd.overlay = true)
    (hc : c.op / 256 ∈ [2, 6, 7]) : gate c h s = some (stBusy, 8) := by
  have hc' : (c.op / 256 == 2 || c.op / 256 == 6 || c.op / 256 == 7) = true := by
    simpa [or_assoc] using hc
  simp [gate, (formOk_iff c h).2 hf, owns_check ho, hs, hu, hc']

/-- A command that the gate turns away is refused, and only its journal entry and its packet's traces remain. -/
theorem refused_of_gate {i : Instr} {c : CmdSpec} {h : Hdr} {act : Nat → State → Act} {s : State} {st d : Nat}
    (hi : exec i s = goes (control c h act s)) (hon : s.dev.st ≠ .off) (hf : Formed c h)
    (hw : seqCase (winAt s (srcOf h)) h.seq = .new) (hg : gate c h s = some (st, d)) (hd : d < 2 ^ 32) :
    Refused c.op h st d (if st = stNotOwner then c.denied.2 else []) s i := by
  unfold Refused
  rw [hi, control_gate c h act s st d hon ((formOk_iff c h).2 hf) hw ((gate_pre c h s).trans hg)]
  exact refuse_refused _ _ _ _ _ _ _ (pre_path h s) (pre_ctl h s).1 hd

/-- A command refused for its form or its number. -/
theorem refused_of_untaken {i : Instr} {op : Nat} {h : Hdr} {s u : State}
    (hi : exec i s = goes u) (hu : u = refuse op h stParam 0 [] (untake h (seeRaw h.stamp s))) : Refused op h 3 0 [] s i := by
  unfold Refused
  rw [hi, hu]
  refine refuse_refused _ _ _ _ _ _ _ (traces_untake_seeRaw h s) ?_ (by decide)
  unfold untake; split <;> rfl

end Machine

open Machine Claims

/-- Settles O3: each check has its lemma about `control` or `gate`, and `commandOf` names the command's own specification. -/
theorem checksFailInOrder : Obligations.ChecksFailInOrder := by
  unfold Obligations.ChecksFailInOrder
  intro i c h s hc hon
  obtain ⟨act, hact⟩ := control_of i c h hc
  have hi := hact s
  refine ⟨fun hf => refused_of_untaken hi (control_of_not_formed act hon hf), fun hf =>
    ⟨fun hw => refused_of_untaken hi (control_of_below act hon hf hw), fun hw => ⟨fun ⟨ha, ho⟩ => ?_, fun ho => ⟨fun hs => ?_, fun hs hu => ?_⟩⟩⟩⟩
  · exact refused_of_gate hi hon hf hw (gate_of_denied hf ha ho) (commandOf_denied i c h hc)
  · exact refused_of_gate hi hon hf hw (gate_of_state hf ho hs) (by decide)
  · exact refused_of_gate hi hon hf hw (gate_of_overlay hf ho hs hu.1 hu.2) (by decide)

end Sys2Proof
end

section
/-!
Duplicates and observe commands (R375, R379, R388): what `answerDup` leaves and answers, and what an observe command leaves whatever its own part does.
-/

namespace Sys2Proof

namespace Machine

open Claims

theorem untake_journal (h : Hdr) (s : State) : (untake h (seeRaw h.stamp s)).ctl.journal = s.ctl.journal := by
  unfold untake; split <;> rfl
theorem untake_cache (h : Hdr) (s : State) : (untake h (seeRaw h.stamp s)).ctl.cache = s.ctl.cache := by
  unfold untake; split <;> rfl
theorem untake_jnext (h : Hdr) (s : State) : (untake h (seeRaw h.stamp s)).ctl.jnext = s.ctl.jnext := by
  unfold untake; split <;> rfl

theorem answerDup_jnext (op : Nat) (h : Hdr) (s : State) : (answerDup op h s).ctl.jnext = s.ctl.jnext := by
  unfold answerDup; split
  · rfl
  · rw [sendReply_jnext]; rfl

/-- Marking the duplicate seen leaves the number, the status, the finality and the result of every entry. -/
theorem answerDup_journal (op : Nat) (h : Hdr) (s : State) :
    (answerDup op h s).ctl.journal.map (fun e => (e.jseq, e.status, e.final, e.result)) =
      s.ctl.journal.map fun e => (e.jseq, e.status, e.final, e.result) := by
  unfold answerDup; split
  · rfl
  · rw [sendReply_journal]
    simp only [journalUpd, List.map_map]
    refine List.map_congr_left fun e _ => ?_
    simp only [Function.comp]
    split <;> rfl

/-- The reply to a duplicate goes to the source that sent it. -/
theorem dupReply_source (op : Nat) (h : Hdr) (e : JEntry) (cache : List Reply) : (dupReply op h e cache).source = srcOf h := by
  unfold dupReply
  split
  · rfl
  · split
    · next r hr => simpa using (by simpa using List.find?_some hr : r.source = srcOf h ∧ r.seq = h.seq).1
    · split <;> rfl

/-- On a host ring the answer to a duplicate stands last. -/
theorem answerDup_last {op : Nat} {h : Hdr} {s : State} {e : JEntry}
    (he : s.ctl.journal.find? (fun e => e.source == srcOf h && e.cseq == h.seq) = some e) (ht : h.transport = 0) :
    (answerDup op h s).ctl.replies.getLast? = some (dupReply op h e s.ctl.cache) := by
  unfold answerDup
  rw [he]
  exact sendReply_last _ _ (by rw [dupReply_source]; exact srcOf_transport h ht)

theorem dupReply_interim {op : Nat} {h : Hdr} {e : JEntry} {cache : List Reply} (hf : e.final = false) :
    dupReply op h e cache = { mkReply op h (some e.jseq) 0 0 [] with final := false, dup := true } := if_pos hf

theorem dupReply_cached {op : Nat} {h : Hdr} {e : JEntry} {cache : List Reply} {r : Reply} (hf : e.final = true)
    (hr : cache.find? (fun r => r.source == srcOf h && r.seq == h.seq) = some r) : dupReply op h e cache = { r with dup := true } := by
  simp [dupReply, hf, hr]

theorem dupReply_done {op : Nat} {h : Hdr} {e : JEntry} {cache : List Reply} (hf : e.final = true)
    (hr : cache.find? (fun r => r.source == srcOf h && r.seq == h.seq) = none) (hs : e.status = 0) :
    dupReply op h e cache = { mkReply op h (some e.jseq) 0 0 e.result with dup := true, partialR := true } := by
  simp only [dupReply, hf, Bool.true_eq_false, if_false, hr, hs, if_true]

theorem dupReply_failed {op : Nat} {h : Hdr} {e : JEntry} {cache : List Reply} (hf : e.final = true)
    (hr : cache.find? (fun r => r.source == srcOf h && r.seq == h.seq) = none) (hs : e.status ≠ 0) :
    dupReply op h e cache =
      { mkReply op h (some e.jseq) e.status (unle (e.result.take 4)) [] with dup := true, partialR := true } := by
  simp only [dupReply, hf, Bool.true_eq_false, if_false, hr, hs]

end Machine

open Machine Claims

/-- Settles O4: `control` hands a duplicate to `answerDup`, whose reply is `dupReply` of the entry found. -/
theorem duplicateNotRepeated : Obligations.DuplicateNotRepeated := by
  unfold Obligations.DuplicateNotRepeated
  intro i c h s hc hon hf hw
  obtain ⟨act, hact⟩ := control_of i c h hc
  refine ⟨_, by rw [hact, goes, control_of_dup act hon hf hw], path_trans (traces_untake_seeRaw h s) (answerDup_path _ _ _),
    by rw [answerDup_jnext, untake_jnext], by rw [answerDup_journal, untake_journal], fun e he ht => ?_⟩
  have hl := answerDup_last (op := c.op) (s := untake h (seeRaw h.stamp s)) (by rw [untake_journal]; exact he) ht
  rw [untake_cache] at hl
  refine ⟨fun hn => ?_, fun hn r hr => ?_, fun hn hr => ⟨fun hs => ?_, fun hs => ?_⟩⟩
  · rw [hl, dupReply_interim hn]
  · rw [hl, dupReply_cached hn hr]
  · rw [hl, dupReply_done hn hr hs]
  · rw [hl, dupReply_failed hn hr hs]

end Sys2Proof
end

section
/-!
What no row touches, and what most rows leave: the queue of commands and local memory. How the shapes that rows share keep them.
-/

namespace Sys2Proof.Machine

/-- The queue of commands and local memory are the same in both states. -/
structure Calm (s t : State) : Prop where
  queue : t.pending = s.pending
  memory : t.hbm = s.hbm

@[simp] theorem calm_iff (s t : State) : Calm s t ↔ t.pending = s.pending ∧ t.hbm = s.hbm :=
  ⟨fun h => ⟨h.queue, h.memory⟩, fun h => ⟨h.1, h.2⟩⟩

theorem calm_refl (s : State) : Calm s s := ⟨rfl, rfl⟩

theorem calm_trans {s t u : State} (h : Calm s t) (k : Calm t u) : Calm s u :=
  ⟨k.queue.trans h.queue, k.memory.trans h.memory⟩

/-- A fold of steps that leave them leaves them. -/
theorem calm_foldl {α : Type} (f : State → α → State) (l : List α) (s : State) (h : ∀ s a, Calm s (f s a)) : Calm s (l.foldl f s) :=
  foldl_rel (β := Nat) Calm calm_refl (fun _ _ _ => calm_trans) f h l s

/-- A row answers a next state and leaves the queue and local memory. -/
def GoesCalm (s : State) (o : Host.Outcome State Fault Refusal) : Prop := ∃ t, o = .next t ∧ Calm s t

theorem goesCalm_goes {s t : State} (h : Calm s t) : GoesCalm s (goes t) := ⟨t, rfl, h⟩

theorem goesCalm_control (c : CmdSpec) (h : Hdr) (act : Nat → State → Act) (s : State) (ha : ∀ j s, Calm s (act j s).s) :
    GoesCalm s (goes (control c h act s)) :=
  goesCalm_goes ⟨control_pending c h act s fun j s => ⟨(ha j s).queue⟩, control_hbm c h act s fun j s => ⟨(ha j s).memory⟩⟩

theorem goesCalm_observe (c : CmdSpec) (h : Hdr) (act : State → Act) (s : State) (ha : ∀ s, Calm s (act s).s) :
    GoesCalm s (goes (observe c h act s)) :=
  goesCalm_goes ⟨observe_pending c h act s fun s => ⟨(ha s).queue⟩, observe_hbm c h act s fun s => ⟨(ha s).memory⟩⟩

theorem calm_tickCmd (h : Hdr) (op j : Nat) (eff : Eff) (check : State → Option (Nat × Nat)) (app : State → State) (s : State)
    (ha : ∀ s, Calm s (app s)) : Calm s (tickCmd h op j eff check app s).s :=
  ⟨tickCmd_pending h op j eff check app s fun s => ⟨(ha s).queue⟩, tickCmd_hbm h op j eff check app s fun s => ⟨(ha s).memory⟩⟩

/-- The effect of a tile operation leaves the queue and local memory. -/
def CalmOp (f : RowOp) : Prop := ∀ r e t s s', Calm s' ((f r e t s).2 s')

theorem goesCalm_runRow (op chainOff : Nat) {f : RowOp} (a : TileAt) (s : State) (hf : CalmOp f) :
    GoesCalm s (goes (runRow op chainOff f a s)) :=
  goesCalm_goes ⟨runRow_pending _ _ _ _ _ fun r e t s s' => ⟨(hf r e t s s').queue⟩,
    runRow_hbm _ _ _ _ _ fun r e t s s' => ⟨(hf r e t s s').memory⟩⟩

theorem calmOp_pureOp (f : Env → Tile → TileOut) : CalmOp (pureOp f) := fun _ _ _ _ s' => calm_refl s'

/-- The row answers a next state with the same queue, and local memory keeps its canonical form. -/
def GoesOn (s : State) (o : Host.Outcome State Fault Refusal) : Prop :=
  ∃ t, o = .next t ∧ t.pending = s.pending ∧ (Memory.wf s.hbm → Memory.wf t.hbm)

theorem GoesCalm.goesOn {s : State} {o : Host.Outcome State Fault Refusal} (h : GoesCalm s o) : GoesOn s o := by
  obtain ⟨t, ht, hc⟩ := h
  exact ⟨t, ht, hc.queue, fun hw => by rw [hc.memory]; exact hw⟩

end Sys2Proof.Machine
end

section
/-!
The rows of commands leave the queue and local memory, each by what its own part leaves.
-/

namespace Sys2Proof.Machine

@[simp] theorem execDeviceId_calm (h : Hdr) (s : State) :
    GoesCalm s (exec (.deviceId h) s) :=
  goesCalm_observe _ _ _ _ fun _ => by simp

@[simp] theorem execDeviceState_calm (h : Hdr) (s : State) :
    GoesCalm s (exec (.deviceState h) s) := by
  refine goesCalm_observe _ _ _ _ fun _ => ?_
  split <;> simp

@[simp] theorem execControlClaim_calm (h : Hdr) (leaseMs : Nat) (force : Bool) (s : State) :
    GoesCalm s (exec (.controlClaim h leaseMs force) s) :=
  goesCalm_control _ _ _ _ fun _ _ => by simp

@[simp] theorem execControlRelease_calm (h : Hdr) (s : State) :
    GoesCalm s (exec (.controlRelease h) s) :=
  goesCalm_control _ _ _ _ fun _ _ => by simp

theorem calm_rcClears (offs : List Nat) (a : Act) :
    Calm a.s (offs.foldl (fun a o => { s := rcClear a.s o, result := a.result ++ le 8 (regValue a.s o) : Act }) a).s := by
  induction offs generalizing a with
  | nil => exact calm_refl _
  | cons o offs ih =>
    have h1 : Calm a.s (rcClear a.s o) := by simp
    exact calm_trans h1 (ih { s := rcClear a.s o, result := a.result ++ le 8 (regValue a.s o) })

@[simp] theorem execCfgRead_calm (h : Hdr) (offs : List Nat) (s : State) : GoesCalm s (exec (.cfgRead h offs) s) := by
  refine goesCalm_observe _ _ _ _ fun u => ?_
  split
  · exact calm_refl u
  · exact calm_rcClears offs { s := u }

@[simp] theorem execArm_calm (h : Hdr) (ta : Nat) (allowDefault : Bool) (s : State) :
    GoesCalm s (exec (.arm h ta allowDefault) s) := by
  refine goesCalm_control _ _ _ _ fun _ _ => ?_
  repeat' split
  all_goals simp

@[simp] theorem execPause_calm (h : Hdr) (s : State) :
    GoesCalm s (exec (.pause h) s) := by
  refine goesCalm_control _ _ _ _ fun _ _ => ?_
  split <;> simp

@[simp] theorem execResume_calm (h : Hdr) (tr : Nat) (s : State) :
    GoesCalm s (exec (.resume h tr) s) := by
  refine goesCalm_control _ _ _ _ fun _ _ => ?_
  repeat' split
  all_goals simp

@[simp] theorem execStop_calm (h : Hdr) (s : State) :
    GoesCalm s (exec (.stop h) s) :=
  goesCalm_control _ _ _ _ fun _ _ => by simp

@[simp] theorem execDeviceReset_calm (h : Hdr) (s : State) :
    GoesCalm s (exec (.deviceReset h) s) :=
  goesCalm_control _ _ _ _ fun _ _ => by simp

@[simp] theorem execSafeStop_calm (h : Hdr) (cause : Nat) (s : State) :
    GoesCalm s (exec (.safeStop h cause) s) := by
  refine goesCalm_control _ _ _ _ fun _ _ => ?_
  split <;> simp

@[simp] theorem execTelemetryRead_calm (h : Hdr) (s : State) :
    GoesCalm s (exec (.telemetryRead h) s) :=
  goesCalm_observe _ _ _ _ fun _ => by simp

@[simp] theorem execMemRead_calm (h : Hdr) (addr : Nat) (len : Nat) (found : List Byte) (s : State) :
    GoesCalm s (exec (.memRead h addr len found) s) := by
  refine goesCalm_observe _ _ _ _ fun _ => ?_
  dsimp only
  split <;> simp

@[simp] theorem execSectionLoad_calm (h : Hdr) (r : LoadReq) (s : State) :
    GoesCalm s (exec (.sectionLoad h r) s) :=
  goesCalm_control _ _ _ _ fun _ _ => by simp

@[simp] theorem execSectionUnload_calm (h : Hdr) (hd : Nat) (s : State) :
    GoesCalm s (exec (.sectionUnload h hd) s) := by
  refine goesCalm_control _ _ _ _ fun _ _ => ?_
  dsimp only
  repeat' split
  all_goals simp

@[simp] theorem execSectionSwap_calm (h : Hdr) (outs : List Nat) (ins : List Nat) (s : State) :
    GoesCalm s (exec (.sectionSwap h outs ins) s) :=
  goesCalm_control _ _ _ _ fun _ _ => calm_tickCmd _ _ _ _ _ _ _ fun _ => by simp

@[simp] theorem execSectionInfo_calm (h : Hdr) (hd : Nat) (s : State) :
    GoesCalm s (exec (.sectionInfo h hd) s) := by
  refine goesCalm_observe _ _ _ _ fun _ => ?_
  split <;> simp

@[simp] theorem execStateRestore_calm (h : Hdr) (img : StateImage) (noHist : Bool) (s : State) :
    GoesCalm s (exec (.stateRestore h img noHist) s) := by
  refine goesCalm_control _ _ _ _ fun _ _ => ?_
  split <;> simp

@[simp] theorem execTableSwitch_calm (h : Hdr) (es : List TabSel) (s : State) :
    GoesCalm s (exec (.tableSwitch h es) s) :=
  goesCalm_control _ _ _ _ fun _ _ => calm_tickCmd _ _ _ _ _ _ _ fun _ => by simp

@[simp] theorem execTileWrite_calm (h : Hdr) (hd : Nat) (vq : Nat) (col : Nat) (row : Nat) (line : Nat) (data : List Byte) (ecc : Ecc) (s : State) :
    GoesCalm s (exec (.tileWrite h hd vq col row line data ecc) s) := by
  refine goesCalm_control _ _ _ _ fun _ _ => ?_
  repeat' split
  all_goals simp

@[simp] theorem execTileRead_calm (h : Hdr) (hd : Nat) (vq : Nat) (col : Nat) (row : Nat) (line : Nat) (ecc : Ecc) (s : State) :
    GoesCalm s (exec (.tileRead h hd vq col row line ecc) s) := by
  refine goesCalm_observe _ _ _ _ fun _ => ?_
  repeat' split
  all_goals simp

@[simp] theorem execProbeSet_calm (h : Hdr) (n : Nat) (p : Probe) (s : State) :
    GoesCalm s (exec (.probeSet h n p) s) := by
  refine goesCalm_control _ _ _ _ fun _ _ => ?_
  dsimp only
  split <;> simp

@[simp] theorem execProbeRead_calm (h : Hdr) (n : Nat) (s : State) :
    GoesCalm s (exec (.probeRead h n) s) := by
  refine goesCalm_observe _ _ _ _ fun _ => ?_
  split <;> simp

@[simp] theorem execDigestRead_calm (h : Hdr) (hd : Nat) (first : Nat) (count : Nat) (s : State) :
    GoesCalm s (exec (.digestRead h hd first count) s) := by
  refine goesCalm_observe _ _ _ _ fun _ => ?_
  dsimp only
  repeat' split
  all_goals simp

@[simp] theorem execDigestVerify_calm (h : Hdr) (hd : Nat) (s : State) :
    GoesCalm s (exec (.digestVerify h hd) s) := by
  refine goesCalm_observe _ _ _ _ fun _ => ?_
  split <;> simp

@[simp] theorem execChanSet_calm (h : Hdr) (first : Nat) (vals : List Nat) (s : State) :
    GoesCalm s (exec (.chanSet h first vals) s) := by
  refine goesCalm_control _ _ _ _ fun _ _ => ?_
  dsimp only
  repeat' split
  all_goals simp

@[simp] theorem execGroupSet_calm (h : Hdr) (g : Nat) (d : GroupDesc) (s : State) :
    GoesCalm s (exec (.groupSet h g d) s) := by
  refine goesCalm_control _ _ _ _ fun _ _ => ?_
  split <;> simp

@[simp] theorem execPrimSet_calm (h : Hdr) (first : Nat) (ds : List PrimDesc) (s : State) :
    GoesCalm s (exec (.primSet h first ds) s) :=
  goesCalm_control _ _ _ _ fun _ _ => calm_tickCmd _ _ _ _ _ _ _ fun _ => by simp

@[simp] theorem execMeasSet_calm (h : Hdr) (e : Nat) (d : MeasDesc) (s : State) :
    GoesCalm s (exec (.measSet h e d) s) := by
  refine goesCalm_control _ _ _ _ fun _ _ => ?_
  split <;> simp

@[simp] theorem execCalWrite_calm (h : Hdr) (es : List CalEntry) (s : State) : GoesCalm s (exec (.calWrite h es) s) := by
  refine goesCalm_control _ _ _ _ fun j u => ?_
  have ht := calm_tickCmd h 0x305 j (.cal (es.filter fun e => calWhen e == 1)) (fun _ => none)
    (calApply (es.filter fun e => calWhen e == 1)) u fun _ => by simp
  dsimp only
  repeat' split
  all_goals simp_all

@[simp] theorem execCalCommit_calm (h : Hdr) (version : Nat) (s : State) :
    GoesCalm s (exec (.calCommit h version) s) := by
  refine goesCalm_control _ _ _ _ fun _ _ => ?_
  dsimp only
  split <;> simp

@[simp] theorem execCalRead_calm (h : Hdr) (item : Nat) (first : Nat) (count : Nat) (s : State) :
    GoesCalm s (exec (.calRead h item first count) s) := by
  refine goesCalm_observe _ _ _ _ fun _ => ?_
  repeat' split
  all_goals simp

@[simp] theorem execCombLineSet_calm (h : Hdr) (n : Nat) (d : LineDesc) (s : State) :
    GoesCalm s (exec (.combLineSet h n d) s) :=
  goesCalm_control _ _ _ _ fun _ _ => calm_tickCmd _ _ _ _ _ _ _ fun _ => by simp

@[simp] theorem execTemplateSet_calm (h : Hdr) (k : Nat) (d : TemplateDesc) (s : State) :
    GoesCalm s (exec (.templateSet h k d) s) :=
  goesCalm_control _ _ _ _ fun _ _ => calm_tickCmd _ _ _ _ _ _ _ fun _ => by simp

@[simp] theorem execWindowSet_calm (h : Hdr) (n : Nat) (w : Window) (s : State) :
    GoesCalm s (exec (.windowSet h n w) s) := by
  refine goesCalm_control _ _ _ _ fun _ _ => ?_
  dsimp only
  repeat' split
  all_goals simp

@[simp] theorem execRingExtract_calm (h : Hdr) (t : Nat) (k : Nat) (s : State) :
    GoesCalm s (exec (.ringExtract h t k) s) := by
  refine goesCalm_control _ _ _ _ fun _ _ => ?_
  repeat' split
  all_goals simp

@[simp] theorem execDmaResume_calm (h : Hdr) (e : Nat) (mode : Nat) (s : State) :
    GoesCalm s (exec (.dmaResume h e mode) s) := by
  refine goesCalm_control _ _ _ _ fun _ _ => ?_
  repeat' split
  all_goals simp

@[simp] theorem execCulletRead_calm (h : Hdr) (part : Nat) (s : State) :
    GoesCalm s (exec (.culletRead h part) s) := by
  refine goesCalm_observe _ _ _ _ fun _ => ?_
  repeat' split
  all_goals simp

@[simp] theorem execRecordInputsSet_calm (h : Hdr) (area : Nat) (size : Nat) (endTick : Nat) (freeze : Bool) (wide : Bool) (s : State) :
    GoesCalm s (exec (.recordInputsSet h area size endTick freeze wide) s) := by
  refine goesCalm_control _ _ _ _ fun _ _ => ?_
  dsimp only
  repeat' split
  all_goals simp

@[simp] theorem execReplaySet_calm (h : Hdr) (area : Nat) (recorded : Bool) (quiet : Bool) (imgs : List (BitVec 512)) (s : State) :
    GoesCalm s (exec (.replaySet h area recorded quiet imgs) s) := by
  refine goesCalm_control _ _ _ _ fun _ _ => ?_
  repeat' split
  all_goals simp

@[simp] theorem execReplayExport_calm (h : Hdr) (e : Nat) (area : Nat) (addr : Nat) (s : State) :
    GoesCalm s (exec (.replayExport h e area addr) s) := by
  refine goesCalm_control _ _ _ _ fun _ _ => ?_
  repeat' split
  all_goals simp

@[simp] theorem execTimeSet_calm (h : Hdr) (t : Tod) (s : State) :
    GoesCalm s (exec (.timeSet h t) s) := by
  refine goesCalm_control _ _ _ _ fun _ _ => ?_
  repeat' split
  all_goals simp

@[simp] theorem execTimeRate_calm (h : Hdr) (rate : Int) (s : State) :
    GoesCalm s (exec (.timeRate h rate) s) := by
  refine goesCalm_control _ _ _ _ fun _ _ => ?_
  repeat' split
  all_goals simp

@[simp] theorem execTimeAdj_calm (h : Hdr) (d : Int) (s : State) :
    GoesCalm s (exec (.timeAdj h d) s) := by
  refine goesCalm_control _ _ _ _ fun _ _ => ?_
  repeat' split
  all_goals simp

@[simp] theorem execTimeGet_calm (h : Hdr) (s : State) :
    GoesCalm s (exec (.timeGet h) s) :=
  goesCalm_observe _ _ _ _ fun _ => by simp

@[simp] theorem execTimedSet_calm (h : Hdr) (e : Nat) (d : TimedDesc) (s : State) :
    GoesCalm s (exec (.timedSet h e d) s) :=
  goesCalm_control _ _ _ _ fun _ _ => calm_tickCmd _ _ _ _ _ _ _ fun _ => by simp

@[simp] theorem execTickAlign_calm (h : Hdr) (tick : Nat) (t : Tod) (s : State) :
    GoesCalm s (exec (.tickAlign h tick t) s) := by
  refine goesCalm_control _ _ _ _ fun _ _ => ?_
  dsimp only
  split <;> simp

@[simp] theorem execPtpConfig_calm (h : Hdr) (cfg : PtpCfg) (s : State) :
    GoesCalm s (exec (.ptpConfig h cfg) s) := by
  refine goesCalm_control _ _ _ _ fun _ _ => ?_
  split <;> simp

@[simp] theorem execMgmtTx_calm (h : Hdr) (tsReq : Bool) (tsId : Nat) (bytes : List Byte) (s : State) :
    GoesCalm s (exec (.mgmtTx h tsReq tsId bytes) s) := by
  refine goesCalm_control _ _ _ _ fun _ _ => ?_
  repeat' split
  all_goals simp

@[simp] theorem execFabricDiscover_calm (h : Hdr) (s : State) :
    GoesCalm s (exec (.fabricDiscover h) s) :=
  goesCalm_control _ _ _ _ fun _ _ => by simp

@[simp] theorem execFabricIdmap_calm (h : Hdr) (ids : List (Nat × Nat)) (s : State) :
    GoesCalm s (exec (.fabricIdmap h ids) s) := by
  refine goesCalm_control _ _ _ _ fun _ _ => ?_
  split <;> simp

@[simp] theorem execFabricPlan_calm (h : Hdr) (p : Plan) (s : State) :
    GoesCalm s (exec (.fabricPlan h p) s) := by
  refine goesCalm_control _ _ _ _ fun _ _ => ?_
  repeat' split
  all_goals simp

@[simp] theorem execFabricBarrierStart_calm (h : Hdr) (tb : Nat) (s : State) :
    GoesCalm s (exec (.fabricBarrierStart h tb) s) := by
  refine goesCalm_control _ _ _ _ fun _ _ => ?_
  dsimp only
  repeat' split
  all_goals simp

@[simp] theorem execFabricState_calm (h : Hdr) (s : State) :
    GoesCalm s (exec (.fabricState h) s) :=
  goesCalm_observe _ _ _ _ fun _ => by simp

@[simp] theorem execFabricTimeRoot_calm (h : Hdr) (dev : Nat) (s : State) :
    GoesCalm s (exec (.fabricTimeRoot h dev) s) := by
  refine goesCalm_control _ _ _ _ fun _ _ => ?_
  repeat' split
  all_goals simp

@[simp] theorem execCollectCfg_calm (h : Hdr) (e : Nat) (s : State) :
    GoesCalm s (exec (.collectCfg h e) s) := by
  refine goesCalm_control _ _ _ _ fun _ _ => ?_
  split <;> simp

theorem forwardAct_calm (h : Hdr) (dest : Nat) (bytes : List Byte) (j : Nat) (s : State) : Calm s (forwardAct h dest bytes j s).s := by
  simp

@[simp] theorem execFabricForward_calm (h : Hdr) (dest : Nat) (bytes : List Byte) (s : State) :
    GoesCalm s (exec (.fabricForward h dest bytes) s) := by
  rw [exec_fabricForward, execFabricForward]
  split
  · exact goesCalm_observe _ _ _ _ fun u => forwardAct_calm h dest bytes 0 u
  · exact goesCalm_control _ _ _ _ fun j u => forwardAct_calm h dest bytes j u

@[simp] theorem execMaintStart_calm (h : Hdr) (r : MaintReq) (s : State) :
    GoesCalm s (exec (.maintStart h r) s) := by
  refine goesCalm_control _ _ _ _ fun _ _ => ?_
  repeat' split
  all_goals simp

@[simp] theorem execMaintStop_calm (h : Hdr) (act : Nat) (s : State) :
    GoesCalm s (exec (.maintStop h act) s) := by
  refine goesCalm_control _ _ _ _ fun _ _ => ?_
  repeat' split
  all_goals simp

@[simp] theorem execMaintStatus_calm (h : Hdr) (s : State) :
    GoesCalm s (exec (.maintStatus h) s) :=
  goesCalm_observe _ _ _ _ fun _ => by simp

@[simp] theorem execQuadPower_calm (h : Hdr) (q : Nat) (req : Nat) (s : State) :
    GoesCalm s (exec (.quadPower h q req) s) :=
  goesCalm_control _ _ _ _ fun _ _ => by simp

@[simp] theorem execStandbySet_calm (h : Hdr) (q : Option Nat) (s : State) :
    GoesCalm s (exec (.standbySet h q) s) :=
  goesCalm_control _ _ _ _ fun _ _ => by simp

@[simp] theorem execHealthRead_calm (h : Hdr) (s : State) :
    GoesCalm s (exec (.healthRead h) s) :=
  goesCalm_observe _ _ _ _ fun _ => by simp

@[simp] theorem execUpdateBegin_calm (h : Hdr) (addr : Nat) (len : Nat) (whole : Bool) (man : List Byte) (rest : List Byte)
    (s : State) :
    GoesCalm s (exec (.updateBegin h addr len whole man rest) s) :=
  goesCalm_control _ _ _ _ fun _ _ => by simp

@[simp] theorem execUpdateData_calm (h : Hdr) (off : Nat) (bytes : List Byte) (s : State) :
    GoesCalm s (exec (.updateData h off bytes) s) := by
  refine goesCalm_control _ _ _ _ fun _ _ => ?_
  repeat' split
  all_goals simp

@[simp] theorem execUpdateApply_calm (h : Hdr) (mask : Nat) (peers : List Nat) (s : State) :
    GoesCalm s (exec (.updateApply h mask peers) s) :=
  goesCalm_control _ _ _ _ fun _ _ => by simp

@[simp] theorem execUpdateStatus_calm (h : Hdr) (s : State) :
    GoesCalm s (exec (.updateStatus h) s) :=
  goesCalm_observe _ _ _ _ fun _ => by simp

@[simp] theorem execUpdateAbort_calm (h : Hdr) (s : State) :
    GoesCalm s (exec (.updateAbort h) s) := by
  refine goesCalm_control _ _ _ _ fun _ _ => ?_
  repeat' split
  all_goals simp

@[simp] theorem execDebugChallenge_calm (h : Hdr) (s : State) :
    GoesCalm s (exec (.debugChallenge h) s) := by
  refine goesCalm_control _ _ _ _ fun _ _ => ?_
  split <;> simp

@[simp] theorem execDebugUnlock_calm (h : Hdr) (addr : Nat) (len : Nat) (magic : Nat) (level : Nat) (slot : Nat) (uid : Nat)
    (nonce : BitVec 256) (rest : List Byte) (s : State) :
    GoesCalm s (exec (.debugUnlock h addr len magic level slot uid nonce rest) s) :=
  goesCalm_control _ _ _ _ fun _ _ => by simp

@[simp] theorem execJournalRead_calm (h : Hdr) (from_ : Nat) (max : Nat) (s : State) :
    GoesCalm s (exec (.journalRead h from_ max) s) := by
  refine goesCalm_observe _ _ _ _ fun _ => ?_
  split <;> simp

@[simp] theorem execJournalNote_calm (h : Hdr) (s : State) :
    GoesCalm s (exec (.journalNote h) s) := by
  refine goesCalm_control _ _ _ _ fun _ _ => ?_
  split <;> simp

@[simp] theorem execErrqRead_calm (h : Hdr) (s : State) :
    GoesCalm s (exec (.errqRead h) s) :=
  goesCalm_observe _ _ _ _ fun _ => by simp

@[simp] theorem execBadPacket_calm (h : Hdr) (opcode : Nat) (s : State) :
    GoesCalm s (exec (.badPacket h opcode) s) := by
  refine goesCalm_goes ?_
  simp [apply_ite State.pending, apply_ite State.hbm]

@[simp] theorem execMmioDenied_calm (off : Nat) (size : Nat) (s : State) :
    GoesCalm s (exec (.mmioDenied off size) s) := by
  refine goesCalm_goes ?_
  simp [apply_ite State.pending, apply_ite State.hbm]

@[simp] theorem execRcRead_calm (off : Nat) (size : Nat) (s : State) :
    GoesCalm s (exec (.rcRead off size) s) :=
  goesCalm_goes (by simp)

@[simp] theorem execTxtsHeadRead_calm (off : Nat) (size : Nat) (s : State) :
    GoesCalm s (exec (.txtsHeadRead off size) s) := by
  refine goesCalm_goes ?_
  simp [apply_ite State.pending, apply_ite State.hbm]

@[simp] theorem execQueueEnable_calm (q : Nat) (size : Nat) (vector : Nat) (s : State) :
    GoesCalm s (exec (.queueEnable q size vector) s) := by
  refine goesCalm_goes ?_
  simp [apply_ite State.pending, apply_ite State.hbm]

end Sys2Proof.Machine
end

section
/-!
The rows of the host, of the fixed and the elastic zone and of the engines leave the queue and local memory.
-/

namespace Sys2Proof.Machine

@[simp] theorem execQueueDisable_calm (q : Nat) (s : State) :
    GoesCalm s (exec (.queueDisable q) s) := by
  refine goesCalm_goes ?_
  simp [apply_ite State.pending, apply_ite State.hbm]

@[simp] theorem execDmaEngineStopped_calm (e : Nat) (s : State) :
    GoesCalm s (exec (.dmaEngineStopped e) s) := by
  refine goesCalm_goes ?_
  dsimp only
  repeat' split
  all_goals simp

@[simp] theorem execBar2Resize_calm (size : Nat) (s : State) :
    GoesCalm s (exec (.bar2Resize size) s) := by
  refine goesCalm_goes ?_
  simp [apply_ite State.pending, apply_ite State.hbm]

@[simp] theorem execMsixTableWrite_calm (vec : Nat) (addr : Nat) (data : Nat) (masked : Bool) (s : State) :
    GoesCalm s (exec (.msixTableWrite vec addr data masked) s) := by
  refine goesCalm_goes ?_
  simp [apply_ite State.pending, apply_ite State.hbm]

@[simp] theorem execSqDoorbell_calm (q : Nat) (v : Nat) (size : Nat) (s : State) :
    GoesCalm s (exec (.sqDoorbell q v size) s) := by
  refine goesCalm_goes ?_
  simp [apply_ite State.pending, apply_ite State.hbm]

@[simp] theorem execCqDoorbell_calm (q : Nat) (v : Nat) (size : Nat) (s : State) :
    GoesCalm s (exec (.cqDoorbell q v size) s) := by
  refine goesCalm_goes ?_
  simp [apply_ite State.pending, apply_ite State.hbm]

@[simp] theorem execDmaDoorbell_calm (e : Nat) (v : Nat) (size : Nat) (s : State) :
    GoesCalm s (exec (.dmaDoorbell e v size) s) := by
  refine goesCalm_goes ?_
  simp [apply_ite State.pending, apply_ite State.hbm]

@[simp] theorem execEvqDoorbell_calm (v : Nat) (size : Nat) (s : State) :
    GoesCalm s (exec (.evqDoorbell v size) s) := by
  refine goesCalm_goes ?_
  simp [apply_ite State.pending, apply_ite State.hbm]

@[simp] theorem execSubmissionTake_calm (q : Nat) (bytes : List Byte) (s : State) :
    GoesCalm s (exec (.submissionTake q bytes) s) := by
  refine goesCalm_goes ?_
  simp [apply_ite State.pending, apply_ite State.hbm]

@[simp] theorem execCompletionWrite_calm (q : Nat) (s : State) :
    GoesCalm s (exec (.completionWrite q) s) := by
  refine goesCalm_goes ?_
  dsimp only
  repeat' split
  all_goals simp

@[simp] theorem execIrqHoldoffEnd_calm (vec : Nat) (s : State) :
    GoesCalm s (exec (.irqHoldoffEnd vec) s) := by
  refine goesCalm_goes ?_
  simp [apply_ite State.pending, apply_ite State.hbm]

@[simp] theorem execBar2Read_calm (off : Nat) (len : Nat) (s : State) :
    GoesCalm s (exec (.bar2Read off len) s) := by
  refine goesCalm_goes ?_
  simp [apply_ite State.pending, apply_ite State.hbm]

@[simp] theorem execPerst_calm (level : Bool) (s : State) :
    GoesCalm s (exec (.perst level) s) := by
  refine goesCalm_goes ?_
  simp [apply_ite State.pending, apply_ite State.hbm]

@[simp] theorem execPcieLinkTrain_calm (speed : Nat) (width : Nat) (flit : Bool) (s : State) :
    GoesCalm s (exec (.pcieLinkTrain speed width flit) s) := by
  refine goesCalm_goes ?_
  simp [apply_ite State.pending, apply_ite State.hbm]

@[simp] theorem execFrame_calm (lane : Nat) (words : List (BitVec 32)) (x : Nat) (s : State) :
    GoesCalm s (exec (.frame lane words x) s) := by
  refine goesCalm_goes ?_
  simp [apply_ite State.pending, apply_ite State.hbm]

@[simp] theorem execLaneDown_calm (lane : Nat) (s : State) :
    GoesCalm s (exec (.laneDown lane) s) := by
  refine goesCalm_goes ?_
  simp [apply_ite State.pending, apply_ite State.hbm]

@[simp] theorem execAlignmentPoint_calm (t : TickIn) (s : State) :
    GoesCalm s (exec (.alignmentPoint t) s) := by
  refine goesCalm_goes ?_
  simp [apply_ite State.pending, apply_ite State.hbm]

@[simp] theorem execTrgInEdge_calm (k : Nat) (x : Nat) (s : State) :
    GoesCalm s (exec (.trgInEdge k x) s) := by
  refine goesCalm_goes ?_
  simp [apply_ite State.pending, apply_ite State.hbm]

@[simp] theorem execCombineDecision_calm (t : TickIn) (s : State) :
    GoesCalm s (exec (.combineDecision t) s) := by
  refine goesCalm_goes ?_
  simp [apply_ite State.pending, apply_ite State.hbm]

@[simp] theorem execTrgOutPulseEnd_calm (k : Nat) (s : State) :
    GoesCalm s (exec (.trgOutPulseEnd k) s) := by
  refine goesCalm_goes ?_
  simp [apply_ite State.pending, apply_ite State.hbm]

@[simp] theorem execCandidateQueued_calm (c : Nat) (s : State) :
    GoesCalm s (exec (.candidateQueued c) s) := by
  refine goesCalm_goes ?_
  simp [apply_ite State.pending, apply_ite State.hbm]

@[simp] theorem execPassDispatch_calm (hd : Nat) (x : Nat) (s : State) :
    GoesCalm s (exec (.passDispatch hd x) s) := by
  refine goesCalm_goes ?_
  repeat' split
  all_goals simp

@[simp] theorem execPassEnd_calm (hd : Nat) (x : Nat) (s : State) :
    GoesCalm s (exec (.passEnd hd x) s) := by
  refine goesCalm_goes ?_
  repeat' split
  all_goals simp

@[simp] theorem execVerdictMissing_calm (hd : Nat) (x : Nat) (s : State) :
    GoesCalm s (exec (.verdictMissing hd x) s) := by
  refine goesCalm_goes ?_
  simp [apply_ite State.pending, apply_ite State.hbm]

@[simp] theorem execPassBoundary_calm (hd : Nat) (x : Nat) (s : State) :
    GoesCalm s (exec (.passBoundary hd x) s) := by
  refine goesCalm_goes ?_
  simp [apply_ite State.pending, apply_ite State.hbm]

@[simp] theorem execCandidateExpire_calm (c : Nat) (x : Nat) (s : State) :
    GoesCalm s (exec (.candidateExpire c x) s) := by
  refine goesCalm_goes ?_
  simp [apply_ite State.pending, apply_ite State.hbm]

@[simp] theorem execDeliverRequest_calm (c : Nat) (s : State) :
    GoesCalm s (exec (.deliverRequest c) s) := by
  refine goesCalm_goes ?_
  simp [apply_ite State.pending, apply_ite State.hbm]

@[simp] theorem execStallLimit_calm (hd : Nat) (x : Nat) (s : State) :
    GoesCalm s (exec (.stallLimit hd x) s) := by
  refine goesCalm_goes ?_
  dsimp only
  repeat' split
  all_goals simp

@[simp] theorem execCreditReturn_calm (hd : Nat) (loop : Nat) (s : State) :
    GoesCalm s (exec (.creditReturn hd loop) s) := by
  refine goesCalm_goes ?_
  simp [apply_ite State.pending, apply_ite State.hbm]

theorem calm_takeLine {hd : Nat} {s t : State} {a : Ask} {l : MLine} (h : takeLine hd s = some (a, l, t)) : Calm s t :=
  ⟨takeLine_pending hd s a l t h, takeLine_hbm hd s a l t h⟩

@[simp] theorem execHbmLineReturn_calm (hd : Nat) (ue : Bool) (ce : Bool) (s : State) : GoesCalm s (exec (.hbmLineReturn hd ue ce) s) := by
  refine goesCalm_goes ?_
  split
  · exact calm_refl s
  · next a l u hu =>
    refine calm_trans (calm_takeLine hu) ?_
    dsimp only
    repeat' split
    all_goals simp

@[simp] theorem execRecordAssemble_calm (kind : Nat) (dest : Nat) (s : State) :
    GoesCalm s (exec (.recordAssemble kind dest) s) := by
  refine goesCalm_goes ?_
  dsimp only
  repeat' split
  all_goals simp

end Sys2Proof.Machine
end

section
/-!
The rows of the fabric, the time base, repairs, updates, trust and power leave the queue and local memory.
-/

namespace Sys2Proof.Machine

@[simp] theorem execFireWordBuild_calm (t : Nat) (s : State) :
    GoesCalm s (exec (.fireWordBuild t) s) := by
  refine goesCalm_goes ?_
  simp [apply_ite State.pending, apply_ite State.hbm]

@[simp] theorem execFslotTake_calm (t : Nat) (n : Nat) (s : State) :
    GoesCalm s (exec (.fslotTake t n) s) := by
  refine goesCalm_goes ?_
  dsimp only
  repeat' split
  all_goals simp

@[simp] theorem execFslotGive_calm (t : Nat) (n : Nat) (s : State) :
    GoesCalm s (exec (.fslotGive t n) s) := by
  refine goesCalm_goes ?_
  repeat' split
  all_goals simp

@[simp] theorem execCodeword_calm (l : Nat) (errs : Nat) (m : BitVec 5140) (raw : Nat) (s : State) :
    GoesCalm s (exec (.codeword l errs m raw) s) := by
  refine goesCalm_goes ?_
  simp [apply_ite State.pending, apply_ite State.hbm]

@[simp] theorem execNakTimeout_calm (l : Nat) (s : State) :
    GoesCalm s (exec (.nakTimeout l) s) := by
  refine goesCalm_goes ?_
  simp [apply_ite State.pending, apply_ite State.hbm]

@[simp] theorem execElasticPacket_calm (l : Nat) (vc : Nat) (s : State) : GoesCalm s (exec (.elasticPacket l vc) s) := by
  refine goesCalm_goes ?_
  dsimp only
  split
  · exact calm_refl s
  · split
    · exact calm_refl s
    · next p rest _ =>
      repeat' split
      case h_1 t ht => exact calm_trans ⟨packetHere_pending p s t ht, packetHere_hbm p s t ht⟩ (by simp)
      all_goals simp

@[simp] theorem execCollectorRecord_calm (src : Nat) (recseq : Nat) (s : State) :
    GoesCalm s (exec (.collectorRecord src recseq) s) := by
  refine goesCalm_goes ?_
  repeat' split
  all_goals simp

@[simp] theorem execLinkTrainDone_calm (l : Nat) (peer : Nat) (peerUid : Nat) (s : State) :
    GoesCalm s (exec (.linkTrainDone l peer peerUid) s) := by
  refine goesCalm_goes ?_
  simp [apply_ite State.pending, apply_ite State.hbm]

@[simp] theorem execProbe_calm (l : Nat) (id : Nat) (t2 : Nat) (t3 : Nat) (s : State) :
    GoesCalm s (exec (.probe l id t2 t3) s) := by
  refine goesCalm_goes ?_
  simp [apply_ite State.pending, apply_ite State.hbm]

@[simp] theorem execEcho_calm (l : Nat) (id : Nat) (turn : Nat) (t4 : Nat) (s : State) :
    GoesCalm s (exec (.echo l id turn t4) s) := by
  refine goesCalm_goes ?_
  dsimp only
  repeat' split
  all_goals simp

@[simp] theorem execLinkCalDone_calm (l : Nat) (s : State) :
    GoesCalm s (exec (.linkCalDone l) s) := by
  refine goesCalm_goes ?_
  simp [apply_ite State.pending, apply_ite State.hbm]

@[simp] theorem execLinkTrainTimeout_calm (l : Nat) (s : State) :
    GoesCalm s (exec (.linkTrainTimeout l) s) := by
  refine goesCalm_goes ?_
  simp [apply_ite State.pending, apply_ite State.hbm]

@[simp] theorem execLinkDown_calm (l : Nat) (s : State) :
    GoesCalm s (exec (.linkDown l) s) := by
  refine goesCalm_goes ?_
  simp [apply_ite State.pending, apply_ite State.hbm]

@[simp] theorem execHello_calm (l : Nat) (m : Msg) (s : State) :
    GoesCalm s (exec (.hello l m) s) := by
  refine goesCalm_goes ?_
  repeat' split
  all_goals simp

@[simp] theorem execElect_calm (l : Nat) (m : Msg) (s : State) :
    GoesCalm s (exec (.elect l m) s) := by
  refine goesCalm_goes ?_
  dsimp only
  repeat' split
  all_goals simp

@[simp] theorem execTopo_calm (l : Nat) (m : Msg) (s : State) :
    GoesCalm s (exec (.topo l m) s) := by
  refine goesCalm_goes ?_
  repeat' split
  all_goals simp

@[simp] theorem execAssign_calm (l : Nat) (m : Msg) (s : State) :
    GoesCalm s (exec (.assign l m) s) := by
  refine goesCalm_goes ?_
  dsimp only
  repeat' split
  all_goals simp

@[simp] theorem execAssignAck_calm (l : Nat) (m : Msg) (s : State) :
    GoesCalm s (exec (.assignAck l m) s) := by
  refine goesCalm_goes ?_
  dsimp only
  repeat' split
  all_goals simp

@[simp] theorem execHeartbeat_calm (l : Nat) (m : Msg) (s : State) : GoesCalm s (exec (.heartbeat l m) s) := by
  refine goesCalm_goes ?_
  dsimp only
  repeat' split
  all_goals simp [foldl_pending, foldl_hbm]

@[simp] theorem execHbTimeout_calm (dev : Nat) (s : State) :
    GoesCalm s (exec (.hbTimeout dev) s) := by
  refine goesCalm_goes ?_
  repeat' split
  all_goals simp

@[simp] theorem execErouteUpdate_calm (table : List (Nat × Nat)) (s : State) :
    GoesCalm s (exec (.erouteUpdate table) s) := by
  refine goesCalm_goes ?_
  simp [apply_ite State.pending, apply_ite State.hbm]

@[simp] theorem execBarrier_calm (b : BarrierDesc) (s : State) :
    GoesCalm s (exec (.barrier b) s) := by
  refine goesCalm_goes ?_
  dsimp only
  repeat' split
  all_goals simp

@[simp] theorem execUpdateToken_calm (dev : Nat) (kind : Nat) (s : State) :
    GoesCalm s (exec (.updateToken dev kind) s) := by
  refine goesCalm_goes ?_
  dsimp only
  repeat' split
  all_goals simp

@[simp] theorem execFabricTimeSteer_calm (l : Nat) (s : State) :
    GoesCalm s (exec (.fabricTimeSteer l) s) := by
  refine goesCalm_goes ?_
  simp [apply_ite State.pending, apply_ite State.hbm]

@[simp] theorem execTickInEdge_calm (raw : Nat) (tick : Nat) (dev : Int) (s : State) :
    GoesCalm s (exec (.tickInEdge raw tick dev) s) := by
  refine goesCalm_goes ?_
  simp [apply_ite State.pending, apply_ite State.hbm]

@[simp] theorem execTickHoldover_calm (missing : Bool) (s : State) :
    GoesCalm s (exec (.tickHoldover missing) s) := by
  refine goesCalm_goes ?_
  simp [apply_ite State.pending, apply_ite State.hbm]

@[simp] theorem execPpsInEdge_calm (raw : Nat) (s : State) :
    GoesCalm s (exec (.ppsInEdge raw) s) := by
  refine goesCalm_goes ?_
  simp [apply_ite State.pending, apply_ite State.hbm]

@[simp] theorem execPpsOutPulse_calm (raw : Nat) (s : State) :
    GoesCalm s (exec (.ppsOutPulse raw) s) := by
  refine goesCalm_goes ?_
  simp [apply_ite State.pending, apply_ite State.hbm]

@[simp] theorem execPtpFrameRx_calm (raw : Nat) (kind : Nat) (t : Nat) (bytes : List Byte) (s : State) :
    GoesCalm s (exec (.ptpFrameRx raw kind t bytes) s) := by
  refine goesCalm_goes ?_
  dsimp only
  repeat' split
  all_goals simp

@[simp] theorem execSlewEnd_calm (raw : Nat) (s : State) :
    GoesCalm s (exec (.slewEnd raw) s) := by
  refine goesCalm_goes ?_
  simp [apply_ite State.pending, apply_ite State.hbm]

@[simp] theorem execTxTimestamp_calm (id : Nat) (raw : Nat) (s : State) :
    GoesCalm s (exec (.txTimestamp id raw) s) := by
  refine goesCalm_goes ?_
  simp [apply_ite State.pending, apply_ite State.hbm]

@[simp] theorem execTimedEventFire_calm (e : Nat) (x : Nat) (s : State) :
    GoesCalm s (exec (.timedEventFire e x) s) := by
  refine goesCalm_goes ?_
  dsimp only
  repeat' split
  all_goals simp

@[simp] theorem execTimedOutPulseEnd_calm (e : Nat) (s : State) :
    GoesCalm s (exec (.timedOutPulseEnd e) s) := by
  refine goesCalm_goes ?_
  simp [apply_ite State.pending, apply_ite State.hbm]

@[simp] theorem execHandlerStep_calm (core : Nat) (r : StepIn) (s : State) :
    GoesCalm s (exec (.handlerStep core r) s) := by
  refine goesCalm_goes ?_
  dsimp only
  repeat' split
  all_goals simp

@[simp] theorem execErrqScan_calm (core : Nat) (s : State) : GoesCalm s (exec (.errqScan core) s) := by
  refine goesCalm_goes ?_
  dsimp only
  split
  · exact calm_refl s
  · exact calm_foldl _ _ _ fun _ _ => by simp

@[simp] theorem execConfirmExpire_calm (unit : Nat) (s : State) : GoesCalm s (exec (.confirmExpire unit) s) := by
  refine goesCalm_goes (calm_foldl _ _ _ fun _ _ => ?_)
  repeat' split
  all_goals simp

@[simp] theorem execRotationWarmupEnd_calm (act : Nat) (k : Nat) (s : State) :
    GoesCalm s (exec (.rotationWarmupEnd act k) s) := by
  refine goesCalm_goes ?_
  repeat' split
  all_goals simp

@[simp] theorem execRecomputeDecision_calm (act : Nat) (k : Nat) (active : Bool) (spare : Bool) (s : State) :
    GoesCalm s (exec (.recomputeDecision act k active spare) s) := by
  refine goesCalm_goes ?_
  repeat' split
  all_goals simp

@[simp] theorem execRotationSwap_calm (act : Nat) (k : Nat) (s : State) :
    GoesCalm s (exec (.rotationSwap act k) s) := by
  refine goesCalm_goes ?_
  dsimp only
  repeat' split
  all_goals simp

@[simp] theorem execCoreWatchdog_calm (core : Nat) (ue : Bool) (s : State) :
    GoesCalm s (exec (.coreWatchdog core ue) s) := by
  refine goesCalm_goes ?_
  simp [apply_ite State.pending, apply_ite State.hbm]

@[simp] theorem execPatrolScrub_calm (q : Nat) (col : Nat) (row : Nat) (line : Nat) (ce : Bool) (ue : Bool) (again : Bool) (s : State) :
    GoesCalm s (exec (.patrolScrub q col row line ce ue again) s) := by
  refine goesCalm_goes ?_
  simp [apply_ite State.pending, apply_ite State.hbm]

@[simp] theorem execScratchWindowTest_calm (core : Nat) (w : Nat) (ok : Bool) (access : Bool) (s : State) :
    GoesCalm s (exec (.scratchWindowTest core w ok access) s) := by
  refine goesCalm_goes ?_
  simp [apply_ite State.pending, apply_ite State.hbm]

@[simp] theorem execClearingDone_calm (q : Nat) (s : State) :
    GoesCalm s (exec (.clearingDone q) s) := by
  refine goesCalm_goes ?_
  simp [apply_ite State.pending, apply_ite State.hbm]

@[simp] theorem execQuadSelfTestDone_calm (q : Nat) (ok : Bool) (s : State) :
    GoesCalm s (exec (.quadSelfTestDone q ok) s) := by
  refine goesCalm_goes ?_
  simp [apply_ite State.pending, apply_ite State.hbm]

@[simp] theorem execUpdateStepDone_calm (ok : Bool) (rate : Nat) (s : State) :
    GoesCalm s (exec (.updateStepDone ok rate) s) := by
  refine goesCalm_goes ?_
  repeat' split
  all_goals simp

@[simp] theorem execCoreRestartDone_calm (core : Nat) (ok : Bool) (s : State) :
    GoesCalm s (exec (.coreRestartDone core ok) s) := by
  refine goesCalm_goes ?_
  simp [apply_ite State.pending, apply_ite State.hbm]

@[simp] theorem execHealthConfirmation_calm (type : Nat) (ok : Bool) (s : State) :
    GoesCalm s (exec (.healthConfirmation type ok) s) := by
  refine goesCalm_goes ?_
  simp [apply_ite State.pending, apply_ite State.hbm]

@[simp] theorem execLehrEnd_calm (type : Nat) (s : State) :
    GoesCalm s (exec (.lehrEnd type) s) := by
  refine goesCalm_goes ?_
  simp [apply_ite State.pending, apply_ite State.hbm]

@[simp] theorem execGetVersion_calm (r : Spdm) (s : State) :
    GoesCalm s (exec (.getVersion r) s) :=
  goesCalm_goes (by simp)

@[simp] theorem execGetCapabilities_calm (r : Spdm) (s : State) :
    GoesCalm s (exec (.getCapabilities r) s) :=
  goesCalm_goes (by simp)

@[simp] theorem execNegotiateAlgorithms_calm (r : Spdm) (s : State) :
    GoesCalm s (exec (.negotiateAlgorithms r) s) :=
  goesCalm_goes (by simp)

@[simp] theorem execGetDigests_calm (r : Spdm) (s : State) :
    GoesCalm s (exec (.getDigests r) s) :=
  goesCalm_goes (by simp)

@[simp] theorem execGetCertificate_calm (r : Spdm) (s : State) :
    GoesCalm s (exec (.getCertificate r) s) :=
  goesCalm_goes (by simp)

@[simp] theorem execChallenge_calm (r : Spdm) (s : State) :
    GoesCalm s (exec (.challenge r) s) :=
  goesCalm_goes (by simp)

@[simp] theorem execGetMeasurements_calm (r : Spdm) (s : State) :
    GoesCalm s (exec (.getMeasurements r) s) :=
  goesCalm_goes (by simp)

@[simp] theorem execRespondIfReady_calm (r : Spdm) (s : State) :
    GoesCalm s (exec (.respondIfReady r) s) := by
  refine goesCalm_goes ?_
  repeat' split
  all_goals simp

@[simp] theorem execChunkGet_calm (r : Spdm) (s : State) :
    GoesCalm s (exec (.chunkGet r) s) := by
  refine goesCalm_goes ?_
  simp [apply_ite State.pending, apply_ite State.hbm]

@[simp] theorem execJtagInstruction_calm (ins : Jtag) (s : State) :
    GoesCalm s (exec (.jtagInstruction ins) s) := by
  refine goesCalm_goes ?_
  repeat' split
  all_goals simp

@[simp] theorem execPowerSample_calm (m : Sample) (s : State) :
    GoesCalm s (exec (.powerSample m) s) := by
  refine goesCalm_goes ?_
  simp [apply_ite State.pending, apply_ite State.hbm]

@[simp] theorem execAvsTransaction_calm (rail : Nat) (mv : Nat) (ok : Bool) (s : State) :
    GoesCalm s (exec (.avsTransaction rail mv ok) s) := by
  refine goesCalm_goes ?_
  simp [apply_ite State.pending, apply_ite State.hbm]

@[simp] theorem execRailFault_calm (rail : Nat) (s : State) :
    GoesCalm s (exec (.railFault rail) s) := by
  refine goesCalm_goes ?_
  simp [apply_ite State.pending, apply_ite State.hbm]

@[simp] theorem execCodewordSend_calm (l : Nat) (raw : Nat) (s : State) :
    GoesCalm s (exec (.codewordSend l raw) s) := by
  refine goesCalm_goes ?_
  simp [apply_ite State.pending, apply_ite State.hbm]

@[simp] theorem execLinkTest_calm (q : Nat) (lane : Nat) (idx : Nat) (err : Bool) (s : State) :
    GoesCalm s (exec (.linkTest q lane idx err) s) := by
  refine goesCalm_goes ?_
  simp [apply_ite State.pending, apply_ite State.hbm]

@[simp] theorem execPtpMessageSend_calm (kind : Nat) (s : State) :
    GoesCalm s (exec (.ptpMessageSend kind) s) := by
  refine goesCalm_goes ?_
  dsimp only
  repeat' split
  all_goals simp

@[simp] theorem execCompletionTimeout_calm (e : Nat) (where_ : Nat) (s : State) :
    GoesCalm s (exec (.completionTimeout e where_) s) := by
  refine goesCalm_goes ?_
  dsimp only
  repeat' split
  all_goals simp

@[simp] theorem execCmdDenied_calm (s : State) :
    GoesCalm s (exec (.cmdDenied) s) :=
  goesCalm_goes (by simp)

@[simp] theorem execNamedTickApply_calm (s : State) :
    GoesCalm s (exec (.namedTickApply) s) :=
  goesCalm_goes (by simp)

@[simp] theorem execLeaseExpired_calm (s : State) :
    GoesCalm s (exec (.leaseExpired) s) := by
  refine goesCalm_goes ?_
  repeat' split
  all_goals simp

@[simp] theorem execEventWrite_calm (s : State) :
    GoesCalm s (exec (.eventWrite) s) := by
  refine goesCalm_goes ?_
  repeat' split
  all_goals simp

@[simp] theorem execHotReset_calm (s : State) :
    GoesCalm s (exec (.hotReset) s) := by
  refine goesCalm_goes ?_
  simp [apply_ite State.pending, apply_ite State.hbm]

@[simp] theorem execFlr_calm (s : State) :
    GoesCalm s (exec (.flr) s) := by
  refine goesCalm_goes ?_
  simp [apply_ite State.pending, apply_ite State.hbm]

@[simp] theorem execPcieLinkDown_calm (s : State) :
    GoesCalm s (exec (.pcieLinkDown) s) := by
  refine goesCalm_goes ?_
  simp [apply_ite State.pending, apply_ite State.hbm]

@[simp] theorem execD3hotEntry_calm (s : State) :
    GoesCalm s (exec (.d3hotEntry) s) := by
  refine goesCalm_goes ?_
  simp [apply_ite State.pending, apply_ite State.hbm]

@[simp] theorem execLadderChange_calm (s : State) :
    GoesCalm s (exec (.ladderChange) s) := by
  refine goesCalm_goes ?_
  dsimp only
  repeat' split
  all_goals simp

@[simp] theorem execPauseEffect_calm (s : State) :
    GoesCalm s (exec (.pauseEffect) s) := by
  refine goesCalm_goes ?_
  simp [apply_ite State.pending, apply_ite State.hbm]

@[simp] theorem execDrainDone_calm (s : State) :
    GoesCalm s (exec (.drainDone) s) := by
  refine goesCalm_goes ?_
  dsimp only
  repeat' split
  all_goals simp

@[simp] theorem execSwapEnd_calm (s : State) :
    GoesCalm s (exec (.swapEnd) s) := by
  refine goesCalm_goes ?_
  repeat' split
  all_goals simp

@[simp] theorem execStreamRelease_calm (s : State) :
    GoesCalm s (exec (.streamRelease) s) := by
  refine goesCalm_goes ?_
  repeat' split
  all_goals simp

@[simp] theorem execReplayLogStop_calm (s : State) :
    GoesCalm s (exec (.replayLogStop) s) := by
  refine goesCalm_goes ?_
  split <;> simp

@[simp] theorem execDiscQuiet_calm (s : State) :
    GoesCalm s (exec (.discQuiet) s) := by
  refine goesCalm_goes ?_
  repeat' split
  all_goals simp

@[simp] theorem execMasterLoss_calm (s : State) :
    GoesCalm s (exec (.masterLoss) s) := by
  refine goesCalm_goes ?_
  repeat' split
  all_goals simp

@[simp] theorem execFabricTimeLoss_calm (s : State) :
    GoesCalm s (exec (.fabricTimeLoss) s) := by
  refine goesCalm_goes ?_
  simp [apply_ite State.pending, apply_ite State.hbm]

@[simp] theorem execTimeHoldover_calm (s : State) :
    GoesCalm s (exec (.timeHoldover) s) := by
  refine goesCalm_goes ?_
  simp [apply_ite State.pending, apply_ite State.hbm]

@[simp] theorem execCeWindowEnd_calm (s : State) :
    GoesCalm s (exec (.ceWindowEnd) s) :=
  goesCalm_goes (by simp)

@[simp] theorem execRemapSwitch_calm (s : State) : GoesCalm s (exec (.remapSwitch) s) := by
  refine goesCalm_goes ?_
  dsimp only
  split
  · exact calm_refl s
  · simp [foldl_pending, foldl_hbm]

@[simp] theorem execQuadTakeover_calm (s : State) :
    GoesCalm s (exec (.quadTakeover) s) := by
  refine goesCalm_goes ?_
  split <;> simp

@[simp] theorem execCoreTakeover_calm (s : State) : GoesCalm s (exec (.coreTakeover) s) := by
  refine goesCalm_goes ?_
  dsimp only
  split
  · exact calm_refl s
  · simp [foldl_pending, foldl_hbm]

@[simp] theorem execUpdateIdle_calm (s : State) :
    GoesCalm s (exec (.updateIdle) s) := by
  refine goesCalm_goes ?_
  simp [apply_ite State.pending, apply_ite State.hbm]

@[simp] theorem execDebugNonceExpire_calm (s : State) :
    GoesCalm s (exec (.debugNonceExpire) s) :=
  goesCalm_goes (by simp)

@[simp] theorem execCapStep_calm (s : State) :
    GoesCalm s (exec (.capStep) s) := by
  refine goesCalm_goes ?_
  simp [apply_ite State.pending, apply_ite State.hbm]

@[simp] theorem execPwrfail_calm (s : State) :
    GoesCalm s (exec (.pwrfail) s) := by
  refine goesCalm_goes ?_
  simp [apply_ite State.pending, apply_ite State.hbm]

@[simp] theorem execResetFall_calm (s : State) :
    GoesCalm s (exec (.resetFall) s) := by
  refine goesCalm_goes ?_
  simp [apply_ite State.pending, apply_ite State.hbm]

@[simp] theorem execHeartbeatSend_calm (s : State) :
    GoesCalm s (exec (.heartbeatSend) s) := by
  refine goesCalm_goes ?_
  dsimp only
  repeat' split
  all_goals simp

@[simp] theorem execFabricForwardTimeout_calm (s : State) :
    GoesCalm s (exec (.fabricForwardTimeout) s) := by
  refine goesCalm_goes ?_
  repeat' split
  all_goals simp

@[simp] theorem execPpsOutPulseEnd_calm (s : State) :
    GoesCalm s (exec (.ppsOutPulseEnd) s) :=
  goesCalm_goes (by simp)

end Sys2Proof.Machine
end

section
/-!
Which rows leave local memory as it is: all but those of `writesMemory`.
-/

namespace Sys2Proof.Machine

theorem inRdOp_calm (a : TileAt) : CalmOp (inRdOp a) := by
  intro r e t s u
  simp only [inRdOp]
  split <;> simp

theorem inCtxOp_calm : CalmOp inCtxOp := by
  intro r e t s u
  simp [inCtxOp]

theorem outScoreOp_calm : CalmOp outScoreOp := by
  intro r e t s u
  simp [outScoreOp]

theorem outVerdictOp_calm : CalmOp outVerdictOp := by
  intro r e t s u
  simp only [outVerdictOp]
  repeat' split
  all_goals simp

theorem hbmRdOp_calm (a : TileAt) : CalmOp (hbmRdOp a) := by
  intro r e t s u
  simp only [hbmRdOp]
  repeat' split
  all_goals simp

theorem ringRdOp_calm (a : TileAt) : CalmOp (ringRdOp a) := by
  intro r e t s u
  simp only [ringRdOp]
  repeat' split
  all_goals simp

theorem fabTxOp_calm : CalmOp fabTxOp := by
  intro r e t s u
  simp [fabTxOp]

theorem fabRxOp_calm (a : TileAt) : CalmOp (fabRxOp a) := by
  intro r e t s u
  simp only [fabRxOp]
  split <;> simp

theorem fabEtxOp_calm (a : TileAt) : CalmOp (fabEtxOp a) := by
  intro r e t s u
  simp only [fabEtxOp]
  repeat' split
  all_goals simp

theorem fabErxOp_calm (a : TileAt) : CalmOp (fabErxOp a) := by
  intro r e t s u
  simp only [fabErxOp]
  repeat' split
  all_goals simp

/-- The rows that write local memory, or that lose it with its stack, its save or its supply. -/
def writesMemory : Instr → Bool
  | .memWrite _ _ _ => true
  | .stateSave _ _ _ => true
  | .replayImport _ _ _ _ => true
  | .bar2Write _ _ => true
  | .tickEdge _ => true
  | .ringWrite _ => true
  | .recordDeliver _ _ => true
  | .dmaTransfer _ _ _ _ _ => true
  | .dmaCompletion _ _ => true
  | .hbmStackLoss _ => true
  | .powerRestart _ => true
  | .resetRise _ => true
  | .saveEnd => true
  | .hbmWr _ => true
  | _ => false

theorem execRegisterWrite_calm (via : Option Hdr) (e : CfgEntry) (s : State) : GoesCalm s (exec (.registerWrite via e) s) := by
  refine goesCalm_goes ?_
  cases via with
  | some h => simp
  | none =>
    dsimp only
    split <;> simp

theorem execRingRd_calm (a : TileAt) (s : State) : GoesCalm s (exec (.ringRd a) s) := by
  obtain ⟨t, ht, hc⟩ := goesCalm_runRow 0xF2 0 a (pcapLines a s) (ringRdOp_calm a)
  exact ⟨t, ht, calm_trans (by simp) hc⟩

/-- Every other row leaves local memory and the queue as they are. -/
theorem exec_calm {i : Instr} (hi : writesMemory i = false) (s : State) : GoesCalm s (exec i s) := by
  cases i
  case memWrite | stateSave | replayImport | bar2Write | tickEdge | ringWrite | recordDeliver | dmaTransfer | dmaCompletion |
      hbmStackLoss | powerRestart | resetRise | saveEnd | hbmWr => exact absurd hi (by simp [writesMemory])
  case mvm a | mvmAcc a | chainPass a | req a | idle a | rd a | wr a | rdWr a | rd2 a | rd2Wr a | lut4 a | lut8 a | cmp a | thr a |
      add a | sub a | shl a | sra a | narrow a | resadd a | maxe a | maxr a | topk a | sort64 a | merge a | meanvar a | norm a |
      softmax a | cluster a | hist a | token a | select a | route a => exact goesCalm_runRow _ _ a s (calmOp_pureOp _)
  case cfgWrite | errqOvfClear | txtsOvfClear | eventRingEnable | dmaEngineEnable | dmaEngineDisable | dmaRingBaseWrite |
      linkEnable | ladderDisable | ladderMaxLower | tickSourceWrite | timingModeWrite | alignDepthWrite |
      bar2CfgWrite => exact goesCalm_goes (by simp)
  case inRd a => exact goesCalm_runRow _ _ a s (inRdOp_calm a)
  case inCtx a => exact goesCalm_runRow _ _ a s (inCtxOp_calm)
  case outScore a => exact goesCalm_runRow _ _ a s (outScoreOp_calm)
  case outVerdict a => exact goesCalm_runRow _ _ a s (outVerdictOp_calm)
  case hbmRd a => exact goesCalm_runRow _ _ a s (hbmRdOp_calm a)
  case fabTx a => exact goesCalm_runRow _ _ a s (fabTxOp_calm)
  case fabRx a => exact goesCalm_runRow _ _ a s (fabRxOp_calm a)
  case fabEtx a => exact goesCalm_runRow _ _ a s (fabEtxOp_calm a)
  case fabErx a => exact goesCalm_runRow _ _ a s (fabErxOp_calm a)
  case ringRd a => exact execRingRd_calm a s
  case registerWrite via e => exact execRegisterWrite_calm via e s
  all_goals simp


end Sys2Proof.Machine
end

section
/-!
The rows that write local memory keep its canonical form; with that, no row touches the queue, and every step keeps the canonical form.
-/

namespace Sys2Proof

namespace Machine

theorem goesOn_goes {s t : State} (hq : t.pending = s.pending) (hm : Memory.wf s.hbm → Memory.wf t.hbm) : GoesOn s (goes t) :=
  ⟨t, rfl, hq, hm⟩

theorem goesOn_control (c : CmdSpec) (h : Hdr) (act : Nat → State → Act) (s : State) (hq : ∀ j s, KeepsQueue s (act j s).s)
    (hm : ∀ j s, Memory.wf s.hbm → Memory.wf (act j s).s.hbm) : GoesOn s (goes (control c h act s)) :=
  goesOn_goes (control_pending c h act s hq) (control_wf c h act s hm)

theorem execMemWrite_goesOn (h : Hdr) (addr : Nat) (data : List Byte) (s : State) : GoesOn s (exec (.memWrite h addr data) s) := by
  refine goesOn_control _ _ _ _ (fun j u => ?_) fun j u hu => ?_
  · dsimp only
    repeat' split
    · simp
    · simp
    · refine ⟨foldl_pending _ _ _ fun v c => ?_⟩
      split <;> simp
  · dsimp only
    repeat' split
    · exact hu
    · exact hu
    · refine foldl_wf _ _ _ (fun v c hv => ⟨?_⟩) hu
      split
      · simpa using hv.wf
      · exact hbmWrite_wf _ _ _ hv.wf
      · exact hv.wf

theorem execStateSave_goesOn (h : Hdr) (addr len : Nat) (s : State) : GoesOn s (exec (.stateSave h addr len) s) := by
  refine goesOn_control _ _ _ _ (fun j u => ?_) fun j u hu => ?_
  · dsimp only
    repeat' split
    all_goals simp [foldl_pending]
  · dsimp only
    repeat' split
    · exact hu
    · exact hu
    · exact hu
    · exact windowWrite_wf _ _ _ (by simpa [foldl_hbm] using hu)

theorem execReplayImport_goesOn (h : Hdr) (e : Nat) (r : Recording) (size : Nat) (s : State) :
    GoesOn s (exec (.replayImport h e r size) s) := by
  refine goesOn_control _ _ _ _ (fun j u => ?_) fun j u hu => ?_
  · dsimp only
    repeat' split
    all_goals simp [foldl_pending]
  · dsimp only
    repeat' split
    · exact hu
    · exact hu
    · exact foldl_wf _ _ _ (fun v x hv => ⟨hbmWrite_wf _ _ _ hv.wf⟩) hu

theorem execBar2Write_goesOn (off : Nat) (bytes : List Byte) (s : State) : GoesOn s (exec (.bar2Write off bytes) s) := by
  refine goesOn_goes ?_ fun hs => ?_
  · dsimp only
    repeat' split
    all_goals simp
  · dsimp only
    repeat' split
    · exact hs
    · exact hbmWrite_wf _ _ _ hs
    · exact hs

theorem execTickEdge_goesOn (raw : Nat) (s : State) : GoesOn s (exec (.tickEdge raw) s) := by
  refine goesOn_goes ?_ fun hs => ?_
  · repeat' split
    all_goals simp
  · repeat' split
    · exact hs
    · exact hs
    · exact edgeWork_wf _ _ (by simpa using hs)

theorem execRingWrite_goesOn (t : Nat) (s : State) : GoesOn s (exec (.ringWrite t) s) := by
  refine goesOn_goes ?_ fun hs => ?_
  · dsimp only
    repeat' split
    all_goals simp
  · have hw := hbmWrite_wf (slotAddr s t) (slotContents s t) s hs
    dsimp only
    split
    · exact hs
    · simpa only [apply_ite State.hbm, addCnt_hbm, ite_self] using hw

theorem execRecordDeliver_goesOn (kind dest : Nat) (s : State) : GoesOn s (exec (.recordDeliver kind dest) s) := by
  refine goesOn_goes ?_ fun hs => ?_
  · repeat' split
    all_goals simp
  · split
    · exact hs
    · split
      · exact hs
      · split
        · split
          · rw [delivered_hbm]; exact hs
          · exact hs
        · exact storeRecord_wf _ _ hs
        · rw [fabricRecord_hbm]; exact hs

theorem execDmaTransfer_goesOn (e : Nat) (d : DmaDesc) (fetchErr : Bool) (data : List Byte) (err : Option Nat) (s : State) :
    GoesOn s (exec (.dmaTransfer e d fetchErr data err) s) := by
  refine goesOn_goes ?_ fun hs => ?_
  · dsimp only
    repeat' split
    all_goals simp
  · dsimp only
    split
    · exact hs
    · have hu : Memory.wf (if ((engAt s e).cur.isNone && !(engAt s e).stopping) = true then dmaFetch e d fetchErr s else s).hbm := by
        split
        · rw [dmaFetch_hbm]; exact hs
        · exact hs
      generalize (if ((engAt s e).cur.isNone && !(engAt s e).stopping) = true then dmaFetch e d fetchErr s else s) = u at hu
      split
      · exact dmaMove_wf _ _ _ _ _ hu
      · exact hu

theorem execDmaCompletion_goesOn (e : Nat) (err : Bool) (s : State) : GoesOn s (exec (.dmaCompletion e err) s) := by
  refine goesOn_goes ?_ fun hs => ?_
  · dsimp only
    repeat' split
    all_goals simp
  · have hu : Memory.wf (oweStopped e s).hbm := by simpa using hs
    generalize oweStopped e s = u at hu
    dsimp only
    split
    · exact hs
    · split
      · split
        · simpa using hu
        · split
          · simpa using hu
          · have hp := placeWrite_wf (translate u true true (cplAddr u e))
            split
            · simpa using hp _ u hu
            · simpa using hp _ u hu
      · exact hu

theorem execHbmStackLoss_goesOn (stack : Nat) (s : State) : GoesOn s (exec (.hbmStackLoss stack) s) := by
  refine goesOn_goes ?_ fun hs => ?_
  · dsimp only
    repeat' split
    all_goals simp
  · dsimp only
    repeat' split
    · exact hs
    · simpa using hs
    · exact stackDown_wf _ _

theorem execPowerRestart_goesOn (b : BootIn) (s : State) : GoesOn s (exec (.powerRestart b) s) := by
  refine goesOn_goes ?_ fun hs => ?_
  · split <;> simp
  · split
    · exact bootUp_wf _ _
    · exact hs

theorem execResetRise_goesOn (b : BootIn) (s : State) : GoesOn s (exec (.resetRise b) s) := by
  refine goesOn_goes ?_ fun hs => ?_
  · dsimp only
    repeat' split
    all_goals simp
  · dsimp only
    repeat' split
    · exact hs
    · exact bootUp_wf _ _
    · exact hs

theorem execSaveEnd_goesOn (s : State) : GoesOn s (exec .saveEnd s) := by
  refine goesOn_goes ?_ fun hs => ?_
  · repeat' split
    all_goals simp
  · repeat' split
    · exact saveOver_wf _ _ hs
    · exact persist_wf _
    · exact hs

theorem hbmWrOp_wf (a : TileAt) (r : RowCtx) (e : Env) (t : Tile) (s u : State) (hu : Memory.wf u.hbm) :
    Memory.wf ((hbmWrOp a r e t s).2 u).hbm := by
  simp only [hbmWrOp]
  repeat' split
  case isFalse => exact hbmWrite_wf _ _ _ (by simpa using hu)
  all_goals exact hu

theorem hbmWrOp_pending (a : TileAt) (r : RowCtx) (e : Env) (t : Tile) (s u : State) :
    ((hbmWrOp a r e t s).2 u).pending = u.pending := by
  simp only [hbmWrOp]
  repeat' split
  all_goals simp

theorem execHbmWr_goesOn (a : TileAt) (s : State) : GoesOn s (exec (.hbmWr a) s) :=
  goesOn_goes (runRow_pending _ _ _ _ _ fun r e t s u => ⟨hbmWrOp_pending a r e t s u⟩)
    (runRow_wf _ _ _ _ _ fun r e t s u => hbmWrOp_wf a r e t s u)

/-- Every row answers a next state, leaves the queue as it was, and keeps the canonical form of local memory. -/
theorem exec_goesOn (i : Instr) (s : State) : GoesOn s (exec i s) := by
  cases hi : writesMemory i with
  | false => exact (exec_calm hi s).goesOn
  | true =>
    cases i
    case memWrite => exact execMemWrite_goesOn _ _ _ s
    case stateSave => exact execStateSave_goesOn _ _ _ s
    case replayImport => exact execReplayImport_goesOn _ _ _ _ s
    case bar2Write => exact execBar2Write_goesOn _ _ s
    case tickEdge => exact execTickEdge_goesOn _ s
    case ringWrite => exact execRingWrite_goesOn _ s
    case recordDeliver => exact execRecordDeliver_goesOn _ _ s
    case dmaTransfer => exact execDmaTransfer_goesOn _ _ _ _ _ s
    case dmaCompletion => exact execDmaCompletion_goesOn _ _ s
    case hbmStackLoss => exact execHbmStackLoss_goesOn _ s
    case powerRestart => exact execPowerRestart_goesOn _ s
    case resetRise => exact execResetRise_goesOn _ s
    case saveEnd => exact execSaveEnd_goesOn s
    case hbmWr => exact execHbmWr_goesOn _ s
    all_goals exact absurd hi (by simp [writesMemory])

end Machine

open Machine

/-- Settles O59: a step runs the front command, and every row keeps the canonical form (`exec_goesOn`). -/
theorem hbmCanonicalKept : Obligations.HbmCanonicalKept := by
  unfold Obligations.HbmCanonicalKept
  intro s t hs ht
  unfold step at ht
  split at ht
  · cases ht
    exact hs
  · next c rest _ =>
    obtain ⟨u, hu, -, hw⟩ := exec_goesOn c { s with pending := rest }
    rw [hu] at ht
    cases ht
    exact hw hs

/-- Settles O57: by the two cases of the queue. -/
theorem stepRunsFront : Obligations.StepRunsFront := by
  unfold Obligations.StepRunsFront
  intro c s rest
  constructor
  · intro h
    unfold step
    rw [h]
  · intro h
    unfold step
    rw [h]

/-- Settles O60: `exec_goesOn` for the rows, and a step is the front row on the queue's rest. -/
theorem queueUntouched : Obligations.QueueUntouched := by
  unfold Obligations.QueueUntouched
  refine ⟨fun i s => ?_, fun c rest s hs => ?_⟩
  · obtain ⟨t, ht, hq, -⟩ := exec_goesOn i s
    exact ⟨t, ht, hq⟩
  · obtain ⟨t, ht, hq, -⟩ := exec_goesOn c { s with pending := rest }
    exact ⟨t, ((stepRunsFront c s rest).1 hs).trans ht, hq⟩

end Sys2Proof
end

section
/-!
The part in reset: what the registers read before any write.
-/

namespace Sys2Proof

namespace Machine

/-- In reset no register has been written, so each reads the value its table gives. -/
theorem regAt_reset (off : Nat) : regAt State.reset off = (regReset off).toNat := rfl

end Machine

open Machine

/-- Settles O58: the registers by `regAt_reset`, the rest by what `State.reset` lists. -/
theorem resetState : Obligations.ResetState := by
  unfold Obligations.ResetState
  refine ⟨rfl, rfl, rfl, rfl, twf_nil _, rfl, rfl, rfl, fun _ _ => rfl, by decide, rfl, rfl, rfl, fun _ => rfl, ?_⟩
  simp only [regAt_reset]
  decide

end Sys2Proof
end

section
/-!
Observe commands leave the journal, the holder, the waiting commands and the device state (R375), whatever they answer. A fault record below S4
changes the error queue and raises events, and nothing else (R401 to R407).
-/

namespace Sys2Proof

namespace Machine

open Claims

/-- t is s but for fault records and raised events. -/
def Recorded (s t : State) : Prop :=
  ∃ flt eseq raised, t = { s with flt := flt, host := { s.host with eseq := eseq, raised := raised } }

theorem recorded_refl (s : State) : Recorded s s := ⟨s.flt, s.host.eseq, s.host.raised, rfl⟩

theorem recorded_trans {s t u : State} (h : Recorded s t) (k : Recorded t u) : Recorded s u := by
  obtain ⟨_, _, _, rfl⟩ := h
  obtain ⟨_, _, _, rfl⟩ := k
  exact ⟨_, _, _, rfl⟩

theorem recorded_raiseEv (e : Ev) (s : State) : Recorded s (raiseEv e s) := ⟨_, _, _, rfl⟩

/-- A fault record below S4 does not enter SAFE_STOP: it is queued, coalesced or lost, and raises events. -/
theorem recorded_fault {f : FaultRec} (hf : f.sev ≠ 4) (s : State) : Recorded s (fault f s) := by
  unfold fault
  extract_lets g
  have hg : (g.sev == 4) = false := by simpa [g] using hf
  clear_value g
  split
  · exact ⟨_, _, _, rfl⟩
  · rw [if_neg (by simp [hg])]
    split
    · split <;> exact ⟨_, _, _, rfl⟩
    · exact ⟨_, _, _, rfl⟩

/-- A corrected error makes records of S1 and S3 only (R408). -/
theorem recorded_corrected (unit : Nat) (f : FaultRec) (s : State) : Recorded s (corrected unit f s) := by
  have h0 : Recorded s { s with flt := { s.flt with ce := cset s.flt.ce unit (cget s.flt.ce unit + 1) } } := ⟨_, _, _, rfl⟩
  unfold corrected
  dsimp only
  split
  · exact recorded_trans h0 (recorded_fault (show 3 ≠ 4 by decide) _)
  · split
    · exact recorded_trans h0 (recorded_fault (show 1 ≠ 4 by decide) _)
    · exact h0

/-- The control record of the device that an observe command leaves: journal, holder, waiting commands, device state. -/
structure Unjournaled (s t : State) : Prop where
  journal : t.ctl.journal = s.ctl.journal
  jnext : t.ctl.jnext = s.ctl.jnext
  holder : t.ctl.holder = s.ctl.holder
  waiting : t.ctl.waiting = s.ctl.waiting
  dev : t.dev = s.dev

theorem unjournaled_refl (s : State) : Unjournaled s s := ⟨rfl, rfl, rfl, rfl, rfl⟩

theorem unjournaled_trans {s t u : State} (h : Unjournaled s t) (k : Unjournaled t u) : Unjournaled s u :=
  ⟨k.journal.trans h.journal, k.jnext.trans h.jnext, k.holder.trans h.holder, k.waiting.trans h.waiting, k.dev.trans h.dev⟩

theorem Recorded.unjournaled {s t : State} (h : Recorded s t) : Unjournaled s t := by
  obtain ⟨_, _, _, rfl⟩ := h
  exact ⟨rfl, rfl, rfl, rfl, rfl⟩

theorem unjournaled_untake (h : Hdr) (s : State) : Unjournaled s (untake h (seeRaw h.stamp s)) := by
  unfold untake
  split <;> exact ⟨rfl, rfl, rfl, rfl, rfl⟩

theorem unjournaled_seeSeq (h : Hdr) (s : State) : Unjournaled s (seeSeq h s) := ⟨rfl, rfl, rfl, rfl, rfl⟩

theorem unjournaled_sendReply (r : Reply) (s : State) : Unjournaled s (sendReply r s) := by
  unfold sendReply
  split <;> exact ⟨rfl, rfl, rfl, rfl, rfl⟩

/-- The path of an observe command adds no journal entry; so it leaves what its own part leaves. -/
theorem unjournaled_observe (c : CmdSpec) (h : Hdr) {act : State → Act} (s : State) (ha : ∀ u, Unjournaled u (act u).s) :
    Unjournaled s (observe c h act s) := by
  have h0 := unjournaled_untake h s
  unfold observe
  split
  · exact unjournaled_refl s
  · dsimp only
    generalize untake h (seeRaw h.stamp s) = u at *
    have h1 := unjournaled_trans h0 (unjournaled_seeSeq h u)
    split
    · exact unjournaled_trans h0 (unjournaled_sendReply _ _)
    · split
      · exact unjournaled_trans h0 (unjournaled_sendReply _ _)
      · split
        · exact unjournaled_trans h1 (unjournaled_sendReply _ _)
        · split
          · exact unjournaled_trans h1 (ha _)
          · split
            · exact unjournaled_trans h1 (unjournaled_trans (ha _) (unjournaled_sendReply _ _))
            · exact unjournaled_trans h1 (unjournaled_sendReply _ _)

theorem unjournaled_rcClear (s : State) (off : Nat) : Unjournaled s (rcClear s off) := by
  unfold rcClear
  split <;> exact ⟨rfl, rfl, rfl, rfl, rfl⟩

theorem unjournaled_rcClears (offs : List Nat) (a : Act) :
    Unjournaled a.s (offs.foldl (fun a o => { s := rcClear a.s o, result := a.result ++ le 8 (regValue a.s o) : Act }) a).s := by
  induction offs generalizing a with
  | nil => exact unjournaled_refl _
  | cons o offs ih =>
    exact unjournaled_trans (unjournaled_rcClear a.s o) (ih { s := rcClear a.s o, result := a.result ++ le 8 (regValue a.s o) })

theorem unjournaled_hostEcc (hd q c r line : Nat) (ecc : Ecc) (s : State) : Unjournaled s (hostEcc hd q c r line ecc s) := by
  cases ecc with
  | ok => exact unjournaled_refl s
  | corrected => exact unjournaled_trans (t := setTile q c r _ s) ⟨rfl, rfl, rfl, rfl, rfl⟩ (recorded_corrected _ _ _).unjournaled
  | bad => exact unjournaled_trans (t := setTile q c r _ s) ⟨rfl, rfl, rfl, rfl, rfl⟩ (recorded_fault (show 3 ≠ 4 by decide) _).unjournaled

theorem unjournaled_verifyWeights (hd : Nat) (s : State) : Unjournaled s (verifyWeights hd s) := by
  unfold verifyWeights
  split
  · exact unjournaled_refl s
  · exact (recorded_fault (show 3 ≠ 4 by decide) s).unjournaled

theorem unjournaled_forwardAct (h : Hdr) (dest : Nat) (bytes : List Byte) (j : Nat) (s : State) :
    Unjournaled s (forwardAct h dest bytes j s).s := by
  unfold forwardAct
  dsimp only
  repeat' split
  all_goals exact ⟨rfl, rfl, rfl, rfl, rfl⟩

/-- Every observe command is `observe` of a part that leaves journal, holder, waiting commands and device state. -/
theorem observe_of_unjournaled {i : Instr} {c : CmdSpec} {h : Hdr} (hc : commandOf i = some (false, c, h)) :
    ∃ act : State → Act, (∀ s, exec i s = goes (observe c h act s)) ∧ ∀ u, Unjournaled u (act u).s := by
  cases i
  case registerWrite via e => cases via <;> simp [commandOf] at hc
  case fabricForward h d b =>
    simp only [commandOf, Option.some.injEq, Prod.mk.injEq] at hc
    obtain ⟨h1, rfl, rfl⟩ := hc
    refine ⟨forwardAct h d b 0, fun s => ?_, unjournaled_forwardAct h d b 0⟩
    rw [exec_fabricForward, execFabricForward, if_pos (by simpa using h1)]
  all_goals simp only [commandOf, Option.some.injEq, Prod.mk.injEq, Bool.true_eq_false, false_and, true_and, reduceCtorEq] at hc
  all_goals obtain ⟨rfl, rfl⟩ := hc
  all_goals refine ⟨_, fun s => rfl, fun u => ?_⟩
  case cfgRead h offs =>
    split
    · exact unjournaled_refl u
    · exact unjournaled_rcClears offs { s := u }
  case tileRead h hd vq col row line ecc =>
    split
    · exact unjournaled_refl u
    · split
      · exact unjournaled_refl u
      · split
        · exact unjournaled_refl u
        · exact unjournaled_hostEcc _ _ _ _ _ _ u
  case digestVerify h hd =>
    split
    · exact unjournaled_refl u
    · exact unjournaled_verifyWeights hd u
  case memRead | digestRead =>
    dsimp only
    repeat' split
    all_goals exact ⟨rfl, rfl, rfl, rfl, rfl⟩
  all_goals repeat' split
  all_goals exact ⟨rfl, rfl, rfl, rfl, rfl⟩

end Machine

open Machine Claims

/-- Settles O5: `observe_of_unjournaled` for what an observe command leaves, `observe_bad` for one that is turned away. -/
theorem observeNeverJournaled : Obligations.ObserveNeverJournaled := by
  unfold Obligations.ObserveNeverJournaled
  intro i c h s hc hon
  obtain ⟨act, hi, ha⟩ := observe_of_unjournaled hc
  constructor
  · obtain ⟨h1, h2, h3, h4, h5⟩ := unjournaled_observe c h s ha
    exact ⟨_, hi s, h1, h2, h3, h4, h5⟩
  · intro st hq
    obtain ⟨u, hu, -, -, -, -, he⟩ := observe_bad c h act s st hon hq
    refine ⟨_, hi s, ?_, fun ht => ?_⟩
    · rw [he]
      exact path_trans hu (path_sendReply _ _)
    · rw [he]
      exact sendReply_last _ _ (srcOf_transport h ht)

end Sys2Proof
end

section
/-!
Control changes hands (R385, R386): what a claim, a release and the end of a lease leave.
-/

namespace Sys2Proof

namespace Machine

open Claims

theorem begun_isMasterSrc (op : Nat) (h : Hdr) (s : State) : isMasterSrc h (begun op h s) = isMasterSrc h s :=
  begun_eq op h s (isMasterSrc h) fun t ht => by rw [ht]; rfl

/-- A command whose own part fails on the state begun is refused with that part's status, DETAIL and result. -/
theorem refused_of_act {i : Instr} {c : CmdSpec} {h : Hdr} {act : Nat → State → Act} {s : State} {st d : Nat} {R : List Byte}
    (hi : exec i s = goes (control c h act s)) (hacc : Accepted c.op c.states c.anyone c.cfg h s) (hb : Carried c.bc h)
    (ha : act s.ctl.jnext (begun c.op h s) = fails (begun c.op h s) st d R) (hst : st ≠ 0) (hd : d < 2 ^ 32) : Refused c.op h st d R s i :=
  control_fails c h act s st d R i hacc hb hi (by rw [ha]; rfl) (by rw [ha]; rfl) (by rw [ha]; rfl) (by rw [ha]; rfl) hst hd

/-- An accepted command that asks for control comes from the holder. -/
theorem holder_of_accepted {op : Nat} {states : List DevSt} {cfg : Bool} {h : Hdr} {s : State} (hacc : Accepted op states false cfg h s) :
    s.ctl.holder = some (srcOf h) := by
  obtain ⟨-, -, -, hown, -⟩ := hacc
  simpa using hown

/-- The state with control handed to `new`, as R385 gives it; its event is still to be raised. -/
def handed (new : Option Nat) (ms : Nat) (s : State) : State :=
  { s with ctl := { s.ctl with holder := new, epoch := (s.ctl.epoch + 1) % 2 ^ 32, leaseMs := ms } }

/-- CONTROL_CHANGE of a hand-over (R385). -/
def changeEv (new : Option Nat) (cause : Nat) (s : State) : Ev :=
  { code := 0x71, sev := 0, body := le 4 (s.ctl.holder.getD 0) ++ le 4 (new.getD 0) ++ le 4 ((s.ctl.epoch + 1) % 2 ^ 32) ++ le 4 cause }

/-- A hand-over within an accepted command is the hand-over of s, but for the packet's traces. -/
theorem traces_handOver (op : Nat) (h : Hdr) (new : Option Nat) (ms cause : Nat) (s : State) :
    Traces (raiseEv (changeEv new cause s) { handed new ms s with time := (begun op h s).time })
      (setLease ms (changeHolder new cause (begun op h s))) := by
  have hb := path_begun op h s
  generalize begun op h s = b at *
  unfold Traces
  rw [hb]
  rfl

/-- What an accepted command leaves that hands control over. -/
theorem control_handOver (c : CmdSpec) (h : Hdr) (act : Nat → State → Act) (s : State) (new : Option Nat) (ms cause : Nat) (R : List Byte)
    (hacc : Accepted c.op c.states c.anyone c.cfg h s) (hb : Carried c.bc h)
    (ha : act s.ctl.jnext (begun c.op h s) = { s := setLease ms (changeHolder new cause (begun c.op h s)), result := R }) :
    ∃ t, goes (control c h act s) = .next t ∧ Journaled c.op h true s t ∧ t.ctl.wins = [] ∧ t.ctl.leaseAt = t.time.raw ∧
      Traces (raiseEv (changeEv new cause s) { handed new ms s with time := t.time }) t ∧
      (h.transport = 0 → t.ctl.replies.getLast? = some (mkReply c.op h (some s.ctl.jnext) 0 0 R)) := by
  obtain ⟨e, he, h1, h2, h3, h4, -, -⟩ := begun_head c.op h s
  obtain ⟨t, ht, htr, hw, hl, htime, hj, hr⟩ := control_ends c h act s _ R none .none hacc hb ha ⟨e, he, h1, h2, h3, h4⟩ (begun_jnext c.op h s)
  refine ⟨t, ht, hj, hw, by rw [hl, htime]; rfl, ?_, hr⟩
  rw [htime]
  exact path_trans (traces_handOver c.op h new ms cause s) htr

section claim

variable {h : Hdr} {ms : Nat} {force : Bool} {s : State}

theorem claimAct_of_badLease (hm : ms ≠ 0 ∧ (ms < 100 ∨ 3600000 < ms)) : claimAct h ms force s = fails s stParam := by
  simp [claimAct, hm]

theorem goodLease (hm : ms = 0 ∨ (100 ≤ ms ∧ ms ≤ 3600000)) : (ms != 0 && decide (ms < 100 ∨ 3600000 < ms)) = false := by
  rw [Bool.and_eq_false_iff]
  rcases hm with rfl | hm
  · exact .inl rfl
  · exact .inr (by simp; omega)

theorem claimAct_of_badForce (hm : ms = 0 ∨ (100 ≤ ms ∧ ms ≤ 3600000)) (hf : ¬ (force = true → h.transport = 3 ∨ isMasterSrc h s = true)) :
    claimAct h ms force s = fails s stParam := by
  have hf' : (force && !(h.transport == 3 || isMasterSrc h s)) = true := by
    simpa using hf
  simp only [claimAct, goodLease hm, Bool.false_eq_true, if_false, hf', if_true]

theorem lawfulForce (hf : force = true → h.transport = 3 ∨ isMasterSrc h s = true) :
    (force && !(h.transport == 3 || isMasterSrc h s)) = false := by
  cases force with
  | false => rfl
  | true => rcases hf rfl with hf | hf <;> simp [hf]

variable (hm : ms = 0 ∨ (100 ≤ ms ∧ ms ≤ 3600000)) (hf : force = true → h.transport = 3 ∨ isMasterSrc h s = true)
include hm hf

theorem claimAct_of_free (ho : s.ctl.holder = none) :
    claimAct h ms force s = { s := setLease ms (changeHolder (some (srcOf h)) 0 s), result := le 4 ((s.ctl.epoch + 1) % 2 ^ 32) } := by
  simp only [claimAct, goodLease hm, lawfulForce hf, Bool.false_eq_true, if_false, ho]
  rfl

theorem claimAct_of_held (ho : s.ctl.holder = some (srcOf h)) :
    claimAct h ms force s = { s := setLease ms s, result := le 4 s.ctl.epoch } := by
  simp only [claimAct, goodLease hm, lawfulForce hf, Bool.false_eq_true, if_false, ho, if_true]

theorem claimAct_of_forced {o : Nat} (ho : s.ctl.holder = some o) (hne : o ≠ srcOf h) (hforce : force = true) :
    claimAct h ms force s = { s := setLease ms (changeHolder (some (srcOf h)) 1 s), result := le 4 ((s.ctl.epoch + 1) % 2 ^ 32) } := by
  subst hforce
  simp only [claimAct, goodLease hm, lawfulForce hf, Bool.false_eq_true, if_false, ho, hne, if_true]
  rfl

theorem claimAct_of_other {o : Nat} (ho : s.ctl.holder = some o) (hne : o ≠ srcOf h) (hforce : force = false) :
    claimAct h ms force s = fails s stNotOwner 0 (le 4 o ++ le 4 (leaseLeft s)) := by
  subst hforce
  simp only [claimAct, goodLease hm, Bool.false_and, Bool.false_eq_true, if_false, ho, hne]

end claim

/-- A claim's own checks and effect decide what CONTROL_CLAIM does. -/
theorem exec_controlClaim_control (h : Hdr) (ms : Nat) (force : Bool) (s : State) :
    exec (.controlClaim h ms force) s =
      goes (control { op := 0x103, states := anySt, bc := true, anyone := true } h (fun _ => claimAct h ms force) s) := rfl

end Machine

open Machine Claims

/-- Settles O6: one lemma about `claimAct` for each case, and `control_handOver` for the hand-over. -/
theorem claimTakesControl : Obligations.ClaimTakesControl := by
  unfold Obligations.ClaimTakesControl
  intro h ms force s hacc hb i lawful
  have hi := exec_controlClaim_control h ms force s
  obtain ⟨hho, hep, -⟩ := begun_ctl 0x103 h s
  have hmaster := begun_isMasterSrc 0x103 h s
  have bad : claimAct h ms force (begun 0x103 h s) = fails (begun 0x103 h s) stParam → Refused 0x103 h 3 0 [] s i := fun hact =>
    refused_of_act hi hacc hb hact (by decide) (by decide)
  refine ⟨fun hm => bad (claimAct_of_badLease hm), fun hl => ?_, fun hm hl => ?_⟩
  · by_cases hm : ms ≠ 0 ∧ (ms < 100 ∨ 3600000 < ms)
    · exact bad (claimAct_of_badLease hm)
    · exact bad (claimAct_of_badForce (by omega) (by rw [hmaster]; exact hl))
  · have hl' : force = true → h.transport = 3 ∨ isMasterSrc h (begun 0x103 h s) = true := by rw [hmaster]; exact hl
    refine ⟨fun cause hc => ?_, fun ho => ?_, fun o ho hne hforce => ?_⟩
    · have hact : claimAct h ms force (begun 0x103 h s) =
          { s := setLease ms (changeHolder (some (srcOf h)) cause (begun 0x103 h s)), result := le 4 ((s.ctl.epoch + 1) % 2 ^ 32) } := by
        rw [← hep]
        rcases hc with ⟨ho, rfl⟩ | ⟨o, ho, hne, hforce, rfl⟩
        · exact claimAct_of_free hm hl' (hho.trans ho)
        · exact claimAct_of_forced hm hl' (hho.trans ho) hne hforce
      exact control_handOver _ h (fun _ => claimAct h ms force) s _ ms cause _ hacc hb hact
    · have hact := claimAct_of_held hm hl' (hho.trans ho)
      rw [hep] at hact
      refine control_with _ h (fun _ => claimAct h ms force) s _ _ _ none .none hacc hb hact ?_ rfl rfl
      have hbt := path_begun 0x103 h s
      generalize begun 0x103 h s = b at *
      unfold Traces
      rw [hbt]
      rfl
    · exact refused_of_act hi hacc hb (claimAct_of_other hm hl' (hho.trans ho) hne hforce) (by decide) (by decide)

/-- Settles O7: CONTROL_RELEASE is a hand-over to none, and so is the end of the lease after its internal entry. -/
theorem controlBecomesFree : Obligations.ControlBecomesFree := by
  unfold Obligations.ControlBecomesFree
  refine ⟨fun h s hacc hb => ?_, fun o s ho hms hon => ?_⟩
  · have ho := holder_of_accepted hacc
    obtain ⟨t, ht, hj, hw, hl, htr, -⟩ := control_handOver { op := 0x104, states := anySt, bc := true } h
      (fun _ s => { s := setLease 0 (changeHolder none 2 s) }) s none 0 2 [] hacc hb rfl
    rw [changeEv, ho] at htr
    exact ⟨t, ht, hj, hw, hl, htr⟩
  · have he : exec .leaseExpired s = .next (setLease 0 (changeHolder none 3 (journalInternal 0 0x09F1 (le 4 o) s))) := by
      rw [exec_leaseExpired, execLeaseExpired, ho]
      simp [goes, hms, hon]
    refine ⟨_, he, rfl, rfl, rfl, rfl, rfl, ⟨_, rfl, rfl, rfl, rfl, rfl, ?_⟩, ⟨_, rfl, rfl, ?_⟩, rfl⟩
    · rfl
    · show le 4 (s.ctl.holder.getD 0) ++ _ ++ _ ++ _ = _
      rw [ho]
      rfl

end Sys2Proof
end

section
/-!
The commands of a run (R256, R264, R315, R318, R382, R392): what ARM, PAUSE, RESUME and STOP do once they are accepted.
-/

namespace Sys2Proof

namespace Machine

open Claims

theorem begun_nowTick (op : Nat) (h : Hdr) (s : State) : nowTick (begun op h s) = nowTick s :=
  begun_eq op h s nowTick fun t ht => by rw [ht]; rfl
theorem begun_replayElsewhere (op : Nat) (h : Hdr) (s : State) (t : Nat) : replayElsewhere (begun op h s) t = replayElsewhere s t :=
  begun_eq op h s (replayElsewhere · t) fun u hu => by rw [hu]; rfl
theorem begun_placesActive (op : Nat) (h : Hdr) (s : State) : placesActive (begun op h s) = placesActive s :=
  begun_eq op h s placesActive fun t ht => by rw [ht]; rfl
theorem begun_ticking (op : Nat) (h : Hdr) (s : State) : ticking (begun op h s) = ticking s :=
  begun_eq op h s ticking fun t ht => by rw [ht]; rfl
theorem begun_startFit (op : Nat) (h : Hdr) (s : State) : startFit (begun op h s) = startFit s :=
  begun_eq op h s startFit fun t ht => by rw [ht]; rfl
theorem begun_member (op : Nat) (h : Hdr) (s : State) : (begun op h s).fab.member = s.fab.member := by rw [path_begun op h s]
theorem begun_isMaster (op : Nat) (h : Hdr) (s : State) : (begun op h s).fab.isMaster = s.fab.isMaster := by rw [path_begun op h s]
theorem begun_fe (op : Nat) (h : Hdr) (s : State) : (begun op h s).fe = s.fe := by rw [path_begun op h s]

theorem armCheck_eq_none {h : Hdr} {ta : Nat} {allow : Bool} {s : State}
    (hm : s.fab.member = true → s.fab.isMaster = true ∨ isMasterSrc h s = true) (hl : leadOk s ta = true)
    (hr : replayElsewhere s ta = false) (hc : s.fe.cal.isDefault = true → allow = true) (hp : placesActive s = true)
    (ht : ticking s = true) (hs : startFit s = true) : armCheck h ta allow s = none := by
  have h1 : (s.fab.member && !s.fab.isMaster && !isMasterSrc h s) = false := by
    cases hmem : s.fab.member with
    | false => rfl
    | true => rcases hm hmem with hx | hx <;> simp [hx]
  have h2 : (s.fe.cal.isDefault && !allow) = false := by
    cases hdef : s.fe.cal.isDefault with
    | false => rfl
    | true => simp [hc hdef]
  simp [armCheck, h1, h2, hl, hr, hp, ht, hs]

/-- What ARM leaves of the fabric: the master names T_a to its members as a start barrier (R256, R344). -/
def armNamed (ta : Nat) (u : State) : State :=
  if u.fab.member && u.fab.isMaster then
    toMembers (.barrier { tick := ta, start := true }) { u with fab := { u.fab with barriers := u.fab.barriers ++ [{ tick := ta, start := true }] } }
  else u

theorem toMembers_ctl (m : Msg2) (s : State) : (toMembers m s).ctl = s.ctl := by
  unfold toMembers
  split
  · split <;> rfl
  · rfl

theorem armNamed_ctl (ta : Nat) (u : State) : (armNamed ta u).ctl = u.ctl := by
  unfold armNamed
  split
  · rw [toMembers_ctl]
  · rfl

theorem armSet_ctl (ta : Nat) (u : State) : (armSet ta u).ctl = u.ctl := by
  unfold armSet
  rw [setDev_ctl]

/-- STOP ends every command that waits for a tick, and leaves what their ends may touch (R383). -/
theorem expireWaiting_dev (s : State) : (expireWaiting s).dev = s.dev := by
  obtain ⟨ws, h⟩ := path_expire s
  rw [h]

/-- Leaving ARMED for READY or LOADED raises an event and moves the state, nothing else. -/
theorem toIdle_ctl (s : State) : (toIdle s).ctl = s.ctl := by
  unfold toIdle
  rw [setDev_ctl]

theorem residents_congr {s t : State} (h : t.grid = s.grid) : residents t = residents s := by
  unfold residents secAt
  rw [h]

theorem begun_stopBusy {op : Nat} {h : Hdr} {s : State} (h1 : s.dev.stopReq = false) (h2 : s.dev.draining = false) :
    ((begun op h s).dev.stopReq || (begun op h s).dev.draining) = false := by
  rw [begun_dev, h1, h2]
  rfl

end Machine

open Machine Claims

/-- ARM, accepted, waits for E(T_a) with the device ARMED. -/
theorem arm_waits {h : Hdr} {s : State} {ta : Nat} {allow : Bool} (hb : Carried false h) (hacc : Accepted 0x107 stRL false false h s)
    (hm : s.fab.member = true → s.fab.isMaster = true ∨ isMasterSrc h s = true) (hl : leadOk (begun 0x107 h s) ta = true)
    (hr : replayElsewhere s ta = false) (hc : s.fe.cal.isDefault = true → allow = true) (hp : placesActive s = true)
    (ht : ticking s = true) (hs : startFit s = true) :
    Waits 0x107 h (some ta) s (armSet ta (armNamed ta (begun 0x107 h s))) (.arm h ta allow) := by
  have hnone : armCheck h ta allow (begun 0x107 h s) = none := by
    refine armCheck_eq_none ?_ hl ?_ ?_ ?_ ?_ ?_
    · rw [begun_member, begun_isMaster, begun_isMasterSrc]; exact hm
    · rw [begun_replayElsewhere]; exact hr
    · rw [begun_fe]; exact hc
    · rw [begun_placesActive]; exact hp
    · rw [begun_ticking]; exact ht
    · rw [begun_startFit]; exact hs
  refine waits_of { op := 0x107, states := stRL } h _ s _ (some ta) (.arm h ta allow) .none rfl hacc hb
    { jseq := s.ctl.jnext, h := h, opcode := 0x107, tick := some ta } ⟨rfl, rfl, rfl, rfl⟩
    (waitTick 0x107 h s.ctl.jnext ta (armSet ta (armNamed ta (begun 0x107 h s)))) ?_ rfl ?_ ?_
  · rw [hnone]
    rfl
  · show (armSet ta (armNamed ta (begun 0x107 h s))).ctl.journal = _
    rw [armSet_ctl, armNamed_ctl]
  · show (armSet ta (armNamed ta (begun 0x107 h s))).ctl.jnext = _
    rw [armSet_ctl, armNamed_ctl]

/-- PAUSE, accepted, waits until the device is PAUSED. -/
theorem pause_waits {h : Hdr} {s : State} (hb : Carried false h) (hacc : Accepted 0x108 [.running] false false h s)
    (hp : s.dev.pauseReq = false) :
    Waits 0x108 h none s { s with dev := { s.dev with pauseReq := true, pauseJ := some s.ctl.jnext } } (.pause h) := by
  refine waits_of { op := 0x108, states := [.running] } h _ s _ none (.pause h) .none rfl hacc hb
    { jseq := s.ctl.jnext, h := h, opcode := 0x108 } ⟨rfl, rfl, rfl, rfl⟩
    (longCmd h 0x108 s.ctl.jnext { begun 0x108 h s with dev := { (begun 0x108 h s).dev with pauseReq := true, pauseJ := some s.ctl.jnext } })
    ?_ ?_ rfl rfl
  · rw [if_neg (by rw [begun_dev, hp]; decide)]
  · have ht := path_begun 0x108 h s
    generalize begun 0x108 h s = b at *
    unfold Traces
    rw [ht]
    rfl

/-- RESUME, accepted, waits for E(T_r). -/
theorem resume_waits {h : Hdr} {s : State} {tr : Nat} (hb : Carried false h) (hacc : Accepted 0x109 [.paused] false false h s)
    (htr : nowTick s < tr) (hr : replayElsewhere s tr = false) (hd : s.dev.draining = false) (ha : s.dev.resumeAt = none) :
    Waits 0x109 h (some tr) s { s with dev := { s.dev with resumeAt := some tr } } (.resume h tr) := by
  refine waits_of { op := 0x109, states := [.paused] } h _ s _ (some tr) (.resume h tr) .none rfl hacc hb
    { jseq := s.ctl.jnext, h := h, opcode := 0x109, tick := some tr } ⟨rfl, rfl, rfl, rfl⟩
    (waitTick 0x109 h s.ctl.jnext tr { begun 0x109 h s with dev := { (begun 0x109 h s).dev with resumeAt := some tr } })
    ?_ ?_ rfl rfl
  · have hlate : ¬ tr ≤ nowTick (begun 0x109 h s) := by rw [begun_nowTick]; omega
    simp only [hlate, if_false, begun_replayElsewhere, hr, begun_dev, hd, ha]
    rfl
  · have ht := path_begun 0x109 h s
    generalize begun 0x109 h s = b at *
    unfold Traces
    rw [ht]
    rfl

/-- The newest entry is still the command's own once the waiting commands have ended. -/
theorem expireWaiting_begun_head (op : Nat) (h : Hdr) (s : State) : ∃ e, (expireWaiting (begun op h s)).ctl.journal.head? = some e ∧
    e.jseq = s.ctl.jnext ∧ e.source = srcOf h ∧ e.cseq = h.seq ∧ e.opcode = op := by
  obtain ⟨e, he, h1, h2, h3, h4, -, -⟩ := begun_head op h s
  obtain ⟨-, hs, -⟩ := expire_facts (begun op h s)
  obtain ⟨e', he', k1, k2, k3, k4, -, -⟩ := hs e he
  exact ⟨e', he', k1.trans h1, k2.trans h2, k3.trans h3, k4.trans h4⟩

theorem expireWaiting_begun_jnext (op : Nat) (h : Hdr) (s : State) : (expireWaiting (begun op h s)).ctl.jnext = s.ctl.jnext + 1 := by
  rw [(expire_facts _).1, begun_jnext]

/-- STOP of an armed device ends at once, with the arm cancelled. -/
theorem stop_armed {h : Hdr} {s : State} (hb : Carried false h) (hacc : Accepted 0x10A stAUP false false h s) (h1 : s.dev.stopReq = false)
    (h2 : s.dev.draining = false) (hst : s.dev.st = .armed) :
    Done 0x10A h [] s (setDev (if (residents s).isEmpty then .ready else .loaded)
      { expireWaiting (begun 0x10A h s) with dev := { s.dev with armAt := none, tA := 0 } }) (.stop h) := by
  have hdev : (expireWaiting (begun 0x10A h s)).dev = s.dev := by rw [expireWaiting_dev, begun_dev]
  have hres : residents (expireWaiting (begun 0x10A h s)) = residents s := by
    obtain ⟨ws, hws⟩ := path_expire (begun 0x10A h s)
    refine residents_congr ?_
    rw [hws]
    show (begun 0x10A h s).grid = s.grid
    rw [path_begun 0x10A h s]
  have hact : stopAct h s.ctl.jnext (begun 0x10A h s) = { s := toIdle { expireWaiting (begun 0x10A h s) with
      dev := { s.dev with armAt := none, tA := 0 } } } := by
    unfold stopAct stopNow
    rw [begun_stopBusy h1 h2, hdev, hst]
    rfl
  obtain ⟨e, he⟩ := expireWaiting_begun_head 0x10A h s
  obtain ⟨t, ht, htr, -, -, -, hj, hr⟩ := control_ends { op := 0x10A, states := stAUP } h (stopAct h) s _ [] none .none hacc hb hact
    ⟨e, by rw [toIdle_ctl]; exact he⟩ (by rw [toIdle_ctl]; exact expireWaiting_begun_jnext 0x10A h s)
  refine ⟨t, ht, ?_, hj, hr⟩
  rw [← hres]
  exact htr

/-- STOP of a device that runs or is PAUSED waits for the drain, and no command tied to a tick waits any longer. -/
theorem stop_running {h : Hdr} {s : State} (hb : Carried false h) (hacc : Accepted 0x10A stAUP false false h s) (h1 : s.dev.stopReq = false)
    (h2 : s.dev.draining = false) (hst : s.dev.st ≠ .armed) :
    ∃ t, exec (.stop h) s = .next t ∧ t.ctl.jnext = s.ctl.jnext + 1 ∧
        (∀ w ∈ t.ctl.waiting, w.tick = none) ∧ (∃ w ∈ t.ctl.waiting, w.jseq = s.ctl.jnext ∧ w.opcode = 0x10A ∧ w.h = h) ∧
        t.dev = if s.dev.st = .paused then { s.dev with draining := true, resumeAt := none, stopJ := some s.ctl.jnext }
          else { s.dev with pauseReq := true, stopReq := true, stopJ := some s.ctl.jnext } := by
  have hdev : (expireWaiting (begun 0x10A h s)).dev = s.dev := by rw [expireWaiting_dev, begun_dev]
  obtain ⟨-, -, hw⟩ := expire_facts (begun 0x10A h s)
  generalize hx : expireWaiting (begun 0x10A h s) = x at *
  have hjx : x.ctl.jnext = s.ctl.jnext + 1 := by rw [← hx]; exact expireWaiting_begun_jnext 0x10A h s
  generalize hd : (if s.dev.st = .paused then { s.dev with draining := true, resumeAt := none, stopJ := some s.ctl.jnext }
    else { s.dev with pauseReq := true, stopReq := true, stopJ := some s.ctl.jnext } : Dev) = d
  have hact : stopAct h s.ctl.jnext (begun 0x10A h s) = { s := longCmd h 0x10A s.ctl.jnext { x with dev := d }, wait := true } := by
    unfold stopAct stopNow
    rw [begun_stopBusy h1 h2, hx, hdev, if_neg (by decide), ← hd]
    cases hst' : s.dev.st with
    | armed => exact absurd hst' hst
    | _ => rfl
  refine ⟨_, rfl, ?_⟩
  rw [control_accepted _ h _ s hacc hb (by rw [hact]), hact]
  simp only [if_true]
  have hl : ∀ w ∈ (longCmd h 0x10A s.ctl.jnext { x with dev := d }).ctl.waiting, w.tick = none := by
    intro w hmem
    rcases List.mem_append.1 hmem with hmem | hmem
    · exact hw w hmem
    · rw [List.mem_singleton.1 hmem]
  have hin : ∃ w ∈ (longCmd h 0x10A s.ctl.jnext { x with dev := d }).ctl.waiting, w.jseq = s.ctl.jnext ∧ w.opcode = 0x10A ∧ w.h = h :=
    ⟨_, List.mem_append_right _ (List.mem_singleton_self _), rfl, rfl, rfl⟩
  split
  · rw [sendReply_jnext, path_waiting (path_sendReply _ _), sendReply_dev]
    exact ⟨hjx, hl, hin, rfl⟩
  · exact ⟨hjx, hl, hin, rfl⟩

/-- Settles O8: one lemma for each command. -/
theorem runCommandsTaken : Obligations.RunCommandsTaken := by
  unfold Obligations.RunCommandsTaken
  intro h s hb
  exact ⟨fun ta allow hacc hm hl hr hc hp ht hs => arm_waits hb hacc hm hl hr hc hp ht hs, fun hacc hp => pause_waits hb hacc hp,
    fun tr hacc htr hr hd ha => resume_waits hb hacc htr hr hd ha, fun hacc h1 h2 => ⟨fun hst => stop_armed hb hacc h1 h2 hst,
    fun hst => stop_running hb hacc h1 h2 hst⟩⟩

end Sys2Proof
end

section
/-!
Entry to SAFE_STOP (R383, R392, R492, R503): what `enterSafe` makes of each part of the state, and the command that asks for it.
-/

namespace Sys2Proof

namespace Machine

open Claims

/-- What entry to SAFE_STOP with a cause leaves (R392, R503). -/
structure SafeEntered (cause : Nat) (s t : State) : Prop where
  dev : t.dev = { s.dev with st := .safe, safeCause := cause, draining := false, pauseReq := false, stopReq := false, armAt := none, resumeAt := none }
  busy : t.comb = { s.comb with busy := 15 }
  passes : t.t2.passes = s.t2.passes.map fun e => (e.1, { e.2 with ctx := none, abandoned := false })
  jnext : t.ctl.jnext = s.ctl.jnext + 1
  entry : ∃ e, t.ctl.journal.head? = some e ∧ e.jseq = s.ctl.jnext ∧ e.opcode = 0x09F3 ∧ e.internal = true
  waiting : ∀ w ∈ t.ctl.waiting, w.tick = none
  rails : t.pwr.avsMv = (List.range 4).foldl (fun l q => l.set q 600) s.pwr.avsMv
  saves : s.pwr.saving = none → s.pwr.saveOk = true → t.pwr.saving = some 4 ∧ t.pwr.saveTick = nowTick s + 1
  saving : s.pwr.saving ≠ none → t.pwr.saving = s.pwr.saving
  regs : t.regs = s.regs
  hbm : t.hbm = s.hbm
  grid : t.grid = s.grid
  fe : t.fe = s.fe
  eng : t.eng = s.eng
  flt : t.flt = s.flt
  free : t.free = s.free

/-- SAFE_STOP as a device state, with its entry in the journal: the state in which the waiting commands expire. -/
def safeNoted (cause : Nat) (s : State) : State := journalInternal 0 0x09F3 (le 2 cause) (busyAll (safeDev cause s))

theorem safeDev_dev {cause : Nat} {s : State} (hs : s.dev.st ≠ .safe) : (safeDev cause s).dev =
    { s.dev with st := .safe, safeCause := cause, draining := false, pauseReq := false, stopReq := false, armAt := none, resumeAt := none } := by
  unfold safeDev setDev
  rw [if_neg hs]
  rfl

theorem safeNoted_dev {cause : Nat} {s : State} (hs : s.dev.st ≠ .safe) : (safeNoted cause s).dev =
    { s.dev with st := .safe, safeCause := cause, draining := false, pauseReq := false, stopReq := false, armAt := none, resumeAt := none } := by
  unfold safeNoted
  rw [journalInternal_dev, busyAll_dev, safeDev_dev hs]

theorem safeNoted_entry (cause : Nat) (s : State) :
    ∃ e, (safeNoted cause s).ctl.journal.head? = some e ∧ e.jseq = s.ctl.jnext ∧ e.opcode = 0x09F3 ∧ e.internal = true := by
  refine ⟨_, rfl, ?_, rfl, rfl⟩
  show (safeDev cause s).ctl.jnext = _
  rw [safeDev_ctl]

theorem safeNoted_jnext (cause : Nat) (s : State) : (safeNoted cause s).ctl.jnext = s.ctl.jnext + 1 := by
  show (safeDev cause s).ctl.jnext + 1 = _
  rw [safeDev_ctl]

theorem safeNoted_comb (cause : Nat) (s : State) : (safeNoted cause s).comb = { s.comb with busy := 15 } := by
  show { (safeDev cause s).comb with busy := 15 } = _
  rw [safeDev_comb]

theorem safeNoted_nowTick (cause : Nat) (s : State) : nowTick (safeNoted cause s) = nowTick s := by
  unfold nowTick
  show (safeDev cause s).time.tick.getD 0 = _
  rw [safeDev_time]

theorem enterSafe_eq {cause : Nat} {s : State} (hs : s.dev.st ≠ .safe) (ho : s.dev.st ≠ .off) :
    enterSafe cause s = railsDown (startSave 4 (markCause 4 (endPasses (expireWaiting (safeNoted cause s))))) := by
  unfold enterSafe
  rw [if_neg (by simp [hs, ho])]
  rfl

theorem railsDown_avsMv (s : State) : (railsDown s).pwr.avsMv = (List.range 4).foldl (fun l q => l.set q 600) s.pwr.avsMv := by
  obtain ⟨out, h⟩ := railsDown_eq s
  rw [h]

theorem railsDown_saving (s : State) : (railsDown s).pwr.saving = s.pwr.saving ∧ (railsDown s).pwr.saveTick = s.pwr.saveTick := by
  obtain ⟨out, h⟩ := railsDown_eq s
  rw [h]
  exact ⟨rfl, rfl⟩

theorem startSave_starts {cause : Nat} {s : State} (h1 : s.pwr.saving = none) (h2 : s.pwr.saveOk = true) :
    (startSave cause s).pwr.saving = some cause ∧ (startSave cause s).pwr.saveTick = nowTick s + 1 := by
  unfold startSave
  rw [if_neg (by simp [h1, h2])]
  exact ⟨rfl, rfl⟩

theorem startSave_of_saving {cause : Nat} {s : State} (h : s.pwr.saving ≠ none) : startSave cause s = s := by
  unfold startSave
  rw [if_pos]
  simp [Option.isSome_iff_ne_none.2 h]

theorem startSave_avsMv (cause : Nat) (s : State) : (startSave cause s).pwr.avsMv = s.pwr.avsMv := by
  unfold startSave
  split <;> rfl

/-- Entry to SAFE_STOP: the device state first, then the waiting commands end, the passes end, the save begins and the rails go down. -/
theorem enterSafe_entered {cause : Nat} {s : State} (hs : s.dev.st ≠ .safe) (ho : s.dev.st ≠ .off) :
    SafeEntered cause s (enterSafe cause s) := by
  rw [enterSafe_eq hs ho]
  obtain ⟨ws, hws⟩ := path_expire (safeNoted cause s)
  obtain ⟨hj, hh, hw⟩ := expire_facts (safeNoted cause s)
  generalize expireWaiting (safeNoted cause s) = x at *
  have hpwr : x.pwr = s.pwr := by
    rw [hws]
    show (safeDev cause s).pwr = _
    rw [safeDev_pwr]
  have htick : nowTick (markCause 4 (endPasses x)) = nowTick s := by
    rw [← safeNoted_nowTick cause s]
    unfold nowTick
    rw [hws]
    rfl
  have hrail : ∀ u, (railsDown u).dev = u.dev ∧ (railsDown u).ctl = u.ctl ∧ (railsDown u).comb = u.comb ∧ (railsDown u).t2 = u.t2 ∧
      (railsDown u).regs = u.regs ∧ (railsDown u).grid = u.grid ∧ (railsDown u).fe = u.fe ∧ (railsDown u).eng = u.eng ∧
      (railsDown u).flt = u.flt ∧ (railsDown u).free = u.free := by
    intro u
    obtain ⟨out, h⟩ := railsDown_eq u
    rw [h]
    exact ⟨rfl, rfl, rfl, rfl, rfl, rfl, rfl, rfl, rfl, rfl⟩
  obtain ⟨r1, r2, r3, r4, r5, r6, r7, r8, r9, r10⟩ := hrail (startSave 4 (markCause 4 (endPasses x)))
  constructor
  case dev => rw [r1, startSave_dev]; show x.dev = _; rw [hws]; exact safeNoted_dev hs
  case busy => rw [r3, startSave_comb]; show x.comb = _; rw [hws]; exact safeNoted_comb cause s
  case passes =>
    rw [r4, startSave_t2]
    show x.t2.passes.map _ = _
    rw [hws]
    show (safeDev cause s).t2.passes.map _ = _
    rw [safeDev_t2]
  case jnext => rw [r2, startSave_ctl]; exact hj.trans (safeNoted_jnext cause s)
  case entry =>
    rw [r2, startSave_ctl]
    obtain ⟨e, he, h1, h2, h3⟩ := safeNoted_entry cause s
    obtain ⟨e', he', k1, -, -, k4, k5, -⟩ := hh e he
    exact ⟨e', he', k1.trans h1, k4.trans h2, k5.trans h3⟩
  case waiting => rw [r2, startSave_ctl]; exact hw
  case rails => rw [railsDown_avsMv, startSave_avsMv]; show (List.range 4).foldl _ x.pwr.avsMv = _; rw [hpwr]
  case saves =>
    intro h1 h2
    rw [(railsDown_saving _).1, (railsDown_saving _).2]
    obtain ⟨k1, k2⟩ := startSave_starts (cause := 4) (s := markCause 4 (endPasses x)) (by show x.pwr.saving = _; rw [hpwr, h1])
      (by show x.pwr.saveOk = _; rw [hpwr, h2])
    exact ⟨k1, by rw [k2, htick]⟩
  case saving =>
    intro h1
    rw [(railsDown_saving _).1, startSave_of_saving (by show x.pwr.saving ≠ _; rw [hpwr]; exact h1)]
    show x.pwr.saving = _
    rw [hpwr]
  case regs => rw [r5, startSave_regs]; show x.regs = _; rw [hws]; show (safeDev cause s).regs = _; rw [safeDev_regs]
  case hbm => rw [railsDown_hbm, startSave_hbm]; show x.hbm = _; rw [hws]; show (safeDev cause s).hbm = _; rw [safeDev_hbm]
  case grid => rw [r6, startSave_grid]; show x.grid = _; rw [hws]; show (safeDev cause s).grid = _; rw [safeDev_grid]
  case fe => rw [r7, startSave_fe]; show x.fe = _; rw [hws]; show (safeDev cause s).fe = _; rw [safeDev_fe]
  case eng => rw [r8, startSave_eng]; show x.eng = _; rw [hws]; show (safeDev cause s).eng = _; rw [safeDev_eng]
  case flt => rw [r9, startSave_flt]; show x.flt = _; rw [hws]; show (safeDev cause s).flt = _; rw [safeDev_flt]
  case free => rw [r10, startSave_free]; show x.free = _; rw [hws]; show (safeDev cause s).free = _; rw [safeDev_free]

/-- SAFE_STOP with a cause of R504, accepted: what it leaves, from what entry leaves. -/
theorem safeStop_enters {h : Hdr} {cause : Nat} {s : State} (hacc : Accepted 0x10C stRLAUP false false h s) (hb : Carried true h)
    (h1 : 0x8000 ≤ cause) (h2 : cause ≤ 0xFFFF) :
    ∃ E t, exec (.safeStop h cause) s = .next t ∧ SafeEntered cause (begun 0x10C h s) E ∧ Traces E t ∧ t.ctl.jnext = E.ctl.jnext ∧
      HeadSame E.ctl.journal t.ctl.journal := by
  have hst : s.dev.st ≠ .safe := by
    obtain ⟨-, -, -, -, hmem, -⟩ := hacc
    intro hsafe
    rw [hsafe] at hmem
    exact absurd hmem (by decide)
  have hon : s.dev.st ≠ .off := hacc.1
  have hent : SafeEntered cause (begun 0x10C h s) (enterSafe cause (begun 0x10C h s)) :=
    enterSafe_entered (by rw [begun_dev]; exact hst) (by rw [begun_dev]; exact hon)
  obtain ⟨t, ht, htr, hj, hh, -⟩ := control_then { op := 0x10C, states := stRLAUP, bc := true } h
    (fun _ s => if decide (0x8000 ≤ cause ∧ cause ≤ 0xFFFF) then { s := enterSafe cause s } else fails s stParam) s
    (enterSafe cause (begun 0x10C h s)) [] none .none hacc hb (by simp [h1, h2])
  exact ⟨_, t, ht, hent, htr, hj, hh⟩

end Machine

open Machine Claims

/-- Settles O9: `safeStop_enters`, read back from the state begun to s. -/
theorem safeStopEntered : Obligations.SafeStopEntered := by
  unfold Obligations.SafeStopEntered
  intro h cause s hacc hb
  refine ⟨fun hc => ?_, fun h1 h2 => ?_⟩
  · refine refused_of_act (c := { op := 0x10C, states := stRLAUP, bc := true })
      (act := fun _ s => if decide (0x8000 ≤ cause ∧ cause ≤ 0xFFFF) then { s := enterSafe cause s } else fails s stParam)
      rfl hacc hb ?_ (by decide) (by decide)
    have hn : ¬ (0x8000 ≤ cause ∧ cause ≤ 0xFFFF) := by omega
    simp only [hn, decide_false, Bool.false_eq_true, if_false]
    rfl
  · obtain ⟨E, t, ht, hE, htr, hj, hh⟩ := safeStop_enters hacc hb h1 h2
    have hbeg := path_begun 0x10C h s
    have hbj := begun_jnext 0x10C h s
    have htick := begun_nowTick 0x10C h s
    have hdev := begun_dev 0x10C h s
    have hregs := begun_regs 0x10C h s
    generalize begun 0x10C h s = b at *
    have hcomb : b.comb = s.comb := by rw [hbeg]
    have hpwr : b.pwr = s.pwr := by rw [hbeg]
    obtain ⟨e, he, e1, e2, e3⟩ := hE.entry
    obtain ⟨e', he', k1, -, -, k4, k5, -⟩ := hh e he
    refine ⟨t, ht, by rw [hj, hE.jnext, hbj], ?_, ⟨e', he', by rw [k1, e1, hbj], k4.trans e2, k5.trans e3⟩, ?_, ?_, ?_, ?_, ?_, ?_,
      ?_, ?_, ?_, ?_, ?_, ?_, ?_⟩
    · rw [htr]; exact hE.dev.trans (by rw [hdev])
    · intro w hw; rw [path_waiting htr] at hw; exact hE.waiting w hw
    · rw [htr]; exact hE.busy.trans (by rw [hcomb])
    · intro p hp
      rw [htr] at hp
      have hp' : p ∈ E.t2.passes := hp
      rw [hE.passes] at hp'
      obtain ⟨x, -, rfl⟩ := List.mem_map.1 hp'
      rfl
    · rw [htr]; exact hE.rails.trans (by rw [hpwr])
    · intro p1 p2
      rw [← hpwr] at p1 p2
      rw [htr, ← htick]
      exact hE.saves p1 p2
    · intro p1
      rw [← hpwr] at p1
      rw [htr, ← hpwr]
      exact hE.saving p1
    · rw [htr]; exact hE.regs.trans hregs
    · rw [htr]; exact hE.hbm.trans (by rw [hbeg])
    · rw [htr]; exact hE.grid.trans (by rw [hbeg])
    · rw [htr]; exact hE.fe.trans (by rw [hbeg])
    · rw [htr]; exact hE.eng.trans (by rw [hbeg])
    · rw [htr]; exact hE.flt.trans (by rw [hbeg])
    · rw [htr]; exact hE.free.trans (by rw [hbeg])

end Sys2Proof
end

section
/-!
Observe commands that answer with what the device holds, and three control commands of one effect (R289, R373, R375, R389, R396, R399).
-/

namespace Sys2Proof

namespace Machine

open Claims

/-- A served observe command whose part leaves journal and entry number alone answers with that part's result. -/
theorem answers_of {i : Instr} {c : CmdSpec} {h : Hdr} {act : State → Act} {s E E' : State} {R : List Byte}
    (hi : exec i s = goes (observe c h act s)) (ho : Observed c.states h s) (hb : Carried c.bc h) (ha : act (readBy h s) = { s := E', result := R })
    (hE : Traces E E') (hu : Unjournaled (readBy h s) E') : Answers c.op h R s E i := by
  unfold Answers
  rw [hi]
  exact observe_with c h act s E E' R ho hb ha hE hu.journal hu.jnext

/-- A served observe command that only reads. -/
theorem answers_reading {i : Instr} {c : CmdSpec} {h : Hdr} {act : State → Act} {s : State} {R : List Byte}
    (hi : exec i s = goes (observe c h act s)) (ho : Observed c.states h s) (hb : Carried c.bc h)
    (ha : act (readBy h s) = { s := readBy h s, result := R }) : Answers c.op h R s s i :=
  answers_of hi ho hb ha (path_readBy h s) (unjournaled_refl _)

/-- A served observe command whose reply comes later leaves its own part's state. -/
theorem asks_of {i : Instr} {c : CmdSpec} {h : Hdr} {act : State → Act} {s E' : State} {R : List Byte}
    (hi : exec i s = goes (observe c h act s)) (ho : Observed c.states h s) (hb : Carried c.bc h)
    (ha : act (readBy h s) = { s := E', result := R, wait := true }) :
    ∃ t, exec i s = .next t ∧ Traces E' t ∧ t.ctl.journal = E'.ctl.journal := by
  obtain ⟨t, h1, h2, -, h4⟩ := observe_waits c h act s E' R ho hb ha
  exact ⟨t, by rw [hi]; exact h1, h2, h4⟩

@[simp] theorem readBy_grid (h : Hdr) (s : State) : (readBy h s).grid = s.grid := by rw [path_readBy h s]
@[simp] theorem readBy_t2 (h : Hdr) (s : State) : (readBy h s).t2 = s.t2 := by rw [path_readBy h s]
@[simp] theorem readBy_flt (h : Hdr) (s : State) : (readBy h s).flt = s.flt := by rw [path_readBy h s]
@[simp] theorem readBy_regs (h : Hdr) (s : State) : (readBy h s).regs = s.regs := by rw [path_readBy h s]
@[simp] theorem readBy_hbm (h : Hdr) (s : State) : (readBy h s).hbm = s.hbm := by rw [path_readBy h s]
@[simp] theorem readBy_snap (h : Hdr) (s : State) : (readBy h s).acq.snap = s.acq.snap := by rw [path_readBy h s]

end Machine

open Machine Claims

/-- Settles O1: each of the eight reads the state that its packet's traces leave, and answers with it. -/
theorem statusReadsAnswer : Obligations.StatusReadsAnswer := by
  unfold Obligations.StatusReadsAnswer
  intro h s hb
  refine ⟨fun ho => ⟨?_, ?_, ?_⟩, fun ho => ⟨?_, ?_, fun hb => ⟨?_, ?_, ?_⟩⟩⟩
  · exact answers_reading (exec_deviceId h s) ho hb rfl
  · exact answers_reading (exec_telemetryRead h s) ho hb rfl
  · exact answers_reading (exec_updateStatus h s) ho hb rfl
  · exact answers_reading (exec_errqRead h s) ho hb rfl
  · exact answers_reading (exec_healthRead h s) ho hb rfl
  · exact answers_reading (exec_timeGet h s) ho hb rfl
  · exact answers_reading (exec_fabricState h s) ho hb rfl
  · exact answers_reading (exec_maintStatus h s) ho hb (by simp)

namespace Machine

/-- CFG_READ's pass over its offsets: the state it clears and the bytes it gathers (R389). -/
theorem cfgRead_fold (offs : List Nat) (s : State) (R : List Byte) :
    offs.foldl (fun a o => { s := rcClear a.s o, result := a.result ++ le 8 (regValue a.s o) : Act }) { s := s, result := R } =
      { s := offs.foldl rcClear s, result := R ++ readAll offs s } := by
  induction offs generalizing s R with
  | nil => simp [readAll]
  | cons o offs ih => rw [List.foldl_cons, ih, List.foldl_cons, readAll, List.append_assoc]

theorem unjournaled_foldl_rcClear (offs : List Nat) (s : State) : Unjournaled s (offs.foldl rcClear s) := by
  induction offs generalizing s with
  | nil => exact unjournaled_refl s
  | cons o offs ih => exact unjournaled_trans (unjournaled_rcClear s o) (ih _)

section part

variable (h : Hdr) (s : State)

theorem readBy_secAt (hd : Nat) : secAt (readBy h s) hd = secAt s hd := readBy_eq h s (secAt · hd) fun t ht => by rw [ht]; rfl
theorem readBy_infoBytes (hd : Nat) : infoBytes (readBy h s) hd = infoBytes s hd := readBy_eq h s (infoBytes · hd) fun t ht => by rw [ht]; rfl
theorem readBy_siteIn (hd vq col row : Nat) : siteIn (readBy h s) hd vq col row = siteIn s hd vq col row :=
  readBy_eq h s (siteIn · hd vq col row) fun t ht => by rw [ht]; rfl
theorem readBy_bankFull (hd q c r line : Nat) : bankFull (readBy h s) hd q c r line = bankFull s hd q c r line :=
  readBy_eq h s (bankFull · hd q c r line) fun t ht => by rw [ht]; rfl
theorem readBy_tileAt (q c r : Nat) : tileAt (readBy h s) q c r = tileAt s q c r := readBy_eq h s (tileAt · q c r) fun t ht => by rw [ht]; rfl
theorem readBy_keptDigest (hd : Nat) : keptDigest (readBy h s) hd = keptDigest s hd := readBy_eq h s (keptDigest · hd) fun t ht => by rw [ht]; rfl
theorem readBy_storesMatch (hd : Nat) : storesMatch (readBy h s) hd = storesMatch s hd :=
  readBy_eq h s (storesMatch · hd) fun t ht => by rw [ht]; rfl
theorem readBy_calFactory (item i : Nat) : calFactory (readBy h s) item i = calFactory s item i :=
  readBy_eq h s (calFactory · item i) fun t ht => by rw [ht]; rfl
theorem readBy_calUser (item i : Nat) : calUser (readBy h s) item i = calUser s item i :=
  readBy_eq h s (calUser · item i) fun t ht => by rw [ht]; rfl
theorem readBy_calEffective (item i : Nat) : calEffective (readBy h s) item i = calEffective s item i :=
  readBy_eq h s (calEffective · item i) fun t ht => by rw [ht]; rfl

/-- TILE_READ of a line of a memory tile, with what the line's ECC says of it (R122, log 150). -/
theorem tileRead_answers {hd vq col row line q c r : Nat} (ecc : Ecc) (hb : Carried false h) (ho : Observed stLAUP h s)
    (hsite : siteIn s hd vq col row = some (q, c, r)) (hcls : siteClass c r = some .memory) (hline : line < 65536)
    (hfull : bankFull s hd q c r line = false) :
    Answers 0x209 h (lineBytes (if ecc = .bad then 0#256 else (lineNow (tileAt s q c r) line).data)) s (hostEcc hd q c r line ecc (readBy h s))
      (.tileRead h hd vq col row line ecc) := by
  refine answers_of (exec_tileRead h hd vq col row line ecc s) ho hb ?_ (path_refl _) (unjournaled_hostEcc hd q c r line ecc _)
  simp [readBy_siteIn, hsite, hcls, Nat.not_le.2 hline, readBy_bankFull, hfull, readBy_tileAt]

end part

end Machine

/-- Settles O2: with its operands in range, each reads what the obligation names; only CFG_READ, TILE_READ's ECC and DIGEST_VERIFY leave more. -/
theorem partReadsAnswer : Obligations.PartReadsAnswer := by
  unfold Obligations.PartReadsAnswer
  intro h s hb
  refine ⟨?_, ?_, ?_, ?_, ?_, ?_, ?_, ?_⟩
  · intro offs ho hlen
    refine answers_of (exec_cfgRead h offs s) ho hb ?_ (path_refl _) (unjournaled_foldl_rcClear offs _)
    rw [if_neg (by omega)]
    exact cfgRead_fold offs (readBy h s) []
  · intro hd ho hlt hres
    refine answers_reading (exec_sectionInfo h hd s) ho hb ?_
    simp only [readBy_secAt, hlt, hres, readBy_infoBytes, decide_true, Bool.and_self, if_true]
  · intro hd vq col row line q c r ho hsite hcls hline hfull
    have hread := fun ecc => tileRead_answers h s ecc hb ho hsite hcls hline hfull
    obtain ⟨t, h1, h2, h3⟩ := hread .ok
    exact ⟨⟨t, h1, path_trans (path_readBy h s) h2, h3⟩, hread .corrected, hread .bad⟩
  · intro n ho hn
    refine answers_reading (exec_probeRead h n s) ho hb ?_
    dsimp only
    rw [if_neg (by omega), readBy_grid]
  · intro hd first count ho hlt h1 h127 hres hall
    refine answers_reading (exec_digestRead h hd first count s) ho hb ?_
    have hkept : ((rangeFrom first count).map (keptDigest s hd)).any (·.isNone) = false := by
      rw [List.any_map, List.any_eq_false]
      intro t ht
      have := hall t ht
      cases hk : keptDigest s hd t <;> simp_all
    simp only [readBy_secAt, readBy_keptDigest, hres, hkept, decide_eq_true (show hd < 16 ∧ 1 ≤ count ∧ count ≤ 127 from ⟨hlt, h1, h127⟩),
      Bool.and_self, Bool.not_true, Bool.false_eq_true, if_false]
  · intro hd ho hlt hres
    refine answers_of (exec_digestVerify h hd s) ho hb ?_ (path_refl _) (unjournaled_verifyWeights hd _)
    simp only [readBy_secAt, readBy_storesMatch, hres, hlt, decide_true, Bool.and_self, Bool.not_true, Bool.false_eq_true, if_false]
  · intro item first count c ho hc h1 h254 hn
    refine answers_reading (exec_calRead h item first count s) ho hb ?_
    simp only [hc, decide_eq_true (show 1 ≤ count ∧ count ≤ 254 ∧ first + count ≤ c.n from ⟨h1, h254, hn⟩), if_true, readBy_calFactory,
      readBy_calUser, readBy_calEffective]
  · intro part ho hpart
    refine answers_reading (exec_culletRead h part s) ho hb ?_
    dsimp only
    rw [if_neg (by omega), if_neg (by omega), readBy_snap]

namespace Machine

section window

variable {s : State} {w a n : Nat}

theorem addr_window (ha : a < 2 ^ 54) (hw : w < 1024) : bits (w * 2 ^ 54 + a) 63 54 = w := by
  unfold bits; omega

theorem addr_offset (ha : a < 2 ^ 54) : bits (w * 2 ^ 54 + a) 53 0 = a := by
  unfold bits; omega

/-- A range within one 4 KiB chunk of an HBM window is one chunk (R289). -/
theorem chunksOf_one {wr : Bool} (hw : w < 1024) (ha : a < 2 ^ 54) (hv : (windowAt s w).valid = true)
    (hop : (if wr then !(windowAt s w).wr else !(windowAt s w).rd) = false) (ht : (windowAt s w).target ≠ 0) (hn : 0 < n)
    (hpage : a % 4096 + n ≤ 4096) (hsize : a + n ≤ 2 ^ (windowAt s w).size) :
    chunksOf s wr 4 (w * 2 ^ 54 + a) 0 n = [(.hbm ((windowAt s w).base + a), 0, n)] := by
  have htr : translate s wr false (w * 2 ^ 54 + a) = .hbm ((windowAt s w).base + a) := by
    unfold translate
    simp only [addr_window ha hw, addr_offset ha, hv, hop, ht, Bool.not_true, Bool.false_eq_true, if_false, Bool.false_and, Bool.or_false]
    rw [if_neg (by omega)]
  have hleft : min n (chunkLeft s (w * 2 ^ 54 + a)) = n := by
    unfold chunkLeft
    simp only [addr_window ha hw, addr_offset ha]
    omega
  unfold chunksOf
  rw [if_neg (by omega), htr, hleft]
  simp [chunksOf]

end window

theorem slice_zero_length (bs : List Byte) : slice 0 bs.length bs = bs := by
  simp [slice]

section held

variable (h : Hdr) (s : State)

theorem readBy_windowAt (w : Nat) : windowAt (readBy h s) w = windowAt s w := readBy_eq h s (windowAt · w) fun t ht => by rw [ht]; rfl
theorem readBy_hbmSize : hbmSize (readBy h s) = hbmSize s := readBy_eq h s hbmSize fun t ht => by rw [ht]; rfl
theorem readBy_ticking : ticking (readBy h s) = ticking s := readBy_eq h s ticking fun t ht => by rw [ht]; rfl
theorem readBy_hbmRead (a n : Nat) : hbmRead (readBy h s) a n = hbmRead s a n := readBy_eq h s (hbmRead · a n) fun t ht => by rw [ht]; rfl
theorem begun_windowAt (op w : Nat) : windowAt (begun op h s) w = windowAt s w := begun_eq op h s (windowAt · w) fun t ht => by rw [ht]; rfl
theorem begun_hbmSize (op : Nat) : hbmSize (begun op h s) = hbmSize s := begun_eq op h s hbmSize fun t ht => by rw [ht]; rfl

end held

end Machine

/-- Settles O11: MEM_READ of one chunk reads it; JOURNAL_READ's packet leaves the journal it reads; DEVICE_STATE waits only for an edge that comes. -/
theorem heldDataReads : Obligations.HeldDataReads := by
  unfold Obligations.HeldDataReads
  intro h s
  refine ⟨?_, ?_, ?_⟩
  · intro w a len found hb ho hw hv hrd ht hpos h4064 hpage hsize ha hfit
    refine answers_reading (exec_memRead h _ len found s) ho hb ?_
    have hone : chunksOf (readBy h s) false 4 (w * 2 ^ 54 + a) 0 len = [(.hbm ((windowAt s w).base + a), 0, len)] := by
      rw [chunksOf_one hw ha (by rw [readBy_windowAt]; exact hv) (by rw [readBy_windowAt]; simp [hrd]) (by rw [readBy_windowAt]; exact ht) hpos hpage
        (by rw [readBy_windowAt]; exact hsize), readBy_windowAt]
    have hne : len ≠ 0 := by omega
    rw [hone]
    simp [chunkOk, readBy_hbmSize, readBy_hbmRead, hfit, Nat.not_lt.2 h4064, hne]
  · intro from_ max hb ho h63 h3
    refine answers_reading (exec_journalRead h from_ max s) ho hb ?_
    obtain ⟨hj, hn⟩ := readBy_journal h s
    have hmax : (decide (63 < max) || (h.transport == 3 && decide (3 < max))) = false := by
      simp only [Bool.or_eq_false_iff, decide_eq_false_iff_not, Bool.and_eq_false_imp, beq_iff_eq]
      exact ⟨by omega, fun ht => by have := h3 ht; omega⟩
    simp only [hmax, Bool.false_eq_true, if_false, hj, hn] <;> rfl
  · intro hb ho
    refine ⟨fun htick => ?_, fun htick => ?_⟩
    · refine answers_reading (exec_deviceState h s) ho hb ?_
      simp [readBy_ticking, htick]
    · obtain ⟨t, h1, h2, h4⟩ := asks_of (exec_deviceState h s) ho hb (R := [])
        (E' := { readBy h s with ctl := { (readBy h s).ctl with snapWait := (readBy h s).ctl.snapWait ++ [(h, 0)] } })
        (by rw [readBy_ticking, if_pos htick])
      refine ⟨t, h1, path_trans ?_ h2, h4.trans (readBy_journal h s).1⟩
      have hr := path_readBy h s
      generalize readBy h s = b at *
      unfold Traces
      rw [hr]

namespace Machine

/-- A control command that ends at once, from what its part leaves. -/
theorem done_of {i : Instr} {c : CmdSpec} {h : Hdr} {act : Nat → State → Act} {s E E' : State} {R : List Byte} {jr : Option (List Byte)}
    {eff : Eff} (hi : exec i s = goes (control c h act s)) (hacc : Accepted c.op c.states c.anyone c.cfg h s) (hb : Carried c.bc h)
    (ha : act s.ctl.jnext (begun c.op h s) = { s := E', result := R, jres := jr, eff := eff }) (hE : Traces E E')
    (hj : E'.ctl.journal = (begun c.op h s).ctl.journal) (hn : E'.ctl.jnext = (begun c.op h s).ctl.jnext) : Done c.op h R s E i := by
  unfold Done
  rw [hi]
  exact control_with c h act s E E' R jr eff hacc hb ha hE hj hn

/-- A control command whose part leaves the state begun ends with its packet's digest in its journal entry (R396). -/
theorem entered_of {i : Instr} {c : CmdSpec} {h : Hdr} {act : Nat → State → Act} {s : State}
    (hi : exec i s = goes (control c h act s)) (hacc : Accepted c.op c.states c.anyone c.cfg h s) (hb : Carried c.bc h)
    (ha : act s.ctl.jnext (begun c.op h s) = { s := begun c.op h s }) :
    ∃ t, exec i s = .next t ∧ ∃ e, t.ctl.journal.head? = some e ∧ e.pdigest = slice 0 16 (sha3 h.raw) := by
  obtain ⟨t, h1, -, -, hsame, -⟩ := control_then c h act s _ [] none .none hacc hb ha
  obtain ⟨e, he, hdig⟩ := begun_pdigest c.op h s
  obtain ⟨e', he', -, -, -, -, -, hdig'⟩ := hsame e he
  exact ⟨t, hi.trans h1, e', he', hdig'.trans hdig⟩

/-- The state a save started in leaves (R505). -/
theorem startSave_eq (cause : Nat) (s : State) : startSave cause s =
    { s with pwr := if s.pwr.saving = none ∧ s.pwr.saveOk = true then { s.pwr with
        saving := some cause, saveTick := nowTick s + 1, save := { s.pwr.save with cause := cause, detTick := nowTick s } } else s.pwr } := by
  unfold startSave
  cases hs : s.pwr.saving <;> cases hok : s.pwr.saveOk <;> simp

end Machine

/-- Settles O10: each of the three has its effect on the state begun, and the packet's traces are all that is added to it. -/
theorem plainControlCommands : Obligations.PlainControlCommands := by
  unfold Obligations.PlainControlCommands
  intro h s
  refine ⟨?_, ?_, ?_⟩
  · intro hacc hb
    refine done_of (exec_deviceReset h s) hacc hb (jr := none) (eff := .none) rfl ?_ (by rw [startSave_eq]) (by rw [startSave_eq])
    rw [startSave_eq]
    have ht := path_begun 0x10B h s
    generalize begun 0x10B h s = b at *
    unfold Traces
    rw [ht]
    rfl
  · intro hacc hb hlen
    exact ⟨done_of (exec_journalNote h s) hacc hb (if_pos hlen) (path_begun _ _ _) rfl rfl,
      entered_of (exec_journalNote h s) hacc hb (if_pos hlen)⟩
  · intro w a data hacc hb hsav hw hv hwr ht hpos h4056 hpage hsize ha hfit
    have hone : chunksOf (begun 0x10E h s) true 4 (w * 2 ^ 54 + a) 0 data.length = [(.hbm ((windowAt s w).base + a), 0, data.length)] := by
      rw [chunksOf_one hw ha (by rw [begun_windowAt]; exact hv) (by rw [begun_windowAt]; simp [hwr]) (by rw [begun_windowAt]; exact ht) hpos hpage
        (by rw [begun_windowAt]; exact hsize), begun_windowAt]
    have hne : data ≠ [] := List.ne_nil_of_length_pos hpos
    have hs : saving (begun 0x10E h s) = false := (begun_eq 0x10E h s saving fun t ht => by rw [ht]; rfl).trans (by simp [saving, hsav])
    refine done_of (exec_memWrite h _ data s) hacc hb (E' := hbmWrite ((windowAt s w).base + a) data (begun 0x10E h s)) (jr := none) (eff := .none) ?_ ?_ rfl rfl
    · rw [hone]
      simp [chunkOk, begun_hbmSize, hfit, Nat.not_lt.2 h4056, hne, hs, slice_zero_length]
    · have ht := path_begun 0x10E h s
      generalize begun 0x10E h s = b at *
      unfold Traces
      rw [ht]
      rfl

end Sys2Proof
end

section
/-!
Configuration writes (R26, R288, R382, R389): what a masked write stores, and how a CFG_WRITE takes effect, waits, or fails.
-/

namespace Sys2Proof

namespace Machine

open Claims

/-- A masked write bit by bit (R389). -/
theorem writeRw_testBit (k : Rk) (i old mask value b : Nat) : (writeRw k i old mask value).testBit b =
    if mask.testBit b && (rwMaskAt k i).testBit b then value.testBit b else old.testBit b := by
  unfold writeRw
  simp only [Nat.testBit_or, Nat.testBit_xor, Nat.testBit_and]
  cases mask.testBit b <;> cases (rwMaskAt k i).testBit b <;> simp

section one

variable (off mask value : Nat) (s : State)

theorem cfgStore_one {k : Rk} {i : Nat} (hk : regKind off = some (k, i)) :
    cfgStore [⟨off, mask, value⟩] s = setReg off (writeRw k i (regAt s off) mask value) s := by
  simp [cfgStore, hk]

theorem cfgStore_none (hk : regKind off = none) : cfgStore [⟨off, mask, value⟩] s = s := by
  simp [cfgStore, hk]

theorem regAt_setReg_same (v : Nat) : regAt (setReg off v s) off = v % 2 ^ 64 := by
  simp [regAt, setReg, regPut, tget_tset_same]

theorem regAt_setReg_ne {o : Nat} (ho : o ≠ off) (v : Nat) : regAt (setReg off v s) o = regAt s o := by
  simp [regAt, setReg, regPut, tget_tset_ne _ _ _ ho]

theorem regAt_cfgApply (es : List CfgEntry) (o : Nat) : regAt (cfgApply es s) o = regAt (cfgStore es s) o := by
  simp only [regAt, (ck_apply es s).regs]

end one

end Machine

open Machine Claims

/-- Settles O13: the write stores one register by `writeRw`, and each register's own effect keeps the parts that `CfgKeeps` names. -/
theorem registerWriteStores : Obligations.RegisterWriteStores := by
  unfold Obligations.RegisterWriteStores
  intro off mask value s
  have hk := ck_apply [⟨off, mask, value⟩] s
  have hs := cfgStore_eq [⟨off, mask, value⟩] s
  refine ⟨?_, ?_, ?_, ?_, ?_, ?_, ?_, ?_, ?_, ?_⟩
  · intro k i hkind b hb
    rw [regAt_cfgApply, cfgStore_one _ _ _ _ hkind, regAt_setReg_same, Nat.testBit_mod_two_pow, writeRw_testBit]
    simp [hb]
  · intro hkind
    rw [hk.regs, cfgStore_none _ _ _ _ hkind]
  · intro o ho
    rw [regAt_cfgApply]
    cases hkind : regKind off with
    | none => rw [cfgStore_none _ _ _ _ hkind]
    | some ki => rw [cfgStore_one _ _ _ _ hkind, regAt_setReg_ne _ _ ho]
  · rw [hk.hbm, hs]
  · rw [hk.grid, hs]
  · rw [hk.t2, hs]
  · rw [hk.acq, hs]
  · rw [hk.dev, hs]
  · rw [hk.journal, hs]
  · rw [hk.waiting, hs]

namespace Machine

/-- A configuration write that meets no replay, and no register whose device state forbids it, is judged by its entries (R389). -/
theorem cfgAct_of_none {h : Hdr} {es : List CfgEntry} {j : Nat} {s : State} (hr : (replaying s && es.any (fun e => bitAffecting e.off)) = false)
    (hc : cfgCheck s es = none) (hat : h.at_ = none) (hb : cfgTickBound es = false) :
    cfgAct h es j s =
      if ((List.range 40).filter fun e => (engAt (cfgApply es s) e).stopping && !(engAt s e).stopping).isEmpty then
        { s := cfgApply es s, eff := .cfg es }
      else { s := longEff (.cfg es) h 0x105 j (((List.range 40).filter fun e => (engAt (cfgApply es s) e).stopping && !(engAt s e).stopping).foldl
          (fun t e => setEng e { engAt t e with stopReply := some j } t) (cfgApply es s)), wait := true } := by
  have hf : cfgStateFail s es = none := by
    unfold cfgCheck at hc
    cases hf : cfgStateFail s es <;> simp_all
  unfold cfgAct
  simp [hr, hf, hat, hb, hc]

theorem cfgAct_of_some {h : Hdr} {es : List CfgEntry} {j st n : Nat} {s : State}
    (hr : (replaying s && es.any (fun e => bitAffecting e.off)) = false) (hc : cfgCheck s es = some (st, n)) (hat : h.at_ = none)
    (hb : cfgTickBound es = false) : cfgAct h es j s = fails s st n := by
  have hor : cfgStateFail s es = some (st, n) ∨ cfgStateFail s es = none := by
    unfold cfgCheck at hc
    cases hf : cfgStateFail s es <;> simp_all
  unfold cfgAct
  rcases hor with hf | hf <;> simp [hr, hf, hat, hb, hc]

theorem cfgAct_of_tick {h : Hdr} {es : List CfgEntry} {j : Nat} {s : State}
    (hr : (replaying s && es.any (fun e => bitAffecting e.off)) = false) (hc : cfgCheck s es = none)
    (hat : h.at_.isSome = true ∨ cfgTickBound es = true) :
    cfgAct h es j s = tickCmd h 0x105 j (.cfg es) (fun s => cfgCheck s es) (cfgApply es) s := by
  have hf : cfgStateFail s es = none := by
    unfold cfgCheck at hc
    cases hf : cfgStateFail s es <;> simp_all
  unfold cfgAct
  simp only [hr, hf, Option.isSome_none, Bool.false_eq_true, if_false]
  rw [if_pos (by simpa using hat)]

theorem begun_engAt (op : Nat) (h : Hdr) (s : State) (e : Nat) : engAt (begun op h s) e = engAt s e :=
  begun_eq op h s (engAt · e) fun t ht => by rw [ht]; rfl

theorem begun_replaying (op : Nat) (h : Hdr) (s : State) : replaying (begun op h s) = s.acq.replay.running :=
  begun_eq op h s replaying fun t ht => by rw [ht]; rfl

/-- A state that waits with one more command, but for traces. -/
theorem traces_longEff (eff : Eff) (h : Hdr) (op j : Nat) (s : State) :
    Traces { s with ctl := { s.ctl with waiting := s.ctl.waiting ++ [{ jseq := j, h := h, opcode := op, eff := eff }] } } (longEff eff h op j s) := rfl

end Machine

/-- Settles O12: the four ways of a CFG_WRITE, by its check, its tick and the engines it stops. -/
theorem configWritesTakeEffect : Obligations.ConfigWritesTakeEffect := by
  unfold Obligations.ConfigWritesTakeEffect
  intro i h es s hi hacc hb hrun u stops
  have hx := cfg_of i h es hi s
  have hr : (replaying u && es.any (fun e => bitAffecting e.off)) = false := by
    rw [begun_replaying, Bool.and_eq_false_imp]
    intro hr
    simpa using hrun hr
  have hstops : ((List.range 40).filter fun e => (engAt (cfgApply es u) e).stopping && !(engAt u e).stopping) = stops := by
    simp only [u, stops, begun_engAt]
  have hkeep := apply_keeps es u
  have hstop := stops_keep s.ctl.jnext stops (cfgApply es u)
  refine ⟨fun hat htb => ⟨fun hc hs => ?_, fun hc hs => ?_, fun st n hc hst hn => ?_⟩, fun hat hc => ?_⟩
  · refine done_of hx hacc hb (jr := none) (eff := .cfg es) ?_ (path_refl _) hkeep.1 hkeep.2.1
    rw [cfgAct_of_none hr hc hat htb, hstops, hs]
    rfl
  · refine waits_of _ h _ s _ none i .none hx hacc hb { jseq := s.ctl.jnext, h := h, opcode := 0x105, eff := .cfg es } ⟨rfl, rfl, rfl, rfl⟩ _ ?_
      (traces_longEff _ _ _ _ _) ?_ ?_
    · rw [cfgAct_of_none hr hc hat htb, hstops, if_neg (by simpa using hs)]
    · exact hstop.journal.trans hkeep.1
    · exact hstop.jnext.trans hkeep.2.1
  · exact refused_of_act hx hacc hb (cfgAct_of_some hr hc hat htb) hst hn
  · exact tick_edge _ h _ (.cfg es) (fun s => cfgCheck s es) (cfgApply es) s i hx (cfgAct_of_tick hr hc hat) hacc hb hc hkeep.1 hkeep.2.1

end Sys2Proof
end

section
/-!
Sections come and go (R186, R192, R196, R392): the checks before the loader, the loader's result, the unload and the swap that waits.
-/

namespace Sys2Proof

namespace Machine

open Claims

section load

variable {h : Hdr} {r : LoadReq} {j : Nat} {s : State}

theorem loadAct_of_state (hs : s.dev.st ∉ stRLAUP) : loadAct h r j s = loadFails s stState 2 := by
  simp [loadAct, hs]

/-- The checks before the swap's: the device takes loads, and the operands and the quadrants fit (R196). -/
structure LoadFits (r : LoadReq) (s : State) : Prop where
  state : s.dev.st ∈ stRLAUP
  quads : quadsReady s r = true
  place : placeOk r.img r.place = true
  stall : r.stallExp = 0 ∨ (16 ≤ r.stallExp ∧ r.stallExp ≤ 32)

theorem LoadFits.form (hf : LoadFits r s) : (!placeOk r.img r.place || !(r.stallExp == 0 || decide (16 ≤ r.stallExp ∧ r.stallExp ≤ 32))) = false := by
  rcases hf.stall with h0 | h1
  · simp [hf.place, h0]
  · simp [hf.place, h1]

theorem LoadFits.states (hf : LoadFits r s) : (!stRLAUP.contains s.dev.st) = false := by
  simp [hf.state]

theorem loadAct_of_swap (hf : LoadFits r s) (hw : swapPending s = true) : loadAct h r j s = loadFails s stBusy 3 := by
  simp only [loadAct, hf.states, hf.form, hf.quads, hw, Bool.false_eq_true, if_false, Bool.not_true, Bool.true_or, if_true]

theorem loadAct_of_free (hf : LoadFits r s) (hw : swapPending s = false) (hq : s.ctl.loadQueue = [])
    (hc : (placeQuads r).any (shadowClaimed s) = false) {v : State} {p : LoadPlan}
    (hv : runLoader s (stAUP.contains s.dev.st) r = (v, .ok p)) :
    loadAct h r j s = { s := loadLog h j r (if v.dev.st = .ready then setDev .loaded v else v), result := loadResult p, jres := some (le 8 p.h) } := by
  simp only [loadAct, hf.states, hf.form, hf.quads, hw, hq, hc, loadNow, hv, Bool.false_eq_true, if_false, Bool.not_true, List.isEmpty_nil,
    Bool.or_self, if_true]

end load

theorem begun_quadsReady (op : Nat) (h : Hdr) (s : State) (r : LoadReq) : quadsReady (begun op h s) r = quadsReady s r :=
  begun_eq op h s (quadsReady · r) fun t ht => by rw [ht]; rfl
theorem begun_swapPending (op : Nat) (h : Hdr) (s : State) : swapPending (begun op h s) = swapPending s :=
  begun_eq op h s swapPending fun t ht => by rw [ht]; rfl
theorem begun_loadQueue (op : Nat) (h : Hdr) (s : State) : (begun op h s).ctl.loadQueue = s.ctl.loadQueue :=
  begun_eq op h s (·.ctl.loadQueue) fun t ht => by rw [ht]
theorem begun_secAt (op : Nat) (h : Hdr) (s : State) (hd : Nat) : secAt (begun op h s) hd = secAt s hd :=
  begun_eq op h s (secAt · hd) fun t ht => by rw [ht]; rfl

theorem begun_loadFits {op : Nat} {h : Hdr} {s : State} {r : LoadReq} (hf : LoadFits r s) : LoadFits r (begun op h s) :=
  ⟨by rw [begun_dev]; exact hf.state, by rw [begun_quadsReady]; exact hf.quads, hf.place, hf.stall⟩

end Machine

open Machine Claims

/-- Settles O14: SECTION_LOAD by its checks in order, SECTION_UNLOAD by the state its last section leaves, SECTION_SWAP as a tick-bound command. -/
theorem sectionsComeAndGo : Obligations.SectionsComeAndGo := by
  unfold Obligations.SectionsComeAndGo
  intro h s hb
  refine ⟨?_, ?_, ?_⟩
  · intro r hacc u
    refine ⟨fun hst => ⟨_, refused_of_act (exec_sectionLoad h r s) hacc hb (loadAct_of_state (by rw [begun_dev]; exact hst)) (by decide) (by decide)⟩, ?_⟩
    intro hst hquads hplace hstall
    have hf : LoadFits r u := begun_loadFits ⟨hst, hquads, hplace, hstall⟩
    refine ⟨fun hw => ?_, fun hw hq hc v p hv => ?_⟩
    · have hswap := loadAct_of_swap (h := h) (j := s.ctl.jnext) hf (by rw [begun_swapPending]; exact hw)
      exact ⟨_, refused_of_act (exec_sectionLoad h r s) hacc hb hswap (by decide) (by decide)⟩
    · exact ends_of loadSpec h _ s _ _ _ .none _ (exec_sectionLoad h r s) hacc hb
        (loadAct_of_free hf (by rw [begun_swapPending]; exact hw) (by rw [begun_loadQueue]; exact hq) hc (by rw [begun_dev]; exact hv))
  · intro hd hacc hlt hres v
    refine ends_of _ h _ s _ [] none .none _ (exec_sectionUnload h hd s) hacc hb ?_
    simp [begun_secAt, hlt, hres, v]
  · intro outs ins hacc hc
    exact tick_edge _ h _ (.swap outs ins) (swapCheck outs ins) (fun s => s) s _ (exec_sectionSwap h outs ins s) rfl hacc hb hc rfl rfl

end Sys2Proof
end

section
/-!
Commands on resident sections (R122, R123, R308, R316, R317): what each writes.
-/

namespace Sys2Proof

namespace Machine

open Claims

/-- An effect that reads nothing of the packet's path carries the path's traces through. -/
theorem traces_begun {op : Nat} {h : Hdr} {s : State} {f : State → State} (hf : ∀ t, Traces s t → Traces (f s) (f t)) :
    Traces (f s) (f (begun op h s)) := hf _ (path_begun op h s)

theorem begun_siteIn (op : Nat) (h : Hdr) (s : State) (hd vq col row : Nat) : siteIn (begun op h s) hd vq col row = siteIn s hd vq col row :=
  begun_eq op h s (siteIn · hd vq col row) fun t ht => by rw [ht]; rfl
theorem begun_tabOk (op : Nat) (h : Hdr) (s : State) : tabOk (begun op h s) = tabOk s := begun_eq op h s tabOk fun t ht => by rw [ht]; rfl
theorem begun_tileAt (op : Nat) (h : Hdr) (s : State) (q c r : Nat) : tileAt (begun op h s) q c r = tileAt s q c r :=
  begun_eq op h s (tileAt · q c r) fun t ht => by rw [ht]; rfl
theorem begun_bankFull (op : Nat) (h : Hdr) (s : State) (hd q c r line : Nat) : bankFull (begun op h s) hd q c r line = bankFull s hd q c r line :=
  begun_eq op h s (bankFull · hd q c r line) fun t ht => by rw [ht]; rfl
theorem begun_writeWaits (op : Nat) (h : Hdr) (s : State) (hd : Nat) : writeWaits (begun op h s) hd = writeWaits s hd :=
  begun_eq op h s (writeWaits · hd) fun t ht => by rw [ht]; rfl
theorem begun_saving (op : Nat) (h : Hdr) (s : State) : saving (begun op h s) = saving s := begun_eq op h s saving fun t ht => by rw [ht]; rfl
theorem begun_t2 (op : Nat) (h : Hdr) (s : State) : (begun op h s).t2 = s.t2 := begun_eq op h s (·.t2) fun t ht => by rw [ht]
theorem begun_residents (op : Nat) (h : Hdr) (s : State) : residents (begun op h s) = residents s :=
  begun_eq op h s residents fun t ht => by rw [ht]; rfl

theorem unjournaled_setTile (q c r : Nat) (t : Tile) (s : State) : Unjournaled s (setTile q c r t s) := ⟨rfl, rfl, rfl, rfl, rfl⟩

theorem unjournaled_foldl {α : Type} {f : State → α → State} (hf : ∀ s a, Unjournaled s (f s a)) (l : List α) (s : State) :
    Unjournaled s (l.foldl f s) :=
  foldl_rel (β := Nat) Unjournaled unjournaled_refl (fun _ _ _ => unjournaled_trans) f hf l s

theorem unjournaled_switchTables (es : List TabSel) (s : State) : Unjournaled s (switchTables es s) := by
  refine unjournaled_foldl (fun s e => ?_) es s
  split
  · exact unjournaled_setTile _ _ _ _ _
  · exact unjournaled_refl s

section tile

variable {hd vq col row line q c r : Nat} {data : List Byte} {ecc : Ecc} {s : State}

theorem writeTileLine_of_site (hsite : siteIn s hd vq col row = some (q, c, r)) : writeTileLine hd vq col row line data ecc s =
    setTile q c r (putLine line data ecc (tileAt (if data.length = 32 then s else hostEcc hd q c r line ecc s) q c r))
      (if data.length = 32 then s else hostEcc hd q c r line ecc s) := by
  simp [writeTileLine, hsite]

theorem unjournaled_writeTileLine : Unjournaled s (writeTileLine hd vq col row line data ecc s) := by
  unfold writeTileLine
  split
  · exact unjournaled_refl s
  · dsimp only
    split
    · exact unjournaled_setTile _ _ _ _ _
    · exact unjournaled_trans (unjournaled_hostEcc _ _ _ _ _ _ _) (unjournaled_setTile _ _ _ _ _)

/-- A whole line, or part of a line whose ECC holds, is stored with no fault (log 150). -/
theorem writeTileLine_of_clean (hsite : siteIn s hd vq col row = some (q, c, r)) (hclean : data.length = 32 ∨ ecc = .ok) :
    writeTileLine hd vq col row line data ecc s = setTile q c r { tileAt s q c r with
      mem := tset (fun _ => {}) (tileAt s q c r).mem line (tileLineWritten (lineNow (tileAt s q c r) line) data)
      memNew := (tileAt s q c r).memNew.filter fun w => w.line != line } s := by
  have hs : (if data.length = 32 then s else hostEcc hd q c r line ecc s) = s := by
    rcases hclean with h | rfl
    · rw [if_pos h]
    · split <;> rfl
  have hbad : ¬ (ecc = .bad ∧ data.length ≠ 32) := by
    rcases hclean with h | rfl <;> simp_all
  rw [writeTileLine_of_site hsite, hs]
  simp only [putLine, hbad, if_false]

end tile

end Machine

open Machine Claims

/-- Settles O15: each command's effect on the state begun, by the operands that its checks take. -/
theorem sectionCommandsWrite : Obligations.SectionCommandsWrite := by
  unfold Obligations.SectionCommandsWrite
  intro h s hb
  refine ⟨?_, ?_, ?_, ?_, ?_⟩
  · intro es hacc hlen hok
    have hu := unjournaled_switchTables es (begun 0x207 h s)
    refine tick_edge _ h _ (.tables es) (fun s => if decide (es.length ≤ 64) && es.all (tabOk s) then none else some (stParam, 0)) (switchTables es) s _
      (exec_tableSwitch h es s) rfl hacc hb ?_ hu.journal hu.jnext
    have hok' : es.all (tabOk (begun 0x207 h s)) = true := by simpa only [begun_tabOk] using hok
    simp [hlen, hok']
  · intro hd vq col row line q c r data ecc hacc hsite hcls hline hlen
    have hl : (data.length == 8 || data.length == 32) = true := by simpa using hlen
    refine ⟨fun hfix huse => ?_, fun huse hfull hwait => ?_⟩
    · refine refused_of_act (exec_tileWrite h hd vq col row line data ecc s) hacc hb (st := 2) (d := 0) (R := []) ?_ (by decide) (by decide)
      simp [begun_siteIn, hsite, hcls, Nat.not_le.2 hline, hl, begun_secAt, hfix, begun_tileAt, huse, stState]
    · have hact : (isFixed (secAt s hd) && lineInUse (tileAt s q c r) line) = false := by
        rw [Bool.and_eq_false_imp]
        exact huse
      have hu := unjournaled_writeTileLine (hd := hd) (vq := vq) (col := col) (row := row) (line := line) (data := data) (ecc := ecc)
        (s := begun 0x208 h s)
      have hdone (E : State) (hE : Traces E (writeTileLine hd vq col row line data ecc (begun 0x208 h s))) :
          Done 0x208 h [] s E (.tileWrite h hd vq col row line data ecc) := by
        refine done_of (exec_tileWrite h hd vq col row line data ecc s) hacc hb (jr := none)
          (eff := .tile hd vq col row line data ecc) ?_ hE hu.journal hu.jnext
        simp [begun_siteIn, hsite, hcls, Nat.not_le.2 hline, hl, begun_secAt, begun_tileAt, hact, begun_bankFull, hfull, begun_writeWaits, hwait]
      refine ⟨fun _ => hdone _ (path_refl _), fun hclean => hdone _ ?_⟩
      rw [writeTileLine_of_clean (by rw [begun_siteIn]; exact hsite) hclean, begun_tileAt]
      exact traces_begun fun t ht => by unfold Traces; rw [ht]; rfl
  · intro n p hacc hn hsrc h1 h64 hsite hcls
    refine done_of (exec_probeSet h n p s) hacc hb (E' := setProbe n p (begun 0x20A h s)) (jr := none) (eff := .probe n p) ?_ ?_ rfl rfl
    · have hc : (p.source != 6 || siteClass p.col p.row == some .matrix) = true := by
        by_cases h6 : p.source = 6
        · simp [hcls h6]
        · simp [h6]
      simp only [begun_siteIn, hsite, hc, decide_eq_true (show n < 16 ∧ p.source ≤ 6 ∧ 1 ≤ p.count ∧ p.count ≤ 64 from ⟨hn, hsrc, h1, h64⟩), Bool.and_self, if_true]
    · exact traces_begun (f := setProbe n p) fun t ht => by unfold Traces; rw [ht]; rfl
  · intro img noHist hacc
    refine ⟨fun h0 => ?_, fun h0 => ?_⟩
    · refine done_of (exec_stateRestore h img noHist s) hacc hb (jr := none) (eff := .none)
        (E' := { begun 0x206 h s with restoring := some img, dev := { (begun 0x206 h s).dev with noHist := noHist } }) (by simp only [h0]) ?_ rfl rfl
      exact traces_begun (f := fun s => { s with restoring := some img, dev := { s.dev with noHist := noHist } }) fun t ht => by
        unfold Traces; rw [ht]
    · refine refused_of_act (exec_stateRestore h img noHist s) hacc hb (R := []) ?_ h0 (by decide)
      split
      · next h0' => exact absurd h0' h0
      · rfl
  · intro addr len hacc hctx hsav hlen hrange v w i
    refine ends_of _ h _ s _ (le 8 len) none .none _ (exec_stateSave h addr len s) hacc hb ?_
    have hs : saving s = false := by simp [saving, hsav]
    simp only [begun_t2, hctx, begun_saving, hs, hrange, decide_eq_false (show ¬ len < 160 by omega), Bool.false_eq_true, if_false, Bool.not_true,
      Bool.or_self, begun_residents, drawFree]
    rfl

end Sys2Proof
end

section
/-!
Commands of classes 0x03 and 0x04 (R214 to R293): channels, groups, primitives, engines, calibration, lines, templates, windows and extractions.
-/

namespace Sys2Proof

namespace Machine

open Claims

theorem unjournaled_calApply (es : List CalEntry) (s : State) : Unjournaled s (calApply es s) := by
  refine unjournaled_foldl (fun s e => ?_) es s
  unfold calApply1
  split <;> exact ⟨rfl, rfl, rfl, rfl, rfl⟩

theorem begun_inReady (op : Nat) (h : Hdr) (s : State) : inReady (begun op h s) = inReady s := begun_eq op h s inReady fun t ht => by rw [ht]; rfl
theorem begun_lineSt (op : Nat) (h : Hdr) (s : State) (n : Nat) : lineSt (begun op h s) n = lineSt s n :=
  begun_eq op h s (lineSt · n) fun t ht => by rw [ht]; rfl

end Machine

open Machine Claims

/-- Settles O16: each command's effect on the state begun; CAL_COMMIT by the version of the block in the flash. -/
theorem zoneCommandsSet : Obligations.ZoneCommandsSet := by
  unfold Obligations.ZoneCommandsSet
  intro h s hb
  refine ⟨?_, ?_, ?_, ?_, ?_, ?_, ?_⟩
  · intro first vals hacc hne hlen es hc
    have hkeep := apply_keeps es (begun 0x301 h s)
    refine done_of (exec_chanSet h first vals s) hacc hb (E' := cfgApply es (begun 0x301 h s)) (jr := none) (eff := .none) ?_ (path_refl _) hkeep.1 hkeep.2.1
    have hform : (vals.isEmpty || decide (4096 < first + vals.length)) = false := by simp [hne, hlen]
    simp only [hform, Bool.false_eq_true, if_false]
    rw [show cfgCheck (begun 0x301 h s) _ = none from hc]
  · intro g d hacc hok hfit
    refine done_of (exec_groupSet h g d s) hacc hb (E' := groupSet g d (begun 0x302 h s)) (jr := none) (eff := .none) ?_ (path_refl _) rfl rfl
    simp only [hok, hfit, Bool.and_self, if_true]
  · intro first ds hacc hne hlen hok
    refine tick_edge _ h _ (.prims first ds)
      (fun _ => if !ds.isEmpty && decide (first + ds.length ≤ 8192) && ds.all primOk then none else some (stParam, 0)) (setPrims first ds) s _
      (exec_primSet h first ds s) rfl hacc hb ?_ rfl rfl
    simp [hne, hlen, -List.all_eq_true, hok]
  · intro e d hacc he hok
    refine done_of (exec_measSet h e d s) hacc hb (E' := setMeas e d (begun 0x304 h s)) (jr := none) (eff := .meas e d) ?_ ?_ rfl rfl
    · simp only [he, hok, decide_true, Bool.and_self, if_true]
    · exact traces_begun (f := setMeas e d) fun t ht => by unfold Traces; rw [ht]; rfl
  · intro es hacc hne hok hready htick u
    have hu := unjournaled_calApply es { u with fe := { u.fe with cal := { u.fe.cal with staged := es.foldl (fun l e => calPut e l) u.fe.cal.staged } } }
    have h0 : (es.any (fun e => calWhen e == 0) && !inReady u) = false := by
      rw [begun_inReady]
      cases hr : inReady s
      · simp [hready hr]
      · simp
    have hlater : (es.filter fun e => calWhen e == 1) = [] := by
      rw [List.filter_eq_nil_iff]
      simpa using htick
    have hnow : (es.filter fun e => calWhen e != 1) = es := by
      rw [List.filter_eq_self]
      simpa using htick
    refine done_of (exec_calWrite h es s) hacc hb (jr := none) (eff := .cal es) ?_ (path_refl _) hu.journal hu.jnext
    have hform : (es.isEmpty || !es.all calEntryOk) = false := by simp [hne, -List.all_eq_true, hok]
    simp only [hform, Bool.false_eq_true, if_false, hlater, hnow, List.isEmpty_nil, if_true]
    rw [if_neg (by rw [show (es.any (fun e => calWhen e == 0) && !inReady (begun 0x305 h s)) = false from h0]; decide)]
  · intro version hacc
    refine ⟨fun hok hv => ?_, fun hv => ?_⟩
    · refine refused_of_act (exec_calCommit h version s) hacc hb (R := []) ?_ (by decide) (by decide)
      simp [begun_fe, hok, hv, stVersion]
    · refine done_of (exec_calCommit h version s) hacc hb (E' := commitCal version (begun 0x306 h s)) (jr := none) (eff := .commit version) ?_ ?_ rfl rfl
      · have hno : (calBlockOk s.fe.cal.flash && decide (version ≤ calVersion s.fe.cal.flash)) = false := by
          rw [Bool.and_eq_false_imp]
          intro hok
          have := hv hok
          simpa using this
        simp only [begun_fe, hno, Bool.false_eq_true, if_false]
      · exact traces_begun (f := commitCal version) fun t ht => by unfold Traces; rw [ht]; rfl
  · intro n d hacc hok
    have := tick_edge _ h _ (.line n d) (fun s => if combLineOk s n d then none else some (stParam, 0)) (setCombLine n d) s _
      (exec_combLineSet h n d s) rfl hacc hb (by simp only [hok, if_true]) rfl rfl
    rw [show setCombLine n d (begun 0x308 h s) = setLine n (lineWritten d (lineSt s n)) (begun 0x308 h s) by rw [setCombLine, begun_lineSt]] at this
    exact this

namespace Machine

theorem begun_windowBusy (op : Nat) (h : Hdr) (s : State) (n : Nat) : windowBusy (begun op h s) n = windowBusy s n :=
  begun_eq op h s (windowBusy · n) fun t ht => by rw [ht]; rfl
theorem begun_ringOn (op : Nat) (h : Hdr) (s : State) : ringOn (begun op h s) = ringOn s := begun_eq op h s ringOn fun t ht => by rw [ht]; rfl
theorem begun_templateAt (op : Nat) (h : Hdr) (s : State) (k : Nat) : templateAt (begun op h s) k = templateAt s k :=
  begun_eq op h s (templateAt · k) fun t ht => by rw [ht]; rfl
theorem begun_extractReq (op : Nat) (h : Hdr) (s : State) (t k : Nat) : extractReq t k (begun op h s) = extractReq t k s :=
  begun_eq op h s (extractReq t k) fun t ht => by rw [ht]; rfl
theorem begun_reqs (op : Nat) (h : Hdr) (s : State) : (begun op h s).acq.reqs = s.acq.reqs := begun_eq op h s (·.acq.reqs) fun t ht => by rw [ht]
theorem begun_templates (op : Nat) (h : Hdr) (s : State) : (begun op h s).acq.templates = s.acq.templates :=
  begun_eq op h s (·.acq.templates) fun t ht => by rw [ht]

theorem unjournaled_setEng (e : Nat) (x : Eng) (s : State) : Unjournaled s (setEng e x s) := ⟨rfl, rfl, rfl, rfl, rfl⟩

theorem unjournaled_skipPark (e : Nat) (p : Park) (s : State) : Unjournaled s (skipPark e p s) := by
  unfold skipPark
  dsimp only
  split <;> exact unjournaled_setEng _ _ _

end Machine

/-- Settles O17: TEMPLATE_SET at its edge; the others on the state begun, by the state of the window, the ring and the engine they name. -/
theorem recordCommandsSet : Obligations.RecordCommandsSet := by
  unfold Obligations.RecordCommandsSet
  intro h s hb
  refine ⟨?_, ?_, ?_, ?_, ?_⟩
  · intro k d hacc hok u
    have := tick_edge _ h _ (.template k d) (fun s => if templateOk s k d then none else some (stParam, 0)) (setTemplate k d) s _
      (exec_templateSet h k d s) rfl hacc hb (by simp only [hok, if_true]) rfl rfl
    rw [← begun_templates 0x401 h s]
    exact this
  · intro n w hacc hn
    refine ⟨fun hbusy => ?_, fun hbusy hok => ?_⟩
    · refine refused_of_act (exec_windowSet h n w s) hacc hb (R := []) ?_ (by decide) (by decide)
      simp only [begun_windowBusy, hbusy, if_neg (show ¬ 1024 ≤ n by omega), if_true]
      rfl
    · refine done_of (exec_windowSet h n w s) hacc hb (E' := setWindow n w (begun 0x402 h s)) (jr := none) (eff := .window n w) ?_ ?_ rfl rfl
      · simp only [begun_windowBusy, hbusy, if_neg (show ¬ 1024 ≤ n by omega), Bool.false_eq_true, if_false]
        exact if_pos hok
      · exact traces_begun (f := setWindow n w) fun t ht => by unfold Traces; rw [ht]; rfl
  · intro t k hacc hring hk hen
    have hform : (decide (64 ≤ k) || !(templateAt s k).en) = false := by simp [hen, hk]
    refine ⟨fun hgone => ?_, fun hgone hroom => ?_⟩
    · refine refused_of_act (exec_ringExtract h t k s) hacc hb (R := []) ?_ (by decide) (by decide)
      simp only [begun_ringOn, hring, begun_templateAt, hform, begun_extractReq, hgone, Bool.not_true, Bool.false_eq_true, if_false, if_true]
      rfl
    · refine done_of (exec_ringExtract h t k s) hacc hb (E' := extract t k (begun 0x403 h s)) (jr := none) (eff := .extract t k) ?_ ?_ rfl rfl
      · simp only [begun_ringOn, hring, begun_templateAt, hform, begun_extractReq, hgone, begun_reqs, Bool.not_true, Bool.false_eq_true, if_false,
          if_neg (show ¬ 4096 ≤ s.acq.reqs.length by omega)]
      · exact traces_begun (f := extract t k) fun t ht => by unfold Traces; rw [ht]; rfl
  · intro e mode hacc he hmode
    have hform : decide (40 ≤ e ∨ 2 ≤ mode) = false := by simp; omega
    refine ⟨fun hp => ?_, fun p hp => ?_⟩
    · refine refused_of_act (exec_dmaResume h e mode s) hacc hb (R := []) ?_ (by decide) (by decide)
      simp only [hform, begun_engAt, hp, Bool.false_eq_true, if_false, Option.isNone_none, if_true]
      rfl
    · have hp' : (engAt (begun 0x404 h s) e).park = some p := by rw [begun_engAt]; exact hp
      have hu : Unjournaled (begun 0x404 h s) (resumeEng e mode (begun 0x404 h s)) := by
        unfold resumeEng
        simp only [hp']
        split
        · exact unjournaled_setEng _ _ _
        · exact unjournaled_trans (unjournaled_setEng _ _ _) (unjournaled_skipPark _ _ _)
      refine done_of (exec_dmaResume h e mode s) hacc hb (jr := none) (eff := .resumeDma e mode) ?_ ?_ hu.journal hu.jnext
      · simp only [hform, hp', Bool.false_eq_true, if_false, Option.isNone_some]
      · rw [resumeEng, hp', begun_engAt]
        exact path_refl _
  · intro ho
    refine ⟨fun htick => ?_, fun htick => ?_⟩
    · refine answers_of (exec_culletRead h 0 s) ho hb (E' := { readBy h s with acq := { (readBy h s).acq with snap := culletSnap (readBy h s) } }) ?_ ?_
        ⟨rfl, rfl, rfl, rfl, rfl⟩
      · simp [readBy_ticking, htick]
      · have hr := path_readBy h s
        generalize readBy h s = b at *
        unfold Traces
        rw [hr]
    · obtain ⟨t, h1, h2, h4⟩ := asks_of (exec_culletRead h 0 s) ho hb (R := [])
        (E' := { readBy h s with ctl := { (readBy h s).ctl with snapWait := (readBy h s).ctl.snapWait ++ [(h, 1)] } })
        (by simp [readBy_ticking, htick])
      refine ⟨t, h1, path_trans ?_ h2⟩
      have hr := path_readBy h s
      generalize readBy h s = b at *
      unfold Traces
      rw [hr]

end Sys2Proof
end

section
/-!
Commands of recording and replay (R309, R311, R314).
-/

namespace Sys2Proof

namespace Machine

open Claims

section unread

variable (op : Nat) (h : Hdr) (s : State)

theorem begun_recorded : (begun op h s).acq.recorded = s.acq.recorded := begun_eq op h s (·.acq.recorded) fun t ht => by rw [ht]
theorem begun_engSrc (e : Nat) : engSrc (begun op h s) e = engSrc s e := begun_eq op h s (engSrc · e) fun t ht => by rw [ht]; rfl
theorem begun_slotAddr : slotAddr (begun op h s) = slotAddr s := begun_eq op h s slotAddr fun t ht => by rw [ht]; rfl
theorem begun_slotBytes : slotBytes (begun op h s) = slotBytes s := begun_eq op h s slotBytes fun t ht => by rw [ht]; rfl
theorem begun_ringDepth : ringDepth (begun op h s) = ringDepth s := begun_eq op h s ringDepth fun t ht => by rw [ht]; rfl
theorem begun_hbmRead : hbmRead (begun op h s) = hbmRead s := begun_eq op h s hbmRead fun t ht => by rw [ht]; rfl
theorem begun_usesFabRx : usesFabRx (begun op h s) = usesFabRx s := begun_eq op h s usesFabRx fun t ht => by rw [ht]; rfl
theorem begun_regAt : regAt (begun op h s) = regAt s := begun_eq op h s regAt fun t ht => by rw [ht]; rfl
theorem begun_fabMember : (begun op h s).fab.member = s.fab.member := begun_eq op h s (·.fab.member) fun t ht => by rw [ht]
theorem begun_fabIsMaster : (begun op h s).fab.isMaster = s.fab.isMaster := begun_eq op h s (·.fab.isMaster) fun t ht => by rw [ht]
theorem begun_hbm : (begun op h s).hbm = s.hbm := begun_eq op h s (·.hbm) fun t ht => by rw [ht]

end unread

theorem unjournaled_toMembers (m : Msg2) (s : State) : Unjournaled s (toMembers m s) := by
  unfold toMembers
  split
  · split <;> exact ⟨rfl, rfl, rfl, rfl, rfl⟩
  · exact unjournaled_refl s

theorem unjournaled_toMembers_if (b : Bool) (m : Msg2) (s : State) : Unjournaled s (if b then toMembers m s else s) := by
  split
  · exact unjournaled_toMembers m s
  · exact unjournaled_refl s

/-- The ring slots of an imported recording, written one by one, change memory alone (R314). -/
theorem foldl_hbmWrite_slots (slots : List (Nat × List Byte)) (s : State) :
    slots.foldl (fun t x => hbmWrite (slotAddr t x.1) x.2 t) s =
      { s with hbm := slots.foldl (fun m x => tsetAll (fun _ => 0#8) m (slotAddr s x.1) x.2) s.hbm } := by
  induction slots generalizing s with
  | nil => rfl
  | cons x slots ih =>
    rw [List.foldl_cons, ih, List.foldl_cons]
    rfl

end Machine

open Machine Claims

/-- Settles O18: with every check passed, each command leaves its own effect on the state begun. -/
theorem recordingCommands : Obligations.RecordingCommands := by
  unfold Obligations.RecordingCommands
  intro h s hb
  refine ⟨?_, ?_, ?_, ?_⟩
  · intro area size endTick freeze wide hacc r u hrep hmin hmax hareas hring hlanes hfab hwide v
    have hu : Unjournaled v _ := unjournaled_toMembers_if wide (.command (le 2 0x406 ++ h.raw)) v
    refine done_of (exec_recordInputsSet h area size endTick freeze wide s) hacc hb (jr := none) (eff := .none) ?_ (path_refl _) hu.journal hu.jnext
    have hl : ((List.range 96).any fun l => (laneCfg (regAt s) l).en && !(laneCfg (regAt s) l).ringEn) = false := by
      rw [List.any_eq_false]
      intro l hl
      simpa using hlanes l (List.mem_range.1 hl)
    have hf : (usesFabRx s && !wide) = false := by simpa using hfab
    have hw : (wide && !(s.fab.member && s.fab.isMaster)) = false := by simpa using hwide
    have hsize : decide (size < 2 ^ 26 ∨ 2 ^ 32 < size) = false := by simp; omega
    simp only [begun_replaying, hrep, hsize, begun_ringOn, hring, begun_regAt, hl, begun_usesFabRx, hf, begun_fabMember, begun_fabIsMaster, hw,
      Bool.false_eq_true, if_false, Bool.not_true, Bool.false_or, Bool.or_false]
    rw [if_neg (by rw [show areasOk { begun 0x406 h s with acq := _ } = true from hareas]; decide)]
  · intro area recorded quiet imgs r hacc hfind hok u v
    have hu : Unjournaled v _ := unjournaled_toMembers_if r.wide (.command (le 2 0x407 ++ h.raw)) v
    refine done_of (exec_replaySet h area recorded quiet imgs s) hacc hb (jr := none) (eff := .none) ?_ (path_refl _) hu.journal hu.jnext
    have hfind' : (begun 0x407 h s).acq.recorded.find? (fun r => r.area == area) = some r := by rw [begun_recorded]; exact hfind
    simp only [hfind', hok, if_true]
    rfl
  · intro e area addr r hacc hfind he hsrc hcur hpark hsav bs
    refine done_of (exec_replayExport h e area addr s) hacc hb (E' := send (.mem addr bs) (begun 0x408 h s)) (jr := none) (eff := .none) ?_ (path_refl _) rfl rfl
    have hs : saving s = false := by simp [saving, hsav]
    simp only [begun_recorded, hfind, he, begun_engSrc, hsrc, begun_engAt, hcur, hpark, begun_saving, hs, begun_hbmRead, begun_slotAddr, begun_slotBytes,
      decide_true, beq_self_eq_true, Bool.and_self, Bool.not_true, Bool.false_eq_true, if_false, Option.isSome_none, Bool.or_self]
    rfl
  · intro e size r hacc h32 h40 hring u rc hareas hslots hdepth hcur hpark hsav
    have hs : saving s = false := by simp [saving, hsav]
    have hl : (r.slots.any fun x => x.2.length != slotBytes s) = false := by
      rw [List.any_eq_false]
      intro x hx
      simp [hslots x hx]
    have hfit : (!(decide (32 ≤ e ∧ e < 40)) || !ringOn s || !areasOk { u with acq := { u.acq with recg := rc } } ||
        (r.slots.any fun x => x.2.length != slotBytes s) || decide (ringDepth s < r.slots.length)) = false := by
      simp [-List.any_eq_false, h32, h40, hring, hareas, hl, hdepth]
    obtain ⟨t, ht, hE, hr⟩ := ends_of { op := 0x409, states := stRL, cfg := true } h _ s
      { r.slots.foldl (fun t x => hbmWrite (slotAddr t x.1) x.2 t) u with acq := { u.acq with
          recg := rc, recorded := rc :: s.acq.recorded.filter (fun x => x.area != r.area)
          tStart := (r.slots.head?.map (·.1)).or u.acq.tStart, newest := (r.slots.getLast?.map (·.1)).or u.acq.newest } }
      (le 8 (sumL (r.slots.map fun x => x.2.length))) none .none _ (exec_replayImport h e r size s) hacc hb (by
        simp only [begun_ringOn, begun_slotBytes, begun_ringDepth, begun_engAt, begun_saving, hcur, hpark, hs]
        rw [if_neg (by rw [hfit]; decide), foldl_hbmWrite_slots, begun_recorded]
        rfl)
    refine ⟨t, ht, ?_, ?_, ?_, hr⟩
    · rw [hE]
    · rw [hE]
    · rw [hE, foldl_hbmWrite_slots]
      simp only [u, begun_hbm, begun_slotAddr]

end Sys2Proof
end

section
/-!
Time and timed-event commands (R354 to R370): what a set time leaves, and the commands that steer it.
-/

namespace Sys2Proof

namespace Machine

open Claims

/-- An accepted command, whether it ends or waits, leaves its part's state, and loses nothing that was sent. -/
theorem next_of {i : Instr} {c : CmdSpec} {h : Hdr} {act : Nat → State → Act} {s E' : State} {R : List Byte} {jr : Option (List Byte)} {eff : Eff}
    {w : Bool} (hi : exec i s = goes (control c h act s)) (hacc : Accepted c.op c.states c.anyone c.cfg h s) (hb : Carried c.bc h)
    (ha : act s.ctl.jnext (begun c.op h s) = { s := E', result := R, jres := jr, eff := eff, wait := w }) :
    ∃ t, exec i s = .next t ∧ Traces E' t ∧ Kept E' t := by
  obtain ⟨t, h1, h2, h3⟩ := control_next c h act s E' R jr eff w hacc hb ha
  exact ⟨t, hi.trans h1, h2, h3⟩

theorem begun_steerable (op : Nat) (h : Hdr) (s : State) : steerable (begun op h s) = steerable s := begun_eq op h s steerable fun t ht => by rw [ht]; rfl
theorem begun_tsWait (op : Nat) (h : Hdr) (s : State) : (begun op h s).time.tsWait = s.time.tsWait := begun_eq op h s (·.time.tsWait) fun t ht => by rw [ht]
theorem begun_rate (op : Nat) (h : Hdr) (s : State) : (begun op h s).time.rate = s.time.rate := begun_eq op h s (·.time.rate) fun t ht => by rw [ht]

/-- The descriptor of timed event e. -/
abbrev timedEv (s : State) (e : Nat) : TimedEv := tget (fun _ => {}) s.time.timed e

/-- One event disarmed by a set time (R369). -/
def disarm (s : State) (e : Nat) : State :=
  let x : TimedEv := timedEv s e
  raiseEv { code := 0x54, sev := 0, origin := e, body := le 4 e }
    { s with time := { s.time with timed := tset (fun _ => {}) s.time.timed e { x with d := { x.d with en := false }, next := none } } }

theorem cancelTimed_eq (s : State) : cancelTimed s = ((List.range 16).filter fun e => timeArmed (timedEv s e)).foldl disarm s := rfl

/-- What disarming leaves of the time base: all of it but the events. -/
structure Disarmed (s t : State) : Prop where
  time : t.time = { s.time with timed := t.time.timed }
  regs : t.regs = s.regs
  journal : t.ctl.journal = s.ctl.journal
  jnext : t.ctl.jnext = s.ctl.jnext

theorem disarmed_refl (s : State) : Disarmed s s := ⟨rfl, rfl, rfl, rfl⟩
theorem disarmed_trans (s t u : State) (h : Disarmed s t) (k : Disarmed t u) : Disarmed s u :=
  ⟨by rw [k.time, h.time], k.regs.trans h.regs, k.journal.trans h.journal, k.jnext.trans h.jnext⟩
theorem disarmed_disarm (s : State) (e : Nat) : Disarmed s (disarm s e) := ⟨rfl, rfl, rfl, rfl⟩

theorem disarmed_cancelTimed (s : State) : Disarmed s (cancelTimed s) :=
  foldl_rel (β := Nat) Disarmed disarmed_refl disarmed_trans disarm disarmed_disarm _ s

theorem timedEv_disarm_same (s : State) (e : Nat) : timeArmed (timedEv (disarm s e) e) = false := by
  simp [timedEv, disarm, raiseEv, timeArmed]

theorem timedEv_disarm_ne (s : State) {e k : Nat} (hk : k ≠ e) : timedEv (disarm s e) k = timedEv s k :=
  tget_tset_ne _ _ _ hk

theorem unarmed_disarm (s : State) (e k : Nat) (hk : timeArmed (timedEv s k) = false) : timeArmed (timedEv (disarm s e) k) = false := by
  by_cases he : k = e
  · subst he
    exact timedEv_disarm_same s k
  · rw [timedEv_disarm_ne s he]
    exact hk

theorem unarmed_foldl_disarm (l : List Nat) (s : State) (k : Nat) (hk : k ∈ l ∨ timeArmed (timedEv s k) = false) :
    timeArmed (timedEv (l.foldl disarm s) k) = false := by
  induction l generalizing s with
  | nil => simpa using hk
  | cons e l ih =>
    refine ih _ ?_
    rcases hk with hk | hk
    · rcases List.mem_cons.1 hk with rfl | hk
      · exact .inr (timedEv_disarm_same s k)
      · exact .inl hk
    · exact .inr (unarmed_disarm s e k hk)

theorem unarmed_cancelTimed (s : State) {k : Nat} (hk : k < 16) : timeArmed (timedEv (cancelTimed s) k) = false := by
  rw [cancelTimed_eq]
  refine unarmed_foldl_disarm _ s k ?_
  by_cases ha : timeArmed (timedEv s k) = true
  · exact .inl (by simp [hk, ha])
  · exact .inr (by simpa using ha)

/-- The tick generator's restart touches its own fields of the time base. -/
theorem startTicks_time (s : State) : (startTicks s).time = { s.time with
    tickSt := (startTicks s).time.tickSt, next := (startTicks s).time.next, lastIn := (startTicks s).time.lastIn, startL := (startTicks s).time.startL } := by
  unfold startTicks
  split <;> rfl

/-- The state whose time is set to l, before its events are disarmed and its generator restarts (R357). -/
def timeWritten (l : Nat) (s : State) : State :=
  { s with time := { endSlew s.time with r0 := s.time.raw, l0 := l, timeSet := true, stamps := [] } }

theorem timeBecomes_eq (l : Nat) (s : State) : timeBecomes l s =
    if bits (regAt (cancelTimed (timeWritten l s)) 0x60010) 1 0 = 1 then cancelTimed (timeWritten l s) else startTicks (cancelTimed (timeWritten l s)) := rfl

/-- What a set time leaves (R357, R369). -/
structure TimeIs (l : Nat) (s t : State) : Prop where
  now : nowL t = l
  set : t.time.timeSet = true
  slew : t.time.slew = 0
  rem : t.time.rem = 0
  slewing : t.time.slewing = false
  rate : t.time.rate = s.time.rate
  unarmed : ∀ e, e < 16 → timeArmed (timedEv t e) = false
  journal : t.ctl.journal = s.ctl.journal
  jnext : t.ctl.jnext = s.ctl.jnext

theorem linear_origin (t : TimeBase) : linear t t.r0 = t.l0 := by
  simp [linear]

theorem timeIs_cancelTimed (l : Nat) (s : State) : TimeIs l s (cancelTimed (timeWritten l s)) := by
  have hd := disarmed_cancelTimed (timeWritten l s)
  have ht := hd.time
  refine ⟨?_, by rw [ht]; rfl, by rw [ht]; rfl, by rw [ht]; rfl, by rw [ht]; rfl, by rw [ht]; rfl, fun e he => unarmed_cancelTimed _ he,
    hd.journal, hd.jnext⟩
  rw [nowL, ht]
  exact linear_origin _

theorem timeIs_startTicks {l : Nat} {s t : State} (h : TimeIs l s t) : TimeIs l s (startTicks t) := by
  have ht := startTicks_time t
  have hk := ck_ticks t
  refine ⟨?_, by rw [ht]; exact h.set, by rw [ht]; exact h.slew, by rw [ht]; exact h.rem, by rw [ht]; exact h.slewing, by rw [ht]; exact h.rate,
    fun e he => ?_, hk.journal.trans h.journal, hk.jnext.trans h.jnext⟩
  · rw [nowL, ht]
    exact h.now
  · rw [timedEv, ht]
    exact h.unarmed e he

theorem timeIs_timeBecomes (l : Nat) (s : State) : TimeIs l s (timeBecomes l s) := by
  rw [timeBecomes_eq]
  split
  · exact timeIs_cancelTimed l s
  · exact timeIs_startTicks (timeIs_cancelTimed l s)

/-- A steered time base carries the newest raw stamp of the state it is steered from. -/
theorem traces_steer {op : Nat} {h : Hdr} {s : State} (f : Nat → TimeBase → TimeBase)
    (hf : ∀ r x y, f r { x with raw := y } = { f r x with raw := y }) :
    Traces { s with time := f (begun op h s).time.raw s.time }
      { begun op h s with time := f (begun op h s).time.raw (begun op h s).time } := by
  have ht := path_begun op h s
  generalize begun op h s = b at *
  unfold Traces
  rw [ht]
  dsimp only
  rw [hf]

end Machine

open Machine Claims

/-- Settles O19: TIME_SET through `timeBecomes`, the steering commands through the time base, the others by their own field. -/
theorem timeCommands : Obligations.TimeCommands := by
  unfold Obligations.TimeCommands
  intro h s hb
  refine ⟨?_, ?_, ?_, ?_, ?_, ?_, ?_⟩
  · intro t hacc hns hfrac hsec
    have hform : decide (10 ^ 9 ≤ t.ns ∨ 65536 ≤ t.frac ∨ 2 ^ 64 ≤ t.sec) = false := by simp; omega
    refine ⟨fun hst => ?_, fun hst => ?_⟩
    · refine refused_of_act (exec_timeSet h t s) hacc hb (R := []) ?_ (by decide) (by decide)
      simp only [hform, begun_steerable, hst, Bool.false_eq_true, if_false, Bool.not_false, if_true]
      rfl
    · obtain ⟨u, hu, hE, -, -, htime⟩ := next_of (exec_timeSet h t s) hacc hb (E' := timeBecomes (linOf t) (begun 0x501 h s)) (R := []) (jr := none)
        (eff := .none) (w := false) (by simp only [hform, begun_steerable, hst, Bool.false_eq_true, if_false, Bool.not_true])
      have hi := timeIs_timeBecomes (linOf t) (begun 0x501 h s)
      refine ⟨u, hu, ?_, by rw [htime]; exact hi.set, by rw [htime]; exact hi.slew, by rw [htime]; exact hi.rem, by rw [htime]; exact hi.slewing,
        by rw [htime, hi.rate, begun_rate], fun e he => by rw [htime]; exact hi.unarmed e he, hE⟩
      rw [nowL, htime]
      exact hi.now
  · intro rate hacc hr
    have hform : ¬ rateMax < rate.natAbs := by unfold rateMax; omega
    refine ⟨fun hst => ?_, fun hst => ?_⟩
    · refine refused_of_act (exec_timeRate h rate s) hacc hb (R := []) ?_ (by decide) (by decide)
      simp only [hform, begun_steerable, hst, if_false, Bool.not_false, if_true]
      rfl
    · refine done_of (exec_timeRate h rate s) hacc hb (jr := none) (eff := .none)
        (E' := { begun 0x502 h s with time := setRate rate (begun 0x502 h s).time.raw (begun 0x502 h s).time }) ?_ ?_ rfl rfl
      · simp only [hform, begun_steerable, hst, if_false, Bool.not_true, Bool.false_eq_true]
      · exact traces_steer (setRate rate) fun r x y => rfl
  · intro d hacc hd
    have htu : decide (tuSec < d.natAbs) = false := by
      rw [decide_eq_false_iff_not]
      unfold tuSec
      omega
    refine ⟨fun hrate hd0 => ?_, fun hrate => ?_⟩
    · refine refused_of_act (exec_timeAdj h d s) hacc hb (R := []) ?_ (by decide) (by decide)
      simp [begun_rate, hrate, hd0, rateMax, stParam]
    · have hform : (s.time.rate.natAbs == rateMax && d != 0) = false := by
        rw [Bool.and_eq_false_imp]
        intro hr
        simp [hrate (by simpa [rateMax] using hr)]
      refine ⟨fun hst => ?_, fun hst => ?_⟩
      · refine refused_of_act (exec_timeAdj h d s) hacc hb (R := []) ?_ (by decide) (by decide)
        simp only [htu, begun_rate, hform, begun_steerable, hst, Bool.or_self, Bool.false_eq_true, if_false, Bool.not_false, if_true]
        rfl
      · refine done_of (exec_timeAdj h d s) hacc hb (jr := none) (eff := .none)
          (E' := { begun 0x503 h s with time := slewBy d (begun 0x503 h s).time.raw (begun 0x503 h s).time }) ?_ ?_ rfl rfl
        · simp only [htu, begun_rate, hform, begun_steerable, hst, Bool.or_self, Bool.false_eq_true, if_false, Bool.not_true]
        · refine traces_steer (slewBy d) fun r x y => ?_
          unfold slewBy
          split <;> rfl
  · intro e d hacc u hc
    exact tick_edge _ h _ (.timed e d) (fun s => timedCheck s e d (timedAt h u).1 (timedAt h u).2) (timedApply e d (nowTick u) (nowL u)) s _
      (exec_timedSet h e d s) rfl hacc hb hc rfl rfl
  · intro tick t hacc hns hfrac htick
    refine done_of (exec_tickAlign h tick t s) hacc hb (jr := none) (eff := .none)
      (E' := { begun 0x506 h s with time := { (begun 0x506 h s).time with align_ := some (tick, linOf t) } }) ?_ ?_ rfl rfl
    · have hform : (decide (10 ^ 9 ≤ t.ns ∨ 65536 ≤ t.frac) || tick % max (bits (regAt s 0x60010) 47 32) 1 != bits (regAt s 0x60010) 31 16) = false := by
        simp [htick]
        omega
      simp only [begun_regAt, hform, Bool.false_eq_true, if_false]
    · exact traces_begun (f := fun s => { s with time := { s.time with align_ := some (tick, linOf t) } }) fun t ht => by unfold Traces; rw [ht]
  · intro c hacc hok
    refine done_of (exec_ptpConfig h c s) hacc hb (jr := none) (eff := .none) (E' := { begun 0x507 h s with
      time := { (begun 0x507 h s).time with ptp := c, ptpMaster := (begun 0x507 h s).time.ptpMaster && !c.slaveOnly, ptpT := [] } }) ?_ ?_ rfl rfl
    · simp only [hok, if_true]
    · exact traces_begun (f := fun s => { s with time := { s.time with ptp := c, ptpMaster := s.time.ptpMaster && !c.slaveOnly, ptpT := [] } })
        fun t ht => by unfold Traces; rw [ht]
  · intro tsReq tsId bytes hacc hne hid hroom
    have hform : (bytes.isEmpty || decide (65536 ≤ tsId)) = false := by simp [hne]; omega
    have hfull : (tsReq && decide (16 ≤ s.time.tsWait.length)) = false := by
      rw [Bool.and_eq_false_imp]
      intro hreq
      have := hroom hreq
      simp; omega
    let v := send (.frame bytes) (begun 0x508 h s)
    obtain ⟨u, hu, -, hout, -, htime⟩ := next_of (exec_mgmtTx h tsReq tsId bytes s) hacc hb (R := []) (jr := none) (eff := .none) (w := false)
      (E' := if tsReq then { v with time := { v.time with tsWait := v.time.tsWait ++ [tsId] } } else v)
      (by simp only [hform, begun_tsWait, hfull, Bool.false_eq_true, if_false]; rfl)
    refine ⟨u, hu, hout _ ?_, ?_⟩
    · split <;> exact List.mem_cons_self
    · rw [htime]
      split
      · exact congrArg (· ++ [tsId]) (begun_tsWait 0x508 h s)
      · exact begun_tsWait 0x508 h s

end Sys2Proof
end

section
/-!
Fabric commands (R338 to R381): discovery, the ID map, the plan, the start barrier, the time root, the collector and forwarded commands.
-/

namespace Sys2Proof

namespace Machine

open Claims

section unread

variable (op : Nat) (h : Hdr) (s : State)

theorem begun_fabric {α : Type} (f : Fab → α) (hf : ∀ x o, f { x with out2 := o } = f x) : f (begun op h s).fab = f s.fab :=
  begun_eq op h s (fun t => f t.fab) fun t ht => by rw [ht]; exact hf _ _

theorem begun_fromMaster : fromMaster h (begun op h s) = fromMaster h s := begun_eq op h s (fromMaster h) fun t ht => by rw [ht]; rfl
theorem begun_owns : owns h (begun op h s) = owns h s := begun_eq op h s (owns h) fun t ht => by rw [ht]; rfl
theorem begun_planCheck (p : Plan) : planCheck (begun op h s) p = planCheck s p := begun_eq op h s (planCheck · p) fun t ht => by rw [ht]; rfl
theorem begun_timeDepth (dev : Nat) : timeDepth (begun op h s) dev = timeDepth s dev := begun_eq op h s (timeDepth · dev) fun t ht => by rw [ht]; rfl
theorem begun_isStandby : isStandby (begun op h s) = isStandby s := begun_eq op h s isStandby fun t ht => by rw [ht]; rfl
theorem begun_erouteOf (d : Nat) : erouteOf (begun op h s) d = erouteOf s d := begun_eq op h s (erouteOf · d) fun t ht => by rw [ht]; rfl
theorem readBy_erouteOf (d : Nat) : erouteOf (readBy h s) d = erouteOf s d := readBy_eq h s (erouteOf · d) fun t ht => by rw [ht]; rfl
theorem readBy_fabric {α : Type} (f : Fab → α) (hf : ∀ x o, f { x with out2 := o } = f x) : f (readBy h s).fab = f s.fab :=
  readBy_eq h s (fun t => f t.fab) fun t ht => by rw [ht]; exact hf _ _

end unread

/-- What the fabric master's messages to its members change: what leaves on the fabric. -/
theorem toMembers_eq (m : Msg2) (s : State) : toMembers m s = { s with fab := { s.fab with out2 := (toMembers m s).fab.out2 } } := by
  unfold toMembers
  split
  · split <;> rfl
  · rfl

/-- The master's message goes to each other device of its plan (R344). -/
theorem mem_toMembers {m : Msg2} {s : State} {p : Plan} {d : PlanDev} (hp : s.fab.plan = some p) (hm : s.fab.member = true) (hmst : s.fab.isMaster = true)
    (hd : d ∈ p.devs) (hne : d.id ≠ s.fab.id) : (d.id, m) ∈ (toMembers m s).fab.out2 := by
  unfold toMembers
  simp only [hp, hm, hmst, Bool.and_self, if_true]
  refine List.mem_append_left _ (List.mem_map.2 ⟨d, List.mem_filter.2 ⟨hd, ?_⟩, rfl⟩)
  simpa using hne

theorem setDev_dev (st : DevSt) (s : State) : (setDev st s).dev = { s.dev with st := st } := by
  unfold setDev
  split
  · next h => rw [← h]
  · rfl

/-- The start barrier's state: the barrier named to the members, the device ARMED, the command waiting for its tick (R344). -/
def barrierStarted (h : Hdr) (j tb : Nat) (s : State) : State :=
  let b : BarrierDesc := { tick := tb, start := true }
  let v := toMembers (.barrier b) { s with fab := { s.fab with barriers := s.fab.barriers ++ [b] } }
  waitTick 0x604 h j tb (if isStandby v then setDev .armed v else armSet tb v)

section barrier

variable (h : Hdr) (j tb : Nat) (s : State)

theorem barrierStarted_fab : (barrierStarted h j tb s).fab =
    (toMembers (.barrier { tick := tb, start := true }) { s with fab := { s.fab with barriers := s.fab.barriers ++ [{ tick := tb, start := true }] } }).fab := by
  unfold barrierStarted waitTick armSet
  dsimp only
  split <;> simp

theorem barrierStarted_st : (barrierStarted h j tb s).dev.st = .armed := by
  unfold barrierStarted waitTick armSet
  dsimp only
  split <;> rw [setDev_dev]

theorem barrierStarted_armAt (hs : isStandby s = false) : (barrierStarted h j tb s).dev.armAt = some tb := by
  have hv : isStandby (toMembers (.barrier { tick := tb, start := true })
      { s with fab := { s.fab with barriers := s.fab.barriers ++ [{ tick := tb, start := true }] } }) = false := by
    rw [toMembers_eq]
    exact hs
  unfold barrierStarted waitTick armSet
  dsimp only
  rw [if_neg (by rw [hv]; decide), setDev_dev]

theorem barrierStarted_waits : { jseq := j, h := h, opcode := 0x604, tick := some tb } ∈ (barrierStarted h j tb s).ctl.waiting :=
  List.mem_append_right _ List.mem_cons_self

end barrier

section forward

variable {h : Hdr} {dest j : Nat} {bytes : List Byte} {s : State}

theorem forwardAct_of_lost (hl : s.fab.member = false ∨ erouteOf s dest = 0 ∨ erouteOf s dest = 128 ∨ dest ∈ s.fab.lost) :
    forwardAct h dest bytes j s = fails s stUnreach := by
  unfold forwardAct
  dsimp only
  rw [if_pos]
  rcases hl with hl | hl | hl | hl <;> simp [hl]

/-- The state in which a forwarded command has left, and its sender waits for the reply (R381). -/
def forwarded (h : Hdr) (dest j : Nat) (bytes : List Byte) (s : State) : State :=
  sendMsg2 dest (.command bytes) { s with ctl := { s.ctl with
    forwards := s.ctl.forwards ++ [{ jseq := j, h := { h with raw := le 2 dest ++ bytes }, opcode := 0x608, tick := some dest }] } }

theorem forwardAct_of_reached (hm : s.fab.member = true) (h0 : erouteOf s dest ≠ 0) (h128 : erouteOf s dest ≠ 128) (hl : dest ∉ s.fab.lost)
    (hlen : 32 ≤ bytes.length) : forwardAct h dest bytes j s = { s := forwarded h dest j bytes s, wait := true } := by
  unfold forwardAct
  dsimp only
  rw [if_neg (by simp [hm, h0, h128, hl]), if_neg (by omega)]
  rfl

end forward

end Machine

open Machine Claims

/-- Settles O20: each fabric command on the state begun; the start barrier and the forwarded command by the state in which they wait. -/
theorem fabricCommands : Obligations.FabricCommands := by
  unfold Obligations.FabricCommands
  intro h s hb
  refine ⟨?_, ?_, ?_, ?_, ?_, ?_, ?_, ?_⟩
  · intro hacc
    have he : (begun 0x601 h s).fab.epoch = s.fab.epoch := begun_fabric _ _ _ (·.epoch) fun _ _ => rfl
    exact ends_of _ h _ s _ [] none .none _ (exec_fabricDiscover h s) hacc hb (by rw [he])
  · intro ids hacc
    refine ⟨fun hok => ?_, fun hok => ?_⟩
    · refine done_of (exec_fabricIdmap h ids s) hacc hb (jr := none) (eff := .none)
        (E' := { begun 0x602 h s with fab := { (begun 0x602 h s).fab with idMap := some ids } }) (by simp only [hok, if_true]) ?_ rfl rfl
      exact traces_begun (f := fun s => { s with fab := { s.fab with idMap := some ids } }) fun t ht => by unfold Traces; rw [ht]
    · refine refused_of_act (exec_fabricIdmap h ids s) hacc hb (R := []) ?_ (by decide) (by decide)
      simp only [hok, Bool.false_eq_true, if_false]
      rfl
  · intro p hacc hdisc hmem hwho
    have hd : (begun 0x603 h s).fab.discovering = false := (begun_fabric _ _ _ (·.discovering) fun _ _ => rfl).trans hdisc
    have hown : (!fromMaster h s && !owns h s) = false := by
      rcases hwho with ⟨hh, -⟩ | hf
      · simp [owns, hh]
      · simp [hf]
    have hmst : (!s.fab.isMaster && !fromMaster h s) = false := by
      rcases hwho with ⟨-, hi⟩ | hf
      · simp [hi]
      · simp [hf]
    refine ⟨fun hc => ?_, fun n hc hn => ?_⟩
    · refine ends_of _ h _ s _ [] none .none _ (exec_fabricPlan h p s) hacc hb ?_
      simp only [begun_fromMaster, begun_owns, hown, hd, begun_member, hmem, begun_isMaster, hmst, begun_planCheck, hc, Bool.not_true, Bool.or_self,
        Bool.false_eq_true, if_false]
    · refine refused_of_act (exec_fabricPlan h p s) hacc hb (R := []) ?_ (by decide) hn
      simp only [begun_fromMaster, begun_owns, hown, hd, begun_member, hmem, begun_isMaster, hmst, begun_planCheck, hc, Bool.not_true, Bool.or_self,
        Bool.false_eq_true, if_false]
      rfl
  · intro tb hacc hmem hmst hfit hact htick u hlead hfar
    obtain ⟨v, hv, hE, hk⟩ := next_of (exec_fabricBarrierStart h tb s) hacc hb (E' := barrierStarted h s.ctl.jnext tb u) (R := []) (jr := none)
      (eff := .none) (w := true) (by
        have hfar' : decide (edgeL u tb < nowL u + 2000000 * 65536) = false := by simpa using hfar
        rw [if_neg (by rw [begun_member, hmem, begun_isMaster, hmst]; decide),
          if_neg (by rw [show leadOk (begun 0x604 h s) tb = true from hlead, hfar']; decide),
          if_neg (by rw [begun_startFit, hfit, begun_placesActive, hact, begun_ticking, htick]; decide)]
        rfl)
    have hfab : ∀ x ∈ (barrierStarted h s.ctl.jnext tb u).fab.out2, x ∈ v.fab.out2 := hk.2.1
    have hb0 : u.fab.barriers = s.fab.barriers := begun_fabric _ _ _ (·.barriers) fun _ _ => rfl
    refine ⟨v, hv, ?_, ?_, fun hs => ?_, ?_, fun p hp d hd hne => hfab _ ?_⟩
    · rw [hE, barrierStarted_fab, toMembers_eq, ← hb0]
    · rw [hE]
      exact barrierStarted_st h s.ctl.jnext tb u
    · rw [hE]
      exact barrierStarted_armAt h s.ctl.jnext tb u (by rw [begun_isStandby]; exact hs)
    · have hw := barrierStarted_waits h s.ctl.jnext tb u
      exact ⟨_, by rw [hE]; exact hw, rfl, rfl, rfl⟩
    · rw [barrierStarted_fab]
      refine mem_toMembers (p := p) ?_ ?_ ?_ hd ?_
      · exact (begun_fabric 0x604 h s (·.plan) fun _ _ => rfl).trans hp
      · exact (begun_member _ _ _).trans hmem
      · exact (begun_isMaster _ _ _).trans hmst
      · rw [show u.fab.id = s.fab.id from begun_fabric 0x604 h s (·.id) fun _ _ => rfl]
        exact hne
  · intro dev hacc hmem hmst hgiven depth
    have hg : ((begun 0x606 h s).fab.given_ids.any fun e => e.2 == dev) = true := by
      rw [begun_fabric 0x606 h s (·.given_ids) fun _ _ => rfl]
      simpa using hgiven
    have hid : (begun 0x606 h s).fab.id = s.fab.id := begun_fabric 0x606 h s (·.id) fun _ _ => rfl
    refine done_of (exec_fabricTimeRoot h dev s) hacc hb (jr := none) (eff := .none)
      (E' := { begun 0x606 h s with fab := { (begun 0x606 h s).fab with timeRoot := some dev, timeHops := depth, timeDeep := decide (15 < depth) } }) ?_ ?_ rfl rfl
    · simp only [begun_member, hmem, begun_isMaster, hmst, hg, hid, begun_timeDepth, Bool.and_self, Bool.not_true, Bool.false_eq_true, if_false]
      rfl
    · exact traces_begun (f := fun s => { s with fab := { s.fab with timeRoot := some dev, timeHops := depth, timeDeep := decide (15 < depth) } })
        fun t ht => by unfold Traces; rw [ht]
  · intro e hacc he hsrc
    refine done_of (exec_collectCfg h e s) hacc hb (jr := none) (eff := .none)
      (E' := { begun 0x607 h s with acq := { (begun 0x607 h s).acq with collect := some e } }) ?_ ?_ rfl rfl
    · simp only [he, begun_engSrc, hsrc, decide_true, beq_self_eq_true, Bool.and_self, if_true]
    · exact traces_begun (f := fun s => { s with acq := { s.acq with collect := some e } }) fun t ht => by unfold Traces; rw [ht]
  · intro dest bytes hacc hobs
    have hx : exec (.fabricForward h dest bytes) s = goes (control { op := 0x608, states := anySt } h (forwardAct h dest bytes) s) := by
      rw [exec_fabricForward, execFabricForward, hobs]
      rfl
    have hlost : (begun 0x608 h s).fab.lost = s.fab.lost := begun_fabric 0x608 h s (·.lost) fun _ _ => rfl
    refine ⟨fun hl => ?_, fun hm h0 h128 hl hlen => ?_⟩
    · exact refused_of_act hx hacc hb (forwardAct_of_lost (by rw [begun_member, begun_erouteOf, hlost]; exact hl)) (by decide) (by decide)
    · obtain ⟨v, hv, hE, hk⟩ := next_of hx hacc hb (forwardAct_of_reached (j := s.ctl.jnext) (h := h) (by rw [begun_member]; exact hm)
        (by rw [begun_erouteOf]; exact h0) (by rw [begun_erouteOf]; exact h128) (by rw [hlost]; exact hl) hlen)
      have hw : { jseq := s.ctl.jnext, h := { h with raw := le 2 dest ++ bytes }, opcode := 0x608, tick := some dest } ∈
          (forwarded h dest s.ctl.jnext bytes (begun 0x608 h s)).ctl.forwards := List.mem_append_right _ List.mem_cons_self
      exact ⟨v, hv, hk.2.1 _ List.mem_cons_self, _, by rw [hE]; exact hw, rfl, rfl⟩
  · intro dest bytes ho hobs hm h0 h128 hl hlen
    have hx : exec (.fabricForward h dest bytes) s = goes (observe { op := 0x608, states := anySt } h (forwardAct h dest bytes 0) s) := by
      rw [exec_fabricForward, execFabricForward, hobs]
      rfl
    have hlost : (readBy h s).fab.lost = s.fab.lost := readBy_fabric h s (·.lost) fun _ _ => rfl
    have hmem : (readBy h s).fab.member = true := (readBy_fabric h s (·.member) fun _ _ => rfl).trans hm
    obtain ⟨v, hv, hE, hk⟩ := observe_waits { op := 0x608, states := anySt } h _ s _ [] ho hb (forwardAct_of_reached (h := h) (j := 0) hmem
      (by rw [readBy_erouteOf]; exact h0) (by rw [readBy_erouteOf]; exact h128) (by rw [hlost]; exact hl) hlen)
    exact ⟨v, hx.trans hv, hk.1.2.1 _ List.mem_cons_self, hk.2.trans (readBy_journal h s).1⟩

end Sys2Proof
end

section
/-!
Maintenance, quadrant power and the standby quadrant (R418, R428 to R430).
-/

namespace Sys2Proof

namespace Machine

open Claims

section unread

variable (op : Nat) (h : Hdr) (s : State)

theorem begun_flt : (begun op h s).flt = s.flt := begun_eq op h s (·.flt) fun t ht => by rw [ht]
theorem begun_maintOk (r : MaintReq) : maintOk (begun op h s) r = maintOk s r := begun_eq op h s (maintOk · r) fun t ht => by rw [ht]; rfl
theorem begun_rotFit (r : MaintReq) : rotFit (begun op h s) r = rotFit s r := begun_eq op h s (rotFit · r) fun t ht => by rw [ht]; rfl
theorem begun_claimed (r : MaintReq) : claimed (begun op h s) r = claimed s r := begun_eq op h s (claimed · r) fun t ht => by rw [ht]; rfl
theorem begun_quadMoveOk (q req : Nat) : quadMoveOk (begun op h s) q req = quadMoveOk s q req :=
  begun_eq op h s (quadMoveOk · q req) fun t ht => by rw [ht]; rfl
theorem begun_quadHandles (q : Nat) : quadHandles (begun op h s) q = quadHandles s q := begun_eq op h s (quadHandles · q) fun t ht => by rw [ht]; rfl
theorem begun_quadAt (q : Nat) : quadAt (begun op h s) q = quadAt s q := begun_eq op h s (quadAt · q) fun t ht => by rw [ht]; rfl
theorem begun_quadRotating (q : Nat) : quadRotating (begun op h s) q = quadRotating s q :=
  begun_eq op h s (quadRotating · q) fun t ht => by rw [ht]; rfl
theorem begun_sectionsOn (q : Nat) : sectionsOn (begun op h s) q = sectionsOn s q := begun_eq op h s (sectionsOn · q) fun t ht => by rw [ht]; rfl

end unread

/-- When a quadrant may be switched off, on or to idle (R430). -/
theorem quadMoveOk_iff (s : State) (q req : Nat) : quadMoveOk s q req = true ↔
    (req = 2 ∧ (quadAt s q = .off ∨ quadAt s q = .failed ∨ quadAt s q = .idle)) ∨
      ((inRun s = true → sectionsOn s q = []) ∧ ((req = 0 ∧ (quadAt s q = .active ∨ quadAt s q = .idle)) ∨ (req = 1 ∧ quadAt s q = .active))) := by
  unfold quadMoveOk
  generalize quadAt s q = x
  split <;> simp_all <;> grind

section power

variable {h : Hdr} {q req j : Nat} {s : State}

theorem quadAct_of_bad (hq : q < 4) (hr : req < 3) (hm : quadMoveOk s q req = false) : quadAct h q req j s = fails s stState := by
  have h4 : (decide (4 ≤ q) || decide (3 ≤ req)) = false := by simp; omega
  simp [quadAct, h4, hm]

theorem quadAct_of_free (hq : q < 4) (hr : req < 3) (hm : quadMoveOk s q req = true) (hc : claimed s { act := 6, quad := q, core := req } = false) :
    quadAct h q req j s =
      if req = 0 then { s := quadOff q s, result := quadHandles s q }
      else if req = 1 || quadAt s q == .idle then
        tickCmd h 0x704 j (.quad q (req == 1)) (fun _ => none) (quadEdge q (req == 1)) s
      else { s := longCmd h 0x704 j (quadWake q j s), wait := true } := by
  have h4 : (decide (4 ≤ q) || decide (3 ≤ req)) = false := by simp; omega
  simp only [quadAct, h4, hm, hc, Bool.not_true, Bool.false_eq_true, if_false]

theorem quadEdge_ctl (idle : Bool) : (quadEdge q idle s).ctl = s.ctl := by
  unfold quadEdge
  split
  · split
    · rfl
    · exact setQuad_ctl _ _ _
  · exact setQuad_ctl _ _ _
  · rfl

end power

section standby

variable {b : Nat} {s : State}

theorem standbyAct_of_none (ht : s.flt.takeover = none) : standbyAct none s = { s := nameStandby none (releaseStandby s) } := by
  simp [standbyAct, ht]

/-- What a standby quadrant's checks before its sections ask (R418). -/
structure StandbyFits (b : Nat) (s : State) : Prop where
  lt : b < 4
  takeover : s.flt.takeover = none
  rotating : quadRotating s b = false
  remaps : ∀ r ∈ s.flt.remaps, r.q ≠ b
  other : s.dev.standby ≠ some b
  on : quadAt s b = .active ∨ quadAt s b = .idle

theorem standbyAct_of_fits (hf : StandbyFits b s) : standbyAct (some b) s =
    if !(sectionsOn s b).isEmpty then fails s stState
    else { s := nameStandby (some b) (setQuad b .standby (clearQuad b (releaseStandby s))) } := by
  have hr : (s.flt.remaps.any fun r => r.q == b) = false := by
    rw [List.any_eq_false]
    intro r hr
    simpa using hf.remaps r hr
  have hon : (quadAt s b == .active || quadAt s b == .idle) = true := by simpa using hf.on
  have hlt := hf.lt
  simp only [standbyAct, if_neg (show ¬ 4 ≤ b by omega), hf.takeover, hf.rotating, hr, hf.other, hon, Option.isSome_none, Bool.or_self,
    Bool.false_eq_true, if_false, Bool.not_true, Bool.false_or]

end standby

end Machine

open Machine Claims

/-- Settles O21: activities by their claims, quadrants by `quadMoveOk` and `quadAct_of_free`, the standby by what its quadrant holds. -/
theorem careCommands : Obligations.CareCommands := by
  unfold Obligations.CareCommands
  intro h s hb
  refine ⟨?_, ?_, quadMoveOk_iff s, ?_, ?_⟩
  · intro r hacc hok hfit
    refine ⟨fun hc => ?_, fun hc hq => ?_⟩
    · refine ends_of _ h _ s _ _ none .none _ (exec_maintStart h r s) hacc hb ?_
      simp only [begun_maintOk, hok, begun_rotFit, hfit, begun_claimed, hc, begun_flt, Bool.not_true, Bool.false_eq_true, if_false]
    · refine refused_of_act (exec_maintStart h r s) hacc hb (R := []) ?_ (by decide) (by decide)
      simp only [begun_maintOk, hok, begun_rotFit, hfit, begun_claimed, hc, hq, Bool.not_true, Bool.false_eq_true, if_false, if_true, Bool.not_false]
      rfl
  · intro n a hacc hfind hact
    refine ends_of _ h _ s _ [] none .none _ (exec_maintStop h n s) hacc hb ?_
    simp only [begun_flt, hfind, decide_eq_false (show ¬ 5 < a.act by omega), Bool.false_eq_true, if_false, ite_self]
  · intro q req hacc hq hr
    refine ⟨fun hm => ?_, fun hm hc => ?_⟩
    · exact refused_of_act (exec_quadPower h q req s) hacc hb (quadAct_of_bad hq hr (by rw [begun_quadMoveOk]; exact hm)) (by decide) (by decide)
    · have ha := quadAct_of_free (h := h) (j := s.ctl.jnext) (s := begun 0x704 h s) hq hr (by rw [begun_quadMoveOk]; exact hm)
        (by rw [begun_claimed]; exact hc)
      refine ⟨fun h0 => ?_, fun h1 h0 => ?_, fun h2 hidle => ?_⟩
      · refine ends_of _ h _ s _ _ none .none _ (exec_quadPower h q req s) hacc hb ?_
        rw [ha, if_pos h0, begun_quadHandles]
      · rw [if_neg h0, if_pos (by rw [begun_quadAt]; simpa using h1)] at ha
        exact tick_edge _ h _ (.quad q (req == 1)) (fun _ => none) (quadEdge q (req == 1)) s _ (exec_quadPower h q req s) ha hacc hb rfl
          (by rw [quadEdge_ctl]) (by rw [quadEdge_ctl])
      · rw [if_neg (by omega), if_neg (by rw [begun_quadAt]; simp [hidle, h2])] at ha
        obtain ⟨u, hu, hE, -⟩ := next_of (exec_quadPower h q req s) hacc hb ha
        exact ⟨u, hu, hE⟩
  · intro u v hacc htake
    have htake' : u.flt.takeover = none := by rw [begun_flt]; exact htake
    have hv : releaseStandby u = v := by
      simp only [releaseStandby, v, u, begun_dev, begun_quadAt, beq_iff_eq] <;> rfl
    refine ⟨?_, fun b hlt hrot hrem hother hon => ?_⟩
    · refine ends_of _ h _ s _ [] none .none _ (exec_standbySet h none s) hacc hb ?_
      rw [standbyAct_of_none htake', hv]
      rfl
    · have hf : StandbyFits b u := ⟨hlt, htake', by rw [begun_quadRotating]; exact hrot, by rw [begun_flt]; exact hrem, by rw [begun_dev]; exact hother,
        by rw [begun_quadAt]; exact hon⟩
      refine ⟨fun hs => ?_, fun hs => ?_⟩
      · refine refused_of_act (exec_standbySet h (some b) s) hacc hb (R := []) ?_ (by decide) (by decide)
        rw [standbyAct_of_fits hf, begun_sectionsOn, if_pos (by simpa using hs)]
        rfl
      · refine ends_of _ h _ s _ [] none .none _ (exec_standbySet h (some b) s) hacc hb ?_
        rw [standbyAct_of_fits hf, begun_sectionsOn, if_neg (by simp [hs]), hv]
        rfl

end Sys2Proof
end

section
/-!
Update and debug commands (R443 to R447, R460, R461): what opens, fills, applies and ends a session, and what moves the debug level.
-/

namespace Sys2Proof

namespace Machine

open Claims

section unread

variable (op : Nat) (h : Hdr) (s : State)

theorem begun_upd : (begun op h s).upd = s.upd := begun_eq op h s (·.upd) fun t ht => by rw [ht]
theorem begun_free : (begun op h s).free = s.free := begun_eq op h s (·.free) fun t ht => by rw [ht]
theorem begun_notHolder : notHolder h (begun op h s) = notHolder h s := by unfold notHolder; rw [begun_upd]
theorem begun_rootOk (m : Manifest) : rootOk (begun op h s) m = rootOk s m := by unfold rootOk; rw [begun_part]
theorem begun_rcptOk (m : Manifest) : rcptOk (begun op h s) m = rcptOk s m := by unfold rcptOk; rw [begun_part]
theorem begun_midUpdate : midUpdate (begun op h s) = midUpdate s := by unfold midUpdate; rw [begun_upd]
theorem begun_touchesApplied (off n : Nat) : touchesApplied (begun op h s) off n = touchesApplied s off n := by unfold touchesApplied; rw [begun_upd]
theorem begun_chosen (mask : Nat) : chosen (begun op h s) mask = chosen s mask := by unfold chosen; rw [begun_upd]
theorem begun_applyCheck (mask : Nat) (peers : List Nat) : applyCheck mask peers (begun op h s) = applyCheck mask peers s :=
  begun_eq op h s (applyCheck mask peers) fun t ht => by rw [ht]; rfl
theorem begun_unlockOk (r : Response) : unlockOk (begun op h s) r = unlockOk s r := by unfold unlockOk; rw [begun_upd, begun_part]

end unread

theorem notHolder_eq_false {h : Hdr} {s : State} (hh : s.upd.holder = some (srcOf h)) : notHolder h s = false := by
  simp [notHolder, hh]

/-- Granting and asking for the token move the fabric's state alone (R455). -/
theorem grantTo_eq (d : Nat) (s : State) : grantTo d s = { s with fab := (grantTo d s).fab } := by
  unfold grantTo
  dsimp only
  split <;> rfl

theorem tokenAsked_eq (d : Nat) (s : State) : tokenAsked d s = { s with fab := (tokenAsked d s).fab } := by
  unfold tokenAsked
  split
  · exact grantTo_eq d s
  · split <;> rfl

theorem askToken_eq (s : State) : askToken s = { s with fab := (askToken s).fab } := by
  unfold askToken
  split
  · rfl
  · split
    · exact tokenAsked_eq _ s
    · rfl

/-- What a session's begin leaves (R443). -/
theorem beginSession_holds (h : Hdr) (m : Manifest) (len : Nat) (bytes : List Byte) (s : State) :
    (beginSession h m len bytes s).upd.holder = some (srcOf h) ∧ (beginSession h m len bytes s).upd.man = m ∧
      (beginSession h m len bytes s).upd.overlay = true ∧ (beginSession h m len bytes s).part = s.part ∧ (beginSession h m len bytes s).hbm = s.hbm := by
  unfold beginSession
  rw [askToken_eq]
  dsimp only
  split <;> exact ⟨rfl, rfl, rfl, rfl, rfl⟩

/-- UPDATE_BEGIN of an authenticated bundle, when nothing stands against a session (R443). -/
theorem beginAct_of_fit {h : Hdr} {addr len : Nat} {whole : Bool} {found : List Byte} {s : State} {m : Manifest}
    (hm : m = manifestOf (manBytes s addr found)) (hr : rangeOk s false addr 128 = true)
    (hg : rangeOk s false addr (givenLen s addr len whole found) = true) (hok : manifestOk (manBytes s addr found) len = true)
    (hroot : rootOk s m = true) (hsig : Config.sigValid m.rootPub m.body m.sig = true) (hrc : rcptOk s m = true)
    (hh : s.upd.holder = none ∨ s.upd.holder = some (srcOf h)) (hmid : midUpdate s = false) (hacts : ∀ a ∈ s.flt.acts, a.act ≠ 0x83) :
    beginAct h addr len whole found s = { s := beginSession h m len (bundleBytes s addr (givenLen s addr len whole found) found) s } := by
  subst hm
  have hn : (s.upd.holder.isSome && notHolder h s) = false := by
    rcases hh with hh | hh <;> simp [notHolder, hh]
  have ha : (s.flt.acts.any fun a => a.act == 0x83) = false := by
    rw [List.any_eq_false]
    intro a ha
    simpa using hacts a ha
  simp only [beginAct, hr, hg, hok, hroot, hsig, hrc, hn, hmid, ha, Bool.not_true, Bool.or_self, Bool.false_eq_true, if_false]

/-- UPDATE_APPLY of the holder, whose check passes, starts with the first part (R447). -/
theorem applyAct_of_fit {h : Hdr} {mask : Nat} {peers : List Nat} {j : Nat} {s : State} (hh : s.upd.holder = some (srcOf h)) (hm : mask % 2 = 0)
    (hb : bits mask 14 6 = 0) (hne : chosen s mask ≠ []) (hlen : (chosen s mask).length = (setBits 6 (mask % 64)).length)
    (hc : applyCheck mask peers s = none) :
    applyAct h mask peers j s = { s := nextPart (selectParts mask j (longCmd h 0x803 j s)), wait := true } := by
  have hform : (decide (mask % 2 = 1) || decide (bits mask 14 6 ≠ 0) || (chosen s mask).isEmpty ||
      decide ((chosen s mask).length ≠ (setBits 6 (mask % 64)).length)) = false := by
    simp [hm, hb, hne, hlen]
  simp only [applyAct, notHolder_eq_false hh, hform, hc, Bool.false_eq_true, if_false]

theorem setLevel_upd (level slot : Nat) (s : State) : (setLevel level slot s).upd = { s.upd with level := level } := by
  unfold setLevel resumeHalted
  split <;> rfl

/-- DEBUG_UNLOCK of a response that can be read and has its form, while the security core serves it (R461). -/
theorem unlockAct_of_form {addr len : Nat} {found : List Byte} {s : State} {r : Response}
    (hr : r = responseOf (bundleBytes s addr (min len 7267) found)) (hbusy : s.upd.spdmBusy = false) (href : s.upd.refusals < 8)
    (hrange : rangeOk s false addr (min len 7267) = true) (hform : responseForm len r = true) (hok : r.level = 0 ∨ unlockOk s r = true) :
    unlockAct addr len found s =
      if r.level = 0 then { s := setLevel 0 r.slot s }
      else { s := setLevel r.level r.slot { s with upd := { s.upd with nonce := none } } } := by
  subst hr
  simp only [unlockAct, hbusy, if_neg (show ¬ 8 ≤ s.upd.refusals by omega), hrange, hform, Bool.not_true, Bool.or_self, Bool.false_eq_true, if_false]
  rcases hok with h0 | hu
  · rw [if_pos h0, if_pos h0]
  · rw [if_pos hu]

/-- A command of another source than the holder's fails with ST_UPDATE_BUSY and names the holder (R443). -/
theorem contended_fails {i : Instr} {c : CmdSpec} {h : Hdr} {act : Nat → State → Act} {s : State} {d8 : List Byte}
    (hi : exec i s = goes (control c h act s)) (hacc : Accepted c.op c.states c.anyone c.cfg h s) (hb : Carried c.bc h)
    (ha : act s.ctl.jnext (begun c.op h s) = contended h d8 (begun c.op h s)) :
    ∃ u, exec i s = .next u ∧ u.upd = s.upd ∧ (∃ e, u.ctl.journal.head? = some e ∧ e.jseq = s.ctl.jnext ∧ e.status = 9 ∧ e.final = true) ∧
      (h.transport = 0 → u.ctl.replies.getLast? = some (mkReply c.op h (some s.ctl.jnext) 9 0
        (le 4 (s.upd.holder.getD 0) ++ le 4 0 ++ (if s.upd.holder.isSome then digest8 s.upd.man else le 8 0)))) := by
  rw [← begun_upd c.op h s]
  have hx := control_keeps c h act s _ 9 0 _ hacc hb (by decide) ha
  refine ⟨_, hi.trans hx, ?_, ?_, fun ht => sendReply_last _ _ (srcOf_transport h ht)⟩
  · rw [path_finishEff _ _ _ _ _ _ _ _ _]
    rfl
  · obtain ⟨e, he, hj, -⟩ := begun_head c.op h s
    rw [finishEff_journal, List.head?_map]
    rw [show (raiseEv _ (begun c.op h s)).ctl.journal.head? = some e from he]
    refine ⟨_, rfl, ?_⟩
    simp [hj, entryDone]

end Machine

open Machine Claims

/-- Settles O22: the session's commands by their holder, the debug commands by `unlockAct_of_form`. -/
theorem updateCommands : Obligations.UpdateCommands := by
  unfold Obligations.UpdateCommands
  intro h s hb
  refine ⟨?_, ?_, ?_, ?_, ?_, ?_, ?_⟩
  · intro addr len whole man rest hacc found m hr hg hok hroot hsig hrc hh hmid hacts
    obtain ⟨u, hu, hE, -⟩ := next_of (exec_updateBegin h addr len whole man rest s) hacc hb
      (beginAct_of_fit (m := m) rfl hr hg hok (by rw [begun_rootOk]; exact hroot) hsig (by rw [begun_rcptOk]; exact hrc)
        (by rw [begun_upd]; exact hh) (by rw [begun_midUpdate]; exact hmid) (by rw [begun_flt]; exact hacts))
    obtain ⟨h1, h2, h3, h4, h5⟩ := beginSession_holds h m len
      (bundleBytes (begun 0x801 h s) addr (givenLen (begun 0x801 h s) addr len whole found) found) (begun 0x801 h s)
    refine ⟨u, hu, ?_, ?_, ?_, ?_, ?_⟩
    · rw [hE]; exact h1
    · rw [hE]; exact h2
    · rw [hE]; exact h3
    · rw [hE]; exact h4.trans (begun_part _ _ _)
    · rw [hE]; exact h5.trans (begun_hbm _ _ _)
  · intro off bytes hacc hh hlen hend htouch
    refine done_of (exec_updateData h off bytes s) hacc hb (jr := none) (eff := .none) (E' := { begun 0x802 h s with upd := { (begun 0x802 h s).upd with
        staged := tsetAll (fun _ => 0#8) (begun 0x802 h s).upd.staged off bytes
        stagedLen := max (begun 0x802 h s).upd.stagedLen (off + bytes.length) } }) ?_ ?_ rfl rfl
    · have hform : (decide (4060 < bytes.length ∨ (begun 0x802 h s).upd.man.bundleLen < off + bytes.length) ||
          touchesApplied (begun 0x802 h s) off bytes.length) = false := by
        rw [begun_touchesApplied, htouch, begun_upd]
        simp
        omega
      simp only [begun_notHolder, notHolder_eq_false hh, Bool.false_eq_true, if_false]
      rw [if_neg (by rw [hform]; decide)]
    · exact traces_begun (f := fun s => { s with upd := { s.upd with
        staged := tsetAll (fun _ => 0#8) s.upd.staged off bytes, stagedLen := max s.upd.stagedLen (off + bytes.length) } }) fun t ht => by
          unfold Traces; rw [ht]
  · intro mask peers hacc hh hm h14 hne hlen hc
    obtain ⟨u, hu, hE, -⟩ := next_of (exec_updateApply h mask peers s) hacc hb
      (applyAct_of_fit (by rw [begun_upd]; exact hh) hm h14 (by rw [begun_chosen]; exact hne) (by rw [begun_chosen]; exact hlen)
        (by rw [begun_applyCheck]; exact hc))
    exact ⟨u, hu, hE⟩
  · intro hacc hh
    refine ⟨fun hmid => ?_, fun hmid => ?_⟩
    · refine ends_of _ h _ s _ [] none .none _ (exec_updateAbort h s) hacc hb ?_
      simp only [begun_notHolder, notHolder_eq_false hh, begun_midUpdate, hmid, Bool.false_eq_true, if_false, if_true]
    · refine ends_of _ h _ s _ [] none .none _ (exec_updateAbort h s) hacc hb ?_
      simp only [begun_notHolder, notHolder_eq_false hh, begun_midUpdate, hmid, Bool.false_eq_true, if_false]
  · intro off bytes hacc hh
    exact contended_fails (exec_updateData h off bytes s) hacc hb (if_pos (by rw [begun_notHolder]; simp [notHolder, hh]))
  · intro hacc hbusy n
    refine done_of (exec_debugChallenge h s) hacc hb (jr := none) (eff := .none)
      (E' := { begun 0x806 h s with upd := { (begun 0x806 h s).upd with nonce := some n }, free := (begun 0x806 h s).free + 1 }) ?_ ?_ rfl rfl
    · simp only [begun_upd, hbusy, Bool.false_eq_true, if_false, drawFree, begun_free, begun_part]
      rfl
    · exact traces_begun (f := fun s => { s with upd := { s.upd with nonce := some n }, free := s.free + 1 }) fun t ht => by unfold Traces; rw [ht]
  · intro addr len magic level slot uid nonce rest hacc hbusy href r hrange hform
    have hbusy' : (begun 0x807 h s).upd.spdmBusy = false := by rw [begun_upd]; exact hbusy
    have href' : (begun 0x807 h s).upd.refusals < 8 := by rw [begun_upd]; exact href
    refine ⟨fun h0 => ?_, fun h0 hn huid hzero hpub hsig => ?_⟩
    · refine ends_of _ h _ s _ [] none .none _ (exec_debugUnlock h addr len magic level slot uid nonce rest s) hacc hb ?_
      rw [unlockAct_of_form (r := r) rfl hbusy' href' hrange hform (.inl h0), if_pos h0]
    · have hok : unlockOk (begun 0x807 h s) r = true := by
        rw [begun_unlockOk]
        simp only [unlockOk, hn, huid, ← hpub, hsig, beq_self_eq_true, Bool.and_true, Bool.true_and, bne_iff_ne]
        rwa [hpub]
      have ha := unlockAct_of_form (r := r) rfl hbusy' href' hrange hform (.inr hok)
      rw [if_neg h0] at ha
      obtain ⟨u, hu, hE, -⟩ := next_of (exec_debugUnlock h addr len magic level slot uid nonce rest s) hacc hb ha
      refine ⟨u, hu, ?_, ?_⟩
      · rw [hE]; exact congrArg Upd.level (setLevel_upd _ _ _)
      · rw [hE]; exact congrArg Upd.nonce (setLevel_upd _ _ _)

end Sys2Proof
end

section
/-!
Doorbells, queues, events and interrupts (R380, R394, R473, R479 to R481).
-/

namespace Sys2Proof

namespace Machine

theorem dbOpen_eq {s : State} (h : s.dev.st ≠ .off) : dbOpen s = s.pwr.saveOk := by
  simp [dbOpen, h]

section doorbell

variable {s : State} {q v size : Nat}

theorem execSqDoorbell_eq (hs : s.dev.st ≠ .off) : execSqDoorbell q v size s = .next (
    if s.pwr.saveOk = true ∧ size = 4 ∧ v < 65536 ∧ q < 64 ∧ bit (regAt s (0x10010 + 0x40 * q)) 63 = true ∧
        dist16 v (queueAt s q).head ≤ 2 ^ (bits (regAt s (0x10010 + 0x40 * q)) 62 59 + 4) ∧
        dist16 v (queueAt s q).tail ≤ 2 ^ (bits (regAt s (0x10010 + 0x40 * q)) 62 59 + 4) - ((queueAt s q).tail - (queueAt s q).head) then
      setQueue q { queueAt s q with tail := (queueAt s q).tail + dist16 v (queueAt s q).tail } s
    else dbBad (2 * q) s) := by
  simp [execSqDoorbell, goes, hs, dbOpen_eq hs, and_assoc]

theorem execCqDoorbell_eq (hs : s.dev.st ≠ .off) : execCqDoorbell q v size s = .next (
    if s.pwr.saveOk = true ∧ size = 4 ∧ v < 65536 ∧ q < 64 ∧ bit (regAt s (0x10010 + 0x40 * q)) 63 = true ∧
        dist16 v (queueAt s q).ci ≤ (queueAt s q).wr - (queueAt s q).ci then
      setQueue q { queueAt s q with ci := (queueAt s q).ci + dist16 v (queueAt s q).ci } s
    else dbBad (2 * q + 1) s) := by
  simp [execCqDoorbell, goes, hs, dbOpen_eq hs, and_assoc]

/-- The five conditions that both doorbells of a queue share stand before their own. -/
theorem and_assoc_of_five {a b c d e f : Prop} : (a ∧ b ∧ c ∧ d ∧ e) ∧ f ↔ a ∧ b ∧ c ∧ d ∧ e ∧ f := by
  simp only [and_assoc]

theorem execDmaDoorbell_eq (hs : s.dev.st ≠ .off) : execDmaDoorbell q v size s = .next (
    if s.pwr.saveOk = true ∧ size = 4 ∧ v < 65536 ∧ q < 40 ∧ engEn s q = true ∧ dist16 v (engAt s q).ci ≤ engSize s q ∧
        (engAt s q).pi - (engAt s q).ci ≤ dist16 v (engAt s q).ci then
      setEng q { engAt s q with pi := (engAt s q).ci + dist16 v (engAt s q).ci } s
    else dbBad (128 + q) s) := by
  simp [execDmaDoorbell, goes, hs, dbOpen_eq hs, and_assoc]

theorem execEvqDoorbell_eq (hs : s.dev.st ≠ .off) : execEvqDoorbell v size s = .next (
    if s.pwr.saveOk = true ∧ size = 4 ∧ v < 65536 ∧ evqEn s = true ∧ dist16 v s.host.evTail ≤ s.host.evHead - s.host.evTail then
      { s with host := { s.host with evTail := s.host.evTail + dist16 v s.host.evTail
                                     unread := s.host.unread.filter fun p => decide (s.host.evTail + dist16 v s.host.evTail < p) } }
    else dbBad 168 s) := by
  simp [execEvqDoorbell, goes, hs, dbOpen_eq hs, and_assoc]

end doorbell

end Machine

open Machine Claims

/-- Settles O24: a doorbell is its index moved where its page's test passes, and DB_BAD where it does not. -/
theorem doorbellsMove : Obligations.DoorbellsMove := by
  unfold Obligations.DoorbellsMove
  intro s q v size hs
  refine ⟨?_, ?_, ?_⟩
  · intro x n good
    simp only [exec_sqDoorbell, exec_cqDoorbell, execSqDoorbell_eq hs, execCqDoorbell_eq hs, Host.Outcome.next.injEq]
    exact ⟨fun h => if_pos (and_assoc_of_five.1 h), fun h => if_neg fun k => h (and_assoc_of_five.2 k),
      fun h => if_pos (and_assoc_of_five.1 h), fun h => if_neg fun k => h (and_assoc_of_five.2 k)⟩
  · intro x good
    simp only [exec_dmaDoorbell, execDmaDoorbell_eq hs, Host.Outcome.next.injEq]
    exact ⟨fun h => if_pos h, fun h => if_neg h⟩
  · intro good
    simp only [exec_evqDoorbell, execEvqDoorbell_eq hs, Host.Outcome.next.injEq]
    exact ⟨fun h => ⟨_, if_pos h, rfl, rfl⟩, fun h => if_neg h⟩

namespace Machine

section taking

variable {s : State} {q : Nat} {bytes : List Byte}

theorem submissionTake_served (hq : q ∈ s.ctl.served) (hp : ∃ p, p < 64 ∧ canTake s p = true ∧ p ∉ s.ctl.served) :
    execSubmissionTake q bytes s = .next s := by
  have hany : ((List.range 64).any fun p => canTake s p && !s.ctl.served.contains p) = true := by
    obtain ⟨p, hlt, hcan, hns⟩ := hp
    rw [List.any_eq_true]
    exact ⟨p, List.mem_range.2 hlt, by simp [hcan, hns]⟩
  unfold execSubmissionTake
  split
  · rfl
  · simp only [List.contains_iff_mem.2 hq, hany, Bool.and_self, if_true]
    rfl

theorem submissionTake_takes (hs : s.dev.st ≠ .off) (hok : s.pwr.saveOk = true) (hq : q < 64) (hcan : canTake s q = true) (hns : q ∉ s.ctl.served) :
    execSubmissionTake q bytes s = .next (
      let t := setQueue q { queueAt s q with head := (queueAt s q).head + 1 } s
      { t with ctl := { t.ctl with served := q :: s.ctl.served
                                   taken := s.ctl.taken.filter (fun t => t.queue != q) ++ [{ queue := q, bytes := slice 0 64 bytes }] } }) := by
  have hc : s.ctl.served.contains q = false := by simpa using hns
  have h64 : decide (64 ≤ q) = false := by simpa using hq
  simp only [execSubmissionTake, goes, hs, hok, h64, hcan, hc, decide_false, Bool.not_true, Bool.or_self, Bool.false_and, Bool.false_eq_true, if_false]
  rfl

end taking

/-- What a trigger of an interrupt vector leaves alone. -/
structure Quiet (s t : State) : Prop where
  replies : t.ctl.replies = s.ctl.replies
  queues : t.ctl.queues = s.ctl.queues
  raised : t.host.raised = s.host.raised
  evHead : t.host.evHead = s.host.evHead
  msix : t.host.msix = s.host.msix
  sent : ∀ x ∈ s.host.out, x ∈ t.host.out

theorem quiet_refl (s : State) : Quiet s s := ⟨rfl, rfl, rfl, rfl, rfl, fun _ h => h⟩

theorem quiet_send (x : Sent) (s : State) : Quiet s (send x s) := ⟨rfl, rfl, rfl, rfl, rfl, fun _ h => List.mem_cons_of_mem _ h⟩

theorem quiet_msiSend (v : Nat) (s : State) : Quiet s (msiSend v s) := by
  unfold msiSend
  dsimp only
  split <;> exact ⟨rfl, rfl, rfl, rfl, rfl, fun _ h => List.mem_cons_of_mem _ h⟩

theorem quiet_trigger (v : Nat) (s : State) : Quiet s (trigger v s) := by
  unfold trigger
  split
  · exact ⟨rfl, rfl, rfl, rfl, rfl, fun _ h => h⟩
  · split
    · exact ⟨rfl, rfl, rfl, rfl, rfl, fun _ h => h⟩
    · exact quiet_msiSend v s

theorem raised_foldl_send {α : Type} (f : State → α → Sent) (l : List α) (s : State) :
    (l.foldl (fun t a => send (f t a) t) s).host.raised = s.host.raised := by
  induction l generalizing s with
  | nil => rfl
  | cons a l ih => exact (ih _).trans rfl

theorem eventPut_raised (r : EvRec) (s : State) : (eventPut r s).host.raised = s.host.raised := by
  unfold eventPut
  dsimp only
  rw [(quiet_trigger _ _).raised]
  exact raised_foldl_send _ _ s

theorem lostMark_raised (s : State) : (lostMark s).host.raised = s.host.raised := by
  unfold lostMark
  split
  · rfl
  · exact (eventPut_raised _ _).trans rfl

theorem eventRing_raised (r : EvRec) (s : State) : (eventRing r s).host.raised = s.host.raised := by
  unfold eventRing
  split
  · rfl
  · dsimp only
    split
    · rw [eventPut_raised, lostMark_raised]
    · exact lostMark_raised s

theorem eventElse_raised (r : EvRec) (s : State) : (eventElse r s).host.raised = s.host.raised := by
  unfold eventElse
  dsimp only
  split
  · split <;> split <;> rfl
  · split <;> rfl

section ring

variable {r : EvRec} {s : State}

theorem eventRing_of_not_due (hd : evqEn s = false ∨ r.e.sev < bits (regAt s 0x20008) 58 56) : eventRing r s = s := by
  unfold eventRing
  rw [if_pos]
  rcases hd with hd | hd <;> simp [hd]

theorem lostMark_of_none (hm : s.host.evLostMark = 0) : lostMark s = s := by
  simp [lostMark, hm]

theorem eventRing_of_due (hen : evqEn s = true) (hsev : bits (regAt s 0x20008) 58 56 ≤ r.e.sev) (hm : s.host.evLostMark = 0) : eventRing r s =
    if ceilDiv (32 + r.e.body.length) 64 ≤ evRoom s then eventPut r s
    else { s with host := { s.host with evLost := satAdd 16 s.host.evLost 1, evLostMark := 1 } } := by
  have hnot : (!evqEn s || decide (r.e.sev < bits (regAt s 0x20008) 58 56)) = false := by
    simp [hen]
    omega
  simp [eventRing, hnot, lostMark_of_none hm, hm]

theorem eventWrite_eq {l : List EvRec} (hr : s.host.raised = r :: l) :
    execEventWrite s = .next (eventElse r (eventRing r { s with host := { s.host with raised := l } })) := by
  simp [execEventWrite, goes, hr]

end ring

/-- The bytes of a result too long for its completion go to the reply's own address (R479). -/
def farSent (far : Option (Nat × List Byte)) (s : State) : State := match far with | some (a, b) => send (.mem a b) s | none => s

theorem farSent_ctl (far : Option (Nat × List Byte)) (s : State) : (farSent far s).ctl = s.ctl := by
  unfold farSent
  split <;> rfl

theorem farSent_regAt (far : Option (Nat × List Byte)) (s : State) (o : Nat) : regAt (farSent far s) o = regAt s o := by
  unfold farSent
  split <;> rfl

/-- A reply's completion, written to entry wr of its queue's ring of n entries (R380, R479). -/
def completed (q n : Nat) (r : Reply) (s : State) : State :=
  let x := queueAt s q
  let c := completionOf r (x.wr / n % 2 == 0)
  let f := farSent c.2 { s with ctl := { s.ctl with replies := s.ctl.replies.erase r } }
  setQueue q { x with wr := x.wr + 1 } (send (.mem (regAt f (0x10008 + 0x40 * q) + 64 * (x.wr % n)) c.1) f)

theorem completed_facts (q n : Nat) (r : Reply) (s : State) : (completed q n r s).ctl.replies = s.ctl.replies.erase r ∧
    queueAt (completed q n r s) q = { queueAt s q with wr := (queueAt s q).wr + 1 } ∧
    Sent.mem (regAt s (0x10008 + 0x40 * q) + 64 * ((queueAt s q).wr % n)) (completionOf r ((queueAt s q).wr / n % 2 == 0)).1 ∈
      (completed q n r s).host.out := by
  refine ⟨?_, ?_, ?_⟩
  · exact congrArg Ctl.replies (farSent_ctl _ _)
  · exact tget_tset_same _ _ _ _
  · unfold completed
    dsimp only
    rw [farSent_regAt]
    exact List.mem_cons_self

theorem completionWrite_full {s : State} {q : Nat} {r : Reply} (hr : s.ctl.replies.find? (fun r => r.source / 65536 % 4096 == q) = some r)
    (hfull : 2 ^ (bits (regAt s (0x10010 + 0x40 * q)) 62 59 + 4) ≤ (queueAt s q).wr - (queueAt s q).ci) : execCompletionWrite q s = .next s := by
  simp only [execCompletionWrite, hr]
  rw [if_pos (by simp [hfull])]
  rfl

theorem completionWrite_room {s : State} {q : Nat} {r : Reply} (hr : s.ctl.replies.find? (fun r => r.source / 65536 % 4096 == q) = some r)
    (hen : bit (regAt s (0x10010 + 0x40 * q)) 63 = true)
    (hroom : (queueAt s q).wr - (queueAt s q).ci < 2 ^ (bits (regAt s (0x10010 + 0x40 * q)) 62 59 + 4)) :
    execCompletionWrite q s = .next (trigger (bits (regAt s (0x10010 + 0x40 * q)) 55 48)
      (completed q (2 ^ (bits (regAt s (0x10010 + 0x40 * q)) 62 59 + 4)) r s)) := by
  simp only [execCompletionWrite, hr]
  rw [if_neg (by simp [hen, hroom])]
  rfl

/-- The state whose hold-off of a vector has ended (R473). -/
def heldOff (vec : Nat) (s : State) : State :=
  { s with host := { s.host with holding := s.host.holding.filter (· != vec), merged := s.host.merged.filter (· != vec) } }

theorem irqHoldoffEnd_merged {vec : Nat} {s : State} (hm : vec ∈ s.host.merged) (hmask : (msixAt s vec).masked = false) :
    exec (.irqHoldoffEnd vec) s = .next (msiSend vec (heldOff vec s)) := by
  have hhold : ((heldOff vec s).host.holding.contains vec) = false := by simp [heldOff]
  have hx : exec (.irqHoldoffEnd vec) s = .next (trigger vec (heldOff vec s)) := by
    rw [exec_irqHoldoffEnd, execIrqHoldoffEnd, List.contains_iff_mem.2 hm]
    rfl
  rw [hx, trigger, hhold, if_neg (by decide), if_neg (by rw [show msixAt (heldOff vec s) vec = msixAt s vec from rfl, hmask]; decide)]

theorem msiSend_eq (v : Nat) (s : State) : msiSend v s = { s with host := { s.host with
    out := .msi v (msixAt s v).addr (msixAt s v).data :: s.host.out, holding := (msiSend v s).host.holding } } := by
  unfold msiSend
  dsimp only
  split <;> rfl

end Machine

/-- Settles O25: submissions in turn, completions and events in order, a hold-off's one message, and an engine that has stopped. -/
theorem queuesServe : Obligations.QueuesServe := by
  unfold Obligations.QueuesServe
  intro s hs
  refine ⟨?_, ?_, ?_, ?_, ?_, ?_⟩
  · intro q bytes hok hq hcan hns
    exact submissionTake_takes hs hok hq hcan hns
  · intro q bytes hq hp
    exact submissionTake_served hq hp
  · intro q r hr hen n x
    refine ⟨fun hfull => completionWrite_full hr hfull, fun hroom => ?_⟩
    obtain ⟨h1, h2, h3⟩ := completed_facts q n r s
    have ht := quiet_trigger (bits (regAt s (0x10010 + 0x40 * q)) 55 48) (completed q n r s)
    refine ⟨_, completionWrite_room hr hen hroom, ht.replies.trans h1, ?_, ht.sent _ h3⟩
    rw [← h2]
    exact congrArg (fun t => tget (fun _ => ({} : QueueSt)) t q) ht.queues
  · intro r l hr
    let v : State := { s with host := { s.host with raised := l } }
    have hx : exec .eventWrite s = .next (eventElse r (eventRing r v)) := (exec_eventWrite s).trans (eventWrite_eq hr)
    rw [hx]
    refine ⟨⟨_, rfl, ?_⟩, fun hd => ?_, fun hen hsev hm hroom => ?_, fun hen hsev hm hroom => ?_⟩
    · rw [eventElse_raised, eventRing_raised]
    · rw [eventRing_of_not_due (s := v) hd]
    · rw [eventRing_of_due (s := v) hen hsev hm, if_pos (show _ ≤ evRoom v from hroom)]
    · rw [eventRing_of_due (s := v) hen hsev hm, if_neg (show ¬ _ ≤ evRoom v from Nat.not_le_of_lt hroom)]
  · intro vec
    refine ⟨fun hm => ?_, fun hm hmask => ⟨_, irqHoldoffEnd_merged hm hmask, ?_, ?_⟩⟩
    · rw [exec_irqHoldoffEnd, execIrqHoldoffEnd, List.contains_eq_mem, decide_eq_false hm]
      rfl
    · rw [msiSend_eq]
      exact List.mem_cons_self
    · rw [msiSend_eq]
      simp [heldOff]
  · intro e h1 h2 h3 h4
    rw [exec_dmaEngineStopped, execDmaEngineStopped]
    simp only [h1, h2, h3, h4, Option.isNone_none, Bool.and_self, if_true]
    rfl

end Sys2Proof
end

section
/-!
The aperture of BAR2 (R466, R484, R485), and the host's loss and its link (R465, R467, R512).
-/

namespace Sys2Proof

namespace Machine

section aperture

variable {s : State}

/-- Only the loader's area lies from LOADER_BASE on. -/
theorem areaOf_eq_loader_iff (a : Nat) : areaOf s a = .loader ↔ loaderBase s ≤ a := by
  unfold areaOf
  split
  · next h => simp [h]
  · next h =>
    refine iff_of_false ?_ h
    split
    · simp
    · split
      · simp
      · split
        · simp
        · split <;> simp

theorem bar2Read_allowed {off len : Nat} (hs : s.dev.st ≠ .off) (hfit : off + len ≤ s.host.bar2Size)
    (hall : ∀ k, k < len → bar2Local s off + k < loaderBase s) :
    execBar2Read off len s = .next (send (.completion true (hbmRead s (bar2Local s off) len)) s) := by
  have hok : ((List.range len).all fun k => areaOf s (bar2Local s off + k) != .loader) = true := by
    rw [List.all_eq_true]
    intro k hk
    have := hall k (List.mem_range.1 hk)
    simp only [bne_iff_ne, ne_eq, areaOf_eq_loader_iff]
    omega
  simp only [execBar2Read, goes, hs, decide_eq_false (show ¬ s.host.bar2Size < off + len by omega), hok, decide_false, Bool.or_self, Bool.false_eq_true,
    if_false, if_true]

theorem bar2Read_loader {off len : Nat} (hs : s.dev.st ≠ .off) (hfit : off + len ≤ s.host.bar2Size)
    (hex : ∃ k, k < len ∧ loaderBase s ≤ bar2Local s off + k) : execBar2Read off len s = .next (send (.completion false []) s) := by
  have hbad : ((List.range len).all fun k => areaOf s (bar2Local s off + k) != .loader) = false := by
    obtain ⟨k, hk, hl⟩ := hex
    rw [List.all_eq_false]
    exact ⟨k, List.mem_range.2 hk, by simp [areaOf_eq_loader_iff, hl]⟩
  simp only [execBar2Read, goes, hs, decide_eq_false (show ¬ s.host.bar2Size < off + len by omega), hbad, decide_false, Bool.or_self, Bool.false_eq_true,
    if_false]

theorem bar2Write_eq {off : Nat} {bytes : List Byte} (hs : s.dev.st ≠ .off) (hfit : off + bytes.length ≤ s.host.bar2Size) (hsav : s.pwr.saving = none) :
    execBar2Write off bytes s = .next (
      if (List.range bytes.length).all (fun k => bar2May s (areaOf s (bar2Local s off + k))) then hbmWrite (bar2Local s off) bytes s
      else { s with host := { s.host with bar2Denied := satAdd 32 s.host.bar2Denied 1 } }) := by
  have hns : saving s = false := by simp [saving, hsav]
  simp only [execBar2Write, goes, hs, decide_eq_false (show ¬ s.host.bar2Size < off + bytes.length by omega), hns, decide_false, Bool.or_self,
    Bool.false_eq_true, if_false, Bool.not_false, Bool.and_true]

/-- A resize of BAR2 keeps an offset that stays aligned, and clears any other (R466). -/
theorem bar2Resize_eq {k : Nat} (hs : s.dev.st ≠ .off) (h28 : 28 ≤ k) (h40 : k < 40) : execBar2Resize (2 ^ k) s = .next (
    if regAt s 0x58 % 2 ^ 63 % 2 ^ k = 0 then { s with host := { s.host with bar2Size := 2 ^ k } }
    else setReg 0x58 (regAt s 0x58 / 2 ^ 63 * 2 ^ 63) { s with host := { s.host with bar2Size := 2 ^ k } }) := by
  have hany : ((rangeFrom 28 12).any fun j => 2 ^ k == 2 ^ j) = true := by
    rw [List.any_eq_true]
    exact ⟨k, List.mem_map.2 ⟨k - 28, List.mem_range.2 (by omega), by omega⟩, by simp⟩
  unfold execBar2Resize
  simp only [hany, bne_iff_ne, ne_eq, hs, not_false_eq_true, Bool.and_true, if_true]
  rfl

end aperture

end Machine

open Machine Claims

/-- Settles O26: a read by the loader's area, a write by each byte's area, a resize by the offset's alignment. -/
theorem apertureAccess : Obligations.ApertureAccess := by
  unfold Obligations.ApertureAccess
  intro s hs
  refine ⟨?_, ?_, ?_⟩
  · intro off len hfit a
    exact ⟨fun hall => bar2Read_allowed hs hfit hall, fun hex => bar2Read_loader hs hfit hex⟩
  · intro off bytes hfit hsav a
    rw [exec_bar2Write, bar2Write_eq hs hfit hsav]
    refine ⟨fun hall => ?_, fun ⟨k, hk, hno⟩ => ?_⟩
    · rw [if_pos (List.all_eq_true.2 fun k hk => hall k (List.mem_range.1 hk))]
    · rw [if_neg]
      intro hall
      have := List.all_eq_true.1 hall k (List.mem_range.2 hk)
      exact absurd this (by rw [hno]; decide)
  · intro k h28 h40
    rw [exec_bar2Resize, bar2Resize_eq hs h28 h40]
    by_cases hal : regAt s 0x58 % 2 ^ 63 % 2 ^ k = 0
    · rw [if_pos hal]
      exact ⟨_, rfl, rfl, fun _ => rfl, fun h => absurd hal h⟩
    · rw [if_neg hal]
      refine ⟨_, rfl, rfl, fun h => absurd h hal, fun _ => ?_⟩
      rw [regAt_setReg_same]
      omega

namespace Machine

/-- What the loss of the host leaves alone: the device, its control, the fixed zone and memory (R467). -/
structure CoreGoesOn (s t : State) : Prop where
  dev : t.dev = s.dev
  holder : t.ctl.holder = s.ctl.holder
  journal : t.ctl.journal = s.ctl.journal
  fe : t.fe = s.fe
  grid : t.grid = s.grid
  hbm : t.hbm = s.hbm
  msix : t.host.msix = s.host.msix
  linkDowns : t.host.linkDowns = s.host.linkDowns
  linkUp : t.host.linkUp = s.host.linkUp

theorem coreGoesOn_refl (s : State) : CoreGoesOn s s := ⟨rfl, rfl, rfl, rfl, rfl, rfl, rfl, rfl, rfl⟩

theorem coreGoesOn_trans (s t u : State) (h : CoreGoesOn s t) (k : CoreGoesOn t u) : CoreGoesOn s u :=
  ⟨k.dev.trans h.dev, k.holder.trans h.holder, k.journal.trans h.journal, k.fe.trans h.fe, k.grid.trans h.grid, k.hbm.trans h.hbm,
    k.msix.trans h.msix, k.linkDowns.trans h.linkDowns, k.linkUp.trans h.linkUp⟩

theorem coreGoesOn_foldl {α : Type} {f : State → α → State} (hf : ∀ s a, CoreGoesOn s (f s a)) (l : List α) (s : State) : CoreGoesOn s (l.foldl f s) :=
  foldl_rel (β := Nat) CoreGoesOn coreGoesOn_refl coreGoesOn_trans f hf l s

theorem coreGoesOn_queueOff (q : Nat) (s : State) : CoreGoesOn s (queueOff q s) := by
  unfold queueOff
  split
  · exact ⟨rfl, rfl, rfl, rfl, rfl, rfl, rfl, rfl, rfl⟩
  · exact coreGoesOn_refl s

theorem coreGoesOn_eventElse (r : EvRec) (s : State) : CoreGoesOn s (eventElse r s) := by
  unfold eventElse
  dsimp only
  split
  · split <;> split <;> exact ⟨rfl, rfl, rfl, rfl, rfl, rfl, rfl, rfl, rfl⟩
  · split <;> exact ⟨rfl, rfl, rfl, rfl, rfl, rfl, rfl, rfl, rfl⟩

theorem coreGoesOn_ringOff (s : State) : CoreGoesOn s (ringOff s) := by
  unfold ringOff
  split
  · exact coreGoesOn_refl s
  · have h := coreGoesOn_foldl (f := fun t r => eventElse r t) (fun s r => coreGoesOn_eventElse r s) s.host.raised s
    exact ⟨h.dev, h.holder, h.journal, h.fe, h.grid, h.hbm, h.msix, h.linkDowns, h.linkUp⟩

theorem coreGoesOn_queuesOff (s : State) : CoreGoesOn s (queuesOff s) :=
  coreGoesOn_trans _ _ _ (coreGoesOn_foldl (fun s q => coreGoesOn_queueOff q s) _ s) (coreGoesOn_ringOff _)

theorem coreGoesOn_trigger (v : Nat) (s : State) : CoreGoesOn s (trigger v s) := by
  unfold trigger
  split
  · exact ⟨rfl, rfl, rfl, rfl, rfl, rfl, rfl, rfl, rfl⟩
  · split
    · exact ⟨rfl, rfl, rfl, rfl, rfl, rfl, rfl, rfl, rfl⟩
    · rw [msiSend_eq]
      exact ⟨rfl, rfl, rfl, rfl, rfl, rfl, rfl, rfl, rfl⟩

theorem trigger_eng (v : Nat) (s : State) : (trigger v s).eng = s.eng := by
  unfold trigger
  split
  · rfl
  · split
    · rfl
    · rw [msiSend_eq]

theorem trigger_regs (v : Nat) (s : State) : (trigger v s).regs = s.regs := by
  unfold trigger
  split
  · rfl
  · split
    · rfl
    · rw [msiSend_eq]

section parking

variable (e : Nat) (s : State)

theorem coreGoesOn_parkHere (cause done addr at_ : Nat) : CoreGoesOn s (parkHere e cause done addr at_ s) := by
  unfold parkHere parkEng engTrigger
  refine coreGoesOn_trans _ _ _ ?_ (coreGoesOn_trigger _ _)
  exact ⟨rfl, rfl, rfl, rfl, rfl, rfl, rfl, rfl, rfl⟩

theorem coreGoesOn_parkOne : CoreGoesOn s (parkOne e s) := by
  unfold parkOne
  dsimp only
  split
  · split
    · refine coreGoesOn_trans _ _ _ ?_ (coreGoesOn_parkHere _ _ _ _ _ _)
      exact ⟨rfl, rfl, rfl, rfl, rfl, rfl, rfl, rfl, rfl⟩
    · exact coreGoesOn_parkHere _ _ _ _ _ _
  · exact coreGoesOn_refl s

theorem parkHere_regs (cause done addr at_ : Nat) : (parkHere e cause done addr at_ s).regs = s.regs := by
  unfold parkHere parkEng engTrigger
  rw [trigger_regs]
  rfl

theorem parkOne_regs : (parkOne e s).regs = s.regs := by
  unfold parkOne
  dsimp only
  split
  · split
    · rw [parkHere_regs]
      rfl
    · exact parkHere_regs _ _ _ _ _ _
  · rfl

theorem parkHere_same (cause done addr at_ : Nat) :
    ∃ p, (engAt (parkHere e cause done addr at_ s) e).park = some p ∧ p.cause = cause ∧ p.done = done := by
  unfold parkHere parkEng engTrigger engAt
  rw [trigger_eng]
  simp [raiseEv, setEng]

theorem parkHere_ne (cause done addr at_ : Nat) {k : Nat} (hk : k ≠ e) : engAt (parkHere e cause done addr at_ s) k = engAt s k := by
  unfold parkHere parkEng engTrigger engAt
  rw [trigger_eng]
  exact tget_tset_ne _ _ _ hk

theorem parkOne_ne {k : Nat} (hk : k ≠ e) : engAt (parkOne e s) k = engAt s k := by
  unfold parkOne
  dsimp only
  split
  · split
    · rw [parkHere_ne _ _ _ _ _ _ hk]
      exact tget_tset_ne _ _ _ hk
    · exact parkHere_ne _ _ _ _ _ _ hk
  · rfl

/-- Engine e is parked with CAUSE 4 at byte 0 (R467). -/
def ParkedLost : Prop := ∃ p, (engAt s e).park = some p ∧ p.cause = 4 ∧ p.done = 0

/-- Engine e has a descriptor outstanding. -/
def Outstanding : Prop := (engAt s e).park = none ∧ (engAt s e).ci < (engAt s e).pi ∧ engLive s e = true

end parking

theorem parkOne_parks {e : Nat} {s : State} (h : Outstanding e s) : ParkedLost e (parkOne e s) := by
  obtain ⟨hp, hlt, hlive⟩ := h
  unfold parkOne
  simp only [hp, hlt, hlive, Option.isNone_none, decide_true, Bool.and_self, if_true]
  split <;> exact parkHere_same _ _ _ _ _ _

theorem parkOne_keeps_parked {e : Nat} {s : State} (h : ParkedLost e s) (k : Nat) : ParkedLost e (parkOne k s) := by
  by_cases hk : e = k
  · subst hk
    obtain ⟨p, hp, -⟩ := id h
    rw [show parkOne e s = s by simp [parkOne, hp]]
    exact h
  · unfold ParkedLost
    rw [parkOne_ne k s hk]
    exact h

theorem parkOne_keeps_outstanding {e k : Nat} {s : State} (h : Outstanding e s) (hk : e ≠ k) : Outstanding e (parkOne k s) := by
  have he := parkOne_ne k s hk
  have hr := parkOne_regs k s
  unfold Outstanding engLive engEn engCfg regAt at *
  rw [he, hr]
  exact h

theorem foldl_parkOne_parked {e : Nat} (l : List Nat) {s : State} (h : ParkedLost e s) : ParkedLost e (l.foldl (fun t e => parkOne e t) s) := by
  induction l generalizing s with
  | nil => exact h
  | cons k l ih => exact ih (parkOne_keeps_parked h k)

theorem foldl_parkOne_parks {e : Nat} (l : List Nat) {s : State} (h : Outstanding e s) (he : e ∈ l) :
    ParkedLost e (l.foldl (fun t e => parkOne e t) s) := by
  induction l generalizing s with
  | nil => simp at he
  | cons k l ih =>
    by_cases hk : e = k
    · subst hk
      exact foldl_parkOne_parked l (parkOne_parks h)
    · exact ih (parkOne_keeps_outstanding h hk) ((List.mem_cons.1 he).resolve_left hk)

theorem coreGoesOn_hostLost (s : State) : CoreGoesOn s (hostLost s) :=
  coreGoesOn_trans _ _ _ (coreGoesOn_queuesOff s) (coreGoesOn_foldl (fun s e => coreGoesOn_parkOne e s) _ _)

section disabling

variable (q : Nat) (s : State)

/-- Queue q is disabled (R380). -/
def QueueDisabled : Prop := bit (regAt s (0x10010 + 0x40 * q)) 63 = false

theorem regAt_queueStop (o : Nat) : regAt (queueStop q s) o = regAt s o := rfl

theorem bit_mod_top (n : Nat) : bit (n % 2 ^ 63 % 2 ^ 64) 63 = false := by
  unfold bit
  rw [Nat.testBit_mod_two_pow, Nat.testBit_mod_two_pow]
  simp

theorem queueOff_disables : QueueDisabled q (queueOff q s) := by
  unfold QueueDisabled queueOff
  split
  · rw [regAt_queueStop, regAt_setReg_same]
    exact bit_mod_top _
  · next h => simpa using h

theorem queueOff_regAt_ne {o : Nat} (ho : o ≠ 0x10010 + 0x40 * q) : regAt (queueOff q s) o = regAt s o := by
  unfold queueOff
  split
  · rw [regAt_queueStop, regAt_setReg_ne _ _ ho]
  · rfl

theorem queueOff_keeps_disabled {q : Nat} {s : State} (h : QueueDisabled q s) (k : Nat) : QueueDisabled q (queueOff k s) := by
  by_cases hk : q = k
  · subst hk
    exact queueOff_disables q s
  · unfold QueueDisabled
    rw [queueOff_regAt_ne k s (by omega)]
    exact h

theorem foldl_queueOff_disables (l : List Nat) {q : Nat} {s : State} (h : q ∈ l ∨ QueueDisabled q s) :
    QueueDisabled q (l.foldl (fun t q => queueOff q t) s) := by
  induction l generalizing s with
  | nil => simpa using h
  | cons k l ih =>
    refine ih ?_
    rcases h with h | h
    · rcases List.mem_cons.1 h with rfl | h
      · exact .inr (queueOff_disables _ s)
      · exact .inl h
    · exact .inr (queueOff_keeps_disabled h k)

theorem eventElse_regs (r : EvRec) : (eventElse r s).regs = s.regs := by
  unfold eventElse
  dsimp only
  split
  · split <;> split <;> rfl
  · split <;> rfl

theorem foldl_eventElse_regs (l : List EvRec) : (l.foldl (fun t r => eventElse r t) s).regs = s.regs := by
  induction l generalizing s with
  | nil => rfl
  | cons r l ih => rw [List.foldl_cons, ih, eventElse_regs]

theorem ringOff_evqEn : evqEn (ringOff s) = false := by
  unfold ringOff
  split
  · next h => simpa using h
  · unfold evqEn
    dsimp only
    rw [regAt_setReg_same]
    exact bit_mod_top _

theorem ringOff_regAt_ne {o : Nat} (ho : o ≠ 0x20008) : regAt (ringOff s) o = regAt s o := by
  unfold ringOff
  split
  · rfl
  · dsimp only
    rw [regAt_setReg_ne _ _ ho]
    simp only [regAt, foldl_eventElse_regs]

theorem foldl_parkOne_regs (l : List Nat) : (l.foldl (fun t e => parkOne e t) s).regs = s.regs := by
  induction l generalizing s with
  | nil => rfl
  | cons e l ih => rw [List.foldl_cons, ih, parkOne_regs]

theorem hostLost_regs : (hostLost s).regs = (queuesOff s).regs := foldl_parkOne_regs _ _

theorem hostLost_disables {q : Nat} (hq : q < 64) : QueueDisabled q (hostLost s) := by
  have h := foldl_queueOff_disables (List.range 64) (s := s) (.inl (List.mem_range.2 hq))
  unfold QueueDisabled regAt at *
  rw [hostLost_regs]
  exact (congrArg (bit · 63) (ringOff_regAt_ne _ (by omega))).trans h

theorem hostLost_evqEn : evqEn (hostLost s) = false := by
  have h := ringOff_evqEn ((List.range 64).foldl (fun t q => queueOff q t) s)
  unfold evqEn regAt at *
  rw [hostLost_regs]
  exact h

theorem eventElse_eng (r : EvRec) : (eventElse r s).eng = s.eng := by
  unfold eventElse
  dsimp only
  split
  · split <;> split <;> rfl
  · split <;> rfl

theorem queuesOff_eng : (queuesOff s).eng = s.eng := by
  have h1 (l : List Nat) (s : State) : (l.foldl (fun t q => queueOff q t) s).eng = s.eng := by
    induction l generalizing s with
    | nil => rfl
    | cons q l ih =>
      rw [List.foldl_cons, ih]
      unfold queueOff
      split <;> rfl
  have h2 (l : List EvRec) (s : State) : (l.foldl (fun t r => eventElse r t) s).eng = s.eng := by
    induction l generalizing s with
    | nil => rfl
    | cons r l ih => rw [List.foldl_cons, ih, eventElse_eng]
  unfold queuesOff ringOff
  split
  · exact h1 _ s
  · exact (h2 _ _).trans (h1 _ s)

theorem foldl_queueOff_regAt (l : List Nat) {o : Nat} (ho : ∀ q ∈ l, o ≠ 0x10010 + 0x40 * q) :
    regAt (l.foldl (fun t q => queueOff q t) s) o = regAt s o := by
  induction l generalizing s with
  | nil => rfl
  | cons q l ih => rw [List.foldl_cons, ih _ fun k hk => ho k (List.mem_cons_of_mem _ hk), queueOff_regAt_ne _ _ (ho q List.mem_cons_self)]

/-- Disabling the queues leaves every engine as it is. -/
theorem queuesOff_outstanding {e : Nat} {s : State} (h : Outstanding e s) : Outstanding e (queuesOff s) := by
  have hreg : regAt (queuesOff s) (0x30000 + 0x40 * e) = regAt s (0x30000 + 0x40 * e) := by
    unfold queuesOff
    rw [ringOff_regAt_ne _ (by omega), foldl_queueOff_regAt _ _ (fun q hq => by have := List.mem_range.1 hq; omega)]
  unfold Outstanding engLive engEn engCfg engAt at *
  rw [hreg, queuesOff_eng]
  exact h

theorem hostLost_parks {e : Nat} {s : State} (he : e < 40) (h : Outstanding e s) : ParkedLost e (hostLost s) :=
  foldl_parkOne_parks _ (queuesOff_outstanding h) (List.mem_range.2 he)

end disabling

/-- The host's loss, at a state that differs from s in what the event itself marks. -/
structure HostGone (s t : State) : Prop where
  st : t.dev.st = s.dev.st
  holder : t.ctl.holder = s.ctl.holder
  journal : t.ctl.journal = s.ctl.journal
  fe : t.fe = s.fe
  grid : t.grid = s.grid
  hbm : t.hbm = s.hbm
  queues : ∀ q, q < 64 → QueueDisabled q t
  ring : evqEn t = false
  parks : ∀ e, e < 40 → Outstanding e s → ParkedLost e t

theorem hostGone_hostLost {s u : State} (hst : u.dev.st = s.dev.st) (hctl : u.ctl = s.ctl) (hfe : u.fe = s.fe) (hgrid : u.grid = s.grid)
    (hhbm : u.hbm = s.hbm) (heng : u.eng = s.eng) (hregs : u.regs = s.regs) : HostGone s (hostLost u) := by
  have h := coreGoesOn_hostLost u
  refine ⟨by rw [h.dev, hst], by rw [h.holder, hctl], by rw [h.journal, hctl], by rw [h.fe, hfe], by rw [h.grid, hgrid], by rw [h.hbm, hhbm],
    fun q hq => hostLost_disables u hq, hostLost_evqEn u, fun e he ho => hostLost_parks he ?_⟩
  unfold Outstanding engLive engEn engCfg engAt regAt at *
  rw [heng, hregs]
  exact ho

theorem hostGone_configReset {s t : State} (h : HostGone s t) : HostGone s (configReset t) :=
  ⟨h.st, h.holder, h.journal, h.fe, h.grid, h.hbm, h.queues, h.ring, h.parks⟩

section losses

variable {s : State}

theorem perstLow_next (hs : s.dev.st ≠ .off) : ∃ t, exec (.perst false) s = .next t ∧ HostGone s t ∧ t.host.msix = [] ∧ t.host.pba = [] := by
  rw [exec_perst, execPerst, if_neg hs]
  exact ⟨_, rfl, hostGone_configReset (hostGone_hostLost rfl rfl rfl rfl rfl rfl rfl), rfl, rfl⟩

theorem hotReset_next (hs : s.dev.st ≠ .off) : ∃ t, exec .hotReset s = .next t ∧ HostGone s t ∧ t.host.msix = [] ∧ t.host.pba = [] := by
  rw [exec_hotReset, execHotReset, if_neg hs]
  exact ⟨_, rfl, hostGone_configReset (hostGone_hostLost rfl rfl rfl rfl rfl rfl rfl), rfl, rfl⟩

theorem flr_next (hs : s.dev.st ≠ .off) : ∃ t, exec .flr s = .next t ∧ HostGone s t ∧ t.host.msix = [] ∧ t.host.pba = [] := by
  rw [exec_flr, execFlr, if_neg hs]
  exact ⟨_, rfl, hostGone_configReset (hostGone_hostLost rfl rfl rfl rfl rfl rfl rfl), rfl, rfl⟩

theorem linkDown_next (hs : s.dev.st ≠ .off) : ∃ t, exec .pcieLinkDown s = .next t ∧ HostGone s t ∧ t.host.msix = s.host.msix ∧
    t.host.linkDowns = satAdd 32 s.host.linkDowns 1 ∧ t.host.linkUp = false := by
  rw [exec_pcieLinkDown, execPcieLinkDown, if_neg hs]
  have h := coreGoesOn_hostLost { s with host := { s.host with linkUp := false, linkDowns := satAdd 32 s.host.linkDowns 1 } }
  exact ⟨_, rfl, hostGone_hostLost rfl rfl rfl rfl rfl rfl rfl, by rw [h.msix], by rw [h.linkDowns], by rw [h.linkUp]⟩

theorem d3hotEntry_next (hs : s.dev.st ≠ .off) : ∃ t, exec .d3hotEntry s = .next t ∧ HostGone s t ∧ t.host.msix = s.host.msix := by
  rw [exec_d3hotEntry, execD3hotEntry, if_neg hs]
  exact ⟨_, rfl, hostGone_hostLost rfl rfl rfl rfl rfl rfl rfl, (coreGoesOn_hostLost _).msix⟩

end losses

end Machine

/-- Settles O27: the five losses by `HostGone`, the link's rise and training by their operands. -/
theorem hostLossContained : Obligations.HostLossContained := by
  unfold Obligations.HostLossContained
  refine ⟨fun s i hs hi => ?_, fun s hs => ⟨?_, ?_, ?_⟩⟩
  · have hgone (t : State) (h : HostGone s t) : t.dev.st = s.dev.st ∧ t.ctl.holder = s.ctl.holder ∧ t.ctl.journal = s.ctl.journal ∧ t.fe = s.fe ∧
        t.grid = s.grid ∧ t.hbm = s.hbm ∧ (∀ q, q < 64 → bit (regAt t (0x10010 + 0x40 * q)) 63 = false) ∧ evqEn t = false ∧
        (∀ e, e < 40 → (engAt s e).park = none → (engAt s e).ci < (engAt s e).pi → engLive s e = true →
          ∃ p, (engAt t e).park = some p ∧ p.cause = 4 ∧ p.done = 0) :=
      ⟨h.st, h.holder, h.journal, h.fe, h.grid, h.hbm, h.queues, h.ring, fun e he h1 h2 h3 => h.parks e he ⟨h1, h2, h3⟩⟩
    rcases hi with rfl | rfl | rfl | rfl | rfl
    · obtain ⟨t, ht, h, hm⟩ := perstLow_next hs
      obtain ⟨h1, h2, h3, h4, h5, h6, h7, h8, h9⟩ := hgone t h
      exact ⟨t, ht, h1, h2, h3, h4, h5, h6, h7, h8, h9, fun _ => hm, by simp, by simp⟩
    · obtain ⟨t, ht, h, hm⟩ := hotReset_next hs
      obtain ⟨h1, h2, h3, h4, h5, h6, h7, h8, h9⟩ := hgone t h
      exact ⟨t, ht, h1, h2, h3, h4, h5, h6, h7, h8, h9, fun _ => hm, by simp, by simp⟩
    · obtain ⟨t, ht, h, hm⟩ := flr_next hs
      obtain ⟨h1, h2, h3, h4, h5, h6, h7, h8, h9⟩ := hgone t h
      exact ⟨t, ht, h1, h2, h3, h4, h5, h6, h7, h8, h9, fun _ => hm, by simp, by simp⟩
    · obtain ⟨t, ht, h, hm, hd⟩ := linkDown_next hs
      obtain ⟨h1, h2, h3, h4, h5, h6, h7, h8, h9⟩ := hgone t h
      exact ⟨t, ht, h1, h2, h3, h4, h5, h6, h7, h8, h9, by simp, fun _ => hm, fun _ => hd⟩
    · obtain ⟨t, ht, h, hm⟩ := d3hotEntry_next hs
      obtain ⟨h1, h2, h3, h4, h5, h6, h7, h8, h9⟩ := hgone t h
      exact ⟨t, ht, h1, h2, h3, h4, h5, h6, h7, h8, h9, by simp, fun _ => hm, by simp⟩
  · rw [exec_perst, execPerst, if_neg hs]
    rfl
  · intro speed width flit hn h1 hspeed hwidth hmem
    have hform : (decide (s.dev.st = .off) || !s.dev.perstN || speed == 0 || decide (bits (regAt s 0x28) 2 0 < speed ∨ bits (regAt s 0x28) 7 3 < width) ||
        !([1, 2, 4, 8, 16] : List Nat).contains width) = false := by
      rw [List.contains_iff_mem.2 hmem]
      simp [hs, hn]
      omega
    rw [exec_pcieLinkTrain, execPcieLinkTrain]
    simp only [hform, Bool.false_eq_true, if_false]
    rfl
  · intro speed width flit hbad
    have hform : (decide (s.dev.st = .off) || !s.dev.perstN || speed == 0 || decide (bits (regAt s 0x28) 2 0 < speed ∨ bits (regAt s 0x28) 7 3 < width) ||
        !([1, 2, 4, 8, 16] : List Nat).contains width) = true := by
      rcases hbad with h | h | h <;> simp [h]
    rw [exec_pcieLinkTrain, execPcieLinkTrain]
    simp only [hform, if_true]
    rfl

end Sys2Proof
end

section
/-!
The run begins and is resumed (R31, R34, R285, R318, R392); the ladder moves (R285, R286).
-/

namespace Sys2Proof

namespace Machine

open Claims

/-- What every step of a fold keeps, the fold keeps. -/
theorem foldl_keeps {α β : Type} (g : State → β) {f : State → α → State} (hf : ∀ s a, g (f s a) = g s) (l : List α) (s : State) :
    g (l.foldl f s) = g s := by
  induction l generalizing s with
  | nil => rfl
  | cons a l ih => rw [List.foldl_cons, ih, hf]

/-- The parts that a change of the fixed zone does not touch. -/
structure ZoneOnly (s t : State) : Prop where
  dev : t.dev = s.dev
  regs : t.regs = s.regs
  hbm : t.hbm = s.hbm
  ctl : t.ctl = s.ctl
  flt : t.flt = s.flt
  pwr : t.pwr = s.pwr

theorem zoneOnly_refl (s : State) : ZoneOnly s s := ⟨rfl, rfl, rfl, rfl, rfl, rfl⟩

theorem zoneOnly_trans (s t u : State) (h : ZoneOnly s t) (k : ZoneOnly t u) : ZoneOnly s u :=
  ⟨k.dev.trans h.dev, k.regs.trans h.regs, k.hbm.trans h.hbm, k.ctl.trans h.ctl, k.flt.trans h.flt, k.pwr.trans h.pwr⟩

theorem zoneOnly_foldl {α : Type} {f : State → α → State} (hf : ∀ s a, ZoneOnly s (f s a)) (l : List α) (s : State) : ZoneOnly s (l.foldl f s) :=
  foldl_rel (β := Nat) ZoneOnly zoneOnly_refl zoneOnly_trans f hf l s

theorem zoneOnly_calApply (es : List CalEntry) (s : State) : ZoneOnly s (calApply es s) := by
  refine zoneOnly_foldl (fun s e => ?_) es s
  unfold calApply1
  split <;> exact ⟨rfl, rfl, rfl, rfl, rfl, rfl⟩

theorem zoneOnly_zoneEff (e : Eff) (s : State) : ZoneOnly s (zoneEff e s) := by
  unfold zoneEff
  split
  · exact ⟨rfl, rfl, rfl, rfl, rfl, rfl⟩
  · exact zoneOnly_calApply _ s
  · exact ⟨rfl, rfl, rfl, rfl, rfl, rfl⟩
  · exact ⟨rfl, rfl, rfl, rfl, rfl, rfl⟩
  · exact zoneOnly_refl s

theorem zoneOnly_flushDue (s : State) : ZoneOnly s (flushDue s) := by
  unfold flushDue
  refine zoneOnly_trans _ _ _ ?_ (zoneOnly_foldl (f := fun s (e : Nat × Eff) => zoneEff e.2 s) (fun s e => zoneOnly_zoneEff e.2 s) _ _)
  exact ⟨rfl, rfl, rfl, rfl, rfl, rfl⟩

theorem zoneOnly_setTile (q c r : Nat) (t : Tile) (s : State) : ZoneOnly s (setTile q c r t s) := ⟨rfl, rfl, rfl, rfl, rfl, rfl⟩

theorem zoneOnly_armSections (s : State) : ZoneOnly s (armSections s) := by
  refine zoneOnly_foldl (fun s h => ?_) _ s
  have ht := zoneOnly_foldl (f := fun t (im : ImTile) => setTile im.vq im.col im.row (tileArm im (tileAt t im.vq im.col im.row)) t)
    (fun t im => zoneOnly_setTile _ _ _ _ t) (secAt s h).placed s
  exact ⟨ht.dev, ht.regs, ht.hbm, ht.ctl, ht.flt, ht.pwr⟩

theorem zoneOnly_armClear (n : Nat) (s : State) : ZoneOnly s (armClear n s) := by
  have h := zoneOnly_trans _ _ _ (zoneOnly_flushDue s) (zoneOnly_armSections _)
  exact ⟨h.dev, h.regs, h.hbm, h.ctl, h.flt, h.pwr⟩

theorem applyRestore_dev (i : StateImage) (noHist : Bool) (t : Nat) (s : State) : (applyRestore i noHist t s).dev = s.dev := by
  refine foldl_keeps State.dev (fun s i => ?_) i.secs s
  exact foldl_keeps State.dev (f := fun t (im : ImTile) => setTile im.vq im.col im.row (restoreTile noHist (secAt s i.hd) i im (tileAt t im.vq im.col im.row)) t)
    (fun t im => rfl) (secAt s i.hd).placed s

theorem restoreAt_dev (n : Nat) (s : State) : (restoreAt n s).dev = s.dev := by
  unfold restoreAt
  split
  · exact applyRestore_dev _ _ _ _
  · rfl

theorem restoreAt_of_none {n : Nat} {s : State} (h : s.restoring = none) : restoreAt n s = s := by
  simp [restoreAt, h]

/-- What a start of recording and replay leaves: all but the acquisition engine's record of them (R309, R311). -/
structure RunStarts (s t : State) : Prop where
  dev : t.dev = s.dev
  comb : t.comb = s.comb
  fe : t.fe = s.fe
  level : t.acq.level = s.acq.level

theorem runStarts_recordStart (n kind : Nat) (i : Option StateImage) (s : State) : RunStarts s (recordStart n kind i s) := by
  unfold recordStart
  split <;> exact ⟨rfl, rfl, rfl, rfl⟩

theorem runStarts_replayStart (s : State) : RunStarts s (replayStart s) := by
  unfold replayStart
  split <;> exact ⟨rfl, rfl, rfl, rfl⟩

theorem runStarts_both (n kind : Nat) (i : Option StateImage) (s : State) : RunStarts s (replayStart (recordStart n kind i s)) :=
  have h := runStarts_recordStart n kind i s
  have k := runStarts_replayStart (recordStart n kind i s)
  ⟨k.dev.trans h.dev, k.comb.trans h.comb, k.fe.trans h.fe, k.level.trans h.level⟩

theorem runBegins_dev (n kind : Nat) (s : State) : (runBegins n kind s).dev = s.dev :=
  (runStarts_both _ _ _ _).dev.trans (restoreAt_dev n s)

/-- Commands that become final at their tick keep what each of them keeps. -/
theorem finishAt_keeps {β : Type} {g : State → β} (hg : ∀ w st s, g (finishWait w st s) = g s) (op n : Nat) (s : State) : g (finishAt op n s) = g s := by
  unfold finishAt
  generalize (List.filter _ _) = l
  induction l generalizing s with
  | nil => rfl
  | cons w l ih => rw [List.foldl_cons, ih, hg]

theorem finishAt_dev (op n : Nat) (s : State) : (finishAt op n s).dev = s.dev := finishAt_keeps (g := State.dev) finishWait_dev op n s

theorem scrubStart_dev (s : State) : (scrubStart s).dev = s.dev := by
  unfold scrubStart
  split <;> rfl

/-- What E(T_a) makes of the device (R392). -/
theorem armEdge_dev {n a : Nat} {s : State} (hst : s.dev.st = .armed) (ha : s.dev.armAt = some a) (hn : a ≤ n) : (armEdge n s).dev =
    { s.dev with st := .running, armAt := none, tA := n, tR := 0, tP := 0, pauseAt := none, noHist := false } := by
  unfold armEdge
  rw [if_pos (by simp [hst, ha, hn])]
  dsimp only
  rw [finishAt_dev, scrubStart_dev, setDev_dev, runBegins_dev, (zoneOnly_armClear _ _).dev]

theorem armEdge_of_early {n a : Nat} {s : State} (ha : s.dev.armAt = some a) (hn : n < a) : armEdge n s = s := by
  unfold armEdge
  rw [if_neg (by simp [ha, hn])]

theorem resumeEdge_of_early {n a : Nat} {s : State} (ha : s.dev.resumeAt = some a) (hn : n < a) : resumeEdge n s = s := by
  unfold resumeEdge
  rw [if_neg (by simp [ha, hn])]

theorem path_level {s t : State} (h : Traces s t) : t.acq.level = s.acq.level := by rw [h]

/-- A waiting command's end leaves the acquisition engine's level. -/
theorem finishWait_level (w : Waiting) (st : Nat) (s : State) : (finishWait w st s).acq.level = s.acq.level := by
  have h : Traces (waitOver w.jseq s) (finishWait w st s) := path_finishEff _ _ _ _ _ _ _ _ _
  exact (path_level h).trans rfl

theorem finishAt_comb (op n : Nat) (s : State) : (finishAt op n s).comb = s.comb := finishAt_keeps (g := State.comb) finishWait_comb op n s
theorem finishAt_fe (op n : Nat) (s : State) : (finishAt op n s).fe = s.fe := finishAt_keeps (g := State.fe) finishWait_fe op n s
theorem finishAt_level (op n : Nat) (s : State) : (finishAt op n s).acq.level = s.acq.level :=
  finishAt_keeps (g := (·.acq.level)) finishWait_level op n s

/-- The state at E(T_r) from which the run goes on (R318). -/
def resumeFrom (n : Nat) (s : State) : State :=
  let u := resumeShift s.dev.tP n { s with dev := { s.dev with resumeAt := none, tR := n } }
  { u with acq := { u.acq with tStart := some n } }

theorem resumeEdge_eq {n a : Nat} {s : State} (hst : s.dev.st = .paused) (ha : s.dev.resumeAt = some a) (hn : a ≤ n) (hr : s.restoring = none) :
    resumeEdge n s = finishAt 0x109 n (setDev .running (replayStart (recordStart n 1 (resumeFrom n s).restoring (resumeFrom n s)))) := by
  have hx : resumeEdge n s = finishAt 0x109 n (setDev .running (runBegins n 1 (resumeFrom n s))) := by
    unfold resumeEdge
    rw [if_pos (by simp [hst, ha, hn])]
    rfl
  rw [hx, runBegins, restoreAt_of_none (show (resumeFrom n s).restoring = none from hr)]

/-- What the run goes on with (R285, R318). -/
theorem resumeEdge_facts {n a : Nat} {s : State} (hst : s.dev.st = .paused) (ha : s.dev.resumeAt = some a) (hn : a ≤ n) (hr : s.restoring = none) :
    (resumeEdge n s).dev = { s.dev with st := .running, resumeAt := none, tR := n } ∧ (resumeEdge n s).comb.cnt = s.comb.cnt ∧
      (resumeEdge n s).fe = s.fe ∧ (resumeEdge n s).acq.level = s.acq.level := by
  have h := runStarts_both n 1 (resumeFrom n s).restoring (resumeFrom n s)
  rw [resumeEdge_eq hst ha hn hr]
  generalize replayStart (recordStart n 1 (resumeFrom n s).restoring (resumeFrom n s)) = u at *
  refine ⟨?_, ?_, ?_, ?_⟩
  · rw [finishAt_dev, setDev_dev, h.dev]
    rfl
  · rw [finishAt_comb, setDev_comb, h.comb]
    rfl
  · rw [finishAt_fe, setDev_fe, h.fe]
    rfl
  · rw [finishAt_level, setDev_acq, h.level]
    rfl

end Machine

open Machine Claims

/-- Settles O30: both edges wait for their tick; ARM clears the zone by `armClear`, RESUME goes on from the pause. -/
theorem runBegins : Obligations.RunBegins := by
  unfold Obligations.RunBegins
  intro n a s
  refine ⟨fun _ ha hn => armEdge_of_early ha hn, fun _ ha hn => resumeEdge_of_early ha hn, fun hst => ?_, fun hst => ?_, fun hst ha hn => ?_,
    fun hst ha hn hr => ?_, ?_⟩
  · unfold armEdge
    rw [if_neg (by simp [hst])]
  · unfold resumeEdge
    rw [if_neg (by simp [hst])]
  · rw [armEdge_dev hst ha hn]
    exact ⟨rfl, rfl, rfl⟩
  · obtain ⟨hdev, hcnt, hfe, hlev⟩ := resumeEdge_facts hst ha hn hr
    rw [hdev]
    exact ⟨rfl, rfl, rfl, hcnt, hfe, hlev⟩
  · intro c
    have h := zoneOnly_armClear n s
    exact ⟨rfl, rfl, rfl, rfl, rfl, rfl, rfl, rfl, rfl, rfl, rfl, rfl, h.regs, h.hbm, h.ctl, h.flt, h.pwr⟩

namespace Machine

/-- What the ladder's marks and its log entry leave of the ladder (R286, R309). -/
structure LadderKept (s t : State) : Prop where
  level : t.acq.level = s.acq.level
  levels : t.acq.levels = s.acq.levels
  lastChange : t.acq.lastChange = s.acq.lastChange
  ladPend : t.acq.ladPend = s.acq.ladPend
  lines : t.comb.lines = s.comb.lines
  cnt : ∀ k, k ≠ 19 → devCnt t k = devCnt s k
  regs : t.regs = s.regs

theorem ladderKept_refl (s : State) : LadderKept s s := ⟨rfl, rfl, rfl, rfl, rfl, fun _ _ => rfl, rfl⟩

theorem ladderKept_trans (s t u : State) (h : LadderKept s t) (k : LadderKept t u) : LadderKept s u :=
  ⟨k.level.trans h.level, k.levels.trans h.levels, k.lastChange.trans h.lastChange, k.ladPend.trans h.ladPend, k.lines.trans h.lines,
    fun j hj => (k.cnt j hj).trans (h.cnt j hj), k.regs.trans h.regs⟩

theorem ladderKept_marks (n old new : Nat) (s : State) : LadderKept s (ladderMarks n old new s) := by
  refine foldl_rel (β := Nat) LadderKept ladderKept_refl ladderKept_trans _ (fun s d => ?_) _ s
  exact ⟨rfl, rfl, rfl, rfl, rfl, fun k hk => cget_cadd_ne _ _ _ hk, rfl⟩

theorem ladderKept_logAdd (e : LogEntry) (s : State) : LadderKept s (logAdd e s) := by
  unfold logAdd
  split <;> exact ⟨rfl, rfl, rfl, rfl, rfl, fun _ _ => rfl, rfl⟩

/-- The ladder's own fields after a change of level, before it is marked and logged (R285). -/
def levelChanged (n new : Nat) (s : State) : State :=
  { s with acq := { s.acq with
      level := new, levels := ((n, new) :: s.acq.levels).take 4096, lastChange := some n, lowRun := 0
      ladPend := s.acq.ladPend ++ [{ tick := n, old := s.acq.level, new := new }] } }

theorem changeLevel_kept {n new : Nat} {s : State} (hne : new ≠ s.acq.level) :
    LadderKept (addCnt (if s.acq.level < new then 21 else 22) 1 (levelChanged n new s)) (changeLevel n new s) := by
  unfold changeLevel
  dsimp only
  rw [if_neg hne]
  exact ladderKept_trans _ _ _ (ladderKept_logAdd _ _) (ladderKept_marks _ _ _ _)

/-- What a change of level leaves (R285, R286): `k` is the count that rises, `j` the other of the two. -/
theorem changeLevel_facts {n new k j : Nat} {s : State} (hne : new ≠ s.acq.level) (hk : k = if s.acq.level < new then 21 else 22)
    (hk19 : k ≠ 19) (hj : j ≠ k) (hj19 : j ≠ 19) :
    let t := changeLevel n new s
    t.acq.level = new ∧ levelFor t n = new ∧ t.acq.lastChange = some n ∧ devCnt t k = satAdd 64 (devCnt s k) 1 ∧ devCnt t j = devCnt s j ∧
      t.comb.lines = s.comb.lines ∧ t.regs = s.regs ∧ { tick := n, old := s.acq.level, new := new } ∈ t.acq.ladPend := by
  intro t
  have h : LadderKept _ t := changeLevel_kept hne
  rw [← hk] at h
  refine ⟨h.level, ?_, h.lastChange, ?_, ?_, h.lines, h.regs, ?_⟩
  · unfold levelFor
    rw [h.levels]
    simp [addCnt, levelChanged]
  · rw [h.cnt k hk19]
    exact cget_cadd_same _ _ _ _
  · rw [h.cnt j hj19]
    exact cget_cadd_ne _ _ _ hj
  · rw [h.ladPend]
    exact List.mem_append_right _ List.mem_cons_self

theorem ladderChange_eq {s : State} (hc : counted s (nowTick s) = true) (hs : saving s = false) (hr : recordedFeedback s = false) :
    exec .ladderChange s = .next (ladderStep (nowTick s) s) := by
  rw [exec_ladderChange, execLadderChange]
  simp only [hc, hs, hr, Bool.not_true, Bool.or_self, Bool.false_eq_true, if_false]
  rfl

section step

variable {n : Nat} {s : State}

theorem ladderStep_up (hp : ladHi s ≤ s.acq.shownPressure) (hl : s.acq.level < ladMax s) (hr : riseFree n s = true) :
    ladderStep n s = changeLevel n (s.acq.level + 1) s := by
  unfold ladderStep
  rw [if_pos (by simp [hp, hl, hr])]

theorem ladderStep_down (hp : s.acq.shownPressure < ladHi s) (h0 : 0 < s.acq.level) (hf : ladFall s ≤ s.acq.lowRun)
    (hlo : s.acq.shownPressure ≤ ladLo s) (hc : s.acq.lastChange ≠ some n) : ladderStep n s = changeLevel n (s.acq.level - 1) s := by
  unfold ladderStep
  rw [if_neg (by simp [Nat.not_le_of_lt hp]), if_pos (by simp [h0, hf, hlo, hc])]

theorem ladderStep_stay (hp : s.acq.shownPressure < ladHi s) (hf : s.acq.lowRun < ladFall s) : ladderStep n s = s := by
  unfold ladderStep
  rw [if_neg (by simp [Nat.not_le_of_lt hp]), if_neg (by simp [Nat.not_le_of_lt hf])]

end step

end Machine

/-- Settles O31: at a counted edge the ladder makes `ladderStep`, and a change of level is `changeLevel_facts`. -/
theorem ladderMoves : Obligations.LadderMoves := by
  unfold Obligations.LadderMoves
  intro s n hc hs hr
  refine ⟨fun hp hl hrise => ?_, fun hp h0 hf hlo hlast => ?_, fun hp hf => ?_⟩
  · have hx := ladderChange_eq hc hs hr
    rw [ladderStep_up hp hl hrise] at hx
    exact ⟨_, hx, changeLevel_facts (k := 21) (j := 22) (by omega) (by simp) (by decide) (by decide) (by decide)⟩
  · have hx := ladderChange_eq hc hs hr
    rw [ladderStep_down hp h0 hf hlo hlast] at hx
    obtain ⟨h1, h2, h3, h4, h5, h6, h7, -⟩ := changeLevel_facts (n := nowTick s) (new := s.acq.level - 1) (k := 22) (j := 21) (s := s) (by omega)
      (by rw [if_neg (by omega)]) (by decide) (by decide) (by decide)
    exact ⟨_, hx, h1, h2, h3, h4, h5, h6, h7⟩
  · rw [ladderChange_eq hc hs hr, ladderStep_stay hp hf]

end Sys2Proof
end

section
/-!
A pause takes effect, drains and ends; a swap ends (R186, R264, R315, R392).
-/

namespace Sys2Proof

namespace Machine

open Claims

theorem enterPaused_st (p : Nat) (s : State) : (enterPaused p s).dev.st = .paused := by
  unfold enterPaused
  dsimp only
  split
  · rw [finishLong_dev, setDev_dev]
  · rw [setDev_dev]

section pause

variable {s : State}

theorem pauseEffect_eq (hp : s.dev.pauseReq = true) (hst : s.dev.st = .running) (ha : s.dev.pauseAt = none) (hn : noPass s = true) :
    let u := { s with dev := { s.dev with tP := nowTick s, pauseAt := some (nowTick s) } }
    exec .pauseEffect s = .next (if nowTick s ≤ nextDecided s then enterPaused (nowTick s) u else u) := by
  rw [exec_pauseEffect, execPauseEffect]
  simp only [hp, hst, ha, hn, Option.isNone_none, beq_self_eq_true, Bool.and_self, if_true]
  rfl

theorem pauseEffect_waits (hn : noPass s = false) : exec .pauseEffect s = .next s := by
  rw [exec_pauseEffect, execPauseEffect]
  simp only [hn, Bool.and_false, Bool.false_eq_true, if_false]
  rfl

/-- The state that a finished drain leaves, before STOP becomes final (R264). -/
def drained (s : State) : State :=
  toIdle { s with dev := { s.dev with draining := false, stopJ := none }
                  acq := { s.acq with replay := if s.acq.replay.running then {} else s.acq.replay } }

theorem drained_dev (s : State) : (drained s).dev =
    { s.dev with st := if (residents s).isEmpty then .ready else .loaded, draining := false, stopJ := none } := by
  unfold drained toIdle
  rw [setDev_dev]
  rfl

theorem drained_comb (s : State) : (drained s).comb = s.comb := by
  unfold drained toIdle
  rw [setDev_comb]

theorem drainDone_eq (hst : s.dev.st = .paused) (hd : s.dev.draining = true) (hc : ctxInUse s = 0) (hr : devCnt s 19 = devCnt s 20) :
    exec .drainDone s = .next (match s.dev.stopJ with | some j => finishLong j 0 0 [] (drained s) | none => drained s) := by
  rw [exec_drainDone, execDrainDone, if_pos (by simp [hst, hd, hc, hr])]
  rfl

theorem drainDone_waits (h : 0 < ctxInUse s ∨ devCnt s 19 ≠ devCnt s 20) : exec .drainDone s = .next s := by
  rw [exec_drainDone, execDrainDone]
  have hno : (s.dev.st == .paused && s.dev.draining && ctxInUse s == 0 && devCnt s 19 == devCnt s 20) = false := by
    rcases h with h | h
    · simp [Nat.pos_iff_ne_zero.1 h]
    · simp [h]
  simp only [hno, Bool.false_eq_true, if_false]
  rfl

theorem swapEnd_eq {w : Swap} (hw : s.grid.swap = some w) (hne : w.outs ≠ [] ∨ w.ins ≠ []) : exec .swapEnd s = .next (
    if nowTick s < w.endTick then s else swapSettle { w with outs := [], ins := [] } (exchangeFixed w.outs w.ins s)) := by
  have hno : (w.outs.isEmpty && w.ins.isEmpty) = false := by
    rcases hne with h | h <;> simp [h]
  rw [exec_swapEnd, execSwapEnd, hw]
  simp only [hno, Bool.false_or, decide_eq_true_eq]
  rfl

end pause

end Machine

open Machine Claims

/-- Settles O32: each of the three rows by its own condition, and `drained` for what a drain leaves. -/
theorem pauseDrainSwap : Obligations.PauseDrainSwap := by
  unfold Obligations.PauseDrainSwap
  intro s
  refine ⟨fun hp hst ha hn => ?_, fun _ hn => pauseEffect_waits hn, fun hst hd hc hr => ?_, fun h => drainDone_waits h, fun w hw hne => ?_⟩
  · have hx := pauseEffect_eq hp hst ha hn
    refine ⟨fun hlt => ?_, fun hle => ⟨?_, enterPaused_st _ _⟩⟩
    · rw [hx, if_neg (by omega)]
    · rw [hx, if_pos hle]
  · refine ⟨_, drainDone_eq hst hd hc hr, ?_⟩
    have hdev : (match s.dev.stopJ with | some j => finishLong j 0 0 [] (drained s) | none => drained s).dev = (drained s).dev := by
      split
      · exact finishLong_dev _ _ _ _ _
      · rfl
    have hcomb : (match s.dev.stopJ with | some j => finishLong j 0 0 [] (drained s) | none => drained s).comb = (drained s).comb := by
      split
      · exact finishLong_comb _ _ _ _ _
      · rfl
    rw [hdev, hcomb, drained_dev, drained_comb]
    exact ⟨rfl, rfl, rfl, rfl⟩
  · rw [swapEnd_eq hw hne]
    exact ⟨fun hlt => by rw [if_pos hlt], fun hle => by rw [if_neg (by omega)]⟩

end Sys2Proof
end

section
/-!
Frames, lane loss and trigger inputs (R209 to R212, R220).
-/

namespace Sys2Proof

namespace Machine

open Claims

section frames

variable {k : LaneCfg} {ii depth lane x : Nat} {ws : List (BitVec 32)} {st : LaneSt}

/-- The CRC word of a frame is that of its words (R209). -/
def CrcHolds (k : LaneCfg) (ws : List (BitVec 32)) : Prop :=
  crc32c (wordBytes ((ws.drop 1).take (lanePlen k + 2))) = ws.getD (lanePlen k + 3) 0#32

/-- How far ahead of the oldest open tick a frame's tick number is, modulo 2^16 (R209). -/
def frameLead (ii depth x : Nat) (ws : List (BitVec 32)) : Nat :=
  (bits (ws.getD 1 0#32).toNat 15 0 + 65536 - oldestOpen ii depth x % 65536) % 65536

/-- A good frame as a lane holds it (R209). -/
def frameHeld (k : LaneCfg) (ii depth x : Nat) (ws : List (BitVec 32)) : HeldFrame :=
  { tick := oldestOpen ii depth x + frameLead ii depth x ws, srcErr := bit (ws.getD 2 0#32).toNat 10
    payload := wordBytes ((ws.drop 3).take (lanePlen k)) }

theorem laneCount_held (n : Nat) (y : LaneSt) : (laneCount n y).held = y.held := rfl

theorem laneCount_up (n : Nat) (y : LaneSt) : (laneCount n y).up = y.up := rfl

theorem laneCount_noGood (n : Nat) (y : LaneSt) : (laneCount n y).noGood = y.noGood := rfl

theorem crcHolds_beq (hc : CrcHolds k ws) :
    (crc32c (wordBytes ((ws.drop 1).take (lanePlen k + 2))) == ws.getD (lanePlen k + 3) 0#32) = true := beq_iff_eq.2 hc

theorem frameArrive_badCrc (hu : st.up = true) (hc : ¬ CrcHolds k ws) : frameArrive k ii depth lane ws x st = (laneCount 0 st, []) := by
  have hno : (crc32c (wordBytes ((ws.drop 1).take (lanePlen k + 2))) == ws.getD (lanePlen k + 3) 0#32) = false := beq_eq_false_iff_ne.2 hc
  unfold frameArrive
  simp only [hno, hu, Bool.false_and, Bool.not_true, Bool.not_false, Bool.false_eq_true, if_false, if_true]

theorem frameArrive_badHeader (hu : st.up = true) (hc : CrcHolds k ws) (hh : Sys2Proof.headerOk k (ws.getD 1 0#32).toNat (ws.getD 2 0#32).toNat = false) :
    frameArrive k ii depth lane ws x st = (laneCount 1 st, []) := by
  unfold frameArrive
  simp only [crcHolds_beq hc, hh, hu, Bool.and_false, Bool.not_true, Bool.not_false, Bool.false_eq_true, if_false, if_true]

/-- A good frame takes its lane up, and is then placed by how far ahead its tick is. -/
theorem frameArrive_good (hc : CrcHolds k ws) (hh : Sys2Proof.headerOk k (ws.getD 1 0#32).toNat (ws.getD 2 0#32).toNat = true) :
    (frameArrive k ii depth lane ws x st).1 =
      (let y := { st with up := true, noGood := 0 }
       let o : Int := (x : Int) - ((oldestOpen ii depth x + frameLead ii depth x ws) * ii : Nat)
       if 32768 ≤ frameLead ii depth x ws then laneCount 2 y
       else if st.held.any (fun h => h.tick % 65536 == bits (ws.getD 1 0#32).toNat 15 0) then laneCount 3 y
       else if frameLead ii depth x ws ≤ 1 then
         { y with held := st.held ++ [frameHeld k ii depth x ws]
                  ofsMin := some (match st.ofsMin with | none => o | some m => min m o)
                  ofsMax := some (match st.ofsMax with | none => o | some m => max m o) }
       else { (laneCount 4 y) with held := [] }) := by
  unfold frameArrive
  simp only [crcHolds_beq hc, hh, Bool.and_self, if_true, Bool.not_true, Bool.false_eq_true, if_false]
  rw [apply_ite Prod.fst, apply_ite Prod.fst, apply_ite Prod.fst]
  rfl

theorem frameArrive_up (hc : CrcHolds k ws) (hh : Sys2Proof.headerOk k (ws.getD 1 0#32).toNat (ws.getD 2 0#32).toNat = true) :
    (frameArrive k ii depth lane ws x st).1.up = true ∧ (frameArrive k ii depth lane ws x st).1.noGood = 0 := by
  rw [frameArrive_good hc hh]
  dsimp only
  split
  · exact ⟨rfl, rfl⟩
  · split
    · exact ⟨rfl, rfl⟩
    · split
      · exact ⟨rfl, rfl⟩
      · exact ⟨rfl, rfl⟩

theorem frameArrive_late (hc : CrcHolds k ws) (hh : Sys2Proof.headerOk k (ws.getD 1 0#32).toNat (ws.getD 2 0#32).toNat = true)
    (hd : 32768 ≤ frameLead ii depth x ws) : (frameArrive k ii depth lane ws x st).1.held = st.held := by
  rw [frameArrive_good hc hh]
  dsimp only
  rw [if_pos hd, laneCount_held]

/-- No frame of the same tick number is held. -/
theorem noTwin (hn : ∀ h ∈ st.held, h.tick % 65536 ≠ bits (ws.getD 1 0#32).toNat 15 0) :
    ¬ st.held.any (fun h => h.tick % 65536 == bits (ws.getD 1 0#32).toNat 15 0) = true := by
  simpa using hn

theorem frameArrive_holds (hc : CrcHolds k ws) (hh : Sys2Proof.headerOk k (ws.getD 1 0#32).toNat (ws.getD 2 0#32).toNat = true)
    (hd : frameLead ii depth x ws ≤ 1) (hn : ∀ h ∈ st.held, h.tick % 65536 ≠ bits (ws.getD 1 0#32).toNat 15 0) :
    (frameArrive k ii depth lane ws x st).1.held = st.held ++ [frameHeld k ii depth x ws] := by
  rw [frameArrive_good hc hh]
  dsimp only
  rw [if_neg (by omega), if_neg (noTwin hn), if_pos hd]

theorem frameArrive_early (hc : CrcHolds k ws) (hh : Sys2Proof.headerOk k (ws.getD 1 0#32).toNat (ws.getD 2 0#32).toNat = true)
    (hlo : 1 < frameLead ii depth x ws) (hhi : frameLead ii depth x ws < 32768)
    (hn : ∀ h ∈ st.held, h.tick % 65536 ≠ bits (ws.getD 1 0#32).toNat 15 0) : (frameArrive k ii depth lane ws x st).1.held = [] := by
  rw [frameArrive_good hc hh]
  dsimp only
  rw [if_neg (by omega), if_neg (noTwin hn), if_neg (by omega)]

end frames

section lanes

variable {s : State} {lane x : Nat} {words : List (BitVec 32)}

theorem exec_frame_eq (hz : zoneOn s = true) (hl : lane < 96) (he : (laneCfg (regAt s) lane).en = true) : exec (.frame lane words x) s = .next (
    if words.headD 0#32 = sofWord then
      let r := frameArrive (laneCfg (regAt s) lane) (iiOf s) (alignOf s) lane words x (laneAt s.fe lane)
      raiseEvs r.2 { s with fe := setLane s.fe lane r.1 }
    else s) := by
  have hno : (!zoneOn s || decide (96 ≤ lane) || !(laneCfg (regAt s) lane).en || words.headD 0#32 != sofWord) =
      !(words.headD 0#32 == sofWord) := by
    rw [hz, he, decide_eq_false (by omega)]
    rfl
  rw [exec_frame, execFrame, goes]
  dsimp only
  rw [hno]
  by_cases hw : words.headD 0#32 = sofWord
  · rw [if_pos hw, hw, if_neg (by decide)]
  · rw [if_neg hw, if_pos (by rw [beq_eq_false_iff_ne.2 hw]; decide)]

theorem exec_laneDown_eq (hl : lane < 96) : exec (.laneDown lane) s = .next (
    raiseEvs (laneFall lane (laneAt s.fe lane)).2 { s with fe := setLane s.fe lane (laneFall lane (laneAt s.fe lane)).1 }) := by
  rw [exec_laneDown, execLaneDown, if_neg (by simp; omega)]
  rfl

theorem laneFall_up {st : LaneSt} (h : st.up = true) : laneFall lane st =
    (laneCount 7 { st with up := false, held := [], noGood := 0 }, [{ code := 0x0020, sev := 3, origin := lane }]) := if_pos h

theorem laneFall_down {st : LaneSt} (h : st.up = false) : laneFall lane st = (st, []) := if_neg (by simp [h])

/-- The tick whose window [A(T) - II, A(T)) holds a grid cycle, by the bounds of that window (R220). -/
theorem trgTick_of_window {g a i t : Nat} (hi : 0 < i)
    (h : (t = 0 ∧ g < a) ∨ (0 < t ∧ a + i * t ≤ g + i ∧ g < a + i * t)) : (if a ≤ g then (g - a) / max i 1 + 1 else 0) = t := by
  rw [Nat.max_eq_left hi]
  rcases h with ⟨rfl, hlt⟩ | ⟨ht, hlo, hhi⟩
  · exact if_neg (by omega)
  · obtain ⟨n, rfl⟩ : ∃ n, t = n + 1 := ⟨t - 1, by omega⟩
    rw [Nat.mul_succ] at hlo hhi
    have hle : a ≤ g := by omega
    have hq : (g - a) / i = n := Nat.div_eq_of_lt_le (by rw [Nat.mul_comm]; omega) (by rw [Nat.mul_comm, Nat.mul_succ]; omega)
    rw [if_pos hle, hq]

theorem exec_trgIn_eq {k x : Nat} (hz : zoneOn s = true) (hk : k < 8) : exec (.trgInEdge k x) s = .next (
    let g := ((x : Int) - (calEffective s 2 k).1).toNat * 2 ^ 32 * iiOf s / (max (periodOf s) 1 * 1000)
    let t := if alignOf s ≤ g then (g - alignOf s) / max (iiOf s) 1 + 1 else 0
    { s with fe := { s.fe with trgIn := cset s.fe.trgIn t (cget s.fe.trgIn t ||| 2 ^ k) } }) := by
  rw [exec_trgInEdge, execTrgInEdge, if_neg (by simp [hz]; omega)]
  rfl

end lanes

end Machine

open Machine Claims

/-- Settles O33: by what becomes of a frame on its lane, of a lane that loses lock, and by the window of a trigger's tick. -/
theorem laneRows : Obligations.LaneRows := by
  unfold Obligations.LaneRows
  intro s lane hl
  refine ⟨fun words x hz he => ?_, fun hu => ?_, fun hd => ?_, fun k x t hz hk hi h => ?_⟩
  · have hx := exec_frame_eq (words := words) (x := x) hz hl he
    refine ⟨fun hw => by rw [hx, if_pos hw], fun hw => by rw [hx, if_neg hw], frameArrive_badCrc, frameArrive_badHeader, frameArrive_up,
      frameArrive_late, frameArrive_holds, frameArrive_early⟩
  · rw [exec_laneDown_eq hl, laneFall_up hu]
    rfl
  · rw [exec_laneDown_eq hl, laneFall_down hd]
    rfl
  · rw [exec_trgIn_eq hz hk]
    dsimp only
    rw [trgTick_of_window hi h]

end Sys2Proof
end

section
/-!
The tier-two queue: how a parison ends, and the rows of its candidates and passes (R257 to R264, R514).
-/

namespace Sys2Proof

namespace Machine

open Claims

/-! What the end of a parison leaves -/

/-- The counter of a parison's outcome is one of 8 to 12 (R33). -/
theorem parCtr_range (e : ParEnd) (policy : Bool) : 8 ≤ parCtr e policy ∧ parCtr e policy ≤ 12 := by
  cases e with
  | suspect => cases policy <;> decide
  | accept | reject | expired => simp [parCtr]

/-- The counter of a tick's outcome is one of 1 to 5 (R32). -/
theorem outcomeCtr_range (o : TickOutcome) : 1 ≤ outcomeCtr o ∧ outcomeCtr o ≤ 5 := by
  cases o with
  | accepted | rejected | heldOff | shed | void => exact ⟨by decide, by decide⟩

theorem devCnt_addCnt_same (k n : Nat) (s : State) : devCnt (addCnt k n s) k = satAdd 64 (devCnt s k) n := cget_cadd_same _ _ _ _

theorem devCnt_addCnt_ne {k j : Nat} (n : Nat) (s : State) (h : j ≠ k) : devCnt (addCnt k n s) j = devCnt s j := cget_cadd_ne _ _ _ h

theorem devCnt_decCnt_same (k : Nat) (s : State) : devCnt (decCnt k s) k = devCnt s k - 1 := tget_tset_same _ _ _ _

theorem devCnt_decCnt_ne {k j : Nat} (s : State) (h : j ≠ k) : devCnt (decCnt k s) j = devCnt s j := tget_tset_ne _ _ _ h

theorem ctxAt_setCtx_same (c : Nat) (x : Ctx) (s : State) : ctxAt (setCtx c x s) c = x := tget_tset_same _ _ _ _

theorem passAt_setPass_same (h : Nat) (p : Pass) (s : State) : passAt (setPass h p s) h = p := tget_tset_same _ _ _ _

/-- Everything but the combiner is as it was. -/
structure CombOnly (s t : State) : Prop where
  t2 : t.t2 = s.t2
  hbm : t.hbm = s.hbm
  grid : t.grid = s.grid
  fe : t.fe = s.fe
  regs : t.regs = s.regs

/-- The end of a pending tick touches the counters of R32 alone (R11). -/
theorem pendEnd_combOnly (t : Nat) (acc void : Bool) (s : State) : CombOnly s (pendEnd t acc void s) := by
  unfold pendEnd
  split
  · exact ⟨rfl, rfl, rfl, rfl, rfl⟩
  · dsimp only
    split
    · exact ⟨rfl, rfl, rfl, rfl, rfl⟩
    · split
      · exact ⟨rfl, rfl, rfl, rfl, rfl⟩
      · exact ⟨rfl, rfl, rfl, rfl, rfl⟩

theorem devCnt_outcome (o : TickOutcome) (s : State) {k : Nat} (hk : 7 ≤ k) : devCnt (addCnt (outcomeCtr o) 1 (decCnt 6 s)) k = devCnt s k := by
  have ho := outcomeCtr_range o
  rw [devCnt_addCnt_ne _ _ (by omega), devCnt_decCnt_ne _ (by omega)]

theorem devCnt_pendEnd (t : Nat) (acc void : Bool) (s : State) {k : Nat} (hk : 7 ≤ k) : devCnt (pendEnd t acc void s) k = devCnt s k := by
  unfold pendEnd
  split
  · rfl
  · dsimp only
    split
    · rfl
    · split
      · rfl
      · exact devCnt_outcome _ _ hk

/-- The counters and the pending tick of a parison that ends, before its context is freed or kept for delivery. -/
def parCounted (c : Nat) (e : ParEnd) (s : State) : State :=
  pendEnd (ctxAt s c).tick (parAccepts e (ctxAt s c).accept) (parVoids e (ctxAt s c).accept) (decCnt 13 (addCnt (parCtr e (ctxAt s c).accept) 1 s))

theorem parEnd_eq (c : Nat) (e : ParEnd) (s : State) : parEnd c e s =
    if parAccepts e (ctxAt s c).accept then deliverStart c (ctxAt s c) (e == .suspect) (parCounted c e s) else setCtx c {} (parCounted c e s) := rfl

theorem devCnt_parCounted (c : Nat) (e : ParEnd) (s : State) {k : Nat} (hk : 7 ≤ k) : devCnt (parCounted c e s) k =
    if k = 13 then devCnt s 13 - 1 else if k = parCtr e (ctxAt s c).accept then satAdd 64 (devCnt s k) 1 else devCnt s k := by
  have hr := parCtr_range e (ctxAt s c).accept
  rw [parCounted, devCnt_pendEnd _ _ _ _ hk]
  split
  · subst k
    rw [devCnt_decCnt_same, devCnt_addCnt_ne _ _ (by omega)]
  · rw [devCnt_decCnt_ne _ ‹_›]
    split
    · subst k
      exact devCnt_addCnt_same _ _ _
    · exact devCnt_addCnt_ne _ _ ‹_›

theorem parCounted_combOnly (c : Nat) (e : ParEnd) (s : State) : CombOnly s (parCounted c e s) := by
  obtain ⟨h2, hh, hg, hf, hr⟩ := pendEnd_combOnly (ctxAt s c).tick (parAccepts e (ctxAt s c).accept) (parVoids e (ctxAt s c).accept)
    (decCnt 13 (addCnt (parCtr e (ctxAt s c).accept) 1 s))
  exact ⟨h2, hh, hg, hf, hr⟩

theorem deliverStart_on {c : Nat} {x : Ctx} (d : Bool) (s : State) (h : x.tpl.en = true) :
    deliverStart c x d s = setCtx c { x with st := .deliver, doubt := x.doubt || d, suspect := d } s := if_pos h

theorem deliverStart_off {c : Nat} {x : Ctx} (d : Bool) (s : State) (h : x.tpl.en = false) :
    deliverStart c x d s = addCnt 31 1 (setCtx c {} s) := if_neg (by simp [h])

/-- A parison's end, by whether its outcome accepts and its template is enabled (R257, R261). -/
theorem parEnd_cases (c : Nat) (e : ParEnd) (s : State) :
    (parAccepts e (ctxAt s c).accept = false ∧ parEnd c e s = setCtx c {} (parCounted c e s)) ∨
    (parAccepts e (ctxAt s c).accept = true ∧ (ctxAt s c).tpl.en = true ∧ parEnd c e s = setCtx c { ctxAt s c with
      st := .deliver, doubt := (ctxAt s c).doubt || (e == .suspect), suspect := e == .suspect } (parCounted c e s)) ∨
    (parAccepts e (ctxAt s c).accept = true ∧ (ctxAt s c).tpl.en = false ∧ parEnd c e s = addCnt 31 1 (setCtx c {} (parCounted c e s))) := by
  rw [parEnd_eq]
  cases ha : parAccepts e (ctxAt s c).accept with
  | false => exact .inl ⟨rfl, if_neg (by decide)⟩
  | true =>
    rw [if_pos rfl]
    cases he : (ctxAt s c).tpl.en with
    | true => exact .inr (.inl ⟨rfl, rfl, deliverStart_on _ _ he⟩)
    | false => exact .inr (.inr ⟨rfl, rfl, deliverStart_off _ _ he⟩)

theorem devCnt_parEnd (c : Nat) (e : ParEnd) (s : State) {k : Nat} (hk : k ≠ 31) : devCnt (parEnd c e s) k = devCnt (parCounted c e s) k := by
  rcases parEnd_cases c e s with ⟨_, h⟩ | ⟨_, _, h⟩ | ⟨_, _, h⟩
  · rw [h]
    rfl
  · rw [h]
    rfl
  · rw [h, devCnt_addCnt_ne _ _ hk]
    rfl

theorem parEnd_frame (c : Nat) (e : ParEnd) (s : State) :
    (parEnd c e s).hbm = s.hbm ∧ (parEnd c e s).grid = s.grid ∧ (parEnd c e s).fe = s.fe ∧ (parEnd c e s).regs = s.regs := by
  obtain ⟨_, hh, hg, hf, hr⟩ := parCounted_combOnly c e s
  rcases parEnd_cases c e s with ⟨_, h⟩ | ⟨_, _, h⟩ | ⟨_, _, h⟩
  · rw [h]
    exact ⟨hh, hg, hf, hr⟩
  · rw [h]
    exact ⟨hh, hg, hf, hr⟩
  · rw [h]
    exact ⟨hh, hg, hf, hr⟩

end Machine

open Machine Claims

/-- Settles O38: `parCounted` moves the counters, and `parEnd_cases` says what becomes of the context. -/
theorem parisonEnds : Obligations.ParisonEnds := by
  unfold Obligations.ParisonEnds
  intro s c e
  refine ⟨fun k hlo hhi => ?_, ?_, fun ha => ?_, fun ha ht => ?_, fun ha ht => ?_, parEnd_frame c e s⟩
  · rw [devCnt_parEnd _ _ _ (by omega), devCnt_parCounted _ _ _ hlo, if_neg (by omega)]
  · rw [devCnt_parEnd _ _ _ (by decide), devCnt_parCounted _ _ _ (by decide), if_pos rfl]
  · rw [parEnd_eq, if_neg (by simp [ha])]
    exact ctxAt_setCtx_same _ _ _
  · rw [parEnd_eq, if_pos ha, deliverStart_on _ _ ht, ctxAt_setCtx_same]
    exact ⟨rfl, rfl⟩
  · rw [parEnd_eq, if_pos ha, deliverStart_off _ _ ht]
    have hcnt : devCnt (parCounted c e s) 31 = devCnt s 31 := by
      have hr := parCtr_range e (ctxAt s c).accept
      rw [devCnt_parCounted _ _ _ (by decide), if_neg (by decide), if_neg (by omega)]
    exact ⟨ctxAt_setCtx_same _ _ _, (devCnt_addCnt_same _ _ _).trans (congrArg (satAdd 64 · 1) hcnt)⟩

namespace Machine

/-! The rows of the queue -/

section queue

variable {s : State} {hd c x : Nat}

theorem mapTiles_t2 (h : Nat) (f : Tile → Tile) (s : State) : (mapTiles h f s).t2 = s.t2 := by
  unfold mapTiles
  refine foldl_keeps State.t2 (fun _ _ => ?_) _ s
  rfl

theorem candidateQueued_eq (hst : (ctxAt s c).st = .alloc) (hd : s.dev.st ≠ .safe) : exec (.candidateQueued c) s = .next (
    let y := setCtx c { ctxAt s c with st := .queued } s
    let sec := secAt s (ctxAt s c).handle
    if sec.resident && !isFixed sec && !sec.stopped then y else expireCtx c 2 y) := by
  rw [exec_candidateQueued, execCandidateQueued, if_neg (by simp [hst, hd])]
  rfl

/-- The context that a starting pass runs (R258). -/
theorem startPass_ctxs (hd c x : Nat) (s : State) : (startPass hd c x s).t2.ctxs =
    tset (fun _ => {}) s.t2.ctxs c { ctxAt s c with st := .running, pass := (passAt s hd).passes } := by
  unfold startPass
  dsimp only
  rw [show ∀ p : Pass, ∀ u : State, (setPass hd p u).t2.ctxs = u.t2.ctxs from fun _ _ => rfl, mapTiles_t2]
  rw [show ∀ y : Sec, ∀ u : State, (setSec hd y u).t2 = u.t2 from fun _ _ => rfl,
    show ∀ y : Ctx, ∀ u : State, (setCtx c y u).t2.ctxs = tset (fun _ => {}) u.t2.ctxs c y from fun _ _ => rfl, logAdd_t2]

/-- The pass that starts: its context, its cycle, and no verdict yet (R258). -/
theorem startPass_pass (hd c x : Nat) (s : State) : (passAt (startPass hd c x s) hd).ctx = some c ∧ (passAt (startPass hd c x s) hd).start = x ∧
    (passAt (startPass hd c x s) hd).verdict = none := by
  unfold startPass
  dsimp only
  unfold passAt
  dsimp only
  rw [show ∀ p : Pass, ∀ u : State, (setPass hd p u).t2.passes = tset (fun _ => {}) u.t2.passes hd p from fun _ _ => rfl, tget_tset_same]
  exact ⟨rfl, rfl, rfl⟩

theorem startPass_ctx (hd c x : Nat) (s : State) : (ctxAt (startPass hd c x s) c).st = .running := by
  rw [ctxAt, startPass_ctxs, tget_tset_same]

theorem passDispatch_idle (h : dispatchable s hd = false) : exec (.passDispatch hd x) s = .next s := by
  rw [exec_passDispatch, execPassDispatch, if_pos (by simp [h])]
  rfl

theorem nextTurn_free (hr : recordedFeedback s = false) : nextTurn s hd = match bestOf (queuedFor s hd) with
    | none => .none
    | some (c, y) => if ringGone s y.tick then .expire c 1 else .start c false := if_pos (by simp [hr])

/-- A dispatch outside a recorded replay, by the candidate whose turn it is. -/
theorem passDispatch_eq (hd' : dispatchable s hd = true) (hr : recordedFeedback s = false) : exec (.passDispatch hd x) s = .next (
    match bestOf (queuedFor s hd) with
    | none => s
    | some (c, y) => if ringGone s y.tick then expireCtx c 1 s else if x < earliest s hd c then s else startPass hd c x s) := by
  rw [exec_passDispatch, execPassDispatch, if_neg (by simp [hd']), nextTurn_free hr]
  cases bestOf (queuedFor s hd) with
  | none => rfl
  | some p =>
    obtain ⟨c, y⟩ := p
    dsimp only
    cases ringGone s y.tick with
    | true => simp only [hr, Bool.false_and, Bool.false_eq_true, if_false, if_true]; rfl
    | false => rfl

theorem passEnd_eq {v : Nat} (h : running s hd = true) (hv : (passAt s hd).verdict = some v) :
    exec (.passEnd hd x) s = .next (finishPass hd v x s) := by
  rw [exec_passEnd, execPassEnd, hv]
  dsimp only
  rw [if_pos h]
  rfl

theorem verdictMissing_eq (h : running s hd = true) (hv : (passAt s hd).verdict = none) :
    exec (.verdictMissing hd x) s = .next (finishPass hd 2 x s) := by
  rw [exec_verdictMissing, execVerdictMissing, if_pos (by simp [h, hv])]
  rfl

theorem passBoundary_eq (ha : (passAt s hd).abandoned = true) :
    exec (.passBoundary hd x) s = .next (if owedWords s hd = 0 then sectionBoundary hd x s else s) := by
  rw [exec_passBoundary, execPassBoundary, ha]
  simp only [Bool.true_and, beq_iff_eq]
  rfl

theorem candidateExpire_eq (hst : (ctxAt s c).st = .queued) (hx : counted s x = true) (hr : recordedFeedback s = false) :
    exec (.candidateExpire c x) s = .next (
      if (ctxAt s c).tick + bits (regFor s x (0x70100 + 8 * (ctxAt s c).cls)) 31 0 < x then expireCtx c 0 s else s) := by
  rw [exec_candidateExpire, execCandidateExpire]
  simp only [hst, hx, hr, beq_self_eq_true, Bool.not_false, Bool.and_self, Bool.true_and, decide_eq_true_eq]
  rfl

theorem deliverRequest_eq (hst : (ctxAt s c).st = .deliver) (hq : s.acq.reqs.length < 4096) : exec (.deliverRequest c) s = .next (
    let y := ctxAt s c
    setCtx c {} (addCnt 19 1 { s with acq := { s.acq with reqs := s.acq.reqs ++ [{
      tick := y.tick, lines := 2 ^ y.line, doubt := y.doubt, template := y.template, tpl := y.tpl, outcome := if y.suspect then 2 else 1
      handle := y.handle, pass := y.pass, stamp := y.stamp, tStart := s.acq.tStart.getD 0 }] } })) := by
  rw [exec_deliverRequest, execDeliverRequest, if_neg (by simp [hst]; omega)]
  rfl

theorem deliverRequest_full (hq : 4096 ≤ s.acq.reqs.length) : exec (.deliverRequest c) s = .next s := by
  rw [exec_deliverRequest, execDeliverRequest, if_pos (by simp [hq])]
  rfl

/-- The state in which a pass has met its stall limit, before the boundary of its section (R514). -/
def stalledOut (hd n : Nat) (s : State) : State :=
  abandonPass hd .suspect (fault { code := 0x0205, sev := 3, elastic := true, tick := nowTick s, section_ := hd, detail := (passAt s hd).heldBy }
    (setPass hd { passAt s hd with freeze := max (passAt s hd).freeze n } s))

theorem stallLimit_eq (h : running s hd = true) : exec (.stallLimit hd x) s = .next (match frozenBy (passAt s hd) x with
    | none => s
    | some n => if (secAt s hd).stallLimit ≤ n then sectionBoundary hd x (stalledOut hd n s) else s) := by
  rw [exec_stallLimit, execStallLimit]
  dsimp only
  cases frozenBy (passAt s hd) x with
  | none => rfl
  | some n =>
    simp only [h, Bool.true_and, decide_eq_true_eq]
    rfl

end queue

end Machine

/-- Settles O37: each row by what its condition leaves of it. -/
theorem queueRows : Obligations.QueueRows := by
  unfold Obligations.QueueRows
  intro s
  refine ⟨fun c hst hd => ⟨fun hr hf hs => ?_, fun h => ?_⟩, fun hd c x y hdis hr hb => ⟨fun hg => ?_, fun hg hx => ?_, fun hg hx => ?_⟩,
    fun hd x h => ?_, fun hd x v h hv => passEnd_eq h hv, fun hd x h hv => verdictMissing_eq h hv, fun hd x ha => ⟨fun ho => ?_, fun ho => ?_⟩,
    fun c x hst hx hr => ⟨fun hlt => ?_, fun hle => ?_⟩, fun c hst hq => ?_, fun c hq => deliverRequest_full hq,
    fun hd x h => ⟨fun n hn hl => ?_, fun hn => ?_⟩⟩
  · rw [candidateQueued_eq hst hd]
    dsimp only
    rw [hr, hf, hs, if_pos (by decide)]
  · rw [candidateQueued_eq hst hd]
    dsimp only
    rw [if_neg]
    rcases h with h | h | h
    · simp [h]
    · simp [h]
    · simp [h]
  · rw [passDispatch_eq hdis hr, hb]
    dsimp only
    rw [if_pos hg]
  · rw [passDispatch_eq hdis hr, hb]
    dsimp only
    rw [if_neg (by simp [hg]), if_pos hx]
  · refine ⟨startPass hd c x s, ?_, rfl, startPass_ctx hd c x s, (startPass_pass hd c x s).1, (startPass_pass hd c x s).2.1,
      (startPass_pass hd c x s).2.2, rfl⟩
    rw [passDispatch_eq hdis hr, hb]
    dsimp only
    rw [if_neg (by simp [hg]), if_neg (by omega)]
  · by_cases hdis : dispatchable s hd = true
    · obtain ⟨hr, hq⟩ := h.resolve_left (by simp [hdis])
      rw [passDispatch_eq hdis hr, hq]
      rfl
    · exact passDispatch_idle (Bool.eq_false_iff.2 hdis)
  · rw [passBoundary_eq ha, if_pos ho]
  · rw [passBoundary_eq ha, if_neg ho]
  · rw [candidateExpire_eq hst hx hr, if_pos hlt]
  · rw [candidateExpire_eq hst hx hr, if_neg (by omega)]
  · refine ⟨_, deliverRequest_eq hst hq, ctxAt_setCtx_same _ _ _, devCnt_addCnt_same _ _ _, _, rfl, rfl, rfl, rfl, rfl, ?_⟩
    cases h : (ctxAt s c).suspect with
    | true => simp
    | false => simp
  · rw [stallLimit_eq h, hn]
    dsimp only
    rw [if_pos hl]
    rfl
  · rw [stallLimit_eq h]
    cases hf : frozenBy (passAt s hd) x with
    | none => rfl
    | some n => exact congrArg _ (if_neg (by have := hn n hf; omega))

namespace Machine

section returns

variable {s : State} {hd : Nat}

theorem creditReturn_eq (hd loop : Nat) (s : State) : exec (.creditReturn hd loop) s = .next (
    let x := secAt s hd
    if cget x.returning loop = 0 then s
    else setSec hd { x with returning := cset x.returning loop (cget x.returning loop - 1), credits := cset x.credits loop (cget x.credits loop - 1) } s) := by
  rw [exec_creditReturn]
  rfl

theorem hbmLineReturn_none (h : takeLine hd s = none) (ue ce : Bool) : exec (.hbmLineReturn hd ue ce) s = .next s := by
  rw [exec_hbmLineReturn, execHbmLineReturn, h]
  rfl

/-- A line without a corrected error, by whether its pass still runs and whether its data could be read (R151, R167). -/
theorem hbmLineReturn_eq {a : Ask} {l : MLine} {u : State} (h : takeLine hd s = some (a, l, u)) (ue : Bool) :
    exec (.hbmLineReturn hd ue false) s = .next (
      if (passAt u hd).ctx.isNone then giveCredit hd a.loop u
      else
        let l : MLine := if ue then { l with data := 0#256, p := true } else l
        let t := queueArrive hd a.q a.col a.row a.ag l (qblockAdd hd (passAt u hd).seq a.ord { data := l.data, v := true, p := l.p, tick := l.tick } u)
        if ue then passFault hd { code := 0x0302, sev := 3 } a.q a.col a.row t else t) := by
  rw [exec_hbmLineReturn, execHbmLineReturn, h]
  rfl

/-- Taking a line leaves tier two as it is. -/
theorem takeLine_passAt {a : Ask} {l : MLine} {u : State} (h : takeLine hd s = some (a, l, u)) (k : Nat) : passAt u k = passAt s k := by
  unfold takeLine at h
  split at h
  · cases h
  · split at h
    · cases h
    · cases h
      rfl

theorem cget_cset_same (t : Tbl Nat) (k v : Nat) : cget (cset t k v) k = v := tget_tset_same _ _ _ _

theorem secAt_setSec_same (h : Nat) (x : Sec) (s : State) : secAt (setSec h x s) h = x := tget_tset_same _ _ _ _

theorem secAt_setSec_ne {h k : Nat} (x : Sec) (s : State) (hk : k ≠ h) : secAt (setSec h x s) k = secAt s k := tget_tset_ne _ _ _ hk

end returns

end Machine

/-- Settles O39: the credit's loop, and the line by the state of its pass. -/
theorem returnRows : Obligations.ReturnRows := by
  unfold Obligations.ReturnRows
  intro s hd
  refine ⟨fun loop => ⟨fun hpos => ⟨_, creditReturn_eq hd loop s, ?_⟩, fun hz => ?_⟩, fun h ue ce => hbmLineReturn_none h ue ce,
    fun a l u h => ⟨fun hc => ?_, fun hc => ?_, fun hc => ?_⟩⟩
  · dsimp only
    rw [if_neg (by omega)]
    refine ⟨?_, ?_, fun k hk => secAt_setSec_ne _ _ hk⟩
    · rw [secAt_setSec_same, cget_cset_same]
    · rw [secAt_setSec_same, cget_cset_same]
  · rw [creditReturn_eq]
    exact congrArg _ (if_pos hz)
  · rw [hbmLineReturn_eq h, if_pos (by rw [takeLine_passAt h, hc]; rfl)]
  · rw [hbmLineReturn_eq h, if_neg (by rw [takeLine_passAt h]; simpa using hc)]
    rfl
  · rw [hbmLineReturn_eq h, if_neg (by rw [takeLine_passAt h]; simpa using hc)]
    rfl

end Sys2Proof
end

section
/-!
Ring writes, records and stream releases (R279 to R310), and the DMA engines (R288 to R291).
-/

namespace Sys2Proof

namespace Machine

open Claims

section records

variable {s : State} {t kind dest : Nat}

theorem ringWrite_eq (h : ringReady s t = true) : exec (.ringWrite t) s = .next (
    let late := !(ringLanes s).isEmpty && (s.fe.gather.find? fun e => e.1 == t).isNone
    let s1 := hbmWrite (slotAddr s t) (slotContents s t) s
    let s1 := if late then addCnt 18 1 s1 else s1
    { s1 with acq := { s1.acq with newest := some t } }) := by
  rw [exec_ringWrite, execRingWrite, if_neg (by simp [h])]
  rfl

theorem ringWrite_waits (h : ringReady s t = false) : exec (.ringWrite t) s = .next s := by
  rw [exec_ringWrite, execRingWrite, if_pos (by simp [h])]
  rfl

/-- Only the counters of the combiner may differ. -/
structure CountsOnly (s t : State) : Prop where
  acq : t.acq = s.acq
  hbm : t.hbm = s.hbm
  dev : t.dev = s.dev
  fe : t.fe = s.fe
  regs : t.regs = s.regs

theorem addCntIf_countsOnly (c : Bool) (k n : Nat) (s : State) : CountsOnly s (if c then addCnt k n s else s) := by
  split
  · exact ⟨rfl, rfl, rfl, rfl, rfl⟩
  · exact ⟨rfl, rfl, rfl, rfl, rfl⟩

theorem recordAssemble_eq {r : RecReq} (h : s.acq.reqs.find? (fun r => reqDest r == (kind, dest)) = some r) (he : elasticOff s = false) :
    exec (.recordAssemble kind dest) s = .next (
      if windowReady s r = false ∨ stageSize s < stagedBytes s + (recordBytes s r).1.length then s
      else
        let u := if (recordBytes s r).2.1 then addCnt 16 1 s else s
        let u := if (recordBytes s r).2.2 then addCnt 17 1 u else u
        { u with acq := { u.acq with reqs := u.acq.reqs.erase r, staged := u.acq.staged ++ [{ req := r, bytes := (recordBytes s r).1 }] } }) := by
  rw [exec_recordAssemble, execRecordAssemble, h]
  dsimp only
  by_cases hc : windowReady s r = false ∨ stageSize s < stagedBytes s + (recordBytes s r).1.length
  · rw [if_pos hc, if_pos (by simpa [he] using hc)]
    rfl
  · rw [if_neg hc, if_neg (by simpa [he] using hc)]
    rfl

/-- A record of the host's engines is delivered once the whole of it is sent (R281). -/
theorem recordDeliver_host {r : Staged} (h : s.acq.staged.find? (fun r => reqDest r.req == (0, dest)) = some r) (he : elasticOff s = false)
    (hv : saving s = false) : exec (.recordDeliver 0 dest) s = .next (if r.bytes.length ≤ r.sent then delivered r s else s) := by
  rw [exec_recordDeliver, execRecordDeliver, if_neg (by simp [he, hv]), h]
  rfl

/-- A record of the record store is delivered by its being stored (R282). -/
theorem recordDeliver_store {r : Staged} (h : s.acq.staged.find? (fun r => reqDest r.req == (1, dest)) = some r) (he : elasticOff s = false)
    (hv : saving s = false) : exec (.recordDeliver 1 dest) s = .next (storeRecord r s) := by
  rw [exec_recordDeliver, execRecordDeliver, if_neg (by simp [he, hv]), h]
  rfl

theorem delivered_own {r : Staged} (h : r.foreign = false) (s : State) :
    delivered r s = addCnt 20 1 { s with acq := { s.acq with staged := s.acq.staged.erase r } } := if_neg (by simp [h])

theorem storeRecord_fits {r : Staged} (h : storeUsed s + r.bytes.length < regAt s 0x1030) : storeRecord r s = delivered r (
    let u := storeBytes (regAt s 0x1028) (regAt s 0x1030) (s.acq.rstoreWp % regAt s 0x1030) r.bytes s
    { u with acq := { u.acq with rstoreWp := (s.acq.rstoreWp % regAt s 0x1030 + r.bytes.length) % regAt s 0x1030 } }) := by
  have hno : ¬ (regAt s 0x1030 = 0 ∨ regAt s 0x1030 ≤ storeUsed s + r.bytes.length) := by omega
  exact if_neg (by simpa using hno)

theorem storeRecord_full {r : Staged} (h : regAt s 0x1030 ≤ storeUsed s + r.bytes.length) : storeRecord r s = s := if_pos (by simp [h])

theorem streamRelease_eq (h : nextRelease s = some t) (he : elasticOff s = false) (hd : isDecided s t = true) : exec .streamRelease s = .next (
    if lastBeforePause s t then closeStreams (releaseTick t s) else releaseTick t s) := by
  rw [exec_streamRelease, execStreamRelease, h]
  dsimp only
  rw [if_neg (by simp [he, hd])]
  rfl

theorem streamRelease_waits (h : nextRelease s = none ∨ nextRelease s = some t ∧ isDecided s t = false) : exec .streamRelease s = .next s := by
  rw [exec_streamRelease, execStreamRelease]
  rcases h with h | ⟨h, hd⟩
  · rw [h]
    rfl
  · rw [h]
    dsimp only
    rw [if_pos (by simp [hd])]
    rfl

theorem streamAt_setStream_ne {j m : Nat} (x : Stream) (s : State) (h : m ≠ j) : streamAt (setStream j x s) m = streamAt s m :=
  tget_tset_ne _ _ _ h

/-- A fold that writes the streams of a list leaves the others (R310). -/
theorem streamAt_foldl (f : State → Nat → Stream) {m : Nat} (l : List Nat) (hm : m ∉ l) (s : State) :
    streamAt (l.foldl (fun u j => setStream j (f u j) u) s) m = streamAt s m := by
  induction l generalizing s with
  | nil => rfl
  | cons j l ih =>
    obtain ⟨hj, hl⟩ := not_or.1 (fun h => hm (List.mem_cons.2 h))
    rw [List.foldl_cons, ih hl, streamAt_setStream_ne _ _ hj]

theorem streamAt_releaseTick {m : Nat} (h : streamOn s m = false) : streamAt (releaseTick t s) m = streamAt s m :=
  streamAt_foldl (fun u m => streamTick s m t (streamAt u m)) _ (fun hm => by simp [h] at hm) s

theorem replayLogStop_eq {c d : Nat} (hc : stopCause s = some c) (hd : s.comb.decided = some d) : exec .replayLogStop s = .next (
    let r := s.acq.recg
    let last := if c = 0 then r.endTick else d
    let r := { r with running := false, done := true, endTick := last
                      log := r.log ++ [{ type := 11, flags := bnat (r.ringLate0 != devCnt s 18), tick := last, body := le 1 c }] }
    { s with acq := { s.acq with recg := r, recorded := r :: s.acq.recorded.filter fun x => x.area != r.area } }) := by
  rw [exec_replayLogStop, execReplayLogStop, hc, hd]
  rfl

theorem replayLogStop_waits (hc : stopCause s = none) : exec .replayLogStop s = .next s := by
  rw [exec_replayLogStop, execReplayLogStop, hc]
  rfl

end records

end Machine

open Machine Claims

/-- Settles O40: each row by what its condition leaves of it. -/
theorem recordRows : Obligations.RecordRows := by
  unfold Obligations.RecordRows
  intro s
  refine ⟨fun t h => ⟨_, ringWrite_eq h, ?_⟩, fun t h => ringWrite_waits h, fun kind dest r h he => ⟨fun hc => ?_, fun hw hl => ?_⟩,
    fun kind dest r h he hv hf => ⟨fun hk hs => ?_, fun hk hs => ?_, fun hk hs => ?_, fun hk hs => ?_⟩,
    fun t h he hd => ⟨fun hl => ?_, fun hl => ?_, rfl, fun m _ hm => streamAt_releaseTick hm⟩, fun t h => streamRelease_waits h,
    fun c d hc hd => ⟨_, replayLogStop_eq hc hd, rfl, rfl, fun h0 => if_pos h0, fun h0 => if_neg h0, ⟨_, rfl, rfl, rfl, rfl⟩, rfl⟩,
    replayLogStop_waits⟩
  · obtain ⟨ha, hh, hd, hf, hr⟩ := addCntIf_countsOnly (!(ringLanes s).isEmpty && (s.fe.gather.find? fun e => e.1 == t).isNone) 18 1
      (hbmWrite (slotAddr s t) (slotContents s t) s)
    dsimp only
    exact ⟨by rw [ha]; rfl, hh, hd, hf, hr⟩
  · rw [recordAssemble_eq h he, if_pos hc]
  · rw [recordAssemble_eq h he, if_neg (by simp [hw]; omega)]
    obtain ⟨ha, hh, hd, hf, hr⟩ := addCntIf_countsOnly (recordBytes s r).2.1 16 1 s
    obtain ⟨ha', hh', hd', hf', hr'⟩ := addCntIf_countsOnly (recordBytes s r).2.2 17 1 (if (recordBytes s r).2.1 then addCnt 16 1 s else s)
    exact ⟨_, rfl, by dsimp only; rw [ha', ha], hh'.trans hh, hd'.trans hd, hf'.trans hf, hr'.trans hr⟩
  · subst hk
    rw [recordDeliver_host h he hv, if_neg (by omega)]
  · subst hk
    refine ⟨_, recordDeliver_host h he hv, ?_⟩
    rw [if_pos hs, delivered_own hf]
    exact ⟨rfl, devCnt_addCnt_same _ _ _, rfl⟩
  · subst hk
    refine ⟨_, recordDeliver_store h he hv, ?_⟩
    rw [storeRecord_fits hs, delivered_own hf]
    exact ⟨rfl, rfl, rfl⟩
  · subst hk
    rw [recordDeliver_store h he hv]
    exact congrArg _ (storeRecord_full hs)
  · rw [streamRelease_eq h he hd, if_neg (by simp [hl])]
  · rw [streamRelease_eq h he hd, if_pos hl]

namespace Machine

section engines

variable {s : State} {e : Nat} {d d' : DmaDesc} {data : List Byte} {fe : Bool} {err : Option Nat}

/-- What an engine that is ready holds (R288). -/
theorem dmaReady_park (h : dmaReady s e = true) : (engAt s e).park = none ∧ (engAt s e).owed = none := by
  simp only [dmaReady, Bool.and_eq_true, Option.isNone_iff_eq_none] at h
  obtain ⟨⟨⟨⟨⟨_, hp⟩, ho⟩, _⟩, _⟩, _⟩ := h
  exact ⟨hp, ho⟩

theorem parkHere_cur (cause done addr at_ : Nat) : (engAt (parkHere e cause done addr at_ s) e).cur = (engAt s e).cur := by
  unfold parkHere parkEng engTrigger engAt
  rw [trigger_eng]
  simp [raiseEv, setEng]

theorem engAt_setEng_same (x : Eng) (s : State) : engAt (setEng e x s) e = x := tget_tset_same _ _ _ _

theorem dmaTransfer_goesOn (hr : dmaReady s e = true) (hc : (engAt s e).cur = some d) :
    exec (.dmaTransfer e d' fe data err) s = .next (dmaMove e d data err s) := by
  rw [exec_dmaTransfer, execDmaTransfer, if_neg (by simp [hr])]
  simp only [hc, Option.isNone_some, Bool.false_and, Bool.false_eq_true, if_false, (dmaReady_park hr).1]
  rfl

/-- An engine between descriptors fetches the next, and moves a chunk of it unless the fetch left it parked. -/
theorem dmaTransfer_fetches (hr : dmaReady s e = true) (hc : (engAt s e).cur = none) (hs : (engAt s e).stopping = false) :
    exec (.dmaTransfer e d fe data err) s = .next (match (engAt (dmaFetch e d fe s) e).cur, (engAt (dmaFetch e d fe s) e).park with
      | some c, none => dmaMove e c data err (dmaFetch e d fe s)
      | _, _ => dmaFetch e d fe s) := by
  rw [exec_dmaTransfer, execDmaTransfer, if_neg (by simp [hr])]
  simp only [hc, hs, Option.isNone_none, Bool.not_false, Bool.and_self, if_true]
  rfl

theorem dmaTransfer_parks {cause addr at_ : Nat} (hr : dmaReady s e = true) (hc : (engAt s e).cur = none) (hs : (engAt s e).stopping = false)
    (hf : dmaFetch e d fe s = parkHere e cause 0 addr at_ s) : exec (.dmaTransfer e d fe data err) s = .next (parkHere e cause 0 addr at_ s) := by
  rw [dmaTransfer_fetches hr hc hs, hf, parkHere_cur, hc]

/-- The engine with a descriptor just taken (R288). -/
def taken (e : Nat) (d : DmaDesc) (s : State) : State := setEng e { engAt s e with cur := some d, done := 0 } s

/-- A descriptor that R288 allows. -/
def DescOk (d : DmaDesc) : Prop := d.resv = false ∧ d.len % 32 = 0 ∧ 32 ≤ d.len ∧ d.len ≤ 2 ^ 31

theorem dmaFetch_host {a : Nat} (h : translate s false true (descAddr s e) = .host a) : dmaFetch e d fe s =
    if fe then parkHere e 4 0 (descAddr s e) 1 s
    else if d.resv || decide (d.len % 32 ≠ 0 ∨ d.len < 32 ∨ 2 ^ 31 < d.len) then parkHere e 5 0 d.addr 0 (taken e d s)
    else taken e d s := by
  unfold dmaFetch
  dsimp only
  rw [h]
  rfl

theorem dmaFetch_bad {c : Nat} (h : translate s false true (descAddr s e) = .bad c) : dmaFetch e d fe s = parkHere e c 0 (descAddr s e) 1 s := by
  unfold dmaFetch
  dsimp only
  rw [h]

theorem dmaTransfer_badDesc {a : Nat} (hr : dmaReady s e = true) (hc : (engAt s e).cur = none) (hs : (engAt s e).stopping = false)
    (ha : translate s false true (descAddr s e) = .host a) (hb : d.resv = true ∨ d.len % 32 ≠ 0 ∨ d.len < 32 ∨ 2 ^ 31 < d.len) :
    exec (.dmaTransfer e d false data err) s = .next (parkHere e 5 0 d.addr 0 (taken e d s)) := by
  have hf : dmaFetch e d false s = parkHere e 5 0 d.addr 0 (taken e d s) := by
    rw [dmaFetch_host ha, if_neg (by decide), if_pos (by simpa using hb)]
  obtain ⟨p, hp, _⟩ := parkHere_same (s := taken e d s) (e := e) 5 0 d.addr 0
  rw [dmaTransfer_fetches hr hc hs, hf, hp]
  split
  · contradiction
  · rfl

theorem dmaTransfer_takes {a : Nat} (hr : dmaReady s e = true) (hc : (engAt s e).cur = none) (hs : (engAt s e).stopping = false)
    (ha : translate s false true (descAddr s e) = .host a) (hb : DescOk d) :
    exec (.dmaTransfer e d false data err) s = .next (dmaMove e d data err (taken e d s)) := by
  obtain ⟨hv, hm, hlo, hhi⟩ := hb
  have hf : dmaFetch e d false s = taken e d s := by
    rw [dmaFetch_host ha, if_neg (by decide), if_neg (by simp [hv, hm]; omega)]
  rw [dmaTransfer_fetches hr hc hs, hf]
  unfold taken
  rw [engAt_setEng_same]
  dsimp only
  rw [(dmaReady_park hr).1]

/-- The size of the chunk of an engine's descriptor that begins at its two addresses (R289). -/
def chunkSize (s : State) (e : Nat) (d : DmaDesc) : Nat :=
  min (d.len - (engAt s e).done) (min (chunkLeft s ((if e < 32 then d.addr2 else d.addr) + (engAt s e).done))
    (chunkLeft s ((if e < 32 then d.addr else d.addr2) + (engAt s e).done)))

/-- A chunk that moves within the device's memory (R289). -/
theorem dmaCopy_hbm {src dst : Nat} (hs : translate s false true ((if e < 32 then d.addr2 else d.addr) + (engAt s e).done) = .hbm src)
    (hd : translate s true true ((if e < 32 then d.addr else d.addr2) + (engAt s e).done) = .hbm dst) : dmaCopy e d data none s =
    (let u := setEng e { engAt s e with done := (engAt s e).done + chunkSize s e d } (hbmWrite dst (hbmRead s src (chunkSize s e d)) s)
     if (engAt s e).done + chunkSize s e d = d.len then oweFor e d d.len false u else u) := by
  unfold dmaCopy
  dsimp only
  rw [hs, hd]
  rfl

theorem oweFor_engAt (bytes : Nat) (split : Bool) (s : State) : engAt (oweFor e d bytes split s) e =
    { engAt s e with owed := some { user := d.user, bytes := bytes, split := split, irq := d.irq } } := engAt_setEng_same _ _

theorem oweStopped_owed {c : DmaCpl} (h : (engAt s e).owed = some c) : oweStopped e s = s := by
  unfold oweStopped
  dsimp only
  split
  · rw [if_neg (by simp [h])]
  · rfl

theorem dmaCompletion_eq {c : DmaCpl} {a : Nat} {bad : Bool} (he : e < 40) (hv : saving s = false) (hel : elasticOff s = false)
    (ho : (engAt s e).owed = some c) (hp : (engAt s e).park = none) (ht : translate s true true (cplAddr s e) = .host a) :
    exec (.dmaCompletion e bad) s = .next (
      if bad then parkHere e 4 (engAt s e).done (cplAddr s e) 2 s
      else
        let t := engNext e (send (.mem a (cplBytes s e c)) s)
        if c.irq then engTrigger e t else t) := by
  rw [exec_dmaCompletion, execDmaCompletion, if_neg (by simp [hv, hel]; omega), oweStopped_owed ho]
  dsimp only
  rw [ho, hp, ht]
  rfl

/-- A descriptor read or a chunk's access without an answer parks the engine; WHERE 1 is the read, WHERE 0 the chunk (R291). -/
theorem completionTimeout_fetch (he : e < 40) (hl : engLive s e = true) (hp : (engAt s e).park = none) (hci : (engAt s e).ci < (engAt s e).pi)
    (hc : (engAt s e).cur = none) (ho : (engAt s e).owed = none) :
    exec (.completionTimeout e 1) s = .next (parkHere e 4 0 (descAddr s e) 1 s) := by
  rw [exec_completionTimeout, execCompletionTimeout]
  dsimp only
  rw [if_neg (by simp [hl, hp]; omega), hc, ho]
  rfl

theorem completionTimeout_chunk (he : e < 40) (hl : engLive s e = true) (hp : (engAt s e).park = none) (hci : (engAt s e).ci < (engAt s e).pi)
    (hc : (engAt s e).cur = some d) (ho : (engAt s e).owed = none) : exec (.completionTimeout e 0) s =
      .next (parkHere e 4 (engAt s e).done ((if e < 32 then d.addr2 else d.addr) + (engAt s e).done) 0 s) := by
  rw [exec_completionTimeout, execCompletionTimeout]
  dsimp only
  rw [if_neg (by simp [hl, hp]; omega), hc, ho]
  rfl

end engines

end Machine

/-- Settles O41: the fetch of a descriptor, the chunk it moves, its completion and its timeouts, each by its own lemma. -/
theorem engineRows : Obligations.EngineRows := by
  unfold Obligations.EngineRows
  intro s e he
  refine ⟨fun d d' data fe err hr hc => dmaTransfer_goesOn hr hc, fun d data err a hr hc hs ha => ⟨?_, fun hb => ?_, fun hv hm hlo hhi => ?_⟩,
    fun d data c hr hc hs ht => dmaTransfer_parks hr hc hs (dmaFetch_bad ht), fun d data src dst hs hd => ?_,
    fun c a hv hel ho hp ht => ⟨dmaCompletion_eq he hv hel ho hp ht, fun hi => ?_⟩,
    completionTimeout_fetch he, fun d => completionTimeout_chunk he⟩
  · exact dmaTransfer_parks hr hc hs (by rw [dmaFetch_host ha, if_pos rfl])
  · obtain ⟨p, hp, hcause, _⟩ := parkHere_same (s := taken e d s) (e := e) 5 0 d.addr 0
    exact ⟨_, p, dmaTransfer_badDesc hr hc hs ha hb, hp, hcause, parkHere_hbm _ _ _ _ _ _⟩
  · exact dmaTransfer_takes hr hc hs ha ⟨hv, hm, hlo, hhi⟩
  · rw [dmaCopy_hbm hs hd]
    change _ ∧ _ = _ + chunkSize s e d ∧ (_ + chunkSize s e d = _ → _)
    by_cases hl : (engAt s e).done + chunkSize s e d = d.len
    · rw [if_pos hl]
      rw [oweFor_engAt, engAt_setEng_same]
      exact ⟨rfl, rfl, fun _ => ⟨_, rfl, rfl, rfl⟩⟩
    · rw [if_neg hl, engAt_setEng_same]
      exact ⟨rfl, rfl, fun h => absurd h hl⟩
  · rw [dmaCompletion_eq he hv hel ho hp ht, if_neg (by decide)]
    dsimp only
    rw [if_neg (by simp [hi])]

end Sys2Proof
end

section
/-!
Schedule words execute (R182 to R186).
-/

namespace Sys2Proof

namespace Machine

open Claims

/-- The state in which a word's row begins: RING_RD first looks whether its pass is held to the pace of the ring (R263). -/
def rowState (op : Nat) (a : TileAt) (s : State) : State := if op = 0xF2 then pcapLines a s else s

/-- No IDLE opcode is that of RING_RD (R181). -/
theorem idleOp_ne_ringRd (col row : Nat) : idleOp col row ≠ 0xF2 := by
  unfold idleOp
  split
  · decide
  · decide
  · decide
  · decide

/-- Every row of the tile tables is its operation run as a row of the schedule. -/
theorem exec_of_wordOp {i : Instr} {op off : Nat} {f : RowOp} {a : TileAt} (h : wordOp i = some (op, off, f, a)) (s : State) :
    exec i s = .next (runRow op off f a (rowState op a s)) := by
  unfold wordOp at h
  split at h
  case h_5 b =>
    cases h
    rw [rowState, if_neg (idleOp_ne_ringRd _ _)]
    rfl
  case h_45 => cases h
  all_goals
    cases h
    rfl

section rows

variable {s : State} {op off : Nat} {f : RowOp} {a : TileAt} {r : RowCtx} {w : BitVec 128}

theorem runRow_absent (h : rowCtx s a = none) : runRow op off f a s = s := by
  unfold runRow
  rw [h]

theorem runRow_other (h : wOpcode (tswAt (tileAt s a.q a.col a.row) a.bank a.i) ≠ op) : runRow op off f a s = s := by
  unfold runRow
  dsimp only
  split
  · rfl
  · rw [if_pos h]

theorem runRow_bad (hr : rowCtx s a = some r) (ho : wOpcode (tswAt (tileAt s a.q a.col a.row) a.bank a.i) = op)
    (hb : readWord a (tileAt s a.q a.col a.row) = .bad) : runRow op off f a s = schedBad a r s := by
  unfold runRow
  dsimp only
  rw [hr]
  dsimp only
  rw [if_neg (by simp [ho]), hb]

theorem runRow_good (hr : rowCtx s a = some r) (ho : wOpcode (tswAt (tileAt s a.q a.col a.row) a.bank a.i) = op)
    (hb : readWord a (tileAt s a.q a.col a.row) = .good w) : runRow op off f a s = runRow.go op off f a s r w false := by
  unfold runRow
  dsimp only
  rw [hr]
  dsimp only
  rw [if_neg (by simp [ho]), hb]

theorem receivePorts_none (hp : a.hw.parity = []) (r : RowCtx) (s : State) : receivePorts a r s = s := by
  unfold receivePorts
  rw [hp, List.foldl_nil]

/-- The checks of a result do not change whether its operation stalls. -/
theorem checkedOut_stall (mism : Bool) (before : Tile) (o : TileOut) : (checkedOut mism before o).stall = o.stall := by
  unfold checkedOut
  dsimp only
  split
  · rfl
  · rfl

section runs

variable (hp : a.hw.parity = []) (hrot : a.hw.rotation = false) (hctx : r.elastic = true → (passAt s r.h).ctx ≠ none) (hc : noCredit s a r w = none)
include hp hrot hctx hc

/-- The word's row outside rotation and with no check or wait in its way, by the result of its operation. -/
theorem rowGo_eq : runRow.go op off f a s r w false =
    (let y := f r (rowEnv a r w s) (rowTile a r s) s
     let x := if y.1.stall then y else (checkedOut false (rowTile a r s) y.1, y.2)
     if x.1.stall then freezeRow a r x.1.waitAg x.1.waits (setTile a.q a.col a.row (turnSide r.inc x.1.t) s)
     else x.2 (spread a r off x.1 (addRoute a.q a.col a.row { a := a.c, b := a.c + wSpan w - 1, dirs := wRoute w }
       (proceed a r (setTile a.q a.col a.row (turnSide r.inc x.1.t) { s with free := s.free + 1 }))))) := by
  have hel : ¬ (r.elastic && (passAt s r.h).ctx.isNone) = true := by
    cases he : r.elastic with
    | false => simp
    | true => simpa [he] using hctx he
  unfold runRow.go
  dsimp only
  rw [receivePorts_none hp, if_neg hel, hc]
  dsimp only
  rw [hrot, if_neg Bool.false_ne_true]
  rfl

theorem rowGo_stalls (hy : (f r (rowEnv a r w s) (rowTile a r s) s).1.stall = true) : runRow.go op off f a s r w false =
    (let o := (f r (rowEnv a r w s) (rowTile a r s) s).1
     freezeRow a r o.waitAg o.waits (setTile a.q a.col a.row (turnSide r.inc o.t) s)) := by
  rw [rowGo_eq hp hrot hctx hc]
  dsimp only
  rw [if_pos hy, if_pos hy]

theorem rowGo_runs (hy : (f r (rowEnv a r w s) (rowTile a r s) s).1.stall = false) : runRow.go op off f a s r w false =
    (let y := f r (rowEnv a r w s) (rowTile a r s) s
     let o := checkedOut false (rowTile a r s) y.1
     y.2 (spread a r off o (addRoute a.q a.col a.row { a := a.c, b := a.c + wSpan w - 1, dirs := wRoute w }
       (proceed a r (setTile a.q a.col a.row (turnSide r.inc o.t) { s with free := s.free + 1 }))))) := by
  rw [rowGo_eq hp hrot hctx hc]
  dsimp only
  simp only [hy, checkedOut_stall, Bool.false_eq_true, if_false]

end runs

end rows

end Machine

open Machine Claims

/-- Settles O42: every row is `runRow` of its operation, which is absent, lost, stalled or run. -/
theorem wordsExecute : Obligations.WordsExecute := by
  unfold Obligations.WordsExecute
  intro i op off f a s0 hi
  have hx := exec_of_wordOp hi s0
  revert hx
  change exec i s0 = .next (runRow op off f a (if op = 0xF2 then pcapLines a s0 else s0)) → _
  generalize (if op = 0xF2 then pcapLines a s0 else s0) = s
  intro hx
  rw [hx]
  refine ⟨fun h => congrArg _ (runRow_absent h), fun h => congrArg _ (runRow_other h), fun r w hr ho hg hp hrot hctx hc => ⟨fun hy => ?_, fun hy => ?_⟩,
    fun r hr ho hb => congrArg _ (runRow_bad hr ho hb)⟩
  · rw [runRow_good hr ho hg]
    exact congrArg _ (rowGo_stalls hp hrot hctx hc hy)
  · rw [runRow_good hr ho hg]
    exact congrArg _ (rowGo_runs hp hrot hctx hc hy)

end Sys2Proof
end

section
/-!
Operations of the function and steer tiles: lane arithmetic, poison, and the token (R134, R137, R144 to R148).
-/

namespace Sys2Proof

namespace Machine

open Claims

section packing

/-- The codes of a packed line, from the lowest (R57). -/
theorem packed_lt (w : Nat) (l : List Nat) : l.foldr (fun c a => c % 2 ^ w + a * 2 ^ w) 0 < 2 ^ (w * l.length) := by
  induction l with
  | nil => simp
  | cons c l ih =>
    have hc : c % 2 ^ w < 2 ^ w := Nat.mod_lt _ (Nat.two_pow_pos w)
    rw [List.foldr_cons, List.length_cons, Nat.mul_succ, Nat.pow_add]
    calc _ < (l.foldr (fun c a => c % 2 ^ w + a * 2 ^ w) 0 + 1) * 2 ^ w := by rw [Nat.succ_mul]; omega
      _ ≤ _ := Nat.mul_le_mul_right _ ih

theorem packed_code (w : Nat) (l : List Nat) (i : Nat) :
    l.foldr (fun c a => c % 2 ^ w + a * 2 ^ w) 0 / 2 ^ (w * i) % 2 ^ w = l.getD i 0 % 2 ^ w := by
  induction l generalizing i with
  | nil => simp
  | cons c l ih =>
    cases i with
    | zero => simp
    | succ i =>
      rw [List.foldr_cons, Nat.mul_succ, Nat.add_comm (w * i) w, Nat.pow_add, ← Nat.div_div_eq_div_mul,
        Nat.add_mul_div_right _ _ (Nat.two_pow_pos w), Nat.div_eq_of_lt (Nat.mod_lt _ (Nat.two_pow_pos w)), Nat.zero_add, ih]
      rfl

theorem ofTwos_toTwos {x : Int} (hlo : -32768 ≤ x) (hhi : x ≤ 32767) : ofTwos 16 (toTwos 16 x % 2 ^ 16) = x := by
  unfold ofTwos toTwos
  split
  · omega
  · omega

theorem clampI_range (x : Int) : -32768 ≤ clampI (-32768) 32767 x ∧ clampI (-32768) 32767 x ≤ 32767 := by
  unfold clampI
  split
  · omega
  · split
    · omega
    · omega

/-- A lane of a line packed from sixteen integers that fit is its integer (R137). -/
theorem lane16_packInts (f : Nat → Int) (hf : ∀ i, -32768 ≤ f i ∧ f i ≤ 32767) {i : Nat} (hi : i < 16) :
    lane16 (packInts 16 ((List.range 16).map f)) i = f i := by
  have hlt := packed_lt 16 (((List.range 16).map f).map (toTwos 16))
  have hcode := packed_code 16 (((List.range 16).map f).map (toTwos 16)) i
  rw [List.length_map, List.length_map, List.length_range] at hlt
  unfold lane16 packInts packCodes bits
  rw [BitVec.toNat_ofNat, Nat.mod_eq_of_lt hlt, Nat.shiftRight_eq_div_pow, show 16 * i + 15 + 1 - 16 * i = 16 by omega, hcode]
  simp only [List.map_map, List.getD_eq_getElem?_getD, List.getElem?_map, List.getElem?_range hi, Option.map_some, Option.getD_some, Function.comp_apply]
  exact ofTwos_toTwos (hf i).1 (hf i).2

end packing

section lanes

variable {e : Env} {t : Tile} {a b : LWord}

/-- The values of a word of sixteen lanes (R57). -/
theorem vals_int16 (w : LWord) : vals .int16 w = (List.range 16).map (lane16 w.data) := by
  unfold vals unpack
  rw [List.map_map]
  refine List.map_congr_left fun i _ => ?_
  change ofTwos 16 (bits w.data.toNat (16 * (i + 1) - 1) (16 * i)) = _
  rw [show 16 * (i + 1) - 1 = 16 * i + 15 by omega]
  rfl

/-- The output of an operation that gives one word, each lane the clamped result (R137). -/
def LaneWord (e : Env) (t : Tile) (a : LWord) (r : Nat → Int) (o : TileOut) : Prop :=
  o.stall = false ∧ o.faults = [] ∧ o.suspect = false ∧
  (∃ d : Line, o.emits = [{ off := 1, dest := wDest e.w, w := { data := d, v := true, p := false, tick := a.tick, btag := a.btag } }] ∧
    ∀ i, i < 16 → lane16 d i = clampI (-32768) 32767 (r i)) ∧
  (∀ k, k ≠ cLaneSat → cget o.t.cnt k = cget t.cnt k) ∧
  ((∀ i, i < 16 → -32768 ≤ r i ∧ r i ≤ 32767) → cget o.t.cnt cLaneSat = min (cget t.cnt cLaneSat) (2 ^ 32 - 1))

theorem laneOut_word (r : Nat → Int) : LaneWord e t a r (laneOut e t a ((List.range 16).map r)) := by
  refine ⟨rfl, rfl, rfl, ⟨packInts 16 (((List.range 16).map r).map (clampI (-32768) 32767)), rfl, fun i hi => ?_⟩, fun k hk => cget_cadd_ne _ _ _ hk, fun hr => ?_⟩
  · rw [List.map_map]
    exact lane16_packInts (fun i => clampI (-32768) 32767 (r i)) (fun i => clampI_range (r i)) hi
  · have hn : ((List.range 16).map r).filter (fun x => decide (x < -32768 ∨ 32767 < x)) = [] := by
      refine List.filter_eq_nil_iff.2 fun x hx => ?_
      obtain ⟨i, hi, rfl⟩ := List.mem_map.1 hx
      have := hr i (List.mem_range.1 hi)
      rw [decide_eq_true_eq]
      omega
    unfold laneOut tcount
    dsimp only
    rw [hn]
    exact cget_cadd_same _ _ _ _

/-- Operands that hold words of one tick and block, without a scale buffer and a table, are all an operation needs (R144). -/
theorem sfPre_ok {f : Nat} {rest : List (Nat × LWord)} (h : ∀ o ∈ (f, a) :: rest, o.2.v = true ∧ o.2.p = false ∧ o.2.tick = a.tick ∧ o.2.btag = a.btag) :
    sfPre e t ((f, a) :: rest) false false none none false = .ok t 0 0 := by
  have hv : ((f, a) :: rest).find? (fun o => !o.2.v) = none := List.find?_eq_none.2 fun o ho => by simp [(h o ho).1]
  have hp : ((f, a) :: rest).any (·.2.p) = false := List.any_eq_false.2 fun o ho => by simp [(h o ho).2.1]
  have ht : ((f, a) :: rest).any (fun o => o.2.tick != a.tick) = false := List.any_eq_false.2 fun o ho => by simp [(h o ho).2.2.1]
  have hb : ((f, a) :: rest).any (fun o => o.2.btag != a.btag) = false := List.any_eq_false.2 fun o ho => by simp [(h o ho).2.2.2]
  unfold sfPre
  simp only [List.head?_cons, Option.map_some, Option.getD_some, hv, hp, ht, hb, Bool.and_false, Bool.or_self, Bool.false_eq_true, if_false,
    lookScale, consumeScale, Option.any_none, BitVec.toNat_ofNat, Nat.zero_mod]

theorem addSub_imm (sub : Bool) (ha : operand t e.c (wSrcA e.w) = a) (hv : a.v = true) (hp : a.p = false) (hi : bit (wMod e.w) 7 = true) :
    LaneWord e t a (fun i => if sub then lane16 a.data i - ofTwos 16 (wImm e.w) else lane16 a.data i + ofTwos 16 (wImm e.w)) (addSubOp sub e t) := by
  unfold addSubOp
  dsimp only
  rw [ha, hi, if_pos rfl, if_pos rfl, sfPre_ok (by simpa using ⟨hv, hp⟩), vals_int16]
  have hz : List.zipWith (fun x y => if sub then x - y else x + y) ((List.range 16).map (lane16 a.data)) (List.replicate 16 (ofTwos 16 (wImm e.w))) =
      (List.range 16).map (fun i => if sub then lane16 a.data i - ofTwos 16 (wImm e.w) else lane16 a.data i + ofTwos 16 (wImm e.w)) := rfl
  dsimp only [sfBad]
  rw [hz]
  exact laneOut_word _

theorem addSub_words (sub : Bool) (ha : operand t e.c (wSrcA e.w) = a) (hb : operand t e.c (wSrcB e.w) = b) (hv : a.v = true) (hp : a.p = false)
    (hi : bit (wMod e.w) 7 = false) (hbv : b.v = true) (hbp : b.p = false) (ht : a.tick = b.tick) (hg : a.btag = b.btag) :
    LaneWord e t a (fun i => if sub then lane16 a.data i - lane16 b.data i else lane16 a.data i + lane16 b.data i) (addSubOp sub e t) := by
  unfold addSubOp
  dsimp only
  rw [ha, hb, hi, if_neg Bool.false_ne_true, if_neg Bool.false_ne_true,
    sfPre_ok (by simpa using ⟨⟨hv, hp⟩, hbv, hbp, ht.symm, hg.symm⟩), vals_int16, vals_int16]
  dsimp only [sfBad]
  rw [List.zipWith_map, List.zipWith_self]
  exact laneOut_word _

theorem shift_word (right : Bool) (ha : operand t e.c (wSrcA e.w) = a) (hv : a.v = true) (hp : a.p = false) :
    LaneWord e t a (fun i => if right then roundInt (if bits (wMod e.w) 2 1 = 0 then .rne else .rtz) (lane16 a.data i) (wImm e.w % 16) 0
      else lane16 a.data i * (2 ^ (wImm e.w % 16) : Nat)) (shiftOp right e t) := by
  unfold shiftOp
  dsimp only
  rw [ha, sfPre_ok (by simpa using ⟨hv, hp⟩), vals_int16]
  dsimp only [sfBad]
  rw [List.map_map, show bits (wImm e.w) 3 0 = wImm e.w % 16 from rfl]
  exact laneOut_word _

end lanes

end Machine

open Machine Claims

/-- Settles O43: the operands pass (`sfPre_ok`), and `laneOut_word` says what the sixteen results become. -/
theorem laneArithmetic : Obligations.LaneArithmetic := by
  unfold Obligations.LaneArithmetic
  intro e t a b one hv hp
  refine ⟨fun hi hbv hbp ht hg => ⟨?_, ?_⟩, fun hi => ⟨?_, ?_⟩, ?_, fun hm => ?_, fun hm => ?_⟩
  · exact addSub_words false rfl rfl hv hp hi hbv hbp ht hg
  · exact addSub_words true rfl rfl hv hp hi hbv hbp ht hg
  · exact addSub_imm false rfl hv hp hi
  · exact addSub_imm true rfl hv hp hi
  · exact shift_word false rfl hv hp
  · have h := shift_word true (a := a) rfl hv hp
    rw [if_neg hm] at h
    exact h
  · have h := shift_word true (a := a) rfl hv hp
    rw [if_pos hm] at h
    exact h

namespace Machine

section poison

variable {e : Env} {t : Tile} {a : LWord}

/-- What an operation gives for a poisoned operand: nothing stops or is reported, and every data word is poisoned with zero bits (R144). -/
def Poisons (t : Tile) (o : TileOut) : Prop :=
  o.stall = false ∧ o.faults = [] ∧ o.suspect = false ∧ (∀ m ∈ o.emits, m.w.k = false → m.w.p = true ∧ m.w.data = 0#256) ∧
  cget o.t.cnt cInvalidCode = cget t.cnt cInvalidCode

theorem sfEmit_poison (lat : Nat) (u : Units) (tick : Nat) (ls : List Line) :
    ∀ m ∈ sfEmit e lat u true tick ls, m.w.k = false → m.w.p = true ∧ m.w.data = 0#256 := by
  intro m hm hk
  unfold sfEmit emitsFrom at hm
  rcases List.mem_append.1 hm with hm | hm
  · obtain ⟨⟨w, j⟩, hw, rfl⟩ := List.mem_map.1 hm
    obtain ⟨l, _, rfl⟩ := List.mem_map.1 (List.fst_mem_of_mem_zipIdx hw)
    exact ⟨rfl, rfl⟩
  · cases u with
    | new d dest =>
      obtain rfl := List.mem_singleton.1 hm
      cases hk
    | input b => cases hm
    | unscaled => cases hm

theorem sbufPop_cnt (t : Tile) (b : Nat) : (sbufPop t b).cnt = t.cnt := by
  unfold sbufPop
  split
  · rfl
  · rfl

theorem consumeScale_cnt (u : Option ScaleUse) (t : Tile) : (consumeScale e u t).cnt = t.cnt := by
  unfold consumeScale popScale
  split
  · split
    · split
      · rfl
      · exact sbufPop_cnt _ _
    · rfl
  · rfl

/-- Every operand holds a word and the first is poisoned: the scale buffers are served, and nothing else happens (R144). -/
theorem sfPre_poison {f : Nat} {rest : List (Nat × LWord)} (hv : a.v = true) (hr : ∀ o ∈ rest, o.2.v = true) (hp : a.p = true)
    (badCode extra table : Bool) (ua ub : Option ScaleUse) :
    sfPre e t ((f, a) :: rest) badCode extra ua ub table = .poison (consumeScale e ub (consumeScale e ua t)) [] false := by
  have hf : ((f, a) :: rest).find? (fun o => !o.2.v) = none := List.find?_eq_none.2 fun o ho => by
    rcases List.mem_cons.1 ho with rfl | ho
    · simp [hv]
    · simp [hr o ho]
  have ha : ((f, a) :: rest).any (·.2.p) = true := by rw [List.any_cons, hp, Bool.true_or]
  unfold sfPre
  simp only [hf, ha, Bool.or_true, if_true]

/-- An operation whose operands give poison poisons every result. -/
theorem sfBad_poisons {lat n tick : Nat} {u : Units} {p : Pre} {k : Tile → Nat → Nat → TileOut} {ua ub : Option ScaleUse}
    (h : p = .poison (consumeScale e ub (consumeScale e ua t)) [] false) : Poisons t (sfBad e lat n u tick p k) := by
  subst h
  exact ⟨rfl, rfl, rfl, sfEmit_poison _ _ _ _, congrArg (cget · cInvalidCode) ((consumeScale_cnt _ _).trans (consumeScale_cnt _ _))⟩

theorem histOp_poisons (hv : (operand t e.c (wSrcA e.w)).v = true) (hp : (operand t e.c (wSrcA e.w)).p = true) : Poisons t (histOp e t) := by
  unfold histOp
  dsimp only
  rw [sfPre_poison hv (by simp) hp]
  dsimp only
  refine ⟨rfl, rfl, rfl, ?_, congrArg (cget · cInvalidCode) ((consumeScale_cnt _ _).trans (consumeScale_cnt _ _))⟩
  dsimp only
  split
  · exact sfEmit_poison _ _ _ _
  · exact fun m hm => absurd hm (List.not_mem_nil)

section operations

variable (hva : (operand t e.c (wSrcA e.w)).v = true) (hvb : (operand t e.c (wSrcB e.w)).v = true) (hp : (operand t e.c (wSrcA e.w)).p = true)
include hva hvb hp

theorem addSubOp_poisons (sub : Bool) : Poisons t (addSubOp sub e t) := by
  refine sfBad_poisons (sfPre_poison hva (fun o ho => ?_) hp _ _ _ _ _)
  split at ho
  · cases ho
  · obtain rfl := List.mem_singleton.1 ho
    exact hvb

theorem cmpThrOp_poisons (thr : Bool) : Poisons t (cmpThrOp thr e t) := by
  refine sfBad_poisons (sfPre_poison hva (fun o ho => ?_) hp _ _ _ _ _)
  split at ho
  · obtain rfl := List.mem_singleton.1 ho
    exact hvb
  · cases ho

theorem resaddOp_poisons : Poisons t (resaddOp e t) :=
  sfBad_poisons (sfPre_poison hva (fun o ho => by rw [List.mem_singleton.1 ho]; exact hvb) hp _ _ _ _ _)

theorem maxeOp_poisons : Poisons t (maxeOp e t) :=
  sfBad_poisons (sfPre_poison hva (fun o ho => by rw [List.mem_singleton.1 ho]; exact hvb) hp _ _ _ _ _)

end operations

section oneOperand

variable (hv : (operand t e.c (wSrcA e.w)).v = true) (hp : (operand t e.c (wSrcA e.w)).p = true)
include hv hp

theorem lut4Op_poisons : Poisons t (lut4Op e t) := sfBad_poisons (sfPre_poison hv (fun _ ho => absurd ho List.not_mem_nil) hp _ _ _ _ _)

theorem lut8Op_poisons : Poisons t (lut8Op e t) := sfBad_poisons (sfPre_poison hv (fun _ ho => absurd ho List.not_mem_nil) hp _ _ _ _ _)

theorem shiftOp_poisons (right : Bool) : Poisons t (shiftOp right e t) := sfBad_poisons (sfPre_poison hv (fun _ ho => absurd ho List.not_mem_nil) hp _ _ _ _ _)

theorem narrowOp_poisons : Poisons t (narrowOp e t) := sfBad_poisons (sfPre_poison hv (fun _ ho => absurd ho List.not_mem_nil) hp _ _ _ _ _)

theorem maxrOp_poisons : Poisons t (maxrOp e t) := sfBad_poisons (sfPre_poison hv (fun _ ho => absurd ho List.not_mem_nil) hp _ _ _ _ _)

end oneOperand

end poison

end Machine

/-- Settles O44: the operands of every operation of the list give poison (`sfPre_poison`), which poisons its results (`sfBad_poisons`). -/
theorem poisonSpreads : Obligations.PoisonSpreads := by
  unfold Obligations.PoisonSpreads
  intro e t a b hv hvb hp op hop
  change Poisons t (op e t)
  simp only [List.mem_cons, List.not_mem_nil, or_false] at hop
  rcases hop with rfl | rfl | rfl | rfl | rfl | rfl | rfl | rfl | rfl | rfl | rfl | rfl | rfl
  · exact lut4Op_poisons hv hp
  · exact lut8Op_poisons hv hp
  · exact cmpThrOp_poisons hv hvb hp false
  · exact cmpThrOp_poisons hv hvb hp true
  · exact addSubOp_poisons hv hvb hp false
  · exact addSubOp_poisons hv hvb hp true
  · exact shiftOp_poisons hv hp false
  · exact shiftOp_poisons hv hp true
  · exact narrowOp_poisons hv hp
  · exact resaddOp_poisons hv hvb hp
  · exact maxeOp_poisons hv hvb hp
  · exact maxrOp_poisons hv hp
  · exact histOp_poisons hv hp

namespace Machine

section steer

variable {e : Env} {t : Tile}

theorem tokenOp_choice : (tokenOp e t).t.token.choice = (operand t e.c (wSrcA e.w)).data.getLsbD (wImm e.w % 256) := rfl

/-- The token in force (R145). -/
theorem token_inForce (h : t.token.vis ≤ e.c) : (if e.c < t.token.vis then ({} : Token) else t.token) = t.token := if_neg (by omega)

/-- No valid token is in force. -/
theorem token_absent (h : e.c < t.token.vis ∨ t.token.v = false) : (if e.c < t.token.vis then ({} : Token) else t.token).v = false := by
  split
  · rfl
  · exact h.resolve_left ‹_›

/-- In a fixed-path section a valid token of the word's tick lets its word leave (R146). -/
theorem steerOp_fixed {data : LWord} {dests : List Nat} {k : Token → List Emit} (he : e.elastic = false) (hvis : t.token.vis ≤ e.c)
    (hv : t.token.v = true) (hp : t.token.p = false) (ht : t.token.tag = data.tick) : steerOp e t data false dests k = { t := t, emits := k t.token } := by
  unfold steerOp
  simp only [token_inForce hvis, he, hv, hp, ht, Bool.not_false, Bool.not_true, bne_self_eq_false, Bool.or_self, Bool.false_eq_true, if_true, if_false]

theorem steerOp_noToken {data : LWord} {joined : Bool} {dests : List Nat} {k : Token → List Emit} (he : e.elastic = false)
    (h : e.c < t.token.vis ∨ t.token.v = false) : (steerOp e t data joined dests k).emits = steerPoison data.tick dests := by
  unfold steerOp
  simp only [token_absent h, he, Bool.not_false, if_true]

theorem steerOp_waits {data : LWord} {joined : Bool} {dests : List Nat} {k : Token → List Emit} (he : e.elastic = true)
    (h : e.c < t.token.vis ∨ t.token.v = false) : steerOp e t data joined dests k = { t := t, stall := true } := by
  unfold steerOp
  simp only [token_absent h, he, Bool.not_false, Bool.not_true, Bool.true_or, Bool.false_eq_true, if_true, if_false]

theorem steerPoison_poisons (tick : Nat) (dests : List Nat) : ∀ m ∈ steerPoison tick dests, m.w.p = true ∧ m.w.data = 0#256 := by
  intro m hm
  obtain ⟨d, _, rfl⟩ := List.mem_map.1 hm
  exact ⟨rfl, rfl⟩

/-- A fixed-path section keeps no operand of SELECT (R147). -/
theorem selectArg_fixed (he : e.elastic = false) (f : Nat) : selectArg e t f = operand t e.c f := by
  unfold selectArg
  split
  · rw [if_neg (by simp [he])]
  · rfl

theorem selectOp_fixed (he : e.elastic = false) (hvis : t.token.vis ≤ e.c) (hv : t.token.v = true) (hp : t.token.p = false)
    (hk : bit (wTagchk e.w) 7 = false) {x : LWord} (hx : x = if t.token.choice then operand t e.c (wSrcB e.w) else operand t e.c (wSrcA e.w))
    (ht : t.token.tag = x.tick) : selectOp e t = { t := t, emits := [{ off := 1, dest := wDest e.w, w := x }] } := by
  unfold selectOp
  dsimp only
  rw [selectArg_fixed he, selectArg_fixed he, token_inForce hvis, ← hx, hk, Bool.false_and, steerOp_fixed he hvis hv hp ht]
  simp [he]

theorem routeOp_fixed (he : e.elastic = false) (hvis : t.token.vis ≤ e.c) (hv : t.token.v = true) (hp : t.token.p = false)
    (ht : t.token.tag = (operand t e.c (wSrcA e.w)).tick) : routeOp e t = { t := t, emits := [
      { off := 1, dest := if t.token.choice then wImm e.w else wDest e.w, w := operand t e.c (wSrcA e.w) },
      { off := 1, dest := if t.token.choice then wDest e.w else wImm e.w, w := { v := true, tick := (operand t e.c (wSrcA e.w)).tick } }] } := by
  unfold routeOp
  dsimp only
  rw [steerOp_fixed he hvis hv hp ht, if_neg (by simp [he])]

end steer

end Machine

/-- Settles O45: what the token lets leave, by whether it is in force. -/
theorem steerWords : Obligations.SteerWords := by
  unfold Obligations.SteerWords
  intro e t a b k
  refine ⟨⟨rfl, rfl, rfl, rfl, tokenOp_choice, rfl⟩, fun he hvis hv hp hk x hx ht => selectOp_fixed he hvis hv hp hk hx ht,
    fun he hvis hv hp ht => routeOp_fixed he hvis hv hp ht, fun he h => ?_, fun he h => ?_⟩
  · rw [show (routeOp e t).emits = _ from steerOp_noToken he h]
    exact steerPoison_poisons _ _
  · unfold routeOp
    dsimp only
    rw [steerOp_waits he h]
    exact ⟨rfl, rfl⟩

end Sys2Proof
end

section
/-!
Codewords, training and calibration of a fabric link (R321, R322, R329, R331, R334 to R336).
-/

namespace Sys2Proof

namespace Machine

open Claims

section links

variable {s : State} {l raw : Nat}

theorem linkAt_setLink_same (l : Nat) (x : Link) (s : State) : linkAt (setLink l x s) l = x := tget_tset_same _ _ _ _

theorem linkAt_setLink_ne {k l : Nat} (x : Link) (s : State) (h : k ≠ l) : linkAt (setLink l x s) k = linkAt s k := tget_tset_ne _ _ _ h

theorem linkCount_cnt (k : Nat) (x : Link) : cget (linkCount k x).cnt k = satAdd (if k = 0 then 64 else 32) (cget x.cnt k) 1 :=
  cget_cadd_same _ _ _ _

/-- The link after a codeword that could be decoded (R321). -/
def goodCw (errs cnt : Nat) (x : Link) : Link :=
  let x := if errs = 0 then x else linkCount 0 x
  { x with good := x.good + 1, bad := 0, lock := x.lock || decide (8 ≤ x.good + 1), rxCnt := some cnt }

/-- The link after one that could not (R321, R331). -/
def badCw (c1 : Bool) (x : Link) : Link := linkCount 1 { x with good := 0, bad := x.bad + 1, nak := x.nak || (x.st == .up && !c1) }

theorem goodCw_facts (errs cnt : Nat) (x : Link) : (goodCw errs cnt x).good = x.good + 1 ∧ (goodCw errs cnt x).bad = 0 ∧
    (goodCw errs cnt x).lock = (x.lock || decide (8 ≤ x.good + 1)) ∧ (goodCw errs cnt x).rxCnt = some cnt ∧ (goodCw errs cnt x).st = x.st := by
  unfold goodCw
  dsimp only
  split
  · exact ⟨rfl, rfl, rfl, rfl, rfl⟩
  · exact ⟨rfl, rfl, rfl, rfl, rfl⟩

theorem codeword_eq {errs : Nat} {m : BitVec 5140} (ho : s.dev.st ≠ .off) (hl : l < 36) (hd : (linkAt s l).st ≠ .down) :
    exec (.codeword l errs m raw) s = .next (
      if 15 < errs then
        let u := setLink l (badCw (c1Mode s) (linkAt s l)) (seeRaw raw s)
        if (linkAt s l).lock && decide (bits (regAt s (0xB0000 + 16 * l)) 7 0 ≤ (linkAt s l).bad + 1) then fall l u else u
      else
        let u := setLink l (goodCw errs (parseCw m.toNat).cnt (linkAt s l)) (seeRaw raw s)
        if (linkAt s l).st = .up then cwIn l raw (parseCw m.toNat) u else u) := by
  have hno : ¬ ((decide (s.dev.st = .off) || decide (36 ≤ l) || (linkAt (seeRaw raw s) l).st == .down) = true) := by
    change ¬ ((decide (s.dev.st = .off) || decide (36 ≤ l) || (linkAt s l).st == .down) = true)
    simp [ho, hd]
    omega
  rw [exec_codeword, execCodeword]
  dsimp only
  rw [if_neg hno]
  split
  · rfl
  · unfold goodCw
    dsimp only
    split
    · rfl
    · rfl

theorem codewordSend_eq (ho : s.dev.st ≠ .off) (hl : l < 36) (hd : (linkAt s l).st ≠ .down) : exec (.codewordSend l raw) s = .next (
    sendCw l raw (if (linkAt s l).st = .up then packMsgs l (seeRaw raw s) else seeRaw raw s)) := by
  rw [exec_codewordSend, execCodewordSend, if_neg (by simp [ho, hd]; omega)]
  rfl

theorem codewordSend_down (hd : (linkAt s l).st = .down) : exec (.codewordSend l raw) s = .next s := by
  rw [exec_codewordSend, execCodewordSend, if_pos (by simp [hd])]
  rfl

theorem nakTimeout_eq (hu : (linkAt s l).st = .up) (hc : c1Mode s = false) : exec (.nakTimeout l) s = .next (setLink l { linkAt s l with nak := true } s) := by
  rw [exec_nakTimeout, execNakTimeout, if_pos (by simp [hu, hc])]
  rfl

theorem linkDown_eq (ho : s.dev.st ≠ .off) (hl : l < 36) (hd : (linkAt s l).st ≠ .down) : exec (.linkDown l) s = .next (fall l s) := by
  rw [exec_linkDown, execLinkDown, if_neg (by simp [ho, hd]; omega)]
  rfl

/-- The link that has lost its lock (R335). -/
def fallen (x : Link) : Link :=
  { x with st := .down, lock := false, good := 0, bad := 0, replays := 0, fixed := [], cnt := cadd 32 x.cnt 6 1 }

/-- The link that trains again (R335). -/
def retraining (x : Link) : Link := { x with st := .train, lock := false, good := 0, bad := 0, replays := 0, lc := [(1, 0)], rxCnt := none }

theorem startTrain_link (l : Nat) (s : State) : linkAt (startTrain l s) l = retraining (linkAt s l) := linkAt_setLink_same _ _ _

/-- The state with a link that has just lost its lock, and the event of it. -/
def linkLost (l : Nat) (s : State) : State :=
  raiseEv { code := 0x40, sev := 3, origin := l, body := le 8 (linkStat (fallen (linkAt s l))) } (setLink l (fallen (linkAt s l)) s)

theorem linkLost_link (l : Nat) (s : State) : linkAt (linkLost l s) l = fallen (linkAt s l) := linkAt_setLink_same _ _ _

theorem linkFall_eq (l : Nat) (s : State) : linkFall l s =
    if bit (regAt s (0xB0000 + 16 * l)) 31 && bit (regAt s (0xB0000 + 16 * l)) 29 then startTrain l (linkLost l s) else linkLost l s := rfl

/-- A link that falls is DOWN, or trains again where its configuration says so (R335). -/
theorem linkFall_link (l : Nat) (s : State) : linkAt (linkFall l s) l =
    if bit (regAt s (0xB0000 + 16 * l)) 31 && bit (regAt s (0xB0000 + 16 * l)) 29 then retraining (fallen (linkAt s l)) else fallen (linkAt s l) := by
  rw [linkFall_eq]
  split
  · rw [startTrain_link, linkLost_link]
  · exact linkLost_link l s

theorem linkFall_st (l : Nat) (s : State) : (linkAt (linkFall l s) l).st =
    if bit (regAt s (0xB0000 + 16 * l)) 31 = true ∧ bit (regAt s (0xB0000 + 16 * l)) 29 = true then .train else .down := by
  rw [linkFall_link]
  simp only [Bool.and_eq_true]
  rw [apply_ite Link.st]
  rfl

theorem linkFall_count (l : Nat) (s : State) : cget (linkAt (linkFall l s) l).cnt 6 = satAdd 32 (cget (linkAt s l).cnt 6) 1 := by
  rw [linkFall_link]
  split
  · exact cget_cadd_same _ _ _ _
  · exact cget_cadd_same _ _ _ _

theorem linkTrainTimeout_eq (ho : s.dev.st ≠ .off) (h : (linkAt s l).st = .train ∨ (linkAt s l).st = .cal) :
    exec (.linkTrainTimeout l) s = .next (fall l s) := by
  rw [exec_linkTrainTimeout, execLinkTrainTimeout, if_pos (by simp [ho, h])]
  rfl

theorem linkTrainDone_eq {peer uid : Nat} (h : (linkAt s l).st = .train) : exec (.linkTrainDone l peer uid) s = .next (setLink l { linkAt s l with
    st := .cal, lock := true, good := 8, bad := 0, peerLink := peer % 64, peerUid := uid, probes := [], lc := probeMsgs } s) := by
  rw [exec_linkTrainDone, execLinkTrainDone, if_neg (by simp [h])]
  rfl

theorem probe_eq {id t2 t3 : Nat} (h : (linkAt s l).st = .cal ∨ (linkAt s l).st = .up) : exec (.probe l id t2 t3) s = .next (setLink l { linkAt s l with
    lc := (linkAt s l).lc ++ [(3, id % 16 * 2 ^ 50 + (t3 + 2 ^ 48 - t2 % 2 ^ 48) % 2 ^ 48)] } s) := by
  rw [exec_probe, execProbe, if_pos (by simp [h])]
  rfl

theorem echo_eq {id turn t4 t1 : Nat} (h : (linkAt s l).st = .cal) (hf : (linkAt s l).probeT.find? (fun e => e.1 == id % 16) = some (id % 16, t1)) :
    exec (.echo l id turn t4) s = .next (setLink l { linkAt s l with
      probes := (linkAt s l).probes ++ [ofTwos 48 ((t4 + 2 ^ 49 - t1 % 2 ^ 48 - turn % 2 ^ 48) % 2 ^ 48)] } s) := by
  rw [exec_echo, execEcho]
  dsimp only
  rw [hf]
  dsimp only
  rw [if_pos (by simp [h])]
  rfl

/-- The link whose latency is measured (R336). -/
def calibrated (x : Link) : Link :=
  { x with st := .up, lambda := lambdaPs x, drift := false, resend := x.unacked, replays := 0, nak := false, rxCnt := none, thetaSum := 0, thetaN := 0 }

theorem linkCalDone_spread (h : (linkAt s l).st = .cal) (hn : 64 ≤ (linkAt s l).probes.length) (hp : probeSpread (linkAt s l) = true) :
    exec (.linkCalDone l) s = .next (setLink l { linkAt s l with probes := [], lc := probeMsgs } s) := by
  rw [exec_linkCalDone, execLinkCalDone]
  dsimp only
  rw [if_neg (by simp [h]; omega), if_pos hp]
  rfl

theorem linkCalDone_eq (h : (linkAt s l).st = .cal) (hn : 64 ≤ (linkAt s l).probes.length) (hp : probeSpread (linkAt s l) = false)
    (hd : drifted s (linkAt s l) (lambdaPs (linkAt s l)) = false) :
    exec (.linkCalDone l) s = .next (reportLambda l (lambdaPs (linkAt s l)) (setLink l (calibrated (linkAt s l)) s)) := by
  rw [exec_linkCalDone, execLinkCalDone]
  dsimp only
  rw [if_neg (by simp [h]; omega), if_neg (by simp [hp]), hd, if_neg Bool.false_ne_true]
  rfl

/-- Outside a plan, the latency of a link that was not DOWN tells nobody anything (R347). -/
theorem reportLambda_alone {ps : Nat} (hp : s.fab.plan = none) (hd : (s.fab.id, l) ∉ s.fab.downLinks) : reportLambda l ps s = s := by
  unfold reportLambda
  split
  · unfold linkBackAt
    rw [if_neg (show ¬ s.fab.downLinks.contains (s.fab.id, l) = true by simpa using hd)]
    dsimp only
    rw [hp]
    split
    · rfl
    · rfl
  · rw [hp]

end links

end Machine

open Machine Claims

/-- Settles O46: each row by its equation, and a falling link by `linkFall_link`. -/
theorem linkRows : Obligations.LinkRows := by
  unfold Obligations.LinkRows
  intro s l ho hl
  refine ⟨fun errs raw m hd => ⟨fun he => ?_, fun he => ?_⟩, fun raw => ⟨codewordSend_down, fun hu => ?_, fun hu => ?_⟩, nakTimeout_eq,
    fun hd => ⟨linkDown_eq ho hl hd, linkFall_st l s, linkFall_count l s⟩, linkTrainTimeout_eq ho, fun peer uid => linkTrainDone_eq,
    fun id t2 t3 => probe_eq, fun id turn t4 t1 => echo_eq, fun hc hn => ⟨linkCalDone_spread hc hn, fun hp hdr hpl hdl => ?_⟩⟩
  · obtain ⟨hg, hb, hk, hr, hst⟩ := goodCw_facts errs (parseCw m.toNat).cnt (linkAt s l)
    refine ⟨_, hg, hb, hk, hr, hst, ?_⟩
    rw [codeword_eq ho hl hd, if_neg (by omega)]
  · refine ⟨badCw (c1Mode s) (linkAt s l), rfl, rfl, linkCount_cnt 1 _, rfl, ?_⟩
    rw [codeword_eq ho hl hd, if_pos he]
    simp only [Bool.and_eq_true, decide_eq_true_eq]
  · rw [codewordSend_eq ho hl (by simp [hu]), if_pos hu]
  · have hne : (linkAt s l).st ≠ .up := by
      rcases hu with hu | hu
      · simp [hu]
      · simp [hu]
    have hnd : (linkAt s l).st ≠ .down := by
      rcases hu with hu | hu
      · simp [hu]
      · simp [hu]
    rw [codewordSend_eq ho hl hnd, if_neg hne]
  · refine ⟨_, linkCalDone_eq hc hn hp hdr, ?_⟩
    rw [reportLambda_alone (s := setLink l (calibrated (linkAt s l)) s) hpl hdl, linkAt_setLink_same]
    exact ⟨rfl, rfl, rfl, fun k hk => linkAt_setLink_ne _ _ hk⟩

end Sys2Proof
end

section
/-!
Fire words, fixed slots, elastic packets, collected records and the update token (R254, R327, R333, R343, R455).
-/

namespace Sys2Proof

namespace Machine

open Claims

section traffic

variable {s : State} {t n : Nat}

theorem fireWordBuild_eq (ha : actsFor s t = true) (hq : fireQuiet s = false) :
    exec (.fireWordBuild t) s = .next { s with comb := { s.comb with fireOut := some (fireBuilt s t) } } := by
  rw [exec_fireWordBuild, execFireWordBuild, if_neg (by simp [ha, hq])]
  rfl

theorem fireSource_off {b : Nat} (h : bit (regFor s t (0x70300 + 2 * b)) 15 = false) : fireSource s t b = (0, 0) := if_pos (by simp [h])

theorem fslotTake_eq {e : FSlot} (he : fslotAt (fbankFor s t) n = some e) (ha : actsFor s t = true) (hn : ∀ w ∈ s.fab.sw, w.1 ≠ slotKey t n)
    (hc : e.clr = false ∨ e.inp ≠ 3) : exec (.fslotTake t n) s = .next (
      let w := fslotWord t n e s
      { w.2 with fab := { w.2.fab with sw := w.2.fab.sw ++ [(slotKey t n, w.1)] } }) := by
  have hno : s.fab.sw.any (fun w => w.1 == slotKey t n) = false := List.any_eq_false.2 fun w hw => by simp [hn w hw]
  have hcl : ¬ (e.clr && e.inp == 3) = true := by
    rcases hc with hc | hc
    · simp [hc]
    · simp [hc]
  rw [exec_fslotTake, execFslotTake, he]
  dsimp only
  rw [if_neg (by simp [ha, hno]), if_neg hcl]
  rfl

theorem fslotWord_absent {e : FSlot} (hi : e.inp = 0) (hf : s.fab.tx.find? (fun w => w.1 == slotKey t n) = none) :
    (fslotWord t n e s).1 = absentWord t := by
  unfold fslotWord
  rw [hi]
  dsimp only
  rw [hf]
  rfl

/-- The state with the word of an entry taken out of the switch (R327). -/
def switchOut (key : Nat) (s : State) : State := { s with fab := { s.fab with sw := s.fab.sw.filter fun w => w.1 != key } }

theorem fslotGive_eq {e : FSlot} {w : LWord} (he : fslotAt (fbankFor s t) n = some e)
    (hw : s.fab.sw.find? (fun w => w.1 == slotKey t n) = some (slotKey t n, w)) : exec (.fslotGive t n) s = .next (
      let u := switchOut (slotKey t n) s
      match e.out with
      | 0 => { u with fab := { u.fab with given := (u.fab.given.filter fun w => w.1 != slotKey t n) ++ [(slotKey t n, w)] } }
      | 1 => launch e.outLink e.next w u
      | 2 => { u with comb := { u.comb with fireIn := tset (fun _ => {}) u.comb.fireIn t (wordToFire w) } }
      | _ => mregOr (fbankFor u t) n e.mreg (gcOf u t + e.give) w u) := by
  rw [exec_fslotGive, execFslotGive, he, hw]
  rfl

theorem elasticPacket_eq {l vc : Nat} {p : Packet} {rest : List Flit} (ho : s.dev.st ≠ .off) (hl : l < 36) (hv : vc < 3)
    (hp : wholePacket ((linkAt s l).buf.getD vc []) = some (p, rest)) : exec (.elasticPacket l vc) s = .next (
      let free := unbuffer l vc (p.pay.length + 1) rest
      if erouteOf s p.dest = 0 then s
      else if erouteOf s p.dest ≠ 128 then free (sendPacket p s)
      else if vc = 1 && !collRoom s p then s
      else match packetHere p s with | some t => free t | none => s) := by
  rw [exec_elasticPacket, execElasticPacket, if_neg (by simp [ho]; omega), hp]
  dsimp only
  rw [if_neg (by omega)]
  rfl

theorem collectorRecord_eq {src e : Nat} {c : Coll} (hc : s.fab.coll.find? (fun c => c.src == src) = some c) (he : s.acq.collect = some e)
    (hel : elasticOff s = false) (hlo : 64 ≤ c.bytes.length) (hlen : c.bytes.length = 32 * unle (slice 20 4 c.bytes)) :
    exec (.collectorRecord src c.recseq) s = .next { s with
      fab := { s.fab with coll := s.fab.coll.erase c }
      acq := { s.acq with staged := s.acq.staged ++ [{
        req := { tick := unle (slice 0 8 c.bytes), template := 0, dest := some (0, e) }, bytes := c.bytes, foreign := true }] } } := by
  have hno : ¬ (decide (c.recseq ≠ c.recseq) || decide (c.bytes.length < 64) || c.bytes.length != 32 * unle (slice 20 4 c.bytes) || elasticOff s) = true := by
    simpa [hel, ← hlen] using hlo
  rw [exec_collectorRecord, execCollectorRecord, hc, he]
  dsimp only
  rw [if_neg hno]
  rfl

theorem tokenBack_upd (d : Nat) (s : State) : (tokenBack d s).upd = s.upd := by
  unfold tokenBack
  dsimp only
  split
  · rfl
  · split
    · rw [grantTo_eq]
    · rfl

section token

variable {dev : Nat} (ho : s.dev.st ≠ .off) (hf : inFabric s = true)
include ho hf

theorem updateToken_asked (hm : s.fab.isMaster = true) : exec (.updateToken dev 0) s = .next (tokenAsked dev s) := by
  rw [exec_updateToken, execUpdateToken, if_neg (by simp [ho, hf])]
  rw [if_pos hm]
  rfl

theorem updateToken_idle (hh : s.upd.holder = none) :
    exec (.updateToken dev 1) s = .next (returnToken { s with fab := { s.fab with tokenHeld := true } }) := by
  rw [exec_updateToken, execUpdateToken, if_neg (by simp [ho, hf])]
  rw [hh]
  rfl

theorem updateToken_held (hh : s.upd.holder ≠ none) (ha : s.upd.applyJ = none) :
    exec (.updateToken dev 1) s = .next { s with fab := { s.fab with tokenHeld := true } } := by
  rw [exec_updateToken, execUpdateToken, if_neg (by simp [ho, hf])]
  dsimp only
  rw [if_neg (by simpa using hh), ha]
  rfl

theorem updateToken_back (hm : s.fab.isMaster = true) (ha : s.upd.applyJ = none) : exec (.updateToken dev 2) s = .next (tokenBack dev s) := by
  rw [exec_updateToken, execUpdateToken, if_neg (by simp [ho, hf])]
  dsimp only
  rw [hm, tokenBack_upd, ha, Option.isSome_none, Bool.and_false, Bool.false_and]
  rfl

end token

end traffic

end Machine

open Machine Claims

/-- Settles O47: each row by its equation. -/
theorem fabricTraffic : Obligations.FabricTraffic := by
  unfold Obligations.FabricTraffic
  intro s
  refine ⟨fun t ha hq => ⟨fireWordBuild_eq ha hq, rfl, rfl, fun b _ hb => fireSource_off hb⟩,
    fun t n e he ha hn hc => ⟨fslotTake_eq he ha hn hc, fslotWord_absent⟩, fun t n e w he hw => ?_, fun l vc p rest ho hl hv hp => ?_,
    fun src e c hc he hel hlo hlen => ⟨_, collectorRecord_eq hc he hel hlo hlen, rfl, rfl⟩,
    fun dev ho hf => ⟨updateToken_asked ho hf, updateToken_idle ho hf, updateToken_held ho hf, updateToken_back ho hf⟩⟩
  · have hx := fslotGive_eq he hw
    refine ⟨fun h => ?_, fun h => ?_, fun h => ?_, fun h => ?_⟩
    · rw [hx, h]
      rfl
    · rw [hx, h]
      rfl
    · rw [hx, h]
      rfl
    · rw [hx, h]
      rfl
  · have hx := elasticPacket_eq ho hl hv hp
    refine ⟨fun h => ?_, fun h h' => ?_, fun h hvc t ht => ?_⟩
    · rw [hx, if_pos h]
    · rw [hx, if_neg h, if_pos h']
    · rw [hx, h, if_neg (by decide), if_neg (by decide), if_neg (by simp [hvc]), ht]

end Sys2Proof
end

section
/-!
Discovery, barriers and membership messages (R338 to R340, R344, R346, R348, R349).
-/

namespace Sys2Proof

namespace Machine

open Claims

section roles

/-- What a device is in its fabric is as it was: its mastership, its plan and the devices it holds lost. -/
structure RoleKept (s t : State) : Prop where
  isMaster : t.fab.isMaster = s.fab.isMaster
  plan : t.fab.plan = s.fab.plan
  lost : t.fab.lost = s.fab.lost

theorem roleKept_refl (s : State) : RoleKept s s := ⟨rfl, rfl, rfl⟩

theorem roleKept_trans {s t u : State} (h : RoleKept s t) (k : RoleKept t u) : RoleKept s u :=
  ⟨k.isMaster.trans h.isMaster, k.plan.trans h.plan, k.lost.trans h.lost⟩

theorem roleKept_foldl {α : Type} {f : State → α → State} (hf : ∀ s a, RoleKept s (f s a)) (l : List α) (s : State) : RoleKept s (l.foldl f s) := by
  induction l generalizing s with
  | nil => exact roleKept_refl s
  | cons a l ih => exact roleKept_trans (hf s a) (ih (f s a))

theorem roleKept_sendPacket (p : Packet) (s : State) : RoleKept s (sendPacket p s) := by
  unfold sendPacket
  dsimp only
  split
  · have hx : RoleKept s (if p.vc = 0 then p.pay.foldl (fun s w => erxAdd p.dport w s) s else s) := by
      split
      · refine roleKept_foldl (fun u w => ?_) _ s
        exact ⟨rfl, rfl, rfl⟩
      · exact roleKept_refl s
    split
    · exact roleKept_trans hx ⟨rfl, rfl, rfl⟩
    · exact hx
  · split
    · exact ⟨rfl, rfl, rfl⟩
    · exact ⟨rfl, rfl, rfl⟩

theorem roleKept_erouteApply (t : List (Nat × Nat)) (s : State) : RoleKept s (erouteApply t s) := by
  unfold erouteApply
  dsimp only
  refine roleKept_trans ?_ (roleKept_foldl (fun u p => roleKept_sendPacket p u) _ _)
  exact ⟨rfl, rfl, rfl⟩

theorem roleKept_sendMsg2 (d : Nat) (m : Msg2) (s : State) : RoleKept s (sendMsg2 d m s) := ⟨rfl, rfl, rfl⟩

theorem roleKept_routesOut (s : State) : RoleKept s (routesOut s) := by
  unfold routesOut
  dsimp only
  refine roleKept_trans (roleKept_foldl (fun u d => ?_) _ s) (roleKept_erouteApply _ _)
  exact roleKept_sendMsg2 _ _ _

theorem roleKept_toDeputy (d : Nat) (s : State) : RoleKept s (toDeputy d s) := by
  unfold toDeputy
  split
  · exact roleKept_refl s
  · refine roleKept_foldl (fun u e => ?_) _ s
    exact roleKept_sendMsg2 _ _ _

theorem roleKept_nameBarrier (b : BarrierDesc) (s : State) : RoleKept s (nameBarrier b s) := by
  unfold nameBarrier
  rw [toMembers_eq]
  exact ⟨rfl, rfl, rfl⟩

end roles

section flood

variable (m : Msg) (s : State)

theorem flood_hbCount : (flood m s).fab.hbCount = s.fab.hbCount := by
  unfold flood
  refine foldl_keeps (fun t => t.fab.hbCount) (fun _ _ => ?_) _ s
  rfl

theorem flood_dev : (flood m s).dev = s.dev := by
  unfold flood
  refine foldl_keeps State.dev (fun _ _ => ?_) _ s
  rfl

end flood

section messages

variable {s : State} {l : Nat}

theorem hears_on (h : hears s l = true) : s.dev.st ≠ .off ∧ (linkAt s l).st = .up := by simpa [hears] using h

theorem elect_stale {uid prio hops epoch : Nat} (h : epoch < s.fab.epoch) : exec (.elect l (.elect uid prio hops epoch)) s = .next s := by
  rw [exec_elect, execElect]
  dsimp only
  rw [if_pos (by simp [h])]
  rfl

section heard

variable (hh : hears s l = true)
include hh

theorem hello_eq (uid prio link st : Nat) (d : List Byte) :
    exec (.hello l (.hello uid prio link st d)) s = .next (setLink l { linkAt s l with peerUid := uid, peerLink := link % 64 } s) := by
  rw [exec_hello, execHello]
  dsimp only
  rw [if_pos hh]
  rfl

theorem elect_better {uid prio hops : Nat} {b : Nat × Nat × Nat} (hr : inReady s = true) (hd : s.fab.discovering = true)
    (hb : s.fab.best = some b) (hbt : betterThan (uid, prio, hops + 1) b = true) : exec (.elect l (.elect uid prio hops s.fab.epoch)) s =
      .next (floodBest { s with fab := { s.fab with best := some (uid, prio, hops + 1), uplink := some l } }) := by
  rw [exec_elect, execElect]
  simp only [hh, hr, hd, hb, hbt, Nat.lt_irrefl, decide_false, Bool.not_true, Bool.or_self, Bool.false_and, Bool.false_eq_true, if_false,
    Bool.and_self, if_true]
  rfl

theorem topo_master {uid : Nat} {ks : List TopoLink} (hm : s.fab.isMaster = true) : exec (.topo l (.topo uid ks)) s =
    .next (tryAssign { s with fab := { s.fab with topo := (s.fab.topo.filter fun e => e.1 != uid) ++ [(uid, ks)] } }) := by
  rw [exec_topo, execTopo]
  dsimp only
  rw [if_neg (by simp [hh]), if_pos hm]
  rfl

theorem topo_passedOn {uid k : Nat} {ks : List TopoLink} (hm : s.fab.isMaster = false) (hu : s.fab.uplink = some k) :
    exec (.topo l (.topo uid ks)) s = .next (sendMsg k (.topo uid ks) s) := by
  rw [exec_topo, execTopo]
  dsimp only
  rw [if_neg (by simp [hh]), if_neg (by simp [hm]), hu]
  rfl

theorem assign_own {id master epoch : Nat} (hm : s.fab.masterUid = 0) : exec (.assign l (.assign s.part.uid id master epoch [])) s =
    .next (sendMsg l (.assignAck s.part.uid id epoch)
      { s with fab := { s.fab with masterUid := master, id := id, member := true, discovering := false, epoch := epoch, timeRoot := some 0 } }) := by
  rw [exec_assign, execAssign]
  dsimp only
  rw [if_neg (by simp [hh]), if_neg (by simp [hm]), if_pos rfl]
  rfl

theorem assignAck_passedOn {uid id k : Nat} (hm : s.fab.isMaster = false) (hu : s.fab.uplink = some k) :
    exec (.assignAck l (.assignAck uid id s.fab.epoch)) s = .next (sendMsg k (.assignAck uid id s.fab.epoch) s) := by
  rw [exec_assignAck, execAssignAck]
  dsimp only
  rw [if_neg (by simp [hh]), if_neg (by simp [hm]), hu]
  rfl

theorem assignAck_last {uid id : Nat} (hm : s.fab.isMaster = true) (ha : s.fab.acks = [uid]) :
    exec (.assignAck l (.assignAck uid id s.fab.epoch)) s = .next (endDiscovery { s with fab := { s.fab with acks := [] } }) := by
  have hf : s.fab.acks.filter (· != uid) = [] := by simp [ha]
  rw [exec_assignAck, execAssignAck]
  dsimp only
  rw [if_neg (by simp [hh]), if_pos hm, if_neg (by simp [ha]), hf]
  rfl

theorem heartbeat_first {id count : Nat} (hmem : s.fab.member = true) (hm : s.fab.isMaster = true) (hid : id ≠ s.fab.id)
    (hf : s.fab.heard.find? (fun e => e.1 == id) = none) :
    exec (.heartbeat l (.heartbeat id s.fab.epoch count)) s = .next { s with fab := { s.fab with heard := cset s.fab.heard id count } } := by
  rw [exec_heartbeat, execHeartbeat]
  dsimp only
  rw [hf, if_neg (by simp [hh, hmem, hid]), if_pos hm]
  rfl

end heard

variable (ho : s.dev.st ≠ .off)
include ho

theorem discQuiet_master {prio hops : Nat} (hd : s.fab.discovering = true) (hb : s.fab.best = some (s.part.uid, prio, hops)) (hp : prio ≠ 0)
    (hm : s.fab.isMaster = false) : exec .discQuiet s =
      .next (tryAssign { s with fab := { s.fab with isMaster := true, masterUid := s.part.uid, id := 0, topo := [(s.part.uid, ownTopo s)] } }) := by
  rw [exec_discQuiet, execDiscQuiet, if_neg (by simp [ho, hd]), hb]
  dsimp only
  rw [if_pos rfl, if_neg (by simp [hp, hm])]
  rfl

theorem discQuiet_other {u prio hops k : Nat} (hd : s.fab.discovering = true) (hb : s.fab.best = some (u, prio, hops)) (hu : u ≠ s.part.uid)
    (hk : s.fab.uplink = some k) : exec .discQuiet s = .next (sendMsg k (.topo s.part.uid (ownTopo s)) s) := by
  rw [exec_discQuiet, execDiscQuiet, if_neg (by simp [ho, hd]), hb]
  dsimp only
  rw [if_neg hu, hk]
  rfl

theorem erouteUpdate_eq {t : List (Nat × Nat)} (hm : s.fab.member = true) : exec (.erouteUpdate t) s = .next (erouteApply t s) := by
  rw [exec_erouteUpdate, execErouteUpdate, if_neg (by simp [ho, hm])]
  rfl

theorem barrier_eq {b : BarrierDesc} {p : Plan} (hp : s.fab.plan = some p) (hmem : s.fab.member = true) (hm : s.fab.isMaster = false) (hs : b.start = false ∨ b.cancel = true) :
    exec (.barrier b) s = .next (
      if b.cancel then cancelStart b.tick s
      else if nowTick s < b.tick then
        let t := sendMsg2 p.master (.barrierAck true b.tick) s
        { t with fab := { t.fab with barriers := t.fab.barriers ++ [b] } }
      else sendMsg2 p.master (.barrierAck false b.tick) s) := by
  rw [exec_barrier, execBarrier, hp]
  dsimp only
  rw [if_neg (by simp [ho, hmem, hm])]
  cases hc : b.cancel with
  | true => rfl
  | false =>
    rw [hs.resolve_right (by simp [hc])]
    by_cases ht : nowTick s < b.tick
    · simp only [ht, if_true, Bool.false_eq_true, if_false]
      rfl
    · simp only [ht, Bool.false_eq_true, if_false]
      rfl

theorem heartbeatSend_eq (hmem : s.fab.member = true) : exec .heartbeatSend s = .next (
    let u := { s with fab := { s.fab with hbCount := (s.fab.hbCount + 1) % 2 ^ 32 } }
    let m := Msg.heartbeat u.fab.id u.fab.epoch u.fab.hbCount
    if u.fab.isMaster then flood m u else match u.fab.uplink with | some l => sendMsg l m u | none => u) := by
  rw [exec_heartbeatSend, execHeartbeatSend, if_neg (by simp [ho, hmem])]
  rfl

theorem hbTimeout_eq {p : Plan} {dev : Nat} (hp : s.fab.plan = some p) (hmem : s.fab.member = true) (hm : s.fab.isMaster = true) (hd : dev ≠ s.fab.id)
    (hin : ∃ d ∈ p.devs, d.id = dev) (hl : dev ∉ s.fab.lost) : exec (.hbTimeout dev) s = .next (loseDevice dev p s) := by
  have hany : p.devs.any (fun d => d.id == dev) = true := by simpa using hin
  rw [exec_hbTimeout, execHbTimeout, hp]
  dsimp only
  rw [if_pos (by simp [ho, hmem, hm, hd, hany, hl])]
  rfl

/-- The deputy that holds itself the master (R348). -/
def asMaster (p : Plan) (s : State) : State :=
  { s with fab := { s.fab with isMaster := true, masterUid := s.part.uid, lost := p.master :: s.fab.lost } }

/-- The plan under the new master, with a new deputy (R348). -/
def nextPlan (p : Plan) (s : State) : Plan := { p with master := s.fab.id, deputy := newDeputy (asMaster p s) p }

/-- The deputy that has taken the master's place, before its messages (R348). -/
def promoted (p : Plan) (s : State) : State :=
  { asMaster p s with fab := { (asMaster p s).fab with plan := some (nextPlan p s), deputy := (nextPlan p s).deputy } }

/-- A member's heartbeat counts up, whatever it is sent to (R346). -/
theorem heartbeatSend_row (hmem : s.fab.member = true) :
    ∃ t, exec .heartbeatSend s = .next t ∧ t.fab.hbCount = (s.fab.hbCount + 1) % 2 ^ 32 ∧ t.dev = s.dev ∧ t.hbm = s.hbm := by
  refine ⟨_, heartbeatSend_eq ho hmem, ?_⟩
  dsimp only
  split
  · exact ⟨flood_hbCount _ _, flood_dev _ _, flood_hbm _ _⟩
  · split
    · exact ⟨rfl, rfl, rfl⟩
    · exact ⟨rfl, rfl, rfl⟩

/-- The new master's messages: its plan to the deputy, the routes, and what the deputy must know (R348). -/
def announced (p : Plan) (s : State) : State :=
  toDeputy (nextPlan p s).deputy (routesOut (sendMsg2 (nextPlan p s).deputy (.plan (nextPlan p s)) (promoted p s)))

theorem masterLoss_eq {p : Plan} (hp : s.fab.plan = some p) (hmem : s.fab.member = true) (hm : s.fab.isMaster = false) (hd : p.deputy = s.fab.id) :
    exec .masterLoss s = .next (nameBarrier { lossBarrier with handover := some (announced p s).fab.id } (announced p s)) := by
  rw [exec_masterLoss, execMasterLoss, hp]
  dsimp only
  rw [if_neg (by simp [ho, hmem, hm, hd])]
  rfl

omit ho in
theorem roleKept_announced (p : Plan) (s : State) : RoleKept (promoted p s) (announced p s) :=
  roleKept_trans (roleKept_sendMsg2 _ _ _) (roleKept_trans (roleKept_routesOut _) (roleKept_toDeputy _ _))

/-- The deputy that has lost its master is the master, under a plan of its own (R348). -/
theorem masterLoss_row {p : Plan} (hp : s.fab.plan = some p) (hmem : s.fab.member = true) (hm : s.fab.isMaster = false) (hd : p.deputy = s.fab.id) :
    ∃ t q, exec .masterLoss s = .next t ∧ t.fab.isMaster = true ∧ t.fab.plan = some q ∧ q.master = s.fab.id ∧ p.master ∈ t.fab.lost := by
  obtain ⟨h1, h2, h3⟩ := roleKept_trans (roleKept_announced p s)
    (roleKept_nameBarrier { lossBarrier with handover := some (announced p s).fab.id } (announced p s))
  exact ⟨_, _, masterLoss_eq ho hp hmem hm hd, h1, h2, rfl, by rw [h3]; exact List.mem_cons_self⟩

end messages

end Machine

open Machine Claims

/-- Settles O48: each message by its equation; a new master by `promoted` and the role its messages leave alone. -/
theorem fabricMembers : Obligations.FabricMembers := by
  unfold Obligations.FabricMembers
  intro s l hh
  have ho := (hears_on hh).1
  refine ⟨hello_eq hh, fun uid prio hops epoch => ⟨elect_stale, fun b hr he hd hb hbt => ?_⟩, fun prio hops => discQuiet_master ho,
    fun u prio hops k => discQuiet_other ho, fun uid ks => ⟨topo_master hh, fun k => topo_passedOn hh⟩, fun id master epoch => assign_own hh,
    fun uid id k => assignAck_passedOn hh, fun uid id => assignAck_last hh, fun t => erouteUpdate_eq ho, fun b p hp hmem hm => ?_, heartbeatSend_row ho,
    fun id count => heartbeat_first hh, fun p dev hp hmem hm hd hin hl => hbTimeout_eq ho hp hmem hm hd hin hl, fun p => masterLoss_row ho⟩
  · subst he
    exact elect_better hh hr hd hb hbt
  · refine ⟨fun hc => ?_, fun hc hs ht => ?_, fun hc hs ht => ?_⟩
    · rw [barrier_eq ho hp hmem hm (.inr hc), if_pos hc]
    · refine ⟨_, barrier_eq ho hp hmem hm (.inl hs), ?_⟩
      rw [if_neg (by simp [hc]), if_pos ht]
      exact ⟨rfl, rfl, rfl, rfl⟩
    · rw [barrier_eq ho hp hmem hm (.inl hs), if_neg (by simp [hc]), if_neg (by omega)]

end Sys2Proof
end

section
/-!
Disciplines of the time base (R354, R356 to R364).
-/

namespace Sys2Proof

namespace Machine

open Claims

/-- A row that writes no memory leaves local memory as it is. -/
theorem exec_hbm {i : Instr} {s t : State} (hi : writesMemory i = false) (h : exec i s = .next t) : t.hbm = s.hbm := by
  obtain ⟨u, hu, hc⟩ := exec_calm hi s
  obtain rfl := Host.Outcome.next.inj (hu.symm.trans h)
  exact hc.memory

section slews

variable {s : State}

/-- A time base rebased at a stamp gives there what it gave before (R356). -/
theorem linear_rebaseSlew (t : TimeBase) (r : Nat) : linear (endSlew (rebaseSlew t r)) r = linear t r := linear_origin (endSlew (rebaseSlew t r))

theorem slewBy_zero (r : Nat) (t : TimeBase) : slewBy 0 r t = endSlew (rebaseSlew t r) := rfl

theorem slewBy_nonzero {d : Int} (h : d ≠ 0) (r : Nat) (t : TimeBase) :
    slewBy d r t = { endSlew (rebaseSlew t r) with rem := d, slew := slewFor d (endSlew (rebaseSlew t r)).rate, slewing := true } := if_neg h

theorem slewBy_facts (d : Int) (r : Nat) (t : TimeBase) : (slewBy d r t).rem = d ∧ (slewBy d r t).slewing = decide (d ≠ 0) ∧
    (slewBy d r t).offsetLarge = t.offsetLarge ∧ (slewBy d r t).locked = t.locked ∧ (slewBy d r t).offsetPs = t.offsetPs ∧
    linear (slewBy d r t) r = linear t r := by
  by_cases h : d = 0
  · subst h
    exact ⟨rfl, rfl, rfl, rfl, rfl, linear_rebaseSlew t r⟩
  · rw [slewBy_nonzero h]
    exact ⟨rfl, (decide_eq_true h).symm, rfl, rfl, rfl, linear_origin _⟩

/-- The time base as a discipline finds it, with what it saw (R358). -/
def offsetSeen (d : Int) (locked large : Bool) (s : State) : TimeBase :=
  { s.time with offsetPs := offsetPs d, locked := locked, holdover := false, offsetLarge := large }

theorem steer_small {d : Int} {locked : Bool} (h : d.natAbs ≤ tuMs) :
    steer d locked s = { s with time := slewBy d s.time.raw (offsetSeen d locked false s) } := by
  unfold steer
  simp only [decide_eq_false (Nat.not_lt.2 h), Bool.false_and, Bool.false_eq_true, if_false]
  rfl

theorem steer_large {d : Int} {locked : Bool} (h : tuMs < d.natAbs) (hr : inReady s = false) : steer d locked s =
    raiseEv { code := 0x50, sev := 3, body := le 8 (toTwos 64 d) } { s with time := slewBy d s.time.raw (offsetSeen d locked true s) } := by
  have hr' : inReady { s with time := { s.time with offsetPs := offsetPs d, locked := locked, holdover := false } } = false := hr
  unfold steer
  simp only [decide_eq_true h, hr', Bool.and_false, Bool.false_eq_true, if_false, if_true]
  rfl

theorem steer_steps {d : Int} {locked : Bool} (h : tuMs < d.natAbs) (hr : inReady s = true) : steer d locked s =
    timeBecomes ((nowL s : Int) + d).toNat { s with time := offsetSeen d locked false s } := by
  have hr' : inReady { s with time := { s.time with offsetPs := offsetPs d, locked := locked, holdover := false } } = true := hr
  unfold steer
  simp only [decide_eq_true h, hr', Bool.and_self, if_true]
  rfl

/-- A time that is set keeps the newest stamp and the mark of a large offset. -/
theorem timeBecomes_keeps (l : Nat) (s : State) : (timeBecomes l s).time.raw = s.time.raw ∧ (timeBecomes l s).time.offsetLarge = s.time.offsetLarge := by
  have hd := (disarmed_cancelTimed (timeWritten l s)).time
  rw [timeBecomes_eq]
  split
  · rw [hd]
    exact ⟨rfl, rfl⟩
  · rw [startTicks_time, hd]
    exact ⟨rfl, rfl⟩

theorem slewEnd_eq {raw : Nat} (hs : s.time.slewing = true) (h0 : s.time.slew ≠ 0) (hr : s.time.rem.natAbs ≤ (slewed s.time raw).natAbs)
    (hlo : s.time.raw ≤ raw) (hr0 : s.time.r0 ≤ raw) : exec (.slewEnd raw) s = .next { s with time := { s.time with
      slew := 0, rem := 0, slewing := false, raw := raw, r0 := raw
      l0 := ((s.time.l0 : Int) + (raw - s.time.r0 : Nat) + (raw - s.time.r0 : Nat) * s.time.rate / (2 ^ 40 : Int) + s.time.rem).toNat } } := by
  rw [exec_slewEnd, execSlewEnd]
  dsimp only
  rw [if_neg (by simp [hs, h0]; omega), ← Int.ofNat_sub hr0]
  rfl

end slews

section disciplines

variable {s : State} (ho : s.dev.st ≠ .off)
include ho

theorem ppsInEdge_eq (raw : Nat) : exec (.ppsInEdge raw) s = .next (
    let u := { seeRaw raw s with time := { (seeRaw raw s).time with ppsTs := linear s.time raw, ppsMiss := 0 } }
    if timeSrc s = 2 then steer (toSecond (linear s.time raw)) (lockedWide (toSecond (linear s.time raw))) u else u) := by
  rw [exec_ppsInEdge, execPpsInEdge, if_neg ho]
  rfl

theorem fabricTimeSteer_eq {l : Nat} (hs : timeSrc s = 3) (hu : (linkAt s l).st = .up) (hn : (linkAt s l).thetaN ≠ 0)
    (hr : s.fab.timeRoot ≠ some s.fab.id) (hh : (linkAt s l).hops ≤ 14) : exec (.fabricTimeSteer l) s = .next (
      let x := linkAt s l
      steer (x.thetaSum / (2 * x.thetaN)) (decide (x.thetaSum.natAbs * 10 < x.thetaN * 131072)) (setLink l { x with thetaSum := 0, thetaN := 0 }
        { s with fab := { s.fab with timeRoot := some x.rootId, timeHops := x.hops + 1, timeDeep := false } })) := by
  rw [exec_fabricTimeSteer, execFabricTimeSteer]
  dsimp only
  rw [if_neg (by simp [ho, hs, hu, hn, hr]), decide_eq_false (by omega), if_neg Bool.false_ne_true]
  rfl

theorem timeHoldover_eq (hlo : 1 ≤ timeSrc s) (hhi : timeSrc s ≤ 3) : exec .timeHoldover s = .next (loseSource s) := by
  rw [exec_timeHoldover, execTimeHoldover, if_pos (by simp [ho, hlo, hhi])]
  rfl

theorem fabricTimeLoss_eq (hs : timeSrc s = 3) : exec .fabricTimeLoss s = .next (
    let u := loseSource s
    if bits (regAt u 0x60010) 1 0 = 2 then tickLost (edgeL u (nowTick u + 1)) 0 u else u) := by
  rw [exec_fabricTimeLoss, execFabricTimeLoss, if_neg (by simp [ho, hs])]
  rfl

theorem ptpFrameRx_client {raw kind v : Nat} {bs : List Byte} (hk : kind ≤ 8) (hs : timeSrc s = 1) :
    exec (.ptpFrameRx raw kind v bs) s = .next (ptpClient raw kind v (seeRaw raw s)) := by
  have hs' : timeSrc (seeRaw raw s) = 1 := hs
  rw [exec_ptpFrameRx, execPtpFrameRx, if_neg (by simp [ho]; omega)]
  dsimp only
  rw [hs']
  rfl

theorem ptpFrameRx_passed {raw kind v : Nat} {bs : List Byte} (hk : kind ≤ 8) (hs : timeSrc s = 4) (he : ptpEvent kind = true) :
    exec (.ptpFrameRx raw kind v bs) s =
      .next (raiseEv { code := 0x55, sev := 0, body := todBytes (todOf (rxStamp (seeRaw raw s) raw)) ++ bs.take 2000 } (seeRaw raw s)) := by
  have hs' : timeSrc (seeRaw raw s) = 4 := hs
  rw [exec_ptpFrameRx, execPtpFrameRx, if_neg (by simp [ho]; omega)]
  dsimp only
  rw [hs', he]
  rfl

theorem ptpMessageSend_master {k : Nat} (hs : timeSrc s = 1) (hk : k = 0 ∨ k = 1 ∨ k = 5) (hm : s.time.ptpMaster = true)
    (hp : s.time.ptp.slaveOnly = false) : exec (.ptpMessageSend k) s = .next (send (.ptp k) s) := by
  rw [exec_ptpMessageSend, execPtpMessageSend]
  rcases hk with rfl | rfl | rfl
  · rw [if_neg (by simp [ho, hs, hm, hp])]
    rfl
  · rw [if_neg (by simp [ho, hs, hm, hp])]
    rfl
  · rw [if_neg (by simp [ho, hs, hm, hp])]
    rfl

theorem ptpMessageSend_delayReq (hs : timeSrc s = 1) (hp : s.time.ptp.p2p = false) (hm : s.time.ptpMaster = false) :
    exec (.ptpMessageSend 4) s = .next (ptpPut 2 (txStamp s s.time.raw) (send (.ptp 4) s)) := by
  rw [exec_ptpMessageSend, execPtpMessageSend, if_neg (by simp [ho, hs, hm, hp])]
  rfl

theorem ptpMessageSend_peer (hs : timeSrc s = 1) (hp : s.time.ptp.p2p = true) :
    exec (.ptpMessageSend 6) s = .next (ptpPut 4 (txStamp s s.time.raw) (send (.ptp 6) s)) := by
  rw [exec_ptpMessageSend, execPtpMessageSend, if_neg (by simp [ho, hs, hp])]
  rfl

theorem txTimestamp_eq {id raw : Nat} (hi : id ∈ s.time.tsWait) : exec (.txTimestamp id raw) s = .next (
    let u := { seeRaw raw s with time := { (seeRaw raw s).time with tsWait := s.time.tsWait.erase id } }
    if 16 ≤ s.time.txq.length then { u with time := { u.time with txOvf := true, txLost := satAdd 32 s.time.txLost 1 } }
    else { u with time := { u.time with txq := s.time.txq ++ [(id, todOf (txStamp (seeRaw raw s) raw))] } }) := by
  rw [exec_txTimestamp, execTxTimestamp, if_neg (by simp [ho, hi])]
  rfl

end disciplines

section losses

variable {s : State}

theorem loseSource_eq (h : s.time.holdover = false) : loseSource s =
    raiseEv { code := 0x51, sev := 1 } { s with time := { endSlew (rebaseSlew s.time s.time.raw) with holdover := true, locked := false } } :=
  if_neg (by simp [h])

theorem loseSource_holdover (s : State) : (loseSource s).time.holdover = true := by
  unfold loseSource
  split
  · assumption
  · rfl

theorem loseSource_inRun (s : State) : inRun (loseSource s) = inRun s := by
  unfold loseSource
  split
  · rfl
  · rfl

theorem loseSource_regs (s : State) : (loseSource s).regs = s.regs := by
  unfold loseSource
  split
  · rfl
  · rfl

/-- A tick generator without its source holds over in a run, and is unlocked outside one (R366). -/
theorem tickLost_tickSt (a b : Nat) (s : State) : (tickLost a b s).time.tickSt = if inRun s = true then .holdover else .unlocked := by
  unfold tickLost tickHold
  split
  · split
    · assumption
    · rfl
  · rfl

theorem tickLost_holdover (a b : Nat) (s : State) : (tickLost a b s).time.holdover = s.time.holdover := by
  unfold tickLost tickHold
  split
  · split
    · rfl
    · rfl
  · rfl

end losses

/-- The rows of the disciplines write no memory. -/
theorem disciplines_keepMemory (a b c : Nat) (bs : List Byte) : ∀ i ∈ [Instr.slewEnd a, .ppsInEdge a, .fabricTimeSteer a, .timeHoldover, .fabricTimeLoss,
    .ptpFrameRx a b c bs, .ptpMessageSend a, .txTimestamp a b], writesMemory i = false := by
  intro i hi
  simp only [List.mem_cons, List.not_mem_nil, or_false] at hi
  rcases hi with rfl | rfl | rfl | rfl | rfl | rfl | rfl | rfl <;> rfl

end Machine

open Machine Claims

/-- Settles O49: a discipline by what it makes of its offset (`steer_small`, `steer_large`, `steer_steps`), and each row by its equation. -/
theorem disciplinesSteer : Obligations.DisciplinesSteer := by
  unfold Obligations.DisciplinesSteer
  intro s ho
  refine ⟨fun d locked => ⟨fun hd => ?_, fun hd hr => ?_, fun hd hr => ?_⟩, fun raw hs h0 hr hlo hr0 => slewEnd_eq hs h0 hr hlo hr0,
    fun raw => ppsInEdge_eq ho raw, fun l hs hu hn hr hh => fabricTimeSteer_eq ho hs hu hn hr hh, fun hlo hhi hh => ?_, fun hs => ?_,
    fun raw kind v bs hk => ⟨ptpFrameRx_client ho hk, ptpFrameRx_passed ho hk⟩, fun hs => ⟨fun k hk hm hp => ?_, ptpMessageSend_delayReq ho hs,
      ptpMessageSend_peer ho hs⟩, fun id raw hi => ⟨_, txTimestamp_eq ho hi, ?_⟩, fun a b c bs t i hi h => exec_hbm (disciplines_keepMemory a b c bs i hi) h⟩
  · obtain ⟨h1, h2, h3, h4, h5, h6⟩ := slewBy_facts d s.time.raw (offsetSeen d locked false s)
    rw [steer_small hd]
    exact ⟨h1, h2, h3, h4, h5, rfl, h6⟩
  · have hne : d ≠ 0 := by
      intro h
      simp [h] at hd
    obtain ⟨h1, h2, h3, _⟩ := slewBy_facts d s.time.raw (offsetSeen d locked true s)
    rw [steer_large hd hr]
    exact ⟨h1, h2.trans (decide_eq_true hne), h3, _, rfl, rfl, rfl⟩
  · obtain ⟨hraw, hlarge⟩ := timeBecomes_keeps ((nowL s : Int) + d).toNat { s with time := offsetSeen d locked false s }
    have ht := timeIs_timeBecomes ((nowL s : Int) + d).toNat { s with time := offsetSeen d locked false s }
    rw [steer_steps hd hr]
    exact ⟨ht.slewing, ht.rem, (congrArg (linear _) hraw.symm).trans ht.now, hlarge⟩
  · refine ⟨_, timeHoldover_eq ho hlo hhi, ?_⟩
    rw [loseSource_eq hh]
    exact ⟨rfl, rfl, rfl, rfl, linear_rebaseSlew _ _, _, rfl, rfl⟩
  · refine ⟨_, fabricTimeLoss_eq ho hs, ?_⟩
    have hreg : regAt (loseSource s) 0x60010 = regAt s 0x60010 := by rw [regAt, loseSource_regs]; rfl
    dsimp only
    rw [hreg]
    split
    · exact ⟨(tickLost_holdover _ _ _).trans (loseSource_holdover s), fun _ => by rw [tickLost_tickSt, loseSource_inRun]⟩
    · exact ⟨loseSource_holdover s, fun h => absurd h ‹_›⟩
  · exact ptpMessageSend_master ho hs (by simpa using hk) hm hp
  · dsimp only
    split
    · exact ⟨rfl, fun h => absurd h (by omega), fun _ => ⟨rfl, rfl, rfl⟩⟩
    · exact ⟨rfl, fun _ => ⟨rfl, rfl⟩, fun h => absurd h ‹_›⟩

end Sys2Proof
end

section
/-!
The tick input, timed events and pulse pins (R361, R366, R367, R370, R371).
-/

namespace Sys2Proof

namespace Machine

open Claims

/-- What a lost generator leaves: whether it is numbered, and its counts. -/
theorem tickLost_facts (a b : Nat) (s : State) : (tickLost a b s).time.phaseErr = s.time.phaseErr ∧ (tickLost a b s).time.devRun = s.time.devRun ∧
    (tickLost a b s).time.next = if inRun s = true then s.time.next else none := by
  unfold tickLost tickHold
  split
  · split
    · exact ⟨rfl, rfl, rfl⟩
    · exact ⟨rfl, rfl, rfl⟩
  · exact ⟨rfl, rfl, rfl⟩

section pins

variable {s : State} (ho : s.dev.st ≠ .off)
include ho

/-- The state an edge of TICK_IN has been seen in (R366). -/
def tickSeen (raw : Nat) (s : State) : State := { seeRaw raw s with time := { (seeRaw raw s).time with lastIn := some raw, missRun := 0 } }

theorem tickInEdge_eq {raw tick : Nat} {dev : Int} (hc : bits (regAt s 0x60010) 1 0 = 1) : exec (.tickInEdge raw tick dev) s = .next (
    let c := regAt s 0x60010
    let l := linear s.time raw + (calEffective (seeRaw raw s) 1 0).1.toNat * 65536 / 1000
    let u := tickSeen raw s
    if s.time.next.isNone then alignEdge l u
    else if tick % max (bits c 47 32) 1 ≠ bits c 31 16 then slipEdge l u
    else if s.time.tickWin < dev.natAbs then deviantEdge l u
    else { u with time := { u.time with devRun := 0, tickSt := .locked } }) := by
  rw [exec_tickInEdge, execTickInEdge]
  dsimp only
  rw [if_neg (by simp [ho, hc])]
  rfl

theorem tickHoldover_eq {missing : Bool} (hc : bits (regAt s 0x60010) 1 0 = 1) (hn : s.time.next ≠ none) : exec (.tickHoldover missing) s = .next (
    let u := { s with time := { s.time with missRun := if missing then 3 else s.time.missRun } }
    tickLost (edgeL u (nowTick u + 1)) 0 u) := by
  rw [exec_tickHoldover, execTickHoldover, if_neg (by simp [ho, hc, hn])]
  rfl

theorem ppsOutPulse_eq {raw : Nat} (hb : bit (regAt s 0x60000) 7 = true) :
    exec (.ppsOutPulse raw) s = .next { seeRaw raw s with time := { (seeRaw raw s).time with ppsOut := true } } := by
  rw [exec_ppsOutPulse, execPpsOutPulse, if_pos (by simp [ho, hb])]
  rfl

/-- An event that has fired: its next firing, and its pin (R370). -/
def firedEvent (x n : Nat) (v : TimedEv) : TimedEv :=
  { v with next := if v.d.periodic then some (n + v.d.period) else none, active := v.active || v.d.pinEn
           endGc := if v.d.pinEn then max v.endGc (x + v.d.width) else v.endGc }

theorem timedEventFire_eq {e x n : Nat} (hn : (timedEv s e).next = some n) (hs : s.dev.st ≠ .safe) (he : (timedEv s e).d.en = true)
    (hf : firesAt s (timedEv s e).d n x = true) (ht : (timedEv s e).d.tickStart = false) : exec (.timedEventFire e x) s = .next { s with time := { s.time with
      timed := tset (fun _ => {}) s.time.timed e (firedEvent x n (timedEv s e))
      timedBits := cset s.time.timedBits (x / max (iiOf s) 1) (cget s.time.timedBits (x / max (iiOf s) 1) ||| 2 ^ e) } } := by
  have hne : ¬ ((decide (s.dev.st = .off) || decide (s.dev.st = .safe) || !(timedEv s e).d.en || !firesAt s (timedEv s e).d n x) = true) := by
    simp [ho, hs, he, hf]
  rw [exec_timedEventFire, execTimedEventFire]
  dsimp only
  rw [hn]
  dsimp only
  rw [if_neg hne, ht, Bool.false_and, if_neg Bool.false_ne_true]
  rfl

omit ho in
theorem timedOutPulseEnd_eq {e : Nat} (ha : (timedEv s e).active = true) : exec (.timedOutPulseEnd e) s =
    .next { s with time := { s.time with timed := tset (fun _ => {}) s.time.timed e { timedEv s e with active := false, endGc := 0 } } } := by
  rw [exec_timedOutPulseEnd, execTimedOutPulseEnd]
  dsimp only
  rw [if_pos ha]
  rfl

end pins

section edges

variable {s : State} {l : Nat}

theorem slipEdge_inRun (h : inRun s = true) : slipEdge l s = raiseEv { code := 0x53, sev := 3, body := le 8 (edgeL s (nowTick s + 1)) ++ le 8 l }
    { s with time := { s.time with slip := satAdd 16 s.time.slip 1 } } := if_pos h

theorem slipEdge_idle (h : inRun s = false) : slipEdge l s = { s with time := { s.time with tickSt := .unlocked, next := none } } := if_neg (by simp [h])

/-- The count of an edge that deviates (R367). -/
def deviated (s : State) : State := { s with time := { s.time with phaseErr := satAdd 32 s.time.phaseErr 1, devRun := s.time.devRun + 1 } }

theorem deviantEdge_eq (l : Nat) (s : State) : deviantEdge l s =
    if 16 ≤ s.time.devRun + 1 then tickLost (edgeL (deviated s) (nowTick (deviated s) + 1)) l (deviated s)
    else if s.time.tickSt = .holdover && (!inRun s || s.dev.st == .paused) then { deviated s with time := { (deviated s).time with tickSt := .acquire } }
    else deviated s := rfl

theorem deviantEdge_counts (l : Nat) (s : State) : (deviantEdge l s).time.phaseErr = satAdd 32 s.time.phaseErr 1 ∧
    (deviantEdge l s).time.devRun = s.time.devRun + 1 := by
  rw [deviantEdge_eq]
  split
  · obtain ⟨hp, hd, _⟩ := tickLost_facts (edgeL (deviated s) (nowTick (deviated s) + 1)) l (deviated s)
    exact ⟨hp, hd⟩
  · split
    · exact ⟨rfl, rfl⟩
    · exact ⟨rfl, rfl⟩

theorem deviantEdge_lost (l : Nat) {s : State} (h : 15 ≤ s.time.devRun) :
    (deviantEdge l s).time.tickSt = if inRun s = true then .holdover else .unlocked := by
  rw [deviantEdge_eq, if_pos (by omega), tickLost_tickSt]
  rfl

end edges

end Machine

open Machine Claims

/-- Settles O50: each pin's row by its equation. -/
theorem pinsAndTicks : Obligations.PinsAndTicks := by
  unfold Obligations.PinsAndTicks
  intro s ho c
  refine ⟨fun raw tick dev hc => ?_, fun missing hc hn => ⟨_, tickHoldover_eq ho hc hn, ?_⟩, fun raw hb => ⟨_, ppsOutPulse_eq ho hb, rfl, rfl⟩, rfl,
    fun e x n hn hs he hf ht => ⟨_, firedEvent x n (timedEv s e), timedEventFire_eq ho hn hs he hf ht, tget_tset_same _ _ _ _, rfl, ?_, rfl, fun hp => ?_,
      tget_tset_same _ _ _ _, fun k hk => tget_tset_ne _ _ _ hk, rfl, rfl⟩,
    fun e ha => ⟨_, timedOutPulseEnd_eq ha, tget_tset_same _ _ _ _, rfl, rfl⟩⟩
  · have hx := tickInEdge_eq (raw := raw) (tick := tick) (dev := dev) ho hc
    refine ⟨fun hn => ?_, fun hn ht => ⟨_, hx, ?_⟩, fun hn ht hd => ⟨_, hx, ?_⟩, fun hn ht hd => ?_⟩
    · rw [hx, hn]
      rfl
    · dsimp only
      rw [if_neg (by simpa using hn), if_pos ht]
      refine ⟨fun hr => ?_, fun hr => ?_⟩
      · rw [slipEdge_inRun (s := tickSeen raw s) hr]
        exact ⟨rfl, rfl, _, rfl, rfl, rfl⟩
      · rw [slipEdge_idle (s := tickSeen raw s) hr]
        exact ⟨rfl, rfl⟩
    · dsimp only
      rw [if_neg (by simpa using hn), if_neg (by simpa using ht), if_pos hd]
      obtain ⟨hp, hr⟩ := deviantEdge_counts (linear s.time raw + (calEffective (seeRaw raw s) 1 0).1.toNat * 65536 / 1000) (tickSeen raw s)
      exact ⟨hp, hr, fun hk hin => (deviantEdge_lost _ (s := tickSeen raw s) hk).trans (if_pos hin),
        fun hk hin => (deviantEdge_lost _ (s := tickSeen raw s) hk).trans (if_neg (by rw [show inRun (tickSeen raw s) = inRun s from rfl, hin]; decide))⟩
    · rw [hx]
      dsimp only
      rw [if_neg (by simpa using hn), if_neg (by simpa using ht), if_neg (by omega)]
      rfl
  · dsimp only
    rw [tickLost_tickSt, (tickLost_facts _ _ _).2.2]
    change (inRun s = true → (if inRun s = true then TickSt.holdover else .unlocked) = .holdover ∧ (if inRun s = true then s.time.next else none) = s.time.next) ∧
      (inRun s = false → (if inRun s = true then TickSt.holdover else .unlocked) = .unlocked ∧ (if inRun s = true then s.time.next else none) = none)
    exact ⟨fun h => ⟨if_pos h, if_pos h⟩, fun h => ⟨if_neg (by simp [h]), if_neg (by simp [h])⟩⟩
  · rfl
  · exact Nat.le_trans (Nat.le_max_right _ _) (Nat.le_of_eq (if_pos hp).symm)

end Sys2Proof
end

section
/-!
Handling of fault records, confirmations, remaps, rotations and takeovers (R405 to R411, R415 to R417, R419).
-/

namespace Sys2Proof

namespace Machine

open Claims

section handling

variable {s u : State} {r : StepIn} {x : QRec}

/-- The records of a core's roles that have a step to make (R405). -/
def handlerSteps (roles : List Nat) (u : State) : List QRec := u.flt.errq.filter fun x => roles.contains (roleOf x.f) && hasStep u x

theorem handlerStep_eq {core : Nat} (ho : s.dev.st ≠ .off) (hb : s.dev.st ≠ .boot) (hk : core < 8) (ha : (s.flt.cores.getD core {}).alive = true)
    (hr : (s.flt.cores.getD core {}).restarting = false) : exec (.handlerStep core r) s = .next (
      let roles := (s.flt.cores.getD core {}).roles
      let u := ctlChecks core r s
      match firstOf (handlerSteps roles u) with
      | none => u
      | some x => let t := recStep r { x with st := 1 } (takeInHand roles x u); if ticking t then t else quadLosses t) := by
  have hno : ¬ (s.dev.st == .off || s.dev.st == .boot || !(s.flt.cores.getD core {}).alive || (s.flt.cores.getD core {}).restarting || decide (8 ≤ core)) =
      true := by
    rw [ha, hr, decide_eq_false (by omega)]
    simp [ho, hb]
  rw [exec_handlerStep, execHandlerStep]
  dsimp only
  rw [if_neg hno]
  rfl

theorem recStep_first (h : x.stage = 0) : recStep r x u = firstStep x u := by
  unfold recStep
  rw [h]
  rfl

theorem firstStep_minor (h : x.f.sev ≠ 3) : firstStep x u = doneRec x u := if_pos h

/-- The codes whose stores are written anew are none of those that R409 treats by themselves. -/
theorem rewriteCode_ne {c : Nat} (h : rewriteCode c = true) : c ≠ 0x0206 ∧ c ≠ 0x0105 ∧ c ≠ 0x0110 ∧ c ≠ 0x0111 := by
  simp only [rewriteCode, List.contains_eq_mem, List.mem_cons, List.not_mem_nil, or_false, decide_eq_true_eq] at h
  omega

theorem firstStep_rewrites (hs : x.f.sev = 3) (hc : x.f.confirmed = false) (hw : rewriteCode x.f.code = true) (hsite : x.f.site ≠ 0xFF)
    (hh : healthAt u (healthUnit u x.f) % 16 < 3) :
    firstStep x u = beginConfirm x.f (setRec { x with stage := 2, st := 1, rep0 := x.f.rep } (rewriteStores x.f u)) := by
  obtain ⟨h1, h2, h3, h4⟩ := rewriteCode_ne hw
  unfold firstStep
  dsimp only
  rw [if_neg (by simp [hs]), if_neg h1, if_neg h2, if_neg (by simp [h3]), if_neg (by simp [hc, h4]; omega), if_pos (by simp [hw, hsite])]

theorem rewriteStores_eq (f : FaultRec) (u : State) : rewriteStores f u = { u with grid := (rewriteStores f u).grid } := by
  unfold rewriteStores
  dsimp only
  split
  · rfl
  · rfl

/-- A confirmation that begins is among those of the device (R410). -/
theorem mem_beginConfirm (f : FaultRec) (u : State) : { unit := unitOf f, code := f.code, until_ := nowTick u + u.flt.confirmTicks } ∈ (beginConfirm f u).flt.confirms :=
  List.mem_append_right _ List.mem_cons_self

theorem recStep_failed (h : x.stage = 2) : recStep r x u = declareFailed x u := by
  unfold recStep
  rw [h]
  rfl

theorem recStep_switch {m : Remap} (h : x.stage = 5) (hm : remapOf u x = some m) (hc : r.checkOk = true) (ht : ticking u = true) :
    recStep r x u = setRec { x with stage := 6 } (setRemap { m with switch_ := some (firstLead u) } u) := by
  unfold recStep
  rw [h]
  dsimp only
  rw [hm]
  dsimp only
  rw [if_pos hc, if_pos ht]
  rfl

end handling

section units

variable {s : State}

/-- The units whose fault waits for room in the queue and whose role the core has (R406). -/
def pendingUnits (s : State) (core : Nat) : List Nat :=
  (s.flt.health.map (·.1)).filter fun u => bit (healthAt s u) 5 && (s.flt.cores.getD core {}).roles.contains (unitRole u).1

theorem errqScan_full {core : Nat} (h : 128 ≤ s.flt.errq.length) : exec (.errqScan core) s = .next s := by
  rw [exec_errqScan, execErrqScan, if_pos (by simp [h])]
  rfl

theorem errqScan_eq {core : Nat} (ha : (s.flt.cores.getD core {}).alive = true) (h : s.flt.errq.length < 128) : exec (.errqScan core) s =
    .next ((pendingUnits s core).foldl (fun s u => fault (scanRec s u) (setHealth u (healthAt s u - 32) s)) s) := by
  have hno : ¬ (decide (128 ≤ s.flt.errq.length) || !(s.flt.cores.getD core {}).alive) = true := by
    rw [ha, decide_eq_false (by omega)]
    decide
  rw [exec_errqScan, execErrqScan]
  dsimp only
  rw [if_neg hno]
  rfl

theorem confirmExpire_eq {unit : Nat} {c : Confirm} {x : QRec} (hd : s.flt.confirms.filter (fun c => c.unit == unit && decide (c.until_ ≤ nowTick s)) = [c])
    (hx : s.flt.errq.find? (fun x => x.stage == 2 && unitOf x.f == c.unit && x.f.code == c.code) = some x) (hr : x.f.rep ≤ x.rep0)
    (hf : isFailed s (healthUnit s x.f) = false) :
    exec (.confirmExpire unit) s = .next (doneRec x (endConfirm x.f (markUnit 1 (healthUnit s x.f) s))) := by
  rw [exec_confirmExpire, execConfirmExpire, hd]
  dsimp only [List.foldl_cons, List.foldl_nil]
  rw [hx]
  dsimp only
  rw [if_neg (by omega), hf]
  rfl

theorem remapSwitch_eq {m : Remap} {e : Nat} (hm : s.flt.remaps = [m]) (hs : m.switch_ = some e) :
    exec .remapSwitch s = .next (if e ≤ nowTick s then resourcesFree (switchRemap m s) else s) := by
  rw [exec_remapSwitch, execRemapSwitch, hm]
  by_cases h : e ≤ nowTick s
  · simp only [List.filter_cons, List.filter_nil, hs, decide_eq_true h, if_pos h]
    rfl
  · simp only [List.filter_cons, List.filter_nil, hs, decide_eq_false h, if_neg h]
    rfl

theorem quadTakeover_eq {q sb : Nat} {a : Activity} (ht : s.flt.takeover = some q) (hs : s.dev.standby = some sb) (ha : actOf s 0x82 q = some a) :
    exec .quadTakeover s = .next (resourcesFree (fault { code := 0x0702, sev := 2, quad := sb, unit := q } (endAct a.h false (takeQuad q sb s)))) := by
  rw [exec_quadTakeover, execQuadTakeover, ht, hs]
  dsimp only
  rw [ha]
  rfl

end units

section rotations

variable {s : State} {act k : Nat} {r : Rot} (hr : rotOf s act k = some r)
include hr

theorem rotationWarmupEnd_eq (hc : r.comparing = false) (ht : r.until_ ≤ nowTick s) :
    exec (.rotationWarmupEnd act k) s = .next (setRot { r with comparing := true, until_ := nowTick s + r.ticks } s) := by
  rw [exec_rotationWarmupEnd, execRotationWarmupEnd, hr]
  dsimp only
  rw [if_neg (by simp [hc]; omega)]
  rfl

theorem recomputeDecision_eq (hm : r.mism = true) (a b : Bool) : exec (.recomputeDecision act k a b) s = .next (rotDecide true (!a) (!b) r s) := by
  rw [exec_recomputeDecision, execRecomputeDecision, hr]
  dsimp only
  rw [if_pos hm]
  rfl

theorem rotationSwap_eq (hc : r.comparing = true) (hm : r.mism = false) (hv : r.move = false) (ht : r.until_ ≤ nowTick s) :
    exec (.rotationSwap act k) s = .next (
      let u := maintEv 0xA3 act 1 (setSkip r.q r.k r.a s)
      if u.flt.acts.any (fun a => a.h == act && a.stopping) then resourcesFree (dropRot r false u) else setRot { rotStep r u with steps := r.steps + 1 } u) := by
  rw [exec_rotationSwap, execRotationSwap, hr]
  dsimp only
  rw [if_neg (by simp [hc, hm, hv]; omega)]
  rfl

end rotations

/-- A first mismatch that both sides explain, or neither, is compared again (R416, R417). -/
theorem rotDecide_again (b : Bool) {r : Rot} (h : r.repeats = 0) (s : State) :
    rotDecide true b b r s = setRot { rotAgain s r with repeats := 1 } (fault (rotRec s r false 0) s) := by
  cases b with
  | true => exact if_pos h
  | false => exact if_pos h

theorem repairs_keepMemory (a b : Nat) (c d : Bool) (r : StepIn) : ∀ i ∈ [Instr.handlerStep a r, .errqScan a, .ceWindowEnd, .confirmExpire a, .remapSwitch,
    .rotationWarmupEnd a b, .recomputeDecision a b c d, .rotationSwap a b, .quadTakeover], writesMemory i = false := by
  intro i hi
  simp only [List.mem_cons, List.not_mem_nil, or_false] at hi
  rcases hi with rfl | rfl | rfl | rfl | rfl | rfl | rfl | rfl | rfl <;> rfl

end Machine

open Machine Claims

/-- Settles O51: a record's step by its stage, and each other row by its equation. -/
theorem repairsRun : Obligations.RepairsRun := by
  unfold Obligations.RepairsRun
  intro s
  refine ⟨fun core r x ho hb hk ha hr => ?_, fun r x u => ⟨fun hst hs => ?_, fun hst hs hc hw hsite hh => ?_, recStep_failed, fun m => recStep_switch⟩,
    fun core ha => ⟨fun h => ?_, fun u h hm => ?_⟩, rfl, fun unit c x => confirmExpire_eq, fun m e hm hs => ⟨fun h => ?_, fun h => ?_⟩,
    fun act k r hr => ⟨rotationWarmupEnd_eq hr, fun hm => ⟨recomputeDecision_eq hr hm false true, recomputeDecision_eq hr hm true false, fun h0 b => ?_, fun h0 => ?_⟩,
      fun hc hm hv ht => ⟨fun hst => ?_, fun hst => ?_⟩⟩,
    fun q sb a => quadTakeover_eq, fun a b c d r t i hi h => exec_hbm (repairs_keepMemory a b c d r i hi) h⟩
  · have hx := handlerStep_eq (r := r) ho hb hk ha hr
    refine ⟨fun hm => ?_, fun hm => ?_⟩
    · rw [hx]
      dsimp only
      rw [show handlerSteps _ _ = [] from hm]
      rfl
    · rw [hx]
      dsimp only
      rw [show firstOf (handlerSteps _ _) = some x from hm]
  · rw [recStep_first hst, firstStep_minor hs]
    exact ⟨rfl, fun y hy => by simpa using (List.mem_filter.1 hy).2, rfl, rfl⟩
  · have hx : recStep r x u = _ := (recStep_first hst).trans (firstStep_rewrites hs hc hw hsite hh)
    refine ⟨hx, _, by rw [hx]; exact mem_beginConfirm _ _, rfl, rfl, ?_⟩
    rw [rewriteStores_eq]
    rfl
  · rcases h with h | h
    · exact errqScan_full h
    · by_cases hl : 128 ≤ s.flt.errq.length
      · exact errqScan_full hl
      · rw [errqScan_eq ha (by omega), show pendingUnits s core = [] from h]
        rfl
  · rw [errqScan_eq ha h, show pendingUnits s core = [u] from hm]
    rfl
  · rw [remapSwitch_eq hm hs, if_pos h]
  · rw [remapSwitch_eq hm hs, if_neg (by omega)]
  · rw [recomputeDecision_eq hr hm, rotDecide_again _ h0]
  · rw [recomputeDecision_eq hr hm]
    exact congrArg _ (if_neg h0)
  · rw [rotationSwap_eq hr hc hm hv ht]
    refine congrArg _ (if_neg ?_)
    simpa using hst
  · rw [rotationSwap_eq hr hc hm hv ht]
    refine congrArg _ (if_pos ?_)
    simpa using hst

end Sys2Proof
end

section
/-!
Losses and tests of cores, stacks, quadrants, lines, windows and lanes (R408 to R410, R420 to R423, R425 to R427, R430, R431).
-/

namespace Sys2Proof

namespace Machine

open Claims

section cores

/-- The cores, the roles that wait for one, and the roll of an update are as they were. -/
structure CoresKept (s t : State) : Prop where
  cores : t.flt.cores = s.flt.cores
  coresLost : t.flt.coresLost = s.flt.coresLost
  roleWait : t.flt.roleWait = s.flt.roleWait
  roll : t.upd.roll = s.upd.roll

theorem coresKept_refl (s : State) : CoresKept s s := ⟨rfl, rfl, rfl, rfl⟩

theorem coresKept_trans {s t u : State} (h : CoresKept s t) (k : CoresKept t u) : CoresKept s u :=
  ⟨k.cores.trans h.cores, k.coresLost.trans h.coresLost, k.roleWait.trans h.roleWait, k.roll.trans h.roll⟩

theorem coresKept_foldl {α : Type} {f : State → α → State} (hf : ∀ s a, CoresKept s (f s a)) (l : List α) (s : State) : CoresKept s (l.foldl f s) := by
  induction l generalizing s with
  | nil => exact coresKept_refl s
  | cons a l ih => exact coresKept_trans (hf s a) (ih (f s a))

theorem coresKept_raiseEv (e : Ev) (s : State) : CoresKept s (raiseEv e s) := ⟨rfl, rfl, rfl, rfl⟩

theorem coresKept_endAct (h : Nat) (aborted : Bool) (s : State) : CoresKept s (endAct h aborted s) := by
  unfold endAct
  split
  · exact coresKept_refl s
  · exact ⟨rfl, rfl, rfl, rfl⟩

theorem coresKept_markCause (c : Nat) (s : State) : CoresKept s (markCause c s) := ⟨rfl, rfl, rfl, rfl⟩

theorem coresKept_startAct (r : MaintReq) (j : Nat) (s : State) : CoresKept s (startAct r j s) := ⟨rfl, rfl, rfl, rfl⟩

theorem coresKept_finishWait (w : Waiting) (status : Nat) (s : State) : CoresKept s (finishWait w status s) :=
  ⟨by rw [finishWait_flt], by rw [finishWait_flt], by rw [finishWait_flt], by rw [finishWait_upd]⟩

theorem coresKept_startSave (cause : Nat) (s : State) : CoresKept s (startSave cause s) :=
  ⟨by rw [startSave_flt], by rw [startSave_flt], by rw [startSave_flt], by rw [startSave_upd]⟩

theorem coresKept_railsDown (s : State) : CoresKept s (railsDown s) := by
  unfold railsDown
  refine coresKept_foldl (fun u q => ?_) _ s
  exact ⟨rfl, rfl, rfl, rfl⟩

theorem coresKept_expireWaiting (s : State) : CoresKept s (expireWaiting s) := by
  unfold expireWaiting
  refine coresKept_foldl (fun u w => ?_) _ s
  exact coresKept_finishWait _ _ _

theorem coresKept_safeNoted (cause : Nat) (s : State) : CoresKept s (safeNoted cause s) := by
  have hf : (safeNoted cause s).flt = s.flt := by rw [safeNoted, journalInternal_flt, busyAll_flt, safeDev_flt]
  have hu : (safeNoted cause s).upd = s.upd := by rw [safeNoted, journalInternal_upd, busyAll_upd, safeDev_upd]
  exact ⟨by rw [hf], by rw [hf], by rw [hf], by rw [hu]⟩

theorem coresKept_enterSafe (cause : Nat) (s : State) : CoresKept s (enterSafe cause s) := by
  by_cases hs : s.dev.st = .safe ∨ s.dev.st = .off
  · rw [enterSafe, if_pos (by simpa using hs)]
    exact coresKept_refl s
  · rw [not_or] at hs
    rw [enterSafe_eq hs.1 hs.2]
    refine coresKept_trans ?_ (coresKept_railsDown _)
    refine coresKept_trans ?_ (coresKept_startSave _ _)
    refine coresKept_trans ?_ (coresKept_markCause _ _)
    refine coresKept_trans (t := expireWaiting (safeNoted cause s)) ?_ ⟨rfl, rfl, rfl, rfl⟩
    exact coresKept_trans (coresKept_safeNoted cause s) (coresKept_expireWaiting _)

/-- A fault record touches no core (R401 to R403). -/
theorem coresKept_fault (f : FaultRec) (s : State) : CoresKept s (fault f s) := by
  unfold fault
  extract_lets g
  clear_value g
  split
  · exact ⟨rfl, rfl, rfl, rfl⟩
  · split
    · refine coresKept_trans ?_ (coresKept_enterSafe _ _)
      exact ⟨rfl, rfl, rfl, rfl⟩
    · split
      · split
        · exact ⟨rfl, rfl, rfl, rfl⟩
        · exact ⟨rfl, rfl, rfl, rfl⟩
      · exact ⟨rfl, rfl, rfl, rfl⟩

theorem rollAborts_idle {s : State} (h : s.upd.roll = none) : rollAborts s = markCause 7 s := by
  unfold rollAborts
  rw [h]

/-- The state in which a core has just been lost, before what follows from it (R420). -/
def coreGone (core : Nat) (s : State) : State :=
  let c := s.flt.cores.getD core {}
  let u := failUnit (1020 + core) (setCore core { c with alive := false, roles := [], restarting := false } s)
  { u with flt := { u.flt with coresLost := s.flt.coresLost + 1, roleWait := u.flt.roleWait ++ c.roles } }

/-- What a lost core ends: its test of the scratch windows, and the parts of an update in hand. -/
def coreEnds (core : Nat) (s : State) : State :=
  let u := ((coreGone core s).flt.acts.filter fun a => a.act == 5 && a.req.core == core).foldl (fun (s : State) (a : Activity) => endAct a.h true s) (coreGone core s)
  if (s.flt.cores.getD core {}).newFw then markCause 3 u else u

theorem loseCore_eq {core code : Nat} {s : State} (hk : core < 8) (ha : (s.flt.cores.getD core {}).alive = true) : loseCore core code s =
    (let u := fault { code := code, sev := 3, unit := core } (rollAborts (coreEnds core s))
     if s.flt.coresLost + 1 = 3 then fault { code := 0x0803, sev := 4, unit := core } u
     else if (s.flt.cores.getD core {}).roles.isEmpty then u
     else startAct { act := 0x83, core := core } 0 u) := by
  have hno : ¬ (decide (8 ≤ core) || !(s.flt.cores.getD core {}).alive) = true := by
    rw [ha, decide_eq_false (by omega)]
    decide
  unfold loseCore
  dsimp only
  rw [if_neg hno]
  rfl

theorem coresKept_coreEnds (core : Nat) (s : State) : CoresKept (coreGone core s) (coreEnds core s) := by
  have hx := coresKept_foldl (f := fun (s : State) (a : Activity) => endAct a.h true s) (fun u a => coresKept_endAct a.h true u)
    ((coreGone core s).flt.acts.filter fun a => a.act == 5 && a.req.core == core) (coreGone core s)
  unfold coreEnds
  dsimp only
  split
  · exact coresKept_trans hx (coresKept_markCause _ _)
  · exact hx

theorem coresKept_loseCore {core code : Nat} {s : State} (hk : core < 8) (ha : (s.flt.cores.getD core {}).alive = true) (hr : s.upd.roll = none) :
    CoresKept (coreGone core s) (loseCore core code s) := by
  have hx := coresKept_coreEnds core s
  have hroll : (coreEnds core s).upd.roll = none := hx.roll.trans hr
  have hf := coresKept_trans (coresKept_trans hx (coresKept_markCause 7 _)) (coresKept_fault { code := code, sev := 3, unit := core } _)
  rw [loseCore_eq hk ha, rollAborts_idle hroll]
  dsimp only
  split
  · exact coresKept_trans hf (coresKept_fault _ _)
  · split
    · exact hf
    · exact coresKept_trans hf (coresKept_startAct _ _ _)

theorem coreGone_cores (core : Nat) (s : State) : (coreGone core s).flt.cores =
    s.flt.cores.set core { s.flt.cores.getD core {} with alive := false, roles := [], restarting := false } := rfl

theorem getD_set_same {α : Type} (d x : α) {l : List α} {i : Nat} (h : i < l.length) : (l.set i x).getD i d = x := by
  simp [List.getD_eq_getElem?_getD, h]

theorem getD_set_ne {α : Type} (d x : α) (l : List α) {i k : Nat} (h : k ≠ i) : (l.set i x).getD k d = l.getD k d := by
  simp [List.getD_eq_getElem?_getD, Ne.symm h]

theorem coreWatchdog_eq {s : State} (ho : s.dev.st ≠ .off) (core : Nat) (ue : Bool) :
    exec (.coreWatchdog core ue) s = .next (loseCore core (if ue then 0x0502 else 0x0501) s) := by
  rw [exec_coreWatchdog, execCoreWatchdog, if_neg (by simp [ho])]
  rfl

/-- The roles that waited have their cores. -/
def rolesTaken (s : State) : State :=
  let u := s.flt.roleWait.foldl (fun s r => resumeRole r s) s
  { u with flt := { u.flt with roleWait := [] } }

theorem coreTakeover_eq {s : State} (ho : s.dev.st ≠ .off) (hr : s.flt.roleWait ≠ []) : exec .coreTakeover s = .next (
    ((rolesTaken s).flt.acts.filter fun a => a.act == 0x83).foldl (fun (s : State) (a : Activity) => endAct a.h false s) (rolesTaken s)) := by
  rw [exec_coreTakeover, execCoreTakeover, if_neg (by simp [ho, hr])]
  rfl

end cores

section tests

variable {s : State}

/-- The stack's loss is on record, and its activity begins (R423). -/
def stackNoted (k : Nat) (s : State) : State :=
  let u := fault { code := 0x0303, sev := 3, unit := k } (failUnit (1010 + k) s)
  startAct { act := 0x84 } 0 (setPart 4 (causePart 3 (partAt u 4)) u)

theorem hbmStackLoss_eq {k : Nat} (ho : s.dev.st ≠ .off) (hb : s.dev.st ≠ .boot) (hk : k < 4) (hl : k ∉ s.flt.stacksLost) (he : k ∉ s.flt.stackEdge) :
    exec (.hbmStackLoss k) s = .next (
      let u := stackNoted k s
      if ticking u then { u with flt := { u.flt with stackEdge := u.flt.stackEdge ++ [k] } } else stackDown k u) := by
  rw [exec_hbmStackLoss, execHbmStackLoss, if_neg (by simp [ho, hb, hl, he]; omega)]
  rfl

theorem stackNoted_hbm (k : Nat) (s : State) : (stackNoted k s).hbm = s.hbm := by simp [stackNoted]

/-- An activity of a kind runs. -/
theorem runs_any {p : Activity → Bool} (h : ∃ a ∈ s.flt.acts, p a = true) : s.flt.acts.any p = true := List.any_eq_true.2 h

theorem patrolScrub_eq {q col row line : Nat} {ce ue again : Bool} (ha : s.flt.acts.any (fun a => a.act == 2 && !a.queued) = true)
    (hq : quadReads s q = true) (hc : siteClass col row = some .memory) (hl : line < 65536) : exec (.patrolScrub q col row line ce ue again) s = .next (
      let t := tileAt s q col row
      let f : FaultRec := { code := 0x0108, sev := 3, quad := q, site := 16 * col + row, unit := line % 8, index := line / 8
                            phys := physOf s q col row, section_ := t.owner }
      if ue then fault { f with confirmed := again } (setTile q col row
        (tcount cMemUe 1 { t with mem := tset (fun _ => {}) t.mem line (scrubbedLine s q col row line (tget (fun _ => {}) t.mem line)) }) s)
      else if ce then corrected (64 * tileUnit q (physIndex s q col row) + cMemCe) { f with code := 0x0111, sev := 1 } (setTile q col row (tcount cMemCe 1 t) s)
      else s) := by
  have hno : ¬ (!s.flt.acts.any (fun a => a.act == 2 && !a.queued) || !quadReads s q || siteClass col row != some .memory || decide (65536 ≤ line)) = true := by
    rw [ha, hq, hc, decide_eq_false (by omega)]
    decide
  rw [exec_patrolScrub, execPatrolScrub]
  dsimp only
  rw [if_neg hno]
  rfl

theorem scratchWindowTest_eq {core w : Nat} {ok access : Bool} (ha : s.flt.acts.any (fun a => a.act == 5 && a.req.core == core && !a.queued) = true)
    (hk : core < 8) (hw : w < 256) (hc : (s.flt.cores.getD core {}).alive = true) : exec (.scratchWindowTest core w ok access) s = .next (
      let c := s.flt.cores.getD core {}
      let u := 1100 + 256 * core + w
      if access then s
      else if ok then (if healthAt s u / 64 = 3 then setStatus u 0 s else s)
      else if c.windows < 16 then
        fault { code := 0x0704, sev := 2, unit := core, index := w } (failUnit u (setCore core { c with windows := c.windows + 1 } s))
      else loseCore core 0x0503 (failUnit u s)) := by
  have hno : (!s.flt.acts.any (fun a => a.act == 5 && a.req.core == core && !a.queued) || decide (8 ≤ core ∨ 256 ≤ w) ||
      !(s.flt.cores.getD core {}).alive || access) = access := by
    rw [ha, hc, decide_eq_false (by omega)]
    simp
  rw [exec_scratchWindowTest, execScratchWindowTest]
  dsimp only
  rw [hno]
  rfl

theorem clearingDone_eq {q : Nat} (hq : quadAt s q = .waking) (hf : q ∉ s.flt.fromFailed) :
    exec (.clearingDone q) s = .next (wakeOver q 0 (setQuad q .active s)) := by
  rw [exec_clearingDone, execClearingDone, if_neg (by simp [hq, hf])]
  rfl

theorem clearingDone_failed {q : Nat} (hf : q ∈ s.flt.fromFailed) : exec (.clearingDone q) s = .next s := by
  rw [exec_clearingDone, execClearingDone, if_pos (by simp [hf])]
  rfl

theorem quadSelfTestDone_eq {q : Nat} (hq : quadAt s q = .waking) (hf : q ∈ s.flt.fromFailed) (ok : Bool) : exec (.quadSelfTestDone q ok) s =
    .next (wakeOver q (if ok then 0 else 2) (setQuad q (if ok then .active else .failed)
      { s with flt := { s.flt with fromFailed := s.flt.fromFailed.filter (· != q) } })) := by
  rw [exec_quadSelfTestDone, execQuadSelfTestDone, if_neg (by simp [hq, hf])]
  cases ok with
  | true => rfl
  | false => rfl

theorem linkTest_eq {q lane idx : Nat} {err : Bool} (ha : s.flt.acts.any (fun a => a.act == 4 && !a.queued) = true) (hq : quadReads s q = true)
    (hl : lane < 16) (hi : idx < 1024) (h0 : (slotAt s q lane 0 idx).valid = false) (h1 : (slotAt s q lane 1 idx).valid = false) :
    exec (.linkTest q lane idx err) s = .next (
      if err then { s with grid := { s.grid with laneTestErr := cadd 32 s.grid.laneTestErr (16 * q + lane) 1 } } else s) := by
  have hno : (!s.flt.acts.any (fun a => a.act == 4 && !a.queued) || !quadReads s q || decide (16 ≤ lane ∨ 1024 ≤ idx) || (slotAt s q lane 0 idx).valid ||
      (slotAt s q lane 1 idx).valid || !err) = !err := by
    rw [ha, hq, h0, h1, decide_eq_false (by omega)]
    simp
  rw [exec_linkTest, execLinkTest]
  dsimp only
  rw [hno]
  cases err with
  | true => rfl
  | false => rfl

end tests

end Machine

open Machine Claims

/-- Settles O52: a lost core by `coresKept_loseCore`, and each test by the equation of its row. -/
theorem lossesAndTests : Obligations.LossesAndTests := by
  unfold Obligations.LossesAndTests
  intro s ho
  refine ⟨fun core ue hk hlen ha hr => ⟨_, coreWatchdog_eq ho core ue, ?_⟩, fun hr => ⟨_, coreTakeover_eq ho hr, ?_⟩,
    fun k hk hl he hb => ⟨_, stackNoted_hbm k s, hbmStackLoss_eq ho hb hk hl he⟩, fun q col row line ce again ha hq hc hl => ?_,
    fun core w ha hk hw hc => ?_, fun q hq => ⟨fun hf => clearingDone_eq hq hf, fun hf => ⟨clearingDone_failed hf, quadSelfTestDone_eq hq hf⟩⟩,
    fun q lane idx ha hq hl hi h0 h1 => ?_⟩
  · obtain ⟨hcores, hlost, _, _⟩ := coresKept_loseCore (code := if ue then 0x0502 else 0x0501) hk ha hr
    rw [hcores, hlost, coreGone_cores]
    refine ⟨?_, ?_, rfl, loseCore_hbm _ _ _, fun k hk' => getD_set_ne _ _ _ hk'⟩
    · rw [getD_set_same _ _ (by omega)]
    · rw [getD_set_same _ _ (by omega)]
  · refine ⟨?_, ?_⟩
    · exact (coresKept_foldl (f := fun (s : State) (a : Activity) => endAct a.h false s) (fun u a => coresKept_endAct a.h false u) _ (rolesTaken s)).roleWait
    · exact exec_hbm (i := .coreTakeover) rfl (coreTakeover_eq ho hr)
  · have hany : s.flt.acts.any (fun a => a.act == 2 && !a.queued) = true := by simpa using ha
    exact ⟨⟨_, rfl, rfl, rfl, patrolScrub_eq hany hq hc hl⟩, ⟨_, rfl, rfl, patrolScrub_eq hany hq hc hl⟩, patrolScrub_eq hany hq hc hl⟩
  · have hany : s.flt.acts.any (fun a => a.act == 5 && a.req.core == core && !a.queued) = true := by simpa [and_assoc] using ha
    refine ⟨fun ok => scratchWindowTest_eq hany hk hw hc, fun h3 => ?_, fun h => ?_, fun h => ?_⟩
    · rw [scratchWindowTest_eq hany hk hw hc]
      exact congrArg _ (if_pos h3)
    · rw [scratchWindowTest_eq hany hk hw hc]
      exact congrArg _ (if_pos h)
    · rw [scratchWindowTest_eq hany hk hw hc]
      have hn : ¬ (s.flt.cores.getD core {}).windows < 16 := by omega
      exact congrArg _ (if_neg hn)
  · have hany : s.flt.acts.any (fun a => a.act == 4 && !a.queued) = true := by simpa using ha
    exact ⟨linkTest_eq hany hq hl hi h0 h1, _, linkTest_eq hany hq hl hi h0 h1, cget_cadd_same _ _ _ _, fun k hk => cget_cadd_ne _ _ _ hk, rfl, rfl⟩

end Sys2Proof
end

section
/-!
Steps of an update, lehr windows, attestation and the test port (R446 to R451, R458 to R462, R510).
-/

namespace Sys2Proof

namespace Machine

open Claims

section parts

variable {s : State} {t : Nat}

/-- The progress an update step reports (R446). -/
def rated (rate : Nat) (s : State) : State := { s with upd := { s.upd with rate := rate } }

section step

variable {ok : Bool} {rate : Nat} (ho : s.dev.st ≠ .off) (hb : s.dev.st ≠ .boot) (ht : stepPart s = some t)
include ho hb ht

theorem updateStepDone_eq (ha : (partAt s t).st ≠ .activating) : exec (.updateStepDone ok rate) s = .next (stepDone t ok (rated rate s)) := by
  rw [exec_updateStepDone, execUpdateStepDone, if_neg (by simp [ho, hb]), ht]
  dsimp only
  split
  · exact absurd ‹_› ha
  · rfl

theorem updateStepDone_activating (ha : (partAt s t).st = .activating) : exec (.updateStepDone ok rate) s = .next (stepDone t ok s) := by
  rw [exec_updateStepDone, execUpdateStepDone, if_neg (by simp [ho, hb]), ht]
  dsimp only
  rw [ha]
  rfl

end step

theorem stepDone_demoting {ok : Bool} {u : State} (hst : (partAt u t).st = .demoting) (hc : (partAt u t).cause = 0) :
    stepDone t ok u = if ok then stepTo t .writing (setPart t (demoted (partAt u t)) u) else u := by
  unfold stepDone
  dsimp only
  rw [hst]
  dsimp only
  rw [if_neg (by simp [hc])]

theorem stepDone_writing {ok : Bool} {u : State} (hst : (partAt u t).st = .writing) :
    stepDone t ok u = if (partAt u t).cause ≠ 0 then fallBack t (partAt u t).cause u else if ok then wroteStep t u else u := by
  unfold stepDone
  dsimp only
  rw [hst]

theorem stepDone_activating {ok : Bool} {u : State} (hst : (partAt u t).st = .activating) (hc : (partAt u t).cause = 0) (hr : u.upd.roll = none) (h2 : t ≠ 2) :
    stepDone t ok u = if ok then openLehr t (if t = 1 then coresNew true u else u) else activateFails t u := by
  unfold stepDone
  dsimp only
  rw [hst]
  dsimp only
  rw [if_neg h2, if_neg (by simp [hc]), if_neg (by simp [hr])]

theorem stepDone_fallingBack {ok : Bool} {u : State} (hst : (partAt u t).st = .fallingBack) : stepDone t ok u = if ok then fallenBack t u else u := by
  unfold stepDone
  dsimp only
  rw [hst]

/-- A part whose activation fails falls back with a cause of its own (R450). -/
theorem activateFails_eq (u : State) (h2 : t ≠ 2) : activateFails t u = fallBack t (if t = 3 ∨ t = 4 then 3 else 2) u := by
  unfold activateFails
  split
  · exact absurd rfl h2
  · rfl
  · rfl
  · rw [if_neg (not_or.2 ⟨‹t = 3 → False›, ‹t = 4 → False›⟩)]

theorem partAt_setPart_same {p : UpPart} {u : State} (h1 : 1 ≤ t) (hl : t ≤ u.upd.parts.length) : partAt (setPart t p u) t = p :=
  getD_set_same _ _ (by omega)

theorem partAt_setPart_ne {k : Nat} (p : UpPart) (u : State) (h1 : 1 ≤ t) (hk : 1 ≤ k) (hne : k ≠ t) : partAt (setPart t p u) k = partAt u k :=
  getD_set_ne _ _ _ (by omega)

theorem coreRestartDone_ok {core : Nat} (hr : s.upd.roll = some core) (hc : (partAt s 1).cause = 0) : exec (.coreRestartDone core true) s = .next (
    if core < 7 then rollBegin (core + 1) (rollBack core true s) else openLehr 1 (rollBack core true s)) := by
  have hp : (partAt (rollBack core true s) 1).cause = 0 := by
    unfold rollBack
    dsimp only
    split
    · exact hc
    · exact hc
  rw [exec_coreRestartDone, execCoreRestartDone, if_neg (by simp [hr])]
  dsimp only
  rw [if_neg (by decide), if_neg (by simp [hp])]
  rfl

theorem coreRestartDone_failed {core : Nat} (hr : s.upd.roll = some core) :
    exec (.coreRestartDone core false) s = .next (loseCore core 0x0501 (setPart 1 (causePart 3 (partAt s 1)) s)) := by
  rw [exec_coreRestartDone, execCoreRestartDone, if_neg (by simp [hr])]
  rfl

theorem healthConfirmation_eq (h1 : 1 ≤ t) (h5 : t ≤ 5) (hst : (partAt s t).st = .trial) (ok : Bool) : exec (.healthConfirmation t ok) s =
    .next (if ok then setPart t { partAt s t with confirmedOk := true } s else fallBack t 2 s) := by
  rw [exec_healthConfirmation, execHealthConfirmation, if_neg (by simp [hst]; omega)]
  rfl

theorem lehrEnd_eq (h1 : 1 ≤ t) (h5 : t ≤ 5) (hst : (partAt s t).st = .trial) : exec (.lehrEnd t) s =
    .next (if (partAt s t).confirmedOk && (partAt s t).cause = 0 then confirmPart t s else fallBack t 1 s) := by
  rw [exec_lehrEnd, execLehrEnd, if_neg (by simp [hst]; omega)]
  rfl

theorem updateIdle_eq (ho : s.dev.st ≠ .off) (hh : s.upd.holder ≠ none) (hm : midUpdate s = false) (ha : s.upd.applyJ = none) :
    exec .updateIdle s = .next (releaseLock 2 s) := by
  rw [exec_updateIdle, execUpdateIdle, if_neg (by simp [ho, hh, hm, ha])]
  rfl

end parts

section attestation

variable {s : State} {r : Spdm} {code : Nat}

section up

variable (hu : spdmUp s = true)
include hu

theorem spdmRequest_served (hb : s.upd.spdmBusy = false) : spdmRequest code r s = spdmReply r (spdmServe code r s).1 (spdmServe code r s).2 := by
  unfold spdmRequest
  rw [if_neg (by simp [hu]), if_neg (by simp [hb])]

theorem spdmRequest_busy (hb : s.upd.spdmBusy = true) :
    spdmRequest code r s = send (.spdm (spdmError s 0x42 0)) { s with upd := { s.upd with deferred := some (code, r) } } := by
  unfold spdmRequest
  rw [if_neg (by simp [hu]), if_pos hb]

theorem respondIfReady_none (hd : s.upd.deferred = none) : exec (.respondIfReady r) s = .next (send (.spdm (spdmError s 0x04 0)) s) := by
  rw [exec_respondIfReady, execRespondIfReady, if_neg (by simp [hu]), hd]
  rfl

theorem respondIfReady_some {c : Nat} {q : Spdm} (hb : s.upd.spdmBusy = false) (hd : s.upd.deferred = some (c, q)) : exec (.respondIfReady r) s =
    .next (spdmRequest c { q with max := r.max } { s with upd := { s.upd with deferred := none } }) := by
  rw [exec_respondIfReady, execRespondIfReady, if_neg (by simp [hu]), hd]
  dsimp only
  rw [if_neg (by simp [hb])]
  rfl

/-- The last chunk of a large response (R458). -/
theorem chunkGet_last (hb : s.upd.spdmBusy = false) (hm : 0 < r.max) (hlt : r.index * r.max < s.upd.chunk.length)
    (hle : s.upd.chunk.length ≤ (r.index + 1) * r.max) : exec (.chunkGet r) s = .next (send (.spdm (spdmMsg (spdmV s) 0x06 1 r.handle
      (le 2 r.index ++ le 2 0 ++ le 4 (s.upd.chunk.length - r.index * r.max) ++ s.upd.chunk.drop (r.index * r.max))))
      { s with upd := { s.upd with chunk := [] } }) := by
  have hpart : (s.upd.chunk.drop (r.index * r.max)).take r.max = s.upd.chunk.drop (r.index * r.max) := by
    refine List.take_of_length_le ?_
    rw [List.length_drop]
    rw [Nat.succ_mul] at hle
    omega
  have hne : ¬ (s.upd.chunk.isEmpty || (s.upd.chunk.drop (r.index * r.max)).isEmpty) = true := by
    have h0 : s.upd.chunk ≠ [] := fun h => by simp [h] at hlt
    simp [h0]
    omega
  rw [exec_chunkGet, execChunkGet, if_neg (by simp [hu]), if_neg (by simp [hb]), Nat.max_eq_left hm]
  dsimp only
  rw [hpart, if_neg hne, decide_eq_true hle, List.length_drop]
  rfl

end up

theorem spdmV_set (h : s.upd.spdmVer ≠ 0) : spdmV s = s.upd.spdmVer := if_neg h

/-- A reply changes nothing of the session but the chunk it may keep. -/
theorem spdmReply_kept (r : Spdm) (m : List Byte) (s : State) : (spdmReply r m s).upd.spdmVer = s.upd.spdmVer ∧
    (spdmReply r m s).upd.spdmCaps = s.upd.spdmCaps ∧ (spdmReply r m s).upd.spdmAlgo = s.upd.spdmAlgo ∧ (spdmReply r m s).dev = s.dev := by
  unfold spdmReply
  split
  · exact ⟨rfl, rfl, rfl, rfl⟩
  · exact ⟨rfl, rfl, rfl, rfl⟩

theorem serve_version : spdmServe 0x84 r s = (spdmMsg 0x10 0x04 0 0 [0, 2, 0, 0x12, 0, 0x13],
    { s with upd := { s.upd with spdmVer := 0, spdmCaps := false, spdmAlgo := false, chunk := [] } }) := rfl

theorem serve_capabilities (h : r.version = 0x12 ∨ r.version = 0x13) :
    (spdmServe 0xE1 r s).2 = { s with upd := { s.upd with spdmVer := r.version, spdmCaps := true } } := by
  simp only [spdmServe]
  rw [if_pos h]

theorem serve_algorithms (hv : s.upd.spdmVer ≠ 0) (hc : s.upd.spdmCaps = true) (hh : bit r.hashes 5 = true) (ha : (3, 1) ∈ r.asym) :
    (spdmServe 0xE3 r s).2 = { s with upd := { s.upd with spdmAlgo := true } } := by
  simp only [spdmServe]
  rw [if_neg (by simp [hv, hc]), if_neg (by simp [hh, ha])]

/-- A measurement depends on nothing that is drawn. -/
theorem measureBlock_drawn (i : Nat) : measureBlock { s with free := s.free + 1 } i = measureBlock s i := rfl

section connected

variable (hv : s.upd.spdmVer ≠ 0) (hc : s.upd.spdmCaps = true) (hg : s.upd.spdmAlgo = true)
include hv hc hg

/-- VERSION, CAPABILITIES and ALGORITHMS have come (R459). -/
theorem spdmReady : (!(s.upd.spdmVer != 0 && s.upd.spdmCaps && s.upd.spdmAlgo)) = false := by simp [hv, hc, hg]

theorem serve_digests : spdmServe 0x81 r s = (spdmMsg s.upd.spdmVer 0x01 0 1 (sha3 Config.certChain), s) := by
  simp only [spdmServe]
  rw [spdmReady hv hc hg, if_neg Bool.false_ne_true, spdmV_set hv]
  rfl

theorem serve_certificate (hs : r.slot = 0) (ho : r.offset < Config.certChain.length) : spdmServe 0x82 r s =
    (let part := (Config.certChain.drop r.offset).take (min r.length 65535)
     (spdmMsg s.upd.spdmVer 0x02 0 0 (le 2 part.length ++ le 2 (Config.certChain.length - r.offset - part.length) ++ part), s)) := by
  simp only [spdmServe]
  rw [spdmReady hv hc hg, if_neg Bool.false_ne_true, if_neg (by omega), spdmV_set hv]

theorem serve_challenge (hs : r.slot = 0) : spdmServe 0x83 r s =
    (let body := chainHash ++ le 32 (Config.freeBits 256 s.free).toNat ++ sha3 ((List.range 11).flatMap fun i => measureBlock s (i + 1)) ++ le 2 0
     (spdmMsg s.upd.spdmVer 0x03 0 1 (body ++ spdmSign (r.nonce ++ body)), { s with free := s.free + 1 })) := by
  simp only [spdmServe]
  rw [spdmReady hv hc hg, if_neg Bool.false_ne_true, if_neg (by simp [hs]), spdmV_set hv]
  rfl

theorem serve_measurement (h1 : 1 ≤ r.index) (h11 : r.index ≤ 11) (hs : r.signed = true) : spdmServe 0xE0 r s =
    (let body := [1] ++ le 3 (measureBlock s r.index).length ++ measureBlock s r.index ++ le 32 (Config.freeBits 256 s.free).toNat ++ le 2 0
     (spdmMsg s.upd.spdmVer 0x60 0 0 (body ++ spdmSign (r.nonce ++ body)), { s with free := s.free + 1 })) := by
  have hno : ¬ (decide (11 < r.index ∧ r.index ≠ 255) || !r.signed) = true := by
    rw [hs, decide_eq_false (by omega)]
    decide
  simp only [spdmServe]
  rw [spdmReady hv hc hg, if_neg Bool.false_ne_true, if_neg (by omega), if_neg hno, if_neg (by omega), spdmV_set hv]
  dsimp only [drawFree]
  rw [List.flatMap_cons, List.flatMap_nil, List.append_nil, measureBlock_drawn]
  rfl

end connected

end attestation

section jtag

variable {s : State} {i : Jtag}

theorem jtag_closed (h : jtagOpen s i = false) : exec (.jtagInstruction i) s = .next s := by
  rw [exec_jtagInstruction, execJtagInstruction, if_pos (by simp [h])]
  rfl

/-- An instruction that takes the pins in a run stops the device (R510). -/
def pinsTaken (i : Jtag) (s : State) : State := if takesPins i && inRun s then enterSafe 0x40 s else s

theorem jtag_opened (h : jtagOpen s i = true) (hk : ∀ k, i ≠ .halt k) :
    exec (.jtagInstruction i) s = .next { pinsTaken i s with dev := { (pinsTaken i s).dev with jtag := jtagCode i } } := by
  rw [exec_jtagInstruction, execJtagInstruction, if_neg (by simp [h])]
  cases i with
  | halt k => exact absurd rfl (hk k)
  | bypass | idcode | sample | preload | extest | clamp | highz | intest | extestPulse | extestTrain | scan => rfl

theorem pinsTaken_run (hp : takesPins i = true) (hr : inRun s = true) : (pinsTaken i s).dev.st = .safe ∧ (pinsTaken i s).dev.safeCause = 0x40 := by
  have hs : s.dev.st ≠ .safe := fun h => by simp [inRun, h] at hr
  have ho : s.dev.st ≠ .off := fun h => by simp [inRun, h] at hr
  rw [pinsTaken, hp, hr, if_pos (by decide), (enterSafe_entered hs ho).dev]
  exact ⟨rfl, rfl⟩

theorem pinsTaken_free (hp : takesPins i = false) : pinsTaken i s = s := if_neg (by simp [hp])

/-- SCAN needs the debug level 1, HALT the level 2, and the others none (R510). -/
theorem jtagOpen_iff (s : State) (i : Jtag) : jtagOpen s i = true ↔ (i = .scan → 1 ≤ s.upd.level) ∧ ∀ k, i = .halt k → 2 ≤ s.upd.level := by
  cases i with
  | scan => simp [jtagOpen]
  | halt k => simp [jtagOpen]
  | bypass | idcode | sample | preload | extest | clamp | highz | intest | extestPulse | extestTrain => simp [jtagOpen]

end jtag

end Machine

open Machine Claims

/-- Settles O53: a part's step by its state, a request by what `spdmServe` answers, an instruction by the debug level. -/
theorem updatesAndTrust : Obligations.UpdatesAndTrust := by
  unfold Obligations.UpdatesAndTrust
  intro s ho hb
  have hu : spdmUp s = true := by simp [spdmUp, ho, hb]
  refine ⟨fun t rate ok ht => ⟨fun hst hc => ?_, fun hst hc => ?_, fun hst hc => ?_, fun hst hc hr h2 => ?_, fun hst => ?_⟩,
    fun t st u h1 hl => ⟨?_, rfl, fun k hk hne => partAt_setPart_ne _ _ h1 hk hne⟩, fun core hr hc => ⟨fun h7 => ?_, fun h7 => ?_, coreRestartDone_failed hr⟩,
    fun t h1 h5 hst => ⟨healthConfirmation_eq h1 h5 hst true, healthConfirmation_eq h1 h5 hst false, fun hk hc => ?_, fun hk => ?_⟩,
    updateIdle_eq ho, rfl, fun r hbz => ⟨?_, fun hv => ?_, fun hv hc hh ha => ?_, fun hv hc hg => ⟨?_, fun hs hof => ?_, fun hs => ?_, fun h1 h11 hs => ?_⟩,
      fun c q hd => respondIfReady_some hu hbz hd, respondIfReady_none hu, fun _ hm hlt hle => ⟨_, _, chunkGet_last hu hbz hm hlt hle, rfl, rfl, rfl⟩⟩,
    fun r hbz i hi => ?_, fun i => ⟨jtag_closed, fun h hk => ⟨_, jtag_opened h hk, rfl, exec_hbm (i := .jtagInstruction i) rfl (jtag_opened h hk), fun hp hr => ?_,
      fun hp => ?_⟩⟩, jtagOpen_iff s⟩
  · have hna : (partAt s t).st ≠ .activating := by simp [hst]
    rw [updateStepDone_eq ho hb ht hna, updateStepDone_eq ho hb ht hna, stepDone_demoting (u := rated rate s) hst hc, stepDone_demoting (u := rated rate s) hst hc]
    exact ⟨rfl, rfl⟩
  · have hna : (partAt s t).st ≠ .activating := by simp [hst]
    rw [updateStepDone_eq ho hb ht hna, updateStepDone_eq ho hb ht hna, stepDone_writing (u := rated rate s) hst, stepDone_writing (u := rated rate s) hst]
    exact ⟨congrArg _ (if_neg (Classical.not_not.2 hc)), congrArg _ (if_neg (Classical.not_not.2 hc))⟩
  · have hna : (partAt s t).st ≠ .activating := by simp [hst]
    rw [updateStepDone_eq ho hb ht hna, stepDone_writing (u := rated rate s) hst]
    exact congrArg _ (if_pos hc)
  · rw [updateStepDone_activating ho hb ht hst, updateStepDone_activating ho hb ht hst, stepDone_activating hst hc hr h2, stepDone_activating hst hc hr h2,
      activateFails_eq _ h2]
    exact ⟨rfl, rfl⟩
  · have hna : (partAt s t).st ≠ .activating := by simp [hst]
    rw [updateStepDone_eq ho hb ht hna, updateStepDone_eq ho hb ht hna, stepDone_fallingBack (u := rated rate s) hst, stepDone_fallingBack (u := rated rate s) hst]
    exact ⟨rfl, rfl⟩
  · exact congrArg UpPart.st (partAt_setPart_same (u := { u with upd := { u.upd with rseq := u.upd.rseq + 1 } }) h1 hl)
  · rw [coreRestartDone_ok hr hc, if_pos h7]
  · rw [coreRestartDone_ok hr hc, if_neg (by omega)]
  · rw [lehrEnd_eq h1 h5 hst, if_pos (by simp [hk, hc])]
  · rw [lehrEnd_eq h1 h5 hst, if_neg (by simp [hk])]
  · rw [exec_getVersion, execGetVersion, spdmRequest_served hu hbz, serve_version]
    rfl
  · refine ⟨_, by rw [exec_getCapabilities, execGetCapabilities, spdmRequest_served hu hbz]; rfl, ?_⟩
    obtain ⟨k1, k2, _, k4⟩ := spdmReply_kept r (spdmServe 0xE1 r s).1 (spdmServe 0xE1 r s).2
    rw [k1, k2, k4, serve_capabilities hv]
    exact ⟨rfl, rfl, rfl⟩
  · refine ⟨_, by rw [exec_negotiateAlgorithms, execNegotiateAlgorithms, spdmRequest_served hu hbz]; rfl, ?_⟩
    obtain ⟨_, _, k3, k4⟩ := spdmReply_kept r (spdmServe 0xE3 r s).1 (spdmServe 0xE3 r s).2
    rw [k3, k4, serve_algorithms hv hc hh ha]
    exact ⟨rfl, rfl⟩
  · rw [exec_getDigests, execGetDigests, spdmRequest_served hu hbz, serve_digests hv hc hg]
    rfl
  · rw [exec_getCertificate, execGetCertificate, spdmRequest_served hu hbz, serve_certificate hv hc hg hs hof]
    rfl
  · refine ⟨_, ?_, rfl⟩
    rw [exec_challenge, execChallenge, spdmRequest_served hu hbz, serve_challenge hv hc hg hs]
    rfl
  · refine ⟨_, ?_, rfl⟩
    rw [exec_getMeasurements, execGetMeasurements, spdmRequest_served hu hbz, serve_measurement hv hc hg h1 h11 hs]
    rfl
  · simp only [List.mem_cons, List.not_mem_nil, or_false] at hi
    rcases hi with rfl | rfl | rfl | rfl | rfl | rfl | rfl
    · exact congrArg Host.Outcome.next (spdmRequest_busy hu hbz)
    · exact congrArg Host.Outcome.next (spdmRequest_busy hu hbz)
    · exact congrArg Host.Outcome.next (spdmRequest_busy hu hbz)
    · exact congrArg Host.Outcome.next (spdmRequest_busy hu hbz)
    · exact congrArg Host.Outcome.next (spdmRequest_busy hu hbz)
    · exact congrArg Host.Outcome.next (spdmRequest_busy hu hbz)
    · exact congrArg Host.Outcome.next (spdmRequest_busy hu hbz)
  · exact pinsTaken_run hp hr
  · dsimp only
    rw [pinsTaken_free hp]

end Sys2Proof
end


section
/-!
O54: supplies, samples, the cap, the save and start-up (R402, R492 to R511).
-/

namespace Sys2Proof
namespace Machine

/- What the sensors gave, and SAFE_STOP. -/

/-- What the last sample gave, which neither SAFE_STOP nor a fault record touches. -/
structure SensesKept (s t : State) : Prop where
  temps : t.pwr.temps = s.pwr.temps
  dieT : t.pwr.dieT = s.pwr.dieT
  hbmT : t.pwr.hbmT = s.pwr.hbmT
  cap : t.pwr.cap = s.pwr.cap
  sum : t.pwr.sum = s.pwr.sum
  avg : t.pwr.avg = s.pwr.avg

theorem sensesKept_of_pwr {s t : State} (h : t.pwr = s.pwr) : SensesKept s t := by
  constructor <;> rw [h]

theorem sensesKept_trans {s t u : State} (h : SensesKept s t) (k : SensesKept t u) : SensesKept s u :=
  ⟨k.temps.trans h.temps, k.dieT.trans h.dieT, k.hbmT.trans h.hbmT, k.cap.trans h.cap, k.sum.trans h.sum, k.avg.trans h.avg⟩

theorem sensesKept_startSave (cause : Nat) (s : State) : SensesKept s (startSave cause s) := by
  unfold startSave
  split
  · exact sensesKept_of_pwr rfl
  · exact ⟨rfl, rfl, rfl, rfl, rfl, rfl⟩

theorem sensesKept_railsDown (s : State) : SensesKept s (railsDown s) := by
  obtain ⟨out, h⟩ := railsDown_eq s
  rw [h]
  exact ⟨rfl, rfl, rfl, rfl, rfl, rfl⟩

theorem expireWaiting_safeNoted_pwr (cause : Nat) (s : State) : (expireWaiting (safeNoted cause s)).pwr = s.pwr := by
  obtain ⟨ws, hws⟩ := path_expire (safeNoted cause s)
  rw [hws]
  show (safeDev cause s).pwr = _
  rw [safeDev_pwr]

theorem enterSafe_idle {cause : Nat} {s : State} (h : s.dev.st = .safe ∨ s.dev.st = .off) : enterSafe cause s = s := by
  rw [enterSafe, if_pos (by simpa using h)]

theorem sensesKept_enterSafe (cause : Nat) (s : State) : SensesKept s (enterSafe cause s) := by
  by_cases hs : s.dev.st = .safe ∨ s.dev.st = .off
  · rw [enterSafe_idle hs]
    exact sensesKept_of_pwr rfl
  · obtain ⟨h1, h2⟩ := not_or.1 hs
    rw [enterSafe_eq h1 h2]
    refine sensesKept_trans ?_ (sensesKept_railsDown _)
    refine sensesKept_trans ?_ (sensesKept_startSave _ _)
    exact sensesKept_of_pwr (expireWaiting_safeNoted_pwr cause s)

theorem sensesKept_fault (f : FaultRec) (s : State) : SensesKept s (fault f s) := by
  unfold fault
  extract_lets g
  clear_value g
  split
  · exact sensesKept_of_pwr rfl
  · split
    · refine sensesKept_trans ?_ (sensesKept_enterSafe _ _)
      exact sensesKept_of_pwr rfl
    · split
      · split
        · exact sensesKept_of_pwr rfl
        · exact sensesKept_of_pwr rfl
      · exact sensesKept_of_pwr rfl

/-- A fault record in SAFE_STOP neither moves the device nor starts a save. -/
theorem fault_inSafe {s : State} (h : s.dev.st = .safe) (f : FaultRec) : (fault f s).dev = s.dev ∧ (fault f s).pwr = s.pwr := by
  unfold fault
  extract_lets g
  clear_value g
  split
  · exact ⟨rfl, rfl⟩
  · split
    · rw [enterSafe_idle]
      · exact ⟨rfl, rfl⟩
      · exact .inl h
    · split
      · split
        · exact ⟨rfl, rfl⟩
        · exact ⟨rfl, rfl⟩
      · exact ⟨rfl, rfl⟩

theorem enterSafe_stops {cause : Nat} {s : State} (hs : s.dev.st ≠ .safe) (ho : s.dev.st ≠ .off) :
    (enterSafe cause s).dev.st = .safe ∧ (enterSafe cause s).dev.safeCause = cause := by
  rw [(enterSafe_entered (cause := cause) hs ho).dev]
  exact ⟨rfl, rfl⟩

/-- The first S4 record takes the device into SAFE_STOP with cause FAULT (R402). -/
theorem fault_first {f : FaultRec} {s : State} (he : s.flt.errq = []) (hf : f.sev = 4) (hs : s.dev.st ≠ .safe) (ho : s.dev.st ≠ .off) :
    (fault f s).dev.st = .safe ∧ (fault f s).dev.safeCause = 0x30 := by
  unfold fault
  extract_lets g
  have hg : (g.sev == 4) = true := by simp [g, hf]
  clear_value g
  rw [if_neg (by simp [he]), if_pos hg]
  exact enterSafe_stops hs ho

/-- A fault that follows SAFE_STOP leaves it as it is. -/
theorem fault_enterSafe_dev {cause : Nat} {s : State} (f : FaultRec) (hs : s.dev.st ≠ .safe) (ho : s.dev.st ≠ .off) :
    (fault f (enterSafe cause s)).dev.st = .safe ∧ (fault f (enterSafe cause s)).dev.safeCause = cause := by
  have he := enterSafe_stops (cause := cause) hs ho
  rw [(fault_inSafe he.1 f).1]
  exact he

/-- Nothing that is in SAFE_STOP leaves it by a further entry and its record. -/
theorem fault_enterSafe_inSafe {s : State} (h : s.dev.st = .safe) (cause : Nat) (f : FaultRec) :
    (fault f (enterSafe cause s)).dev = s.dev := by
  rw [enterSafe_idle (.inl h), (fault_inSafe h f).1]

/- The sample (R499 to R501). -/

/-- A sample is stored and its power averaged. -/
def sampled (m : Sample) (s : State) : State :=
  addPower m.power { s with pwr := { s.pwr with
    temps := corrected' s m
    dieT := thermLevels 95 100 110 (dieSensors s (corrected' s m)) s.pwr.dieT
    hbmT := thermLevels 85 90 100 (corrected' s m).hbm s.pwr.hbmT } }

/-- A sample with its events and the cap it engages. -/
def capped (m : Sample) (s : State) : State :=
  let u := thermEvents s.pwr.hbmT (sampled m s).pwr.hbmT 1 (thermEvents s.pwr.dieT (sampled m s).pwr.dieT 0 (sampled m s))
  if !c1Mode u && (decide (7600 ≤ u.pwr.avg) || capLevel u) then setCap true u else u

theorem addPower_eq (p : Nat) (s : State) : ∃ l a b, addPower p s = { s with pwr := { s.pwr with sum := l, avg := a, maxAvg := b } } := by
  unfold addPower
  extract_lets l a
  split
  · exact ⟨_, _, _, rfl⟩
  · exact ⟨_, _, _, rfl⟩

theorem sampled_eq (m : Sample) (s : State) : ∃ l a b, sampled m s = { s with pwr := { s.pwr with
    temps := corrected' s m, dieT := thermLevels 95 100 110 (dieSensors s (corrected' s m)) s.pwr.dieT
    hbmT := thermLevels 85 90 100 (corrected' s m).hbm s.pwr.hbmT, sum := l, avg := a, maxAvg := b } } := by
  obtain ⟨l, a, b, h⟩ := addPower_eq m.power { s with pwr := { s.pwr with
    temps := corrected' s m
    dieT := thermLevels 95 100 110 (dieSensors s (corrected' s m)) s.pwr.dieT
    hbmT := thermLevels 85 90 100 (corrected' s m).hbm s.pwr.hbmT } }
  exact ⟨l, a, b, h⟩

theorem sampled_closes {m : Sample} {s : State} (h : 9 ≤ s.pwr.sum.length) : (sampled m s).pwr.sum = [] ∧
    (sampled m s).pwr.avg = sumL (s.pwr.sum ++ [m.power]) / (s.pwr.sum.length + 1) := by
  unfold sampled addPower
  dsimp only
  rw [if_neg (by simp; omega), List.length_append]
  exact ⟨rfl, rfl⟩

theorem thermEvents_eq (old new : Therm) (kind : Nat) (s : State) : ∃ a b, thermEvents old new kind s =
    { s with host := { s.host with eseq := a, raised := b } } := by
  unfold thermEvents
  split
  · split
    · exact ⟨_, _, rfl⟩
    · exact ⟨_, _, rfl⟩
  · split
    · exact ⟨_, _, rfl⟩
    · exact ⟨_, _, rfl⟩

theorem setCap_eq (on : Bool) (s : State) : ∃ a b k, setCap on s =
    { s with host := { s.host with eseq := a, raised := b }, pwr := { s.pwr with cap := on, lowMs := k } } := by
  unfold setCap
  split
  · next h => exact ⟨s.host.eseq, s.host.raised, s.pwr.lowMs, by rw [← h]⟩
  · exact ⟨_, _, _, rfl⟩

/-- Events and the cap leave the device, its records and what the sensors gave. -/
structure Metered (s t : State) : Prop where
  dev : t.dev = s.dev
  flt : t.flt = s.flt
  regs : t.regs = s.regs
  temps : t.pwr.temps = s.pwr.temps
  dieT : t.pwr.dieT = s.pwr.dieT
  hbmT : t.pwr.hbmT = s.pwr.hbmT
  sum : t.pwr.sum = s.pwr.sum
  avg : t.pwr.avg = s.pwr.avg

theorem metered_trans {s t u : State} (h : Metered s t) (k : Metered t u) : Metered s u :=
  ⟨k.dev.trans h.dev, k.flt.trans h.flt, k.regs.trans h.regs, k.temps.trans h.temps, k.dieT.trans h.dieT, k.hbmT.trans h.hbmT,
    k.sum.trans h.sum, k.avg.trans h.avg⟩

theorem metered_refl (s : State) : Metered s s := ⟨rfl, rfl, rfl, rfl, rfl, rfl, rfl, rfl⟩

theorem metered_thermEvents (old new : Therm) (kind : Nat) (s : State) : Metered s (thermEvents old new kind s) := by
  obtain ⟨a, b, h⟩ := thermEvents_eq old new kind s
  rw [h]
  exact ⟨rfl, rfl, rfl, rfl, rfl, rfl, rfl, rfl⟩

theorem metered_setCap (on : Bool) (s : State) : Metered s (setCap on s) := by
  obtain ⟨a, b, k, h⟩ := setCap_eq on s
  rw [h]
  exact ⟨rfl, rfl, rfl, rfl, rfl, rfl, rfl, rfl⟩

theorem setCap_cap (on : Bool) (s : State) : (setCap on s).pwr.cap = on := by
  obtain ⟨a, b, k, h⟩ := setCap_eq on s
  rw [h]

theorem metered_capped (m : Sample) (s : State) : Metered (sampled m s) (capped m s) := by
  unfold capped
  extract_lets u
  have hu : Metered (sampled m s) u := metered_trans (metered_thermEvents _ _ 0 _) (metered_thermEvents _ _ 1 _)
  split
  · exact metered_trans hu (metered_setCap true u)
  · exact hu

theorem capped_dev (m : Sample) (s : State) : (capped m s).dev = s.dev := by
  obtain ⟨l, a, b, hm⟩ := sampled_eq m s
  rw [(metered_capped m s).dev, hm]

/-- A T_CAP engages the cap, but not in C1 timing mode (R499, R501). -/
theorem capped_caps {m : Sample} {s : State} (hc : c1Mode (sampled m s) = false) (hd : (sampled m s).pwr.dieT.cap = true) :
    (capped m s).pwr.cap = true := by
  unfold capped
  extract_lets u
  have hu : Metered (sampled m s) u := metered_trans (metered_thermEvents _ _ 0 _) (metered_thermEvents _ _ 1 _)
  have hcu : c1Mode u = false := by rw [c1Mode, regAt, hu.regs]; exact hc
  have hcap : capLevel u = true := by rw [capLevel, hu.dieT, hd]; rfl
  rw [if_pos (by simp [hcu, hcap])]
  exact setCap_cap true u

/-- A sample that tripped, or came with an error of the clock (R402, R501). -/
def judged (m : Sample) (s : State) : State :=
  let u := if m.clockBad then fault { code := 0x0804, sev := 4 } (capped m s) else capped m s
  let d := thermLevels 95 100 110 (dieSensors s (corrected' s m)) s.pwr.dieT
  let h := thermLevels 85 90 100 (corrected' s m).hbm s.pwr.hbmT
  if d.trip && !s.pwr.dieT.trip then tripped 0 u else if h.trip && !s.pwr.hbmT.trip then tripped 1 u else u

theorem powerSample_eq {s : State} (hw : awake s = true) (m : Sample) : exec (.powerSample m) s = .next (judged m s) := by
  rw [exec_powerSample, execPowerSample, if_neg (by simp [hw])]
  obtain ⟨l, a, b, hs⟩ := sampled_eq m s
  unfold judged capped
  rw [show (sampled m s).pwr.hbmT = thermLevels 85 90 100 (corrected' s m).hbm s.pwr.hbmT by rw [hs],
    show (sampled m s).pwr.dieT = thermLevels 95 100 110 (dieSensors s (corrected' s m)) s.pwr.dieT by rw [hs]]
  rfl

theorem sensesKept_tripped (k : Nat) (s : State) : SensesKept s (tripped k s) :=
  sensesKept_trans (sensesKept_enterSafe _ _) (sensesKept_fault _ _)

theorem sensesKept_judged (m : Sample) (s : State) : SensesKept (capped m s) (judged m s) := by
  have hu : SensesKept (capped m s) (if m.clockBad then fault { code := 0x0804, sev := 4 } (capped m s) else capped m s) := by
    split
    · exact sensesKept_fault _ _
    · exact sensesKept_of_pwr rfl
  unfold judged
  extract_lets u d h
  split
  · exact sensesKept_trans hu (sensesKept_tripped _ _)
  · split
    · exact sensesKept_trans hu (sensesKept_tripped _ _)
    · exact hu

/-- A newly reached T_TRIP of a die stops the device (R501). -/
theorem judged_trips {m : Sample} {s : State} (hb : m.clockBad = false)
    (hd : (thermLevels 95 100 110 (dieSensors s (corrected' s m)) s.pwr.dieT).trip = true) (ht : s.pwr.dieT.trip = false)
    (hs : s.dev.st ≠ .safe) (ho : s.dev.st ≠ .off) : (judged m s).dev.st = .safe ∧ (judged m s).dev.safeCause = 0x20 := by
  have hdev := capped_dev m s
  unfold judged
  rw [hb, if_neg Bool.false_ne_true, if_pos (by rw [hd, ht]; rfl)]
  exact fault_enterSafe_dev _ (by rw [hdev]; exact hs) (by rw [hdev]; exact ho)

theorem judged_below {m : Sample} {s : State} (hb : m.clockBad = false)
    (hd : (thermLevels 95 100 110 (dieSensors s (corrected' s m)) s.pwr.dieT).trip = false)
    (hh : (thermLevels 85 90 100 (corrected' s m).hbm s.pwr.hbmT).trip = false) : (judged m s).dev = s.dev := by
  unfold judged
  rw [hb, if_neg Bool.false_ne_true, if_neg (by rw [hd]; exact Bool.false_ne_true), if_neg (by rw [hh]; exact Bool.false_ne_true)]
  exact capped_dev m s

/-- An error of the core clock stops the device (R402), and a trip beside it adds nothing. -/
theorem judged_clock {m : Sample} {s : State} (hb : m.clockBad = true) (he : s.flt.errq = []) (hs : s.dev.st ≠ .safe) (ho : s.dev.st ≠ .off) :
    (judged m s).dev.st = .safe ∧ (judged m s).dev.safeCause = 0x30 := by
  obtain ⟨l, a, b, hm⟩ := sampled_eq m s
  have hflt : (capped m s).flt = s.flt := by rw [(metered_capped m s).flt, hm]
  obtain ⟨h1, h2⟩ := fault_first (f := { code := 0x0804, sev := 4 }) (s := capped m s) (by rw [hflt]; exact he) rfl
    (by rw [capped_dev]; exact hs) (by rw [capped_dev]; exact ho)
  unfold judged
  rw [hb, if_pos rfl]
  dsimp only
  split
  · rw [tripped, fault_enterSafe_inSafe h1]
    exact ⟨h1, h2⟩
  · split
    · rw [tripped, fault_enterSafe_inSafe h1]
      exact ⟨h1, h2⟩
    · exact ⟨h1, h2⟩

/- The cap (R499). -/

theorem powerOver_eq (s : State) : ∃ a b n x, powerOver s = { s with
    host := { s.host with eseq := a, raised := b }, pwr := { s.pwr with overMs := n, above := x } } := by
  unfold powerOver
  split
  · extract_lets n u
    split
    · exact ⟨_, _, _, _, rfl⟩
    · exact ⟨_, _, n, _, rfl⟩
  · exact ⟨_, _, _, _, rfl⟩

/-- A step of the cap at which the sensors and the average are not low. -/
theorem capStep_up {s : State} (hw : awake s = true) (hc : c1Mode s = false) (hcap : s.pwr.cap = true) (hl : capLow s = false) :
    exec .capStep s = .next (powerOver (capAt (min capLast (s.pwr.step + 1)) { s with pwr := { s.pwr with lowMs := 0 } })) := by
  rw [exec_capStep, execCapStep, if_neg (by simp [hw]), if_neg (by simp [hc]), if_neg (by simp [hcap])]
  simp only [hl]
  rfl

theorem capAt_eq {s : State} (hc : c1Mode s = false) (n : Nat) : capAt n s =
    { s with pwr := { s.pwr with step := n }, t2 := { s.t2 with passGap := capGap n, ringRate := capRate n } } := by
  unfold capAt
  rw [hc]
  rfl

theorem capStep_rises {s : State} (hw : awake s = true) (hc : c1Mode s = false) (hcap : s.pwr.cap = true) (hl : capLow s = false) :
    ∃ t, exec .capStep s = .next t ∧ t.pwr.step = min capLast (s.pwr.step + 1) ∧ t.t2.passGap = capGap (min capLast (s.pwr.step + 1)) ∧
      t.t2.ringRate = capRate (min capLast (s.pwr.step + 1)) ∧ t.pwr.lowMs = 0 := by
  refine ⟨_, capStep_up hw hc hcap hl, ?_⟩
  rw [capAt_eq (s := { s with pwr := { s.pwr with lowMs := 0 } }) hc]
  generalize min capLast (s.pwr.step + 1) = k
  obtain ⟨a, b, n, x, h⟩ := powerOver_eq { s with pwr := { s.pwr with lowMs := 0, step := k }, t2 := { s.t2 with passGap := capGap k, ringRate := capRate k } }
  rw [h]
  exact ⟨rfl, rfl, rfl, rfl⟩

/-- The cap a step down, after a low millisecond. -/
def capLowered (s : State) : State :=
  { s with
    pwr := { s.pwr with lowMs := s.pwr.lowMs + 1, step := s.pwr.step - 1 }
    t2 := { s.t2 with passGap := capGap (s.pwr.step - 1), ringRate := capRate (s.pwr.step - 1) } }

theorem capStep_down {s : State} (hw : awake s = true) (hc : c1Mode s = false) (hcap : s.pwr.cap = true) (hl : capLow s = true)
    (h9 : 9 ≤ s.pwr.lowMs) :
    exec .capStep s = .next (powerOver (if s.pwr.step - 1 = 0 then setCap false (capLowered s) else capLowered s)) := by
  have hn : ¬ s.pwr.lowMs + 1 < 10 := by omega
  rw [exec_capStep, execCapStep, if_neg (by simp [hw]), if_neg (by simp [hc]), if_neg (by simp [hcap])]
  simp only [hl, if_true]
  rw [if_neg hn, capAt_eq (s := { s with pwr := { s.pwr with lowMs := s.pwr.lowMs + 1 } }) hc]
  rfl

/-- After ten low milliseconds the cap goes down a step, and releases at step 0. -/
theorem capStep_falls {s : State} (hw : awake s = true) (hc : c1Mode s = false) (hcap : s.pwr.cap = true) (hl : capLow s = true)
    (h9 : 9 ≤ s.pwr.lowMs) :
    ∃ t, exec .capStep s = .next t ∧ t.pwr.step = s.pwr.step - 1 ∧ t.t2.passGap = capGap (s.pwr.step - 1) ∧
      t.pwr.cap = decide (s.pwr.step - 1 ≠ 0) := by
  refine ⟨_, capStep_down hw hc hcap hl h9, ?_⟩
  by_cases hz : s.pwr.step - 1 = 0
  · rw [if_pos hz]
    obtain ⟨a, b, n, x, h⟩ := powerOver_eq (setCap false (capLowered s))
    obtain ⟨a', b', k, h'⟩ := setCap_eq false (capLowered s)
    rw [h, h']
    exact ⟨rfl, rfl, by simp [hz]⟩
  · rw [if_neg hz]
    obtain ⟨a, b, n, x, h⟩ := powerOver_eq (capLowered s)
    rw [h]
    exact ⟨rfl, rfl, by simp [hz, capLowered, hcap]⟩

/- Rails (R497, R498). -/

theorem avsTransaction_ok {s : State} (hw : awake s = true) {rail mv : Nat} (hr : rail < 4) (h1 : 600 ≤ mv) (h2 : mv ≤ 800) (h3 : mv % 5 = 0) :
    exec (.avsTransaction rail mv true) s = .next (avsSend rail mv { s with pwr := { s.pwr with avsFail := s.pwr.avsFail.set rail 0 } }) := by
  have hno : ¬ (!awake s || decide (4 ≤ rail ∨ mv < 600 ∨ 800 < mv ∨ mv % 5 ≠ 0)) = true := by
    rw [hw, decide_eq_false (by omega)]
    decide
  rw [exec_avsTransaction, execAvsTransaction, if_neg hno]
  rfl

/-- A transaction that fails counts, and the third in a row loses the rail. -/
theorem avsTransaction_fails {s : State} (hw : awake s = true) {rail mv : Nat} (hr : rail < 4) (h1 : 600 ≤ mv) (h2 : mv ≤ 800) (h3 : mv % 5 = 0)
    (u : State) (hu : u = send (.avs rail mv) { s with pwr := { s.pwr with avsFail := s.pwr.avsFail.set rail (s.pwr.avsFail.getD rail 0 + 1) } }) :
    exec (.avsTransaction rail mv false) s = .next (if s.pwr.avsFail.getD rail 0 = 2 then loseRail rail u else u) := by
  have hno : ¬ (!awake s || decide (4 ≤ rail ∨ mv < 600 ∨ 800 < mv ∨ mv % 5 ≠ 0)) = true := by
    rw [hw, decide_eq_false (by omega)]
    decide
  rw [exec_avsTransaction, execAvsTransaction, if_neg hno, hu]
  by_cases h : s.pwr.avsFail.getD rail 0 = 2
  · have hy : s.pwr.avsFail.getD rail 0 + 1 = 3 := by omega
    rw [if_pos h]
    exact congrArg _ (if_pos hy)
  · have hn : ¬ s.pwr.avsFail.getD rail 0 + 1 = 3 := by omega
    rw [if_neg h]
    exact congrArg _ (if_neg hn)

theorem railFault_awake {s : State} (hw : awake s = true) {rail : Nat} (hr : rail < 15) : ¬ (!awake s || decide (15 ≤ rail)) = true := by
  rw [hw, decide_eq_false (by omega)]
  decide

theorem railFault_grid {s : State} (hw : awake s = true) {rail : Nat} (hr : rail < 15) (h : rail < 4) :
    exec (.railFault rail) s = .next (startSave 2 (loseRail rail s)) := by
  rw [exec_railFault, execRailFault, if_neg (railFault_awake hw hr), if_pos h]
  rfl

theorem railFault_input {s : State} (hw : awake s = true) : exec (.railFault 14) s = .next (startSave 1 s) := by
  rw [exec_railFault, execRailFault, if_neg (railFault_awake hw (by decide)), if_neg (by decide), if_pos rfl]
  rfl

theorem supplyFault_stops {s : State} (rail : Nat) (hs : s.dev.st ≠ .safe) (ho : s.dev.st ≠ .off) :
    (supplyFault rail s).dev.st = .safe ∧ (supplyFault rail s).dev.safeCause = 0x21 := fault_enterSafe_dev _ hs ho

/-- A save that is under way stays the one it is (R505). -/
theorem supplyFault_saving {s : State} (rail : Nat) (hs : s.dev.st ≠ .safe) (ho : s.dev.st ≠ .off) (h : s.pwr.saving ≠ none) :
    (supplyFault rail s).pwr.saving = s.pwr.saving := by
  have he := enterSafe_entered (cause := 0x21) hs ho
  rw [supplyFault, (fault_inSafe (by rw [he.dev]) _).2, he.saving h]

/-- A rail beyond the grid's, other than the input, stops the device; the rail of the grid's supply starts the save first (R498, R505). -/
theorem railFault_other {s : State} (hw : awake s = true) {rail : Nat} (hr : rail < 15) (h4 : 4 ≤ rail) (h14 : rail ≠ 14) (hs : s.dev.st ≠ .safe)
    (ho : s.dev.st ≠ .off) : ∃ t, exec (.railFault rail) s = .next t ∧ t.dev.st = .safe ∧ t.dev.safeCause = 0x21 ∧
      (rail = 4 → s.pwr.saving = none → s.pwr.saveOk = true → t.pwr.saving = some 2) := by
  rw [exec_railFault, execRailFault, if_neg (railFault_awake hw hr), if_neg (by omega), if_neg h14]
  by_cases hf : rail = 4
  · rw [if_pos hf]
    have hdev : (saveDoubt (startSave 2 s)).dev = s.dev := startSave_dev 2 s
    obtain ⟨k1, k2⟩ := supplyFault_stops (s := saveDoubt (startSave 2 s)) rail (by rw [hdev]; exact hs) (by rw [hdev]; exact ho)
    refine ⟨_, rfl, k1, k2, fun _ h1 h2 => ?_⟩
    have hsv : (saveDoubt (startSave 2 s)).pwr.saving = some 2 := (startSave_starts (cause := 2) h1 h2).1
    rw [supplyFault_saving _ (by rw [hdev]; exact hs) (by rw [hdev]; exact ho) (by rw [hsv]; exact Option.some_ne_none _), hsv]
  · obtain ⟨k1, k2⟩ := supplyFault_stops (s := s) rail hs ho
    rw [if_neg hf]
    by_cases h8 : rail = 8
    · rw [if_pos h8]
      exact ⟨_, rfl, k1, k2, fun h => absurd h hf⟩
    · rw [if_neg h8]
      exact ⟨_, rfl, k1, k2, fun h => absurd h hf⟩

/- The save (R505 to R507). -/

theorem pwrfail_eq {s : State} (ho : s.dev.st ≠ .off) : exec .pwrfail s = .next (startSave 0 { s with dev := { s.dev with pwrfailN := false } }) := by
  rw [exec_pwrfail, execPwrfail]
  exact congrArg _ (if_neg (by simp [ho]))

theorem pwrfail_off {s : State} (ho : s.dev.st = .off) : exec .pwrfail s = .next { s with dev := { s.dev with pwrfailN := false } } := by
  rw [exec_pwrfail, execPwrfail]
  exact congrArg _ (if_pos (by simp [ho]))

theorem startSave_cause {cause : Nat} {s : State} (h1 : s.pwr.saving = none) (h2 : s.pwr.saveOk = true) :
    (startSave cause s).pwr.save.cause = cause := by
  unfold startSave
  rw [if_neg (by simp [h1, h2])]

theorem pwrfail_row (s : State) : ∃ t, exec .pwrfail s = .next t ∧ t.dev = { s.dev with pwrfailN := false } ∧ t.hbm = s.hbm ∧
    (s.dev.st ≠ .off → s.pwr.saving = none → s.pwr.saveOk = true →
      t.pwr.saving = some 0 ∧ t.pwr.saveTick = nowTick s + 1 ∧ t.pwr.save.cause = 0) := by
  by_cases ho : s.dev.st = .off
  · exact ⟨_, pwrfail_off ho, rfl, rfl, fun h => absurd ho h⟩
  · refine ⟨_, pwrfail_eq ho, startSave_dev _ _, startSave_hbm _ _, fun _ h1 h2 => ?_⟩
    obtain ⟨k1, k2⟩ := startSave_starts (cause := 0) (s := { s with dev := { s.dev with pwrfailN := false } }) h1 h2
    exact ⟨k1, k2, startSave_cause h1 h2⟩

theorem resetFall_eq {s : State} (ho : s.dev.st ≠ .off) :
    exec .resetFall s = .next (startSave 3 (outputsOff { s with dev := { s.dev with resetN := false } })) := by
  rw [exec_resetFall, execResetFall]
  exact congrArg _ (if_neg (by simp [ho]))

theorem resetFall_off {s : State} (ho : s.dev.st = .off) : exec .resetFall s = .next { s with dev := { s.dev with resetN := false } } := by
  rw [exec_resetFall, execResetFall]
  exact congrArg _ (if_pos (by simp [ho]))

theorem resetFall_row (s : State) : ∃ t, exec .resetFall s = .next t ∧ t.dev = { s.dev with resetN := false } ∧ t.hbm = s.hbm ∧
    (s.dev.st ≠ .off → t.comb.trg = [] ∧ t.comb.busy = 0 ∧ t.time.ppsOut = false ∧
      (s.pwr.saving = none → s.pwr.saveOk = true → t.pwr.saving = some 3 ∧ t.pwr.saveTick = nowTick s + 1)) := by
  by_cases ho : s.dev.st = .off
  · exact ⟨_, resetFall_off ho, rfl, rfl, fun h => absurd ho h⟩
  · refine ⟨_, resetFall_eq ho, startSave_dev _ _, startSave_hbm _ _, fun _ => ⟨?_, ?_, ?_, fun h1 h2 => ?_⟩⟩
    · rw [startSave_comb]; rfl
    · rw [startSave_comb]; rfl
    · rw [startSave_time]; rfl
    · exact startSave_starts (cause := 3) (s := outputsOff { s with dev := { s.dev with resetN := false } }) h1 h2

/-- Only free values were taken. -/
def OnlyFree (s t : State) : Prop := ∃ n, t = { s with free := n }

theorem onlyFree_refl (s : State) : OnlyFree s s := ⟨s.free, rfl⟩

theorem onlyFree_trans {s t u : State} (h : OnlyFree s t) (k : OnlyFree t u) : OnlyFree s u := by
  obtain ⟨n, rfl⟩ := h
  obtain ⟨m, rfl⟩ := k
  exact ⟨m, rfl⟩

/-- A value that is held, or else drawn. -/
theorem onlyFree_ite {α : Type} (c : Bool) (x : α) {d : α × State} {s : State} (h : OnlyFree s d.2) : OnlyFree s (if c then (x, s) else d).2 := by
  split
  · exact onlyFree_refl s
  · exact h

theorem onlyFree_drawn (l : List Nat) (x : List (BitVec 512) × State) : OnlyFree x.2
    (l.foldl (fun (x : List (BitVec 512) × State) (_ : Nat) => (x.1 ++ [(drawFree 512 x.2).1], (drawFree 512 x.2).2)) x).2 := by
  induction l generalizing x with
  | nil => exact onlyFree_refl _
  | cons a l ih => exact onlyFree_trans ⟨_, rfl⟩ (ih _)

/-- Drawing what the record may hold takes free values alone, and leaves the record's own facts. -/
theorem saveFree_facts (v : Save) (s : State) : OnlyFree s (saveFree v s).2 ∧ (saveFree v s).1.cause = v.cause ∧
    (saveFree v s).1.detTick = v.detTick ∧ (saveFree v s).1.lastJ = v.lastJ := by
  unfold saveFree
  dsimp only
  refine ⟨?_, rfl, rfl, rfl⟩
  refine onlyFree_trans ?_ (onlyFree_ite (bit v.valid 4) _ ⟨_, rfl⟩)
  refine onlyFree_trans ?_ (onlyFree_ite (bit v.valid 3) _ ⟨_, rfl⟩)
  refine onlyFree_trans ?_ (onlyFree_ite (bit v.valid 2) _ (onlyFree_drawn _ ([], _)))
  exact onlyFree_ite (bit v.valid 0) _ ⟨_, rfl⟩

/-- The record that is written: what holds now, with the next SSEQ (R506, R507). -/
theorem storeSave_facts (v : Save) (s : State) : ∃ a b, storeSave v s = { s with pwr := { s.pwr with slotA := a, slotB := b } } ∧
    let w := { v with sseq := match newestSave s with | some o => o.sseq + 1 | none => 1 }
    a = some w ∨ b = some w := by
  unfold storeSave
  extract_lets n w k
  split
  · exact ⟨_, _, rfl, .inr rfl⟩
  · exact ⟨_, _, rfl, .inl rfl⟩

/-- The state in which the record of a save stands in its slot. -/
def saveStored (s : State) : State := storeSave (saveFree (saveNow s) s).1 (saveFree (saveNow s) s).2

theorem saveStored_facts (s : State) : ∃ a b n v, saveStored s = { s with free := n, pwr := { s.pwr with slotA := a, slotB := b } } ∧
    (a = some v ∨ b = some v) ∧ v.cause = s.pwr.save.cause ∧ v.detTick = s.pwr.save.detTick ∧ v.lastJ = s.ctl.jnext - 1 ∧
    v.sseq = match newestSave s with | some o => o.sseq + 1 | none => 1 := by
  obtain ⟨⟨n, hn⟩, h1, h2, h3⟩ := saveFree_facts (saveNow s) s
  obtain ⟨a, b, hab, hs⟩ := storeSave_facts (saveFree (saveNow s) s).1 (saveFree (saveNow s) s).2
  unfold saveStored
  rw [hab]
  rw [hn] at hs ⊢
  exact ⟨a, b, n, _, rfl, hs, h1, h2, h3, rfl⟩

theorem saveEnd_reset {c : Nat} {s : State} (hc : s.pwr.saving = some c) (h : c ≠ 4 ∨ s.dev.resetReq = true ∨ s.dev.resetN = false) :
    exec .saveEnd s = .next (persist (saveStored s)) := by
  obtain ⟨a, b, n, v, hs, -⟩ := saveStored_facts s
  have hd : (saveStored s).dev = s.dev := by rw [hs]
  have hyes : (decide (c ≠ 4) || (saveStored s).dev.resetReq || !(saveStored s).dev.resetN) = true := by
    rw [hd]
    rcases h with h | h | h
    · rw [decide_eq_true h]; rfl
    · rw [h]; simp
    · rw [h]; simp
  rw [exec_saveEnd, execSaveEnd, hc]
  exact congrArg _ (if_pos hyes)

theorem saveEnd_stays {s : State} (hc : s.pwr.saving = some 4) (h1 : s.dev.resetReq = false) (h2 : s.dev.resetN = true) :
    exec .saveEnd s = .next { saveStored s with pwr := { (saveStored s).pwr with saving := none, save := {} } } := by
  obtain ⟨a, b, n, v, hs, -⟩ := saveStored_facts s
  have hd : (saveStored s).dev = s.dev := by rw [hs]
  have hno : ¬ (decide (4 ≠ 4) || (saveStored s).dev.resetReq || !(saveStored s).dev.resetN) = true := by
    rw [hd, h1, h2]
    decide
  rw [exec_saveEnd, execSaveEnd, hc]
  exact congrArg _ (if_neg hno)

/-- Where a save ends: the record is in its slot, and only a save in SAFE_STOP without a reset leaves the part on (R392, R505). -/
theorem saveEnd_row {c : Nat} {s : State} (hc : s.pwr.saving = some c) : ∃ t, exec .saveEnd s = .next t ∧ t.part = s.part ∧
    (∃ v, (t.pwr.slotA = some v ∨ t.pwr.slotB = some v) ∧ v.cause = s.pwr.save.cause ∧ v.detTick = s.pwr.save.detTick ∧ v.lastJ = s.ctl.jnext - 1 ∧
      v.sseq = match newestSave s with | some o => o.sseq + 1 | none => 1) ∧
    (c ≠ 4 ∨ s.dev.resetReq = true ∨ s.dev.resetN = false → t.dev.st = .off ∧ t.hbm = [] ∧ t.ctl.mirror = s.ctl.mirror ∧ t.regs = []) ∧
    (c = 4 → s.dev.resetReq = false → s.dev.resetN = true → t.dev = s.dev ∧ t.hbm = s.hbm ∧ t.pwr.saving = none) := by
  obtain ⟨a, b, n, v, hs, hv⟩ := saveStored_facts s
  by_cases h : c ≠ 4 ∨ s.dev.resetReq = true ∨ s.dev.resetN = false
  · refine ⟨_, saveEnd_reset hc h, ?_⟩
    rw [hs]
    refine ⟨rfl, ⟨v, hv⟩, fun _ => ⟨rfl, rfl, rfl, rfl⟩, fun h4 h1 h2 => ?_⟩
    rw [h1, h2] at h
    simp [h4] at h
  · simp only [not_or, ne_eq, Classical.not_not, Bool.not_eq_true, Bool.not_eq_false] at h
    obtain ⟨rfl, h1, h2⟩ := h
    refine ⟨_, saveEnd_stays hc h1 h2, ?_⟩
    rw [hs]
    refine ⟨rfl, ⟨v, hv⟩, fun h => ?_, fun _ _ _ => ⟨rfl, rfl, rfl⟩⟩
    rw [h1, h2] at h
    simp at h

/- Start-up (R511). -/

theorem powerRestart_eq (b : BootIn) {s : State} (ho : s.dev.st = .off) (hr : s.dev.resetN = true) :
    exec (.powerRestart b) s = .next (bootUp b { s with dev := { s.dev with pwrfailN := true } }) := by
  rw [exec_powerRestart, execPowerRestart, if_pos (by simp [ho, hr])]
  rfl

theorem resetRise_boots (b : BootIn) {s : State} (hr : s.dev.resetN = false) (ho : s.dev.st = .off) (hp : s.dev.pwrfailN = true) :
    exec (.resetRise b) s = .next (bootUp b { s with dev := { s.dev with resetN := true } }) := by
  rw [exec_resetRise, execResetRise, if_neg (by simp [hr])]
  exact congrArg _ (if_pos (by simp [ho, hp]))

theorem resetRise_waits (b : BootIn) {s : State} (hr : s.dev.resetN = false) (h : s.dev.st ≠ .off ∨ s.dev.pwrfailN = false) :
    exec (.resetRise b) s = .next { s with dev := { s.dev with resetN := true } } := by
  have hno : ¬ (s.dev.st == .off && s.dev.pwrfailN) = true := by
    rcases h with h | h
    · simp [h]
    · simp [h]
  rw [exec_resetRise, execResetRise, if_neg (by simp [hr])]
  exact congrArg _ (if_neg hno)

theorem resetRise_high (b : BootIn) {s : State} (hr : s.dev.resetN = true) : exec (.resetRise b) s = .next s := by
  rw [exec_resetRise, execResetRise, if_pos hr]
  rfl

theorem resetRise_row (b : BootIn) {s : State} (hr : s.dev.resetN = false) : ∃ t, exec (.resetRise b) s = .next t ∧
    (s.dev.st = .off → s.dev.pwrfailN = true → t = bootUp b { s with dev := { s.dev with resetN := true } }) ∧
    (s.dev.st ≠ .off ∨ s.dev.pwrfailN = false → t = { s with dev := { s.dev with resetN := true } }) := by
  by_cases h : s.dev.st ≠ .off ∨ s.dev.pwrfailN = false
  · refine ⟨_, resetRise_waits b hr h, fun h1 h2 => ?_, fun _ => rfl⟩
    rw [h1, h2] at h
    simp at h
  · simp only [not_or, ne_eq, Classical.not_not, Bool.not_eq_false] at h
    exact ⟨_, resetRise_boots b hr h.1 h.2, fun _ _ => rfl, fun h' => absurd h' (by simp [h.1, h.2])⟩

theorem unlessSafe_safe (f : State → State) {s : State} (h : s.dev.st = .safe) : unlessSafe f s = s := by
  rw [unlessSafe, if_pos (by simp [h])]

/-- The state in which steps 1 to 3 of start-up are made. -/
def booting (s : State) : State := { persist s with dev := { (persist s).dev with st := .boot } }

/-- Nothing follows a step of start-up that has failed (R511). -/
theorem bootUp_failed {b : BootIn} {s : State} (h : (bootLoad b (booting s)).dev.st = .safe) : bootUp b s = bootLoad b (booting s) := by
  show unlessSafe bootReady (unlessSafe startTicks (unlessSafe (bootGrid b) (unlessSafe (bootStacks b) (unlessSafe (bootCores b)
    (bootLoad b (booting s)))))) = _
  rw [unlessSafe_safe _ h, unlessSafe_safe _ h, unlessSafe_safe _ h, unlessSafe_safe _ h, unlessSafe_safe _ h]

theorem bootUp_fails {b : BootIn} {s : State} {cause : Nat} (h : bootLoad b (booting s) = bootFail cause (booting s)) :
    (bootUp b s).dev.st = .safe ∧ (bootUp b s).dev.safeCause = cause := by
  have hd : (bootFail cause (booting s)).dev.st = .safe ∧ (bootFail cause (booting s)).dev.safeCause = cause := by
    rw [bootFail, setDev, if_neg (by simp [booting])]
    exact ⟨rfl, rfl⟩
  rw [bootUp_failed (by rw [h]; exact hd.1), h]
  exact hd

theorem bootUp_otp {b : BootIn} (h : b.otpOk = false) (s : State) : (bootUp b s).dev.st = .safe ∧ (bootUp b s).dev.safeCause = 0x12 :=
  bootUp_fails (by rw [bootLoad, if_pos (by simp [h])])

theorem bootUp_loader {b : BootIn} (h1 : b.otpOk = true) (h2 : b.loaderOk = false) (s : State) :
    (bootUp b s).dev.st = .safe ∧ (bootUp b s).dev.safeCause = 0x10 :=
  bootUp_fails (by rw [bootLoad, if_neg (by simp [h1]), if_pos (by simp [h2])])

theorem bootUp_parts {b : BootIn} {s : State} (h1 : b.otpOk = true) (h2 : b.loaderOk = true)
    (h3 : ∃ t ∈ [1, 2, 3, 4, 5], choose b (persist s) t = .none_) : (bootUp b s).dev.st = .safe ∧ (bootUp b s).dev.safeCause = 0x11 := by
  obtain ⟨t, ht, hc⟩ := h3
  have hany : ([1, 2, 3, 4, 5].any fun t => choose b (booting s) t == .none_) = true :=
    List.any_eq_true.2 ⟨t, ht, by rw [show choose b (booting s) t = .none_ from hc]; rfl⟩
  exact bootUp_fails (by rw [bootLoad, if_neg (by simp [h1]), if_neg (by simp [h2]), if_pos hany])

/-- A sample of the power manager, whole (R499 to R501). -/
theorem powerSample_row {s : State} (hw : awake s = true) (m : Sample) :
    let m' := corrected' s m
    let d := thermLevels 95 100 110 (dieSensors s m') s.pwr.dieT
    let h := thermLevels 85 90 100 m'.hbm s.pwr.hbmT
    ∃ t, exec (.powerSample m) s = .next t ∧ t.pwr.temps = m' ∧ t.pwr.dieT = d ∧ t.pwr.hbmT = h ∧ t.hbm = s.hbm ∧
      (m.clockBad = false → d.trip = true → s.pwr.dieT.trip = false → s.dev.st ≠ .safe → t.dev.st = .safe ∧ t.dev.safeCause = 0x20) ∧
      (m.clockBad = false → d.trip = false → h.trip = false → t.dev = s.dev) ∧
      (m.clockBad = true → s.flt.errq = [] → s.dev.st ≠ .safe → t.dev.st = .safe ∧ t.dev.safeCause = 0x30) ∧
      (c1Mode s = false → d.cap = true → t.pwr.cap = true) ∧
      (9 ≤ s.pwr.sum.length → t.pwr.sum = [] ∧ t.pwr.avg = sumL (s.pwr.sum ++ [m'.power]) / (s.pwr.sum.length + 1)) := by
  intro m' d h
  have ho : s.dev.st ≠ .off := by
    intro hst
    rw [awake, hst] at hw
    exact absurd hw (by decide)
  have hk := sensesKept_judged m s
  have hm := metered_capped m s
  obtain ⟨l, a, b, hs⟩ := sampled_eq m s
  refine ⟨_, powerSample_eq hw m, ?_, ?_, ?_, exec_hbm (i := .powerSample m) rfl (powerSample_eq hw m), fun h1 h2 h3 h4 => judged_trips h1 h2 h3 h4 ho,
    fun h1 h2 h3 => judged_below h1 h2 h3, fun h1 h2 h3 => judged_clock h1 h2 h3 ho, fun h1 h2 => ?_, fun h1 => ?_⟩
  · rw [hk.temps, hm.temps, hs]
  · rw [hk.dieT, hm.dieT, hs]
  · rw [hk.hbmT, hm.hbmT, hs]
  · rw [hk.cap]
    exact capped_caps (by rw [hs]; exact h1) (by rw [hs]; exact h2)
  · rw [hk.sum, hk.avg, hm.sum, hm.avg]
    exact sampled_closes h1

end Machine

open Machine

/-- Settles O54, row by row. -/
theorem powerRows : Obligations.PowerRows := by
  unfold Obligations.PowerRows
  intro s
  refine ⟨pwrfail_row s, resetFall_row s, fun c hc => saveEnd_row hc, fun b => ⟨fun ho hr => ⟨_, powerRestart_eq b ho hr, rfl⟩, resetRise_row b, resetRise_high b,
    fun h => bootUp_otp h s, fun h1 h2 => bootUp_loader h1 h2 s, bootUp_parts⟩, fun hw => ⟨powerSample_row hw, capStep_rises hw, capStep_falls hw,
    fun rail mv hr h1 h2 h3 => ⟨⟨_, avsTransaction_ok hw hr h1 h2 h3, rfl, rfl, rfl⟩, _, avsTransaction_fails hw hr h1 h2 h3 _ rfl, rfl, rfl⟩,
    fun rail hr => ⟨railFault_grid hw hr, ?_, fun h4 h14 hs => railFault_other hw hr h4 h14 hs ?_⟩⟩⟩
  · rintro rfl
    exact railFault_input hw
  · intro hst
    rw [awake, hst] at hw
    exact absurd hw (by decide)

end Sys2Proof
end


section
/-!
O55: rows without an operand, of packets, events, the host link, the ladder, pause and recordings.
-/

namespace Sys2Proof
namespace Machine

/- Forwards (R381). -/

section forwards

variable {s : State} {w : Waiting} {l : List Waiting}

theorem forwardTimeout_remote (hf : s.ctl.forwards = w :: l) (hj : w.jseq = 0) : exec .fabricForwardTimeout s =
    .next (sendReply (mkReply w.opcode w.h none 11 0 []) { s with ctl := { s.ctl with forwards := l } }) := by
  rw [exec_fabricForwardTimeout, execFabricForwardTimeout, hf]
  exact congrArg _ (if_pos hj)

theorem forwardTimeout_own (hf : s.ctl.forwards = w :: l) (hj : w.jseq ≠ 0) : exec .fabricForwardTimeout s =
    .next (finish w.opcode w.h w.jseq 11 0 [] [] { s with ctl := { s.ctl with forwards := l } }) := by
  rw [exec_fabricForwardTimeout, execFabricForwardTimeout, hf]
  exact congrArg _ (if_neg hj)

end forwards

/- Changes tied to a tick (R382, R383). -/

section due

variable {s : State}

theorem namedTickApply_held (h : s.dev.st = .paused ∨ 5 ∈ s.flt.roleWait) : exec .namedTickApply s = .next s := by
  rw [exec_namedTickApply, execNamedTickApply, applyDue, if_pos (by simpa using h)]
  rfl

theorem namedTickApply_eq (hst : s.dev.st ≠ .paused) (hr : 5 ∉ s.flt.roleWait) :
    exec .namedTickApply s = .next ((dueNow s).foldl applyOne s) := by
  rw [exec_namedTickApply, execNamedTickApply, applyDue, if_neg (by simp [hst, hr])]
  rfl

theorem dueNow_none (h : ∀ w ∈ s.ctl.waiting, w.eff ≠ .none → ∀ t, w.tick = some t → nowTick s < t) : dueNow s = [] := by
  refine List.filter_eq_nil_iff.2 fun w hw => ?_
  rw [Bool.and_eq_true, bne_iff_ne, not_and]
  intro he
  split
  · next t ht => simpa using h w hw he t ht
  · decide

theorem dueNow_one {w : Waiting} {t : Nat} (hw : s.ctl.waiting = [w]) (he : w.eff ≠ .none) (ht : w.tick = some t) (hle : t ≤ nowTick s) :
    dueNow s = [w] := by
  unfold dueNow
  rw [hw]
  simp [he, ht, hle]

theorem applyOne_applies {w : Waiting} (h : stateFail s w = none) :
    applyOne s w = finishWait { w with tick := some (nowTick s) } 0 (applyEff (nowTick s) w.eff s) := by
  unfold applyOne
  rw [h]

theorem applyOne_fails {w : Waiting} {st k : Nat} (h : stateFail s w = some (st, k)) :
    applyOne s w = finishEff w.eff w.opcode w.h w.jseq st k (waitResult w st) (waitResult w st) (waitOver w.jseq s) := by
  unfold applyOne
  rw [h]

theorem namedTickApply_one {w : Waiting} {t : Nat} (hst : s.dev.st ≠ .paused) (hr : 5 ∉ s.flt.roleWait) (hw : s.ctl.waiting = [w])
    (he : w.eff ≠ .none) (ht : w.tick = some t) (hle : t ≤ nowTick s) : exec .namedTickApply s = .next (applyOne s w) := by
  rw [namedTickApply_eq hst hr, dueNow_one hw he ht hle]
  rfl

end due

end Machine

open Machine

/-- Settles O55: the rows of packets and named ticks here, each other by the equation or the settled statement of its own row. -/
theorem serviceRowsComplete : Obligations.ServiceRowsComplete := by
  unfold Obligations.ServiceRowsComplete
  intro s
  refine ⟨rfl, fun w l hf => ⟨forwardTimeout_remote hf, forwardTimeout_own hf⟩, namedTickApply_held, fun hst hr h => ?_,
    fun w t hst hr hw he ht hle => ⟨fun h => ?_, fun st k h => ?_⟩, fun ho hms hh => ?_, fun _ hr => ?_, fun ho => ⟨?_, ?_, ?_, ?_⟩,
    fun hc hs hr hp hl hrise => ?_, fun hp hst ha hn hlt => ?_, fun hst hd hc hr => ?_, fun w hw hne hle => ?_, fun t h he hd hl => ⟨?_, rfl⟩,
    fun c d hc hd => ⟨_, replayLogStop_eq hc hd, rfl, rfl, rfl, rfl⟩⟩
  · rw [namedTickApply_eq hst hr, dueNow_none h]
    rfl
  · rw [namedTickApply_one hst hr hw he ht hle, applyOne_applies h]
  · rw [namedTickApply_one hst hr hw he ht hle, applyOne_fails h]
  · obtain ⟨o, hh⟩ := Option.ne_none_iff_exists'.1 hh
    obtain ⟨t, ht, hholder, -, -, hepoch, -⟩ := controlBecomesFree.2 o s hh hms ho
    exact ⟨t, ht, hholder, hepoch⟩
  · obtain ⟨r, l, hr⟩ := List.exists_cons_of_ne_nil hr
    refine ⟨_, eventWrite_eq hr, ?_⟩
    rw [eventElse_raised, eventRing_raised, hr]
    rfl
  · obtain ⟨t, ht, h, hm, -⟩ := hotReset_next ho
    exact ⟨t, ht, hm, h.ring, h.st, h.hbm⟩
  · obtain ⟨t, ht, h, hm, -⟩ := flr_next ho
    exact ⟨t, ht, hm, h.ring, h.st, h.hbm⟩
  · obtain ⟨t, ht, h, -, hd, hu⟩ := linkDown_next ho
    exact ⟨t, ht, hu, hd, h.hbm⟩
  · obtain ⟨t, ht, h, hm⟩ := d3hotEntry_next ho
    exact ⟨t, ht, hm, h.ring, h.st, h.hbm⟩
  · obtain ⟨t, ht, hlevel, -, -, hcnt, -⟩ := (ladderMoves s hc hs hr).1 hp hl hrise
    exact ⟨t, ht, hlevel, hcnt⟩
  · exact ((pauseDrainSwap s).1 hp hst ha hn).1 hlt
  · obtain ⟨-, -, hdrain, -⟩ := pauseDrainSwap s
    obtain ⟨t, ht, h1, h2, -⟩ := hdrain hst hd hc hr
    exact ⟨t, ht, h1, h2⟩
  · obtain ⟨-, -, -, -, hswap⟩ := pauseDrainSwap s
    exact (hswap w hw hne).2 hle
  · rw [streamRelease_eq h he hd, if_neg (by simp [hl])]

end Sys2Proof
end


section
/-!
O56: rows without an operand, of the fabric, time, repairs, updates and power; SAFE_STOP and the recording commands.
-/

namespace Sys2Proof

open Machine

/-- Settles O56: each row by the settled statement of its own family. -/
theorem unitRowsComplete : Obligations.UnitRowsComplete := by
  unfold Obligations.UnitRowsComplete
  intro s
  refine ⟨fun prio hops ho hd hb hp hm => discQuiet_master ho hd hb hp hm, fun p ho hp hmem hm hd => ?_, fun ho => heartbeatSend_row ho,
    fun ho hs => ?_, fun ho hlo hhi hh => ?_, fun _ => rfl, rfl, fun m e hm hs he => ?_, fun q sb a => quadTakeover_eq,
    fun ho hr => (lossesAndTests s ho).2.1 hr, fun ho _ => updateIdle_eq ho, rfl, fun hw hc hcap hl => ?_, ?_, ?_, fun hsav => ?_, fun h hb =>
    ⟨fun cause hbc hacc h1 h2 => ?_, fun area size endTick freeze hacc hrep hmin hmax hareas hring hfab hlanes => ?_,
      fun area recorded quiet imgs r hacc hfind hok hw => ?_, fun e area addr r hacc hfind he hsrc hcur hpark hs => ?_,
      fun e size r hacc h1 h2 hring hareas hslots hdepth hcur hpark hs => ?_⟩⟩
  · obtain ⟨t, q, ht, hmaster, -, -, hlost⟩ := masterLoss_row ho hp hmem hm hd
    exact ⟨t, ht, hmaster, hlost⟩
  · obtain ⟨t, ht, hh, -⟩ := (disciplinesSteer s ho).2.2.2.2.2.1 hs
    exact ⟨t, ht, hh, exec_hbm (i := .fabricTimeLoss) rfl ht⟩
  · refine ⟨_, timeHoldover_eq ho hlo hhi, ?_⟩
    rw [loseSource_eq hh]
    exact ⟨rfl, rfl, rfl, rfl⟩
  · rw [remapSwitch_eq hm hs, if_pos he]
  · obtain ⟨t, ht, hstep, -, -, hlow⟩ := capStep_rises hw hc hcap hl
    exact ⟨t, ht, hstep, hlow⟩
  · obtain ⟨t, ht, hdev, hhbm, -⟩ := pwrfail_row s
    exact ⟨t, ht, hdev, hhbm⟩
  · obtain ⟨t, ht, hdev, hhbm, -⟩ := resetFall_row s
    exact ⟨t, ht, hdev, hhbm⟩
  · obtain ⟨c, hc⟩ := Option.ne_none_iff_exists'.1 hsav
    obtain ⟨t, ht, hpart, ⟨v, hv, hcause, -, hlast, -⟩, -⟩ := saveEnd_row hc
    exact ⟨t, v, ht, hpart, hv, hcause, hlast⟩
  · obtain ⟨t, ht, -, hdev, -, hwait, hcomb, -, -, -, -, hregs, hhbm, -⟩ := (safeStopEntered h cause s hacc hbc).2 h1 h2
    exact ⟨t, ht, by rw [hdev], by rw [hdev], hcomb, hwait, hhbm, hregs⟩
  · obtain ⟨t, ht, htr, hj, -⟩ := (recordingCommands h s hb).1 area size endTick freeze false hacc hrep hmin hmax hareas hring hlanes
      (by simp [hfab]) (by simp)
    exact ⟨t, ht, htr, hj⟩
  · obtain ⟨t, ht, htr, hj, -⟩ := (recordingCommands h s hb).2.1 area recorded quiet imgs r hacc hfind hok
    rw [hw] at htr
    exact ⟨t, ht, htr, hj⟩
  · obtain ⟨-, -, hexport, -⟩ := recordingCommands h s hb
    obtain ⟨t, ht, htr, hj, -⟩ := hexport e area addr r hacc hfind he hsrc hcur hpark hs
    exact ⟨t, ht, htr, hj⟩
  · obtain ⟨-, -, -, himport⟩ := recordingCommands h s hb
    obtain ⟨t, ht, -, hrec, hhbm, -⟩ := himport e size r hacc h1 h2 hring hareas hslots hdepth hcur hpark hs
    exact ⟨t, ht, hrec, hhbm⟩

end Sys2Proof
end
